-- ==== Sys2Proof/Word.lean ====
section
/-! DEFINITION. The words of the device (R9) and the ordinals of its units (R16). -/

namespace Sys2Proof

abbrev Byte := BitVec 8
abbrev U16 := BitVec 16
abbrev U32 := BitVec 32
abbrev U64 := BitVec 64
/-- The width of every event counter of the device. -/
abbrev U48 := BitVec 48

/-- PCIe functions: 0 is PF0, n is VFn (R16). -/
abbrev FnId := Fin 16
abbrev CtxId := Fin 32
abbrev LinkId := Fin 16
abbrev QuarterId := Fin 4
abbrev StackId := Fin 8
abbrev BenchId := Fin 512
abbrev BarId := Fin 64
abbrev SemId := Fin 1024
/-- One of the 16 group slots of a context (R425). -/
abbrev SlotId := Fin 16
/-- One of the 16 Glue-up engines, or one of the 16 copy engines (R388). -/
abbrev EngineId := Fin 16

/-- A requester of the control space (R458): a function, or the management bus. -/
inductive Requester where
  | fn (f : FnId)
  | bus
  deriving DecidableEq, Repr

/-- A read access of the control space (R457): its requester and its bytes. -/
structure ReadAccess where
  req : Requester
  size : Nat
  deriving DecidableEq, Repr

/-- The input pins as a rising edge of PGOOD meets them (R420, R443, R444): the slot straps, and FORCE_OFF_N low. -/
structure EdgePins where
  straps : BitVec 3
  forceLow : Bool
  deriving DecidableEq, Repr

end Sys2Proof
end

