-- ==== Sys2Proof/Syntax.lean ====
section
/-! DEFINITION. The commands of the OT512W: one constructor per row of spec/opcode_table.json, with the row's operands. -/

namespace Sys2Proof

/-- Which words of a 64-bit register an access covers (R458). -/
inductive WordSel where
  | lo | hi | both
  deriving DecidableEq, Repr

/-- Logical coordinates of a tile in a tensor's tile grid (R205). -/
structure TileXY where
  tr : Nat
  tc : Nat
  x2 : Nat
  x3 : Nat
  deriving DecidableEq, Repr

/-- The operand fields of one VECTOR_CODE record (R193), its opcode apart. -/
structure VecRec where
  mm : BitVec 2
  qp : BitVec 3
  vd : BitVec 5
  va : BitVec 5
  vb : BitVec 5
  aux : BitVec 4
  imm : U32
  deriving DecidableEq, Repr

/-- The live fields of R64. -/
inductive LiveField where
  | predThresh | shadowShare | satThresh | policyW (i : Fin 4) | cutWeights
  deriving DecidableEq, Repr

/-- The collective header of R262, its PKT_TYPE apart. -/
structure CollHdr where
  coll : Byte
  subject : Byte
  format : Byte
  srcRank : U16
  size : U16
  step : U64
  generation : U32
  groupId : U32
  tensorId : U32
  firstBlock : U32
  blocks : U16
  width : Byte
  recForm : Byte
  seq : U32
  hash64 : U64
  contrib : U16
  deriving DecidableEq, Repr

/-- A scale record (R266): PRESENT, STATE and EXP; `none` is the empty exponent 0x2000. -/
structure ScaleRec where
  present : U32
  state : BitVec 2
  exp : Option Int
  deriving DecidableEq, Repr

/-- A sync packet (R347). -/
structure SyncPkt where
  rel : Bool
  srcRank : U16
  dstRank : U16
  sem : U16
  groupId : U32
  value : U16
  tag : U16
  wseq : U32
  epoch : U32
  deriving DecidableEq, Repr

/-- The remote-write header (R376), its TYPE apart. -/
structure RemoteHdr where
  relHdr : Bool
  srcRank : U16
  dstRank : U16
  groupId : U32
  wseq : U32
  dstAddr : U64
  deriving DecidableEq, Repr

/-- A compatibility token (R426). -/
structure Token where
  srcRank : U16
  dstRank : U16
  size : U16
  groupId : U32
  arithRev : U16
  fwVersion : U32
  generation : U32
  memberDigest : U64
  carcassHash : List Byte
  deviceUid : U64
  deriving DecidableEq, Repr

/-- A unit that an engine reset or the unit watchdog names (R388, R396). -/
inductive UnitRef where
  | bench (b : BenchId)
  | glueUp (e : EngineId)
  | copyEngine (e : EngineId)
  deriving DecidableEq, Repr

/-- A reset domain with its instance (R388). -/
inductive ResetTarget where
  | context (c : CtxId)
  | engine (u : UnitRef)
  | partition (q : QuarterId)
  | chip
  deriving DecidableEq, Repr

/-- The subject of a context watchdog (R394). -/
inductive WdtSubject where
  | station (id : Nat)
  | descriptor (idx : Nat)
  | collective (groupId : U32)
  | digest
  | barrier (k : BarId)
  deriving DecidableEq, Repr

/-- The answer of a host IOMMU to a translation request (R369, R370). -/
structure AtsCompletion where
  hostPage : U64
  target : U64
  canRead : Bool
  canWrite : Bool
  deriving DecidableEq, Repr

/-- The commands. A first operand `fn` is the function that makes the access; `c` the context; `st` a station
identifier (R47); `l` a link. -/
inductive Instr where
  /-- R31: a write of CTX_RUN with a STEPS part. -/
  | runSteps (fn : FnId) (c : CtxId) (steps : BitVec 24) (stop : Bool)
  /-- R31: a write of CTX_RUN with STOP alone. -/
  | runStop (fn : FnId) (c : CtxId)
  /-- R28, R463: a write of one word or of both words of CTX_STEP. -/
  | ctxStepWrite (fn : FnId) (c : CtxId) (sel : WordSel) (value : U64)
  /-- R23 steps 1 to 3. -/
  | closeStep (c : CtxId)
  /-- R23 steps 4 and 5. -/
  | sealStep (c : CtxId)
  /-- R23 steps 6 and 7, R59. -/
  | generationSwitch (c : CtxId)
  /-- R55. -/
  | load (fn : FnId) (c : CtxId)
  /-- R52, R56. -/
  | loadDone (c : CtxId)
  /-- R55. -/
  | carcassDiscard (fn : FnId) (c : CtxId)
  /-- R57. -/
  | activate (fn : FnId) (c : CtxId)
  /-- R61. -/
  | agCommit (fn : FnId) (c : CtxId) (groups : BitVec 6)
  /-- R62. -/
  | agVisible (c : CtxId) (group : Fin 6)
  /-- R64, R65. -/
  | liveFieldWrite (fn : FnId) (c : CtxId) (field : LiveField) (value : U32)
  /-- R13, R457 to R460: a write of `size` bytes at BAR0 offset `off`; offsets from 0x400000 are those of BAR2 (log entry 68). -/
  | registerWrite (fn : FnId) (off : Nat) (size : Nat) (value : U64)
  /-- R457, R458: a read at BAR0 offset `off`. -/
  | readLowWord (access : ReadAccess) (off : Nat)
  /-- R209. -/
  | fetchTile (c : CtxId) (st : Nat)
  /-- R87. -/
  | convertTile (c : CtxId) (st : Nat)
  /-- R134. -/
  | spreadTile (c : CtxId) (st : Nat)
  /-- R117: the pass of reduction block `blk` of output tile `out`. -/
  | matmulPass (c : CtxId) (st : Nat) (out : TileXY) (blk : Nat)
  /-- R122: loads stationary tile `tile` into the idle registers. -/
  | stationaryTileLoad (c : CtxId) (st : Nat) (tile : TileXY)
  /-- R106. -/
  | accumSegment (c : CtxId) (st : Nat)
  /-- R108. -/
  | chainJoin (c : CtxId) (st : Nat) (out : TileXY)
  /-- R188. -/
  | vectorTileSet (c : CtxId) (st : Nat)
  /-- R188: the final section of the sweep with output 1 coordinates `out`. -/
  | sweepFinal (c : CtxId) (st : Nat) (out : TileXY)
  /-- R187: takes a tile from mode 1 port `port` (1 or 2). -/
  | mode1Tile (c : CtxId) (st : Nat) (port : Fin 3)
  | vNop (c : CtxId) (st : Nat) (j : Fin 16) (r : VecRec)
  | vld (c : CtxId) (st : Nat) (j : Fin 16) (r : VecRec)
  | vst (c : CtxId) (st : Nat) (j : Fin 16) (r : VecRec)
  | vmovi (c : CtxId) (st : Nat) (j : Fin 16) (r : VecRec)
  | vidx (c : CtxId) (st : Nat) (j : Fin 16) (r : VecRec)
  | vsel (c : CtxId) (st : Nat) (j : Fin 16) (r : VecRec)
  | vperm (c : CtxId) (st : Nat) (j : Fin 16) (r : VecRec)
  | fadd (c : CtxId) (st : Nat) (j : Fin 16) (r : VecRec)
  | fsub (c : CtxId) (st : Nat) (j : Fin 16) (r : VecRec)
  | fmul (c : CtxId) (st : Nat) (j : Fin 16) (r : VecRec)
  | ffma (c : CtxId) (st : Nat) (j : Fin 16) (r : VecRec)
  | fmax (c : CtxId) (st : Nat) (j : Fin 16) (r : VecRec)
  | fmin (c : CtxId) (st : Nat) (j : Fin 16) (r : VecRec)
  | fabs (c : CtxId) (st : Nat) (j : Fin 16) (r : VecRec)
  | fneg (c : CtxId) (st : Nat) (j : Fin 16) (r : VecRec)
  | fcmp (c : CtxId) (st : Nat) (j : Fin 16) (r : VecRec)
  | fdiv (c : CtxId) (st : Nat) (j : Fin 16) (r : VecRec)
  | fsqrt (c : CtxId) (st : Nat) (j : Fin 16) (r : VecRec)
  | frsqrt (c : CtxId) (st : Nat) (j : Fin 16) (r : VecRec)
  | fexp2 (c : CtxId) (st : Nat) (j : Fin 16) (r : VecRec)
  | flog2 (c : CtxId) (st : Nat) (j : Fin 16) (r : VecRec)
  | ftoi (c : CtxId) (st : Nat) (j : Fin 16) (r : VecRec)
  | itof (c : CtxId) (st : Nat) (j : Fin 16) (r : VecRec)
  | iadd (c : CtxId) (st : Nat) (j : Fin 16) (r : VecRec)
  | isub (c : CtxId) (st : Nat) (j : Fin 16) (r : VecRec)
  | imul (c : CtxId) (st : Nat) (j : Fin 16) (r : VecRec)
  | iand (c : CtxId) (st : Nat) (j : Fin 16) (r : VecRec)
  | ior (c : CtxId) (st : Nat) (j : Fin 16) (r : VecRec)
  | ixor (c : CtxId) (st : Nat) (j : Fin 16) (r : VecRec)
  | ishl (c : CtxId) (st : Nat) (j : Fin 16) (r : VecRec)
  | ishr (c : CtxId) (st : Nat) (j : Fin 16) (r : VecRec)
  | imax (c : CtxId) (st : Nat) (j : Fin 16) (r : VecRec)
  | imin (c : CtxId) (st : Nat) (j : Fin 16) (r : VecRec)
  | icmp (c : CtxId) (st : Nat) (j : Fin 16) (r : VecRec)
  | xclr (c : CtxId) (st : Nat) (j : Fin 16) (r : VecRec)
  | xacc (c : CtxId) (st : Nat) (j : Fin 16) (r : VecRec)
  | xacci (c : CtxId) (st : Nat) (j : Fin 16) (r : VecRec)
  | xsum (c : CtxId) (st : Nat) (j : Fin 16) (r : VecRec)
  | xrnd (c : CtxId) (st : Nat) (j : Fin 16) (r : VecRec)
  | frmax (c : CtxId) (st : Nat) (j : Fin 16) (r : VecRec)
  | frmin (c : CtxId) (st : Nat) (j : Fin 16) (r : VecRec)
  | vscan (c : CtxId) (st : Nat) (j : Fin 16) (r : VecRec)
  | iscan (c : CtxId) (st : Nat) (j : Fin 16) (r : VecRec)
  | qand (c : CtxId) (st : Nat) (j : Fin 16) (r : VecRec)
  | qor (c : CtxId) (st : Nat) (j : Fin 16) (r : VecRec)
  | qnot (c : CtxId) (st : Nat) (j : Fin 16) (r : VecRec)
  | qset (c : CtxId) (st : Nat) (j : Fin 16) (r : VecRec)
  | vend (c : CtxId) (st : Nat) (j : Fin 16) (r : VecRec)
  /-- R213, R220. -/
  | storeTile (c : CtxId) (st : Nat)
  /-- R172 to R176. -/
  | scribePredict (c : CtxId) (st : Nat)
  /-- R165. -/
  | regrowthScan (c : CtxId) (st : Nat)
  /-- R166 to R170: the edit of unit `u` of the station's mask. -/
  | pruneUnit (c : CtxId) (st : Nat) (u : Nat)
  /-- R161. -/
  | transposeMeta (c : CtxId) (st : Nat)
  /-- R263, R265, R268. -/
  | reduceInputTile (c : CtxId) (st : Nat)
  /-- R263: repeats the JOIN of the station's instance to the partner of rank `rank`. -/
  | joinRepeat (c : CtxId) (st : Nat) (rank : Nat)
  /-- R263: packets received on link `l` for the local rank `dst`. -/
  | join (l : LinkId) (dst : U16) (h : CollHdr)
  | accept (l : LinkId) (dst : U16) (h : CollHdr)
  | scale (l : LinkId) (dst : U16) (h : CollHdr) (recs : List ScaleRec)
  | data (l : LinkId) (dst : U16) (h : CollHdr) (sums : List Int)
  | gather (l : LinkId) (dst : U16) (h : CollHdr) (bytes : List Byte)
  | pause (l : LinkId) (dst : U16) (h : CollHdr)
  | resume (l : LinkId) (dst : U16) (h : CollHdr)
  | digest (l : LinkId) (dst : U16) (h : CollHdr) (shardDigest : U64) (attempt : U16)
  /-- R291: record block `b` of the station's tensor. -/
  | updateBlock (c : CtxId) (st : Nat) (b : Nat)
  | release (fn : FnId) (c : CtxId)
  | discard (fn : FnId) (c : CtxId)
  | witReplay (fn : FnId) (c : CtxId) (value : U64)
  /-- R333: the 32-byte word `w` of stack `k`. -/
  | scrubRead (k : StackId) (w : Nat)
  | stationMigrate (c : CtxId) (st : Nat) (b : BenchId)
  | benchGate (b : BenchId)
  | semSignal (fn : FnId) (c : CtxId) (sem : SemId) (v : U16) (rel : Bool)
  | semDec (fn : FnId) (c : CtxId) (sem : SemId) (v : U16)
  | semWaitArm (fn : FnId) (c : CtxId) (sem : SemId) (v : U16) (tag : U16)
  | syncSignal (l : LinkId) (p : SyncPkt)
  | heldSignalApply (c : CtxId) (i : Nat)
  | arrive (l : LinkId) (p : SyncPkt)
  | barArrive (fn : FnId) (c : CtxId) (k : BarId) (slot : BenchId) (epoch : U32) (notify : Option SemId)
  | barrierEnable (fn : FnId) (k : BarId) (scope : Bool) (owner : CtxId) (tag : U16)
  | barrierDisable (fn : FnId) (k : BarId)
  | mmuInval (fn : FnId) (c : CtxId) (page : BitVec 48) (scope : BitVec 2)
  | faultRetry (fn : FnId) (c : CtxId) (id : U16)
  | faultAbort (fn : FnId) (c : CtxId) (id : U16)
  | atsInvalidate (fn : FnId) (hostPage : U64)
  | priSuccess (c : CtxId) (hostPage : U64)
  | priInvalidRequest (c : CtxId) (hostPage : U64)
  | priResponseFailure (fn : FnId) (pasid : BitVec 20)
  | dmaTail (fn : FnId) (c : CtxId) (index : U16)
  /-- R372 to R376: the descriptor at ring index `i` of the context. -/
  | copy (c : CtxId) (i : Nat)
  | patternCopy (c : CtxId) (i : Nat)
  | remote (c : CtxId) (i : Nat)
  | syncDesc (c : CtxId) (i : Nat)
  | checkpoint (c : CtxId) (i : Nat)
  | buddyRead (c : CtxId) (i : Nat)
  | remoteWrite (l : LinkId) (h : RemoteHdr) (bytes : List Byte)
  | buddyWrite (l : LinkId) (h : RemoteHdr) (bytes : List Byte)
  /-- R376: the acknowledgement by device `uid` of write `wseq` of context `c`. -/
  | remoteAck (l : LinkId) (uid : U64) (c : CtxId) (wseq : U32)
  | save (fn : FnId) (c : CtxId)
  | preemptComplete (c : CtxId)
  | restore (fn : FnId) (c : CtxId)
  | ctxReset (fn : FnId) (c : CtxId)
  | rstContext (fn : FnId) (index : U16)
  | rstEngine (fn : FnId) (kind : BitVec 2) (index : U16)
  | rstPartition (fn : FnId) (index : U16)
  | rstChip (fn : FnId)
  | powerCycleRequest (fn : FnId)
  | fenceDrainTimeout (t : ResetTarget)
  | resetComplete (t : ResetTarget)
  | resetTimeout (t : ResetTarget)
  | watchdogExpire (c : CtxId) (cls : Fin 4) (subject : WdtSubject)
  | unitWatchdog (u : UnitRef)
  | flr (fn : FnId)
  | fundamentalReset
  /-- R256: the 280 bytes of a received data flit. -/
  | dataFlit (l : LinkId) (bytes : List Byte)
  | idleFlit (l : LinkId) (bytes : List Byte)
  | linkNoFlitTimeout (l : LinkId)
  | lnkRetrain (fn : FnId) (l : LinkId)
  | lnkDisable (fn : FnId) (l : LinkId)
  | farEndDetect (l : LinkId)
  | trainingComplete (l : LinkId)
  | trainingFailed (l : LinkId)
  | ident (l : LinkId) (uid : U64) (slot : BitVec 3) (peerLink : BitVec 4)
  | distanceAdvert
  | distancePacket (l : LinkId) (entries : List (U64 × Nat))
  | form (fn : FnId) (c : CtxId) (g : SlotId)
  | dissolve (fn : FnId) (c : CtxId) (g : SlotId)
  | tokenRepeat (c : CtxId) (g : SlotId) (rank : Nat)
  | compatibilityToken (l : LinkId) (t : Token)
  | glbCtxAssign (fn : FnId) (c : CtxId) (valid : Bool) (func : FnId) (qmask : BitVec 4)
  | eventRingEnable (fn : FnId) (irq : Bool) (log2 : BitVec 5) (mod : U16)
  | evtHeadWrite (fn : FnId) (index : U32)
  | msixModerationEnd (fn : FnId)
  | entdaa (da : BitVec 7)
  | rstdaa
  | disec
  | hotJoin
  | privateWrite (off : BitVec 24) (data : List Byte)
  | privateRead (eight : Bool)
  | attestFirmware (fn : FnId) (c : CtxId)
  | attestSeal (fn : FnId) (c : CtxId)
  | reportDone (c : CtxId)
  | secSvnCommit (fn : FnId)
  | secCertVa (fn : FnId) (value : U64)
  | debugToken (fn : FnId) (value : U64)
  | debugNonceRead (req : Requester)
  | pgoodRise (pins : EdgePins)
  | refclkValid
  | perstDeassert
  | pgoodFall
  /-- R444: FORCE_OFF_N goes low. -/
  | forceOff
  /-- R442: the input stands at `mv` millivolts for `us` microseconds, drawing `ca` units of 10 mA. -/
  | supplyOutOfBand (mv : Nat) (us : Nat) (ca : U16)
  | powerCycle
  /-- R450: the readings of the 40 sensors in units of 1/16 degree and of the input over one period. -/
  | controlPeriod (temps : List Int) (mv : U16) (ca : U16) (dw : U16)
  | benchRetireClear (fn : FnId) (n : Fin 16) (mask : U32)
  | linkRetireClear (fn : FnId) (mask : U32)
  | accClearVanish (fn : FnId) (c : CtxId)
  | accClearTrunc (fn : FnId) (c : CtxId)
  | accClearWrap (fn : FnId) (c : CtxId)
  | scrMetaClearDrop (fn : FnId) (c : CtxId)
  | scrMetaClearErr (fn : FnId) (c : CtxId)
  | scrCountClear (fn : FnId) (c : CtxId) (bits : BitVec 8)
  | ctxTagClear (fn : FnId) (c : CtxId)
  | gauClearClass (fn : FnId) (c : CtxId)
  | gauClearSat (fn : FnId) (c : CtxId)
  | cutClear (fn : FnId) (c : CtxId)
  | lnkClearCrc (fn : FnId) (bits : U16)
  | lnkClearReplay (fn : FnId) (bits : U16)
  | gluClearRefuse (fn : FnId) (c : CtxId)
  | gluClearVanish (fn : FnId) (c : CtxId)
  | gluUpdClear (fn : FnId) (c : CtxId)
  | glbIntegClear (fn : FnId) (bits : BitVec 4)
  | glbIntegClearRfail (fn : FnId)
  | ctxIntegClear (fn : FnId) (c : CtxId) (bits : BitVec 3)
  | barClear (fn : FnId)
  | dmaStrayClear (fn : FnId)
  | gluGroupClear (fn : FnId) (c : CtxId)
  | violClearCount (fn : FnId) (c : CtxId)
  | violClearLast (fn : FnId) (c : CtxId)
  | violGlbClearCount (fn : FnId)
  | violGlbClearLast (fn : FnId)
  /-- R254: one flit slot of the link's transmit direction; `vc` is the choice among VC1 to VC3 that R259 leaves to the engine. -/
  | flitSlot (l : LinkId) (vc : Fin 4)
  | atsTranslationCompletion (c : CtxId) (t : AtsCompletion)
  | referenceLost
  | alwaysOnStart
  | vfEnableWrite (enable : Bool) (numVfs : Fin 16)
  deriving DecidableEq, Repr

end Sys2Proof
end

