-- ==== Sys2Proof/Decode.lean ====
section
/-! DEFINITION. The command a word spells. The opcode table gives no row any bits (the commands are accesses, packets,
pins and steps of the machine's own, not words), so no word spells a command. -/

namespace Sys2Proof

/-- No row of the opcode table has bits (log entry 6). -/
def decodeTableWord (_nbits _w : Nat) : Option Instr := none

end Sys2Proof
end

