-- ==== Sys2Proof/Machine/Bits.lean ====
section
/-! DEFINITION. Bit fields, byte order (R9), wrapping and saturation (R15, R17), residues (R325), CRC-64 (R255), SHA-256 and
Philox (R91). -/

namespace Sys2Proof.Machine

open Sys2Proof

/-- Bits [hi:lo] of `v`. -/
def fieldOf (v hi lo : Nat) : Nat := (v >>> lo) % 2 ^ (hi + 1 - lo)

def bitOf (v i : Nat) : Bool := v.testBit i

/-- `n` bytes of `v`, little-endian (R9). -/
def leBytes : Nat → Nat → List Byte
  | 0, _ => []
  | n + 1, v => BitVec.ofNat 8 v :: leBytes n (v / 256)

def leNat : List Byte → Nat
  | [] => 0
  | b :: bs => b.toNat + 256 * leNat bs

/-- The little-endian field of `n` bytes at offset `off`. -/
def natAt (bs : List Byte) (off n : Nat) : Nat := leNat ((bs.drop off).take n)

/-- The two's-complement reading of the low `w` bits (R17). -/
def signedOf (w v : Nat) : Int :=
  if v % 2 ^ w < 2 ^ (w - 1) then (v % 2 ^ w : Nat) else (v % 2 ^ w : Nat) - (2 ^ w : Nat)

/-- The low `w` bits of an integer (R17). -/
def lowBits (w : Nat) (v : Int) : Nat := (v % (2 ^ w : Nat)).toNat

/-- Assignment to an s`w` variable (R17). -/
def wrapS (w : Nat) (v : Int) : Int := signedOf w (lowBits w v)

/-- The number of bits of `n`; 0 for 0. -/
def bitLen (n : Nat) : Nat := if n = 0 then 0 else Nat.log2 n + 1

/-- `⌈a / b⌉` for `b > 0`. -/
def ceilDiv (a b : Nat) : Nat := (a + b - 1) / b

def b2n (b : Bool) : Nat := if b then 1 else 0

/-- A counter of `w` bits counts `n` events and saturates at all ones (R15). -/
def satAdd {w : Nat} (c : BitVec w) (n : Nat) : BitVec w := BitVec.ofNat w (min (c.toNat + n) (2 ^ w - 1))

/-- Bits `[lo + k - 1 : lo]` set from a list of `k`-bit values, element 0 lowest. -/
def packBits (k : Nat) : List Nat → Nat
  | [] => 0
  | v :: vs => v % 2 ^ k + 2 ^ k * packBits k vs

def boolsToNat (l : List Bool) : Nat := packBits 1 (l.map b2n)

/-- Replaces the bytes of `l` from `off` by `new`. -/
def spliceBytes (l : List Byte) (off : Nat) (new : List Byte) : List Byte :=
  l.take off ++ new ++ l.drop (off + new.length)

def zeroBytes (n : Nat) : List Byte := List.replicate n 0

/-- Lower-case text as bytes. -/
def asciiBytes (t : String) : List Byte := t.toList.map (fun c => BitVec.ofNat 8 c.toNat)

/-! ## The residue code (R325) -/

/-- The residue modulo 127, a floor modulo. -/
def res127 (x : Int) : Nat := (x % 127).toNat

/-- The residue of x × 2^d from that of x. -/
def resShift (r d : Nat) : Nat := r * 2 ^ (d % 7) % 127

/-- The residue of a product and of a sum from those of their parts. -/
def resMul (a b : Nat) : Nat := a * b % 127
def resAdd (a b : Nat) : Nat := (a + b) % 127

/-! ## Lists with a default -/

def nth {α : Type} (l : List α) (i : Nat) (d : α) : α := l.getD i d

def sumInt (l : List Int) : Int := l.foldl (· + ·) 0

def sumNat (l : List Nat) : Nat := l.foldl (· + ·) 0

/-- Puts an entry under a key, replacing the one that stands there. -/
def assocPut {α β : Type} [DecidableEq α] (k : α) (v : β) (l : List (α × β)) : List (α × β) :=
  (k, v) :: l.filter (fun p => decide (p.1 ≠ k))

def assocGet {α β : Type} [DecidableEq α] (k : α) (l : List (α × β)) : Option β :=
  (l.find? (fun p => decide (p.1 = k))).map (·.2)

/-! ## CRC-64 of R255 -/

def crcPoly : U64 := 0x42F0E1EBA9EA3693

def crcBit (c : U64) : U64 := if c.msb then (c <<< 1) ^^^ crcPoly else c <<< 1

def crcBits : Nat → U64 → U64
  | 0, c => c
  | n + 1, c => crcBits n (crcBit c)

def crcByte (c : U64) (b : Byte) : U64 := crcBits 8 (c ^^^ (b.zeroExtend 64 <<< 56))

/-- ECMA-182 polynomial, initial value 0, no reflection, no final XOR (R255). -/
def crc64 (bs : List Byte) : U64 := bs.foldl crcByte 0

/-! ## SHA-256 (FIPS 180-4; R43, R311, R432) -/

/-- The largest `r` below 2^n more than the `r` given whose power `k` does not exceed `v`, found bit by bit. -/
def rootUpTo (k v : Nat) : Nat → Nat → Nat
  | 0, r => r
  | n + 1, r => rootUpTo k v n (if (r + 2 ^ n) ^ k ≤ v then r + 2 ^ n else r)

/-- The first 32 bits of the fraction of the root `k` of `p`. -/
def rootFraction (k p : Nat) : U32 := BitVec.ofNat 32 (rootUpTo k (p * 2 ^ (32 * k)) 36 0)

/-- The primes below 312, which are the first 64. -/
def smallPrimes : List Nat := (List.range 312).filter (fun p => decide (1 < p) && (List.range 18).all (fun d => d < 2 || d == p || p % d != 0))

/-- The round constants: fractions of the cube roots of the first 64 primes. -/
def shaConstants : List U32 := smallPrimes.map (rootFraction 3)

/-- The initial hash: fractions of the square roots of the first 8 primes. -/
def shaInitial : List U32 := (smallPrimes.take 8).map (rootFraction 2)

/-- A list of bytes as big-endian words. -/
def wordsBe : Nat → List Byte → List U32
  | 0, _ => []
  | n + 1, bs => BitVec.ofNat 32 (leNat (bs.take 4).reverse) :: wordsBe n (bs.drop 4)

/-- XOR of three rotations. -/
def mixRot (w : U32) (i j k : Nat) : U32 := w.rotateRight i ^^^ (w.rotateRight j ^^^ w.rotateRight k)

/-- The word that follows a window of 16 schedule words, oldest first. -/
def shaNextWord (w : List U32) : U32 :=
  let u := nth w 1 0
  let v := nth w 14 0
  nth w 0 0 + nth w 9 0 + (u.rotateRight 7 ^^^ u.rotateRight 18 ^^^ (u >>> 3)) + (v.rotateRight 17 ^^^ v.rotateRight 19 ^^^ (v >>> 10))

/-- One round on the eight working words; `kw` is the round's constant plus its schedule word. -/
def shaTurn (kw : U32) (v : List U32) : List U32 :=
  let x (i : Nat) : U32 := nth v i 0
  let up := kw + x 7 + mixRot (x 4) 6 11 25 + (x 6 ^^^ (x 4 &&& (x 5 ^^^ x 6)))
  let top := up + mixRot (x 0) 2 13 22 + ((x 0 &&& (x 1 ||| x 2)) ||| (x 1 &&& x 2))
  top :: v.take 3 ++ (x 3 + up) :: (v.drop 4).take 3

/-- The rounds over the constants that remain, with the schedule as a sliding window. -/
def shaTurns : List U32 → List U32 → List U32 → List U32
  | [], _, v => v
  | k :: ks, w, v => shaTurns ks (w.drop 1 ++ [shaNextWord w]) (shaTurn (k + nth w 0 0) v)

/-- Folds `n` blocks of 64 bytes into a hash. -/
def shaAbsorb (ks : List U32) : Nat → List Byte → List U32 → List U32
  | 0, _, h => h
  | n + 1, bs, h => shaAbsorb ks n (bs.drop 64) ((h.zip (shaTurns ks (wordsBe 16 bs) h)).map (fun p => p.1 + p.2))

/-- The message with a one bit, zeros, and its length in bits at the end of the last block. -/
def shaPadded (bs : List Byte) : List Byte :=
  bs ++ 0x80 :: zeroBytes ((119 - bs.length % 64) % 64) ++ (leBytes 8 (8 * bs.length)).reverse

def sha256 (bs : List Byte) : List Byte :=
  let p := shaPadded bs
  (shaAbsorb shaConstants (p.length / 64) p shaInitial).flatMap (fun w => (leBytes 4 w.toNat).reverse)

/-! ## Philox-4x32-10 (R91) -/

structure PhiloxCtr where
  c0 : U32
  c1 : U32
  c2 : U32
  c3 : U32
  deriving DecidableEq, Repr

def philoxRound (c : PhiloxCtr) (k0 k1 : U32) : PhiloxCtr :=
  let a : U64 := 0xD2511F53 * c.c0.zeroExtend 64
  let b : U64 := 0xCD9E8D57 * c.c2.zeroExtend 64
  ⟨(b >>> 32).truncate 32 ^^^ c.c1 ^^^ k0, b.truncate 32, (a >>> 32).truncate 32 ^^^ c.c3 ^^^ k1, a.truncate 32⟩

def philoxFrom : Nat → PhiloxCtr → U32 → U32 → PhiloxCtr
  | 0, c, _, _ => c
  | n + 1, c, k0, k1 => philoxFrom n (philoxRound c k0 k1) (k0 + 0x9E3779B9) (k1 + 0xBB67AE85)

def philox (c : PhiloxCtr) (k0 k1 : U32) : PhiloxCtr := philoxFrom 10 c k0 k1

def PhiloxCtr.word (c : PhiloxCtr) (i : Nat) : U32 :=
  match i % 4 with
  | 0 => c.c0
  | 1 => c.c1
  | 2 => c.c2
  | _ => c.c3

/-- The draw of logical element `i` (R92): seed `S`, step `N`, tensor `T`, site code `G`. -/
def roundDraw (seed step : U64) (tensorId site i : Nat) : Nat :=
  let ix := i % 2 ^ 50
  let c : PhiloxCtr := ⟨BitVec.ofNat 32 (ix / 4), BitVec.ofNat 32 ((site % 4) * 2 ^ 16 + (ix / 4) / 2 ^ 32 % 2 ^ 16),
    BitVec.ofNat 32 tensorId, step.truncate 32⟩
  let k0 := seed.truncate 32
  let k1 := (seed >>> 32).truncate 32 ^^^ (step >>> 32).truncate 32
  ((philox c k0 k1).word ix).toNat

/-- The number whose bits are `bs`, the lowest first. -/
def leNatBits : List Bool → Nat
  | [] => 0
  | b :: bs => (if b then 1 else 0) + 2 * leNatBits bs

/-- The sum of fields at their lowest bits. -/
def fieldsNat (fs : List (Nat × Nat)) : Nat := sumNat (fs.map (fun f => f.2 * 2 ^ f.1))

end Sys2Proof.Machine
end

