-- ==== Sys2Proof/Config.lean ====
section
/-! DEFINITION. What one implementation fixes, and the free values: opaque constants, so that nothing can be proved of
their values. -/

namespace Sys2Proof.Config

/-- GLB_DEVICE_UID: fused (R435, log entry 4). -/
opaque deviceUid : U64
/-- SEC_SVN.FUSED and SEC_KEY_REVOKE as manufactured (R434). -/
opaque fusedSvn : BitVec 6
opaque fusedKeyRevoke : BitVec 4
/-- Byte `i` of the SHA-256 root key hash fused for a key slot (R432). -/
opaque rootKeyHashByte : Nat → Nat → Byte
/-- The flash of the module (R432): management images of slots A and B, and the engine image. -/
opaque flashA : List Byte
opaque flashB : List Byte
opaque flashEngine : List Byte
/-- The version, security version and digest of the firmware that runs at reset (R433, R436). -/
opaque bootFwVersion : U32
opaque bootSvn : Byte
opaque bootFwHashByte : Nat → Byte
/-- The RMA fuse (R438). -/
opaque fusedRma : Bool
/-- The key slot of the firmware that runs at reset (R434). -/
opaque bootKeySlot : BitVec 2
/-- The revocation image in flash (R434). -/
opaque flashRevoke : List Byte
/-- The fused secret, and the private key that the deterministic RSA-3072 key generation derives from it (R435). -/
opaque fusedSecret : List Byte
opaque deriveKey : List Byte → List Byte
/-- The board slot straps sampled at the boot that State.reset follows (R421). -/
opaque slotStraps : BitVec 3
/-- The MIPI manufacturer ID of Chidin Microsystems (R417). -/
opaque mipiManufacturer : BitVec 15
/-- Draw `n` of SEC_DEBUG_NONCE (R438). -/
opaque debugNonce : Nat → U64
/-- Byte `i` of the signature of a key over a report body (R436): the key generation is not given. -/
opaque identitySignatureByte : List Byte → List Byte → Nat → Byte
/-- The device certificate as stored in flash (R435): what stands before and after its serial number. -/
opaque certHead : U64 → List Byte
opaque certTail : U64 → List Byte
/-- The vendor ID that PCI-SIG assigned to Chidin Microsystems (R406). -/
opaque pciVendor : U16
/-- The module that a received packet addresses (R424): no field of the flit or of the packets names one. -/
opaque packetDst : List Byte → U64
/-- Byte `i` of the part of a save-area header whose layout is the device's own (R379). -/
opaque saveHeaderByte : List Nat → Nat → Byte
/-- Byte `i` of the rest of save number `n`, whose layout is the device's own (R379). -/
opaque saveBodyByte : Nat → Nat → Byte
/-- Byte `i` of a checkpoint slot header or of an IDENT, distance, scale or data packet whose layout the spec leaves
open (R262, R385, R423, R424), as a function of its contents. -/
opaque packetByte : List Nat → Nat → Byte
/-- A value that the spec states nowhere, as a function of what the list names (the run seed, the step, the tensor, the logical
position, R8). -/
opaque openValue : List Nat → Nat
/-- Draw `n` of a free number. -/
opaque freeNat : Nat → Nat
/-- CTX_COLL_NEED after a formation, from the group sizes of the context (R382): the spec gives no figure. -/
opaque collNeed : List Nat → U64

end Sys2Proof.Config
end

