-- ==== Sys2Proof/Machine/Operands.lean ====
section
/-! DEFINITION. The number formats: decoding (R73 to R80), the rounding function (R82), classification and encoding (R83
to R88), and the choice of a block scale (R86, R87). -/

namespace Sys2Proof.Machine

open Sys2Proof

/-- An exact value: (−1)^s × m × 2^e, an infinity, or NaN (R75: every NaN is alike). -/
inductive Val where
  | fin (s : Bool) (m : Nat) (e : Int)
  | inf (s : Bool)
  | nan
  deriving DecidableEq, Repr

/-- The value as an integer in units of 2^0, with its sign; used where the exponent is known to be 0. -/
def Val.sgn (s : Bool) (m : Nat) : Int := if s then -(m : Int) else m

def Val.isFin : Val → Bool
  | .fin _ _ _ => true
  | _ => false

/-! ## Format codes (R50) -/

def fE4M3 : Nat := 1
def fE5M2 : Nat := 2
def fE3M2 : Nat := 3
def fE2M3 : Nat := 4
def fE2M1 : Nat := 5
def fMXINT8 : Nat := 6
def fINT8 : Nat := 7
def fINT32 : Nat := 8
def fBF16 : Nat := 9
def fFP32 : Nat := 10
def fACC128 : Nat := 11
def fCODEBOOK : Nat := 12
def fRUNG : Nat := 13

/-- The formats whose blocks carry an E8M0 scale (R71). -/
def isMx (f : Nat) : Bool := 1 ≤ f && f ≤ 6

def isIntFmt (f : Nat) : Bool := f == 7 || f == 8

/-- The parameters of R73. `bias` and `p` are 0 for the integer formats. -/
structure FmtParams where
  bits : Nat
  expBits : Nat
  p : Nat
  bias : Int
  qmin : Int
  emaxElem : Int
  int : Bool
  subnormals : Bool
  deriving DecidableEq, Repr

def fmtParams (f : Nat) : FmtParams :=
  match f with
  | 1 => ⟨8, 4, 4, 7, -9, 8, false, true⟩
  | 2 => ⟨8, 5, 3, 15, -16, 15, false, true⟩
  | 3 => ⟨6, 3, 3, 3, -4, 4, false, true⟩
  | 4 => ⟨6, 2, 4, 1, -3, 2, false, true⟩
  | 5 => ⟨4, 2, 2, 1, -1, 2, false, true⟩
  | 6 => ⟨8, 0, 0, 0, -6, 0, true, true⟩
  | 7 => ⟨8, 0, 0, 0, 0, 0, true, true⟩
  | 8 => ⟨32, 0, 0, 0, 0, 0, true, true⟩
  | 9 => ⟨16, 8, 8, 127, 0, 0, false, false⟩
  | 12 => ⟨4, 0, 0, 0, 0, 0, true, true⟩
  | _ => ⟨32, 8, 24, 127, 0, 0, false, false⟩

/-- The largest finite magnitude of R73 for sign `s`, as mantissa and exponent. -/
def maxMag (f : Nat) (s : Bool) : Nat × Int :=
  match f with
  | 1 => (7, 6)
  | 2 => (7, 13)
  | 3 => (7, 2)
  | 4 => (15, -1)
  | 5 => (3, 1)
  | 6 => (127, -6)
  | 7 => (if s then 128 else 127, 0)
  | 8 => (if s then 2 ^ 31 else 2 ^ 31 - 1, 0)
  | 9 => (255, 120)
  | _ => (2 ^ 24 - 1, 104)

/-- m1 × 2^e1 > m2 × 2^e2. -/
def magGt (m1 : Nat) (e1 : Int) (m2 : Nat) (e2 : Int) : Bool :=
  if e2 ≤ e1 then m1 <<< (e1 - e2).toNat > m2 else m1 > m2 <<< (e2 - e1).toNat

/-! ## Decoding -/

/-- A floating-point element of parameters `P` (R73), the special encodings of R74 apart. -/
def decodeFloat (P : FmtParams) (raw : Nat) : Val :=
  let mb := P.p - 1
  let m := raw % 2 ^ mb
  let e := (raw >>> mb) % 2 ^ P.expBits
  let s := raw.testBit (mb + P.expBits)
  if e = 0 then
    if P.subnormals then .fin s m (1 - P.bias - mb) else .fin s 0 0
  else .fin s (2 ^ mb + m) (e - P.bias - mb)

/-- The value of an element without its block scale (R73, R74, R76). -/
def decodeElem (f raw : Nat) : Val :=
  let P := fmtParams f
  if P.int then
    let z := signedOf P.bits raw
    .fin (z < 0) z.natAbs P.qmin
  else
    let e := (raw >>> (P.p - 1)) % 2 ^ P.expBits
    let m := raw % 2 ^ (P.p - 1)
    let s := raw.testBit (P.p - 1 + P.expBits)
    if f = 1 ∧ raw % 128 = 127 then .nan
    else if (f = 2 ∨ f = 9 ∨ f = 10) ∧ e = 2 ^ P.expBits - 1 then (if m = 0 then .inf s else .nan)
    else decodeFloat P raw

/-- Multiplies an exact value by 2^x. -/
def Val.scale (v : Val) (x : Int) : Val :=
  match v with
  | .fin s m e => .fin s m (e + x)
  | v => v

/-- The scale of a block with a poisoned byte (R331) as a tile carries it: it decodes as 0xFF, whatever the block's scale stream
delivers, and is written as 0xFF. -/
def poisonScale : Nat := 256

/-- A scale as a byte. -/
def scaleByte (sc : Nat) : Nat := min sc 255

/-- An MX element under its block's scale byte (R78). -/
def decodeMx (f raw sc : Nat) : Val :=
  if 255 ≤ sc then .nan else (decodeElem f raw).scale ((sc : Int) - 127)

/-- R326: the residue of an element: of its significand, of an integer element of its value. -/
def elemResidue (f raw : Nat) : Nat :=
  match decodeElem f raw with
  | .fin s m _ => res127 (if (fmtParams f).int then Val.sgn s m else (m : Int))
  | _ => 0

/-- An element of any value format, with the scale byte of its block where the format has one. -/
def decodeVal (f raw sc : Nat) : Val := if isMx f then decodeMx f raw sc else decodeElem f raw

/-- A BF16 or FP32 encoding with exponent field 0 and a non-zero mantissa (R76, R88 class 2). -/
def isSubnormal (f raw : Nat) : Bool :=
  (f == 9 && (raw >>> 7) % 256 == 0 && raw % 128 != 0) || (f == 10 && (raw >>> 23) % 256 == 0 && raw % 2 ^ 23 != 0)

/-! ## The rounding function (R82) -/

/-- `draw`: `none` rounds to nearest even, `some r` stochastically with generator word r. Answers n, q and inexact. -/
def roundMag (M : Nat) (E : Int) (P : FmtParams) (draw : Option Nat) : Nat × Int × Bool :=
  if M = 0 then (0, 0, false)
  else
    let k : Int := (bitLen M : Int) - 1 + E
    let q : Int :=
      if P.int then P.qmin
      else
        let q0 := k - (P.p - 1)
        if P.subnormals && q0 < P.qmin then P.qmin else q0
    if q ≤ E then (M <<< (E - q).toNat, q, false)
    else
      let sh := (q - E).toNat
      let n := M >>> sh
      let rem := M - n <<< sh
      if rem = 0 then (n, q, false)
      else
        let up : Bool :=
          match draw with
          | none => rem > 1 <<< (sh - 1) || (rem == 1 <<< (sh - 1) && n % 2 == 1)
          | some r => (rem <<< 32) >>> sh + r ≥ 2 ^ 32
        (if up then n + 1 else n, q, true)

/-! ## Encoding -/

/-- The encoding of (−1)^s × n × 2^q, a value of the format other than an overflow (R83 case 4). -/
def encodeFin (f : Nat) (s : Bool) (n : Nat) (q : Int) : Nat :=
  let P := fmtParams f
  if P.int then lowBits P.bits (Val.sgn s n)
  else
    let mb := P.p - 1
    let sb := if s then 2 ^ (mb + P.expBits) else 0
    if n = 0 then sb
    else
      let k : Int := (bitLen n : Int) - 1 + q
      if k < 1 - P.bias then sb + n
      else sb + (k + P.bias).toNat * 2 ^ mb + ((n <<< mb) >>> (bitLen n - 1) - 2 ^ mb)

/-- What a conversion writes in an element's field: an encoding, or a call for block NaN (R84). -/
inductive Enc where
  | raw (r : Nat)
  | blockNan
  deriving DecidableEq, Repr

def encZero (f : Nat) (s : Bool) : Nat := encodeFin f s 0 0

/-- The largest finite value of sign `s` (R84, OVF = 0; for the integer formats every OVF). -/
def encMax (f : Nat) (s : Bool) : Nat :=
  match f with
  | 1 => if s then 0xFE else 0x7E
  | 2 => if s then 0xFB else 0x7B
  | 3 => if s then 0x3F else 0x1F
  | 4 => if s then 0x3F else 0x1F
  | 5 => if s then 0xF else 0x7
  | 6 => if s then 0x81 else 0x7F
  | 7 => if s then 0x80 else 0x7F
  | _ => if s then 0x80000000 else 0x7FFFFFFF

def encInf (f : Nat) (s : Bool) : Nat :=
  match f with
  | 2 => if s then 0xFC else 0x7C
  | 9 => if s then 0xFF80 else 0x7F80
  | _ => if s then 0xFF800000 else 0x7F800000

def hasInf (f : Nat) : Bool := f == 2 || f == 9 || f == 10

/-- R84: an overflow of sign `s`; answers the element and its class (R88: 3 SATURATED, 4 OVERFLOWED). -/
def encOverflow (f ovf : Nat) (s : Bool) : Enc × Nat :=
  match f with
  | 1 => if ovf = 0 then (.raw (encMax f s), 3) else (.raw 0x7F, 4)
  | 2 => if ovf = 0 then (.raw (encMax f s), 3) else if ovf = 1 then (.raw (encInf f s), 4) else (.raw 0x7F, 4)
  | 3 => if ovf = 0 then (.raw (encMax f s), 3) else (.blockNan, 4)
  | 4 => if ovf = 0 then (.raw (encMax f s), 3) else (.blockNan, 4)
  | 5 => if ovf = 0 then (.raw (encMax f s), 3) else (.blockNan, 4)
  | 6 => if ovf = 0 then (.raw (encMax f s), 3) else (.blockNan, 4)
  | 7 => (.raw (encMax f s), 3)
  | 8 => (.raw (encMax f s), 3)
  | _ => (.raw (encInf f s), 4)

/-- R84: a NaN input (class 5 NAN_IN). -/
def encNan (f : Nat) : Enc :=
  match f with
  | 1 => .raw 0x7F
  | 2 => .raw 0x7F
  | 3 => .blockNan
  | 4 => .blockNan
  | 5 => .blockNan
  | 6 => .blockNan
  | 7 => .raw 0
  | 8 => .raw 0
  | 9 => .raw 0x7FC0
  | _ => .raw 0x7FC00000

/-- R83, R84, R88: one element, already divided by its block scale. `sub` says that the input was a BF16 or FP32
subnormal. Answers the element and its outcome class. -/
def convertElem (f ovf : Nat) (draw : Option Nat) (v : Val) (sub : Bool) : Enc × Nat :=
  match v with
  | .nan => (encNan f, 5)
  | .inf s => if hasInf f then (.raw (encInf f s), 6) else encOverflow f ovf s
  | .fin s m e =>
    let r := roundMag m e (fmtParams f) draw
    let n := r.1
    let q := r.2.1
    if n = 0 then (.raw (encZero f s), if m = 0 ∧ sub = false then 0 else 2)
    else if (f = 9 ∨ f = 10) ∧ magGt 1 (-126) n q then (.raw (encZero f s), 2)
    else if magGt n q (maxMag f s).1 (maxMag f s).2 then encOverflow f ovf s
    else (.raw (encodeFin f s n q), if r.2.2 then 1 else 0)

/-- Converts to a format without scales and keeps the encoding. -/
def toFmt (f ovf : Nat) (draw : Option Nat) (v : Val) : Nat :=
  match (convertElem f ovf draw v false).1 with
  | .raw r => r
  | .blockNan => 0

/-! ## Block scales (R86, R87) -/

/-- floor(log2 |v|) of a finite non-zero value. -/
def Val.expOf : Val → Option Int
  | .fin _ m e => if m = 0 then none else some ((bitLen m : Int) - 1 + e)
  | _ => none

def maxOpt (a b : Option Int) : Option Int :=
  match a, b with
  | some x, some y => some (max x y)
  | some x, none => some x
  | none, y => y

/-- floor(log2 amax) over the finite inputs of the block; `none` where amax = 0 or no input is finite (R86). -/
def amaxExp (vs : List Val) : Option Int := vs.foldl (fun a v => maxOpt a v.expOf) none

/-- The immediate rule of R86. -/
def immediateX (f : Nat) (vs : List Val) : Int :=
  match amaxExp vs with
  | none => -127
  | some k => max (-127) (min 127 (k - (fmtParams f).emaxElem))

/-- A block as converted: the 32 elements, the scale byte (0 for a format without scales) and the outcome classes. -/
structure ConvBlock where
  elems : List Nat
  scale : Nat
  classes : List Nat
  deriving DecidableEq, Repr

/-- R86, R87: one block of inputs, each with its subnormal mark and its draw; `xfix` is Gauge's scale where delayed
scaling is in force. -/
def convertBlock (f ovf : Nat) (xfix : Option Int) (ins : List (Val × Bool × Option Nat)) : ConvBlock :=
  let x : Int := if isMx f then xfix.getD (immediateX f (ins.map (·.1))) else 0
  let rs := ins.map (fun i => convertElem f ovf i.2.2 (i.1.scale (-x)) i.2.1)
  if isMx f && rs.any (fun r => r.1 == .blockNan) then
    { elems := rs.map (fun _ => 0), scale := 255,
      classes := rs.map (fun r => if r.1 == .blockNan then r.2 else 5) }
  else
    { elems := rs.map (fun r => match r.1 with | .raw e => e | .blockNan => 0),
      scale := if isMx f then (x + 127).toNat else 0,
      classes := rs.map (·.2) }

end Sys2Proof.Machine
end

