-- ==== Sys2Proof/Machine/State.lean ====
section
/-! DEFINITION. The state of the module as plain data, and State.reset: the module right after boot event 6 of R443. -/

namespace Sys2Proof.Machine

/-- The ways a step can stop the machine. -/
inductive Fault where
  /-- Raised by no meaning of this model: the device has no stop of its own (R2, R11, R12). Safe. -/
  | halted
  deriving DecidableEq, Repr

/-- The ways a command can be refused. -/
inductive Refusal where
  /-- Raised by an arm of exec for a command that has no meaning yet; by no meaning. Safe. -/
  | notModelled (mnemonic : String)
  /-- Raised by the meaning of a command whose operands name nothing that can occur (a received flit of another
  length than 280 bytes, R252; see WellFormed). Safe. -/
  | illFormed (mnemonic : String)
  deriving DecidableEq, Repr

/-! ## Tiles and streams (R39, R95, R205) -/

/-- A stored position as a pass meets it (R138 to R144): a column, or a slot that forms no product. -/
inductive SlotPos where
  | col (c : Nat)
  | none
  deriving DecidableEq, Repr

/-- The decoded metadata of band `band` of the `bands` bands of a sparse tensor (R134): the slots of its 32 rows, 32 a pass, and how many malformed
and out-of-range entries it holds (R144); with the transposed metadata, the passes that the column schedule lists for each
dx tile as (tile, pass) (R142), `none` where the structure has no schedule, and its own malformed and out-of-range entries. -/
structure BandMeta where
  band : Nat
  bands : Nat
  rows : List (List SlotPos)
  errs : Nat
  drops : Nat
  sched : Option (List (Nat × Nat))
  tErrs : Nat
  tDrops : Nat
  deriving DecidableEq, Repr

/-- A ranking key (R164). -/
inductive Key where
  | nan
  | fin (m : Nat) (e : Int)
  | inf
  deriving DecidableEq, Repr

/-- What a tile carries. `val` and `scl` are the value and scale streams of R42, with block sequence tags (R221); a value
tile keeps its scales beside it for ports that have no scale port; `acc` is an ACC128 tile (R95); `codes` is a CODEBOOK
tile with the codebooks of its rows (R81); `band` is sparse metadata; `rows` a row-set word (R176); `cands` a candidate
list (R165). -/
inductive Payload where
  | val (fmt : Nat) (elems : List Nat) (scales : List Nat) (vtags : List Nat) (stags : List Nat)
  | scl (scales : List Nat) (stags : List Nat)
  | acc (anchor : Int) (segments : Nat) (v : List Int) (st : List (BitVec 2))
  | codes (codes : List Nat) (books : List (List Nat))
  | band (m : BandMeta)
  | rows (word : U32)
  | cands (unit : Nat) (cs : List (Nat × Key))
  deriving DecidableEq, Repr

/-- A tile in flight: its coordinates, its payload, its presence bits (empty: every element is present; a padding element
or one that a REDUCE output lacks, R205, R269, is absent), the STEP of a REDUCE output, the sparse positions that SPREAD
attached, one entry a band (R134), the rows that the row sets of its token tile keep active, by band (R176), the residues that
travel with its fields on the sideband (R326), empty until a read generates them, and for a packed tile of a sparse tensor the
positions of its elements (R92). -/
structure Tile where
  xy : TileXY
  payload : Payload
  present : List Bool := []
  step : U64 := 0
  sel : List BandMeta := []
  active : List (Nat × U32) := []
  side : List Nat := []
  cols : List SlotPos := []
  deriving DecidableEq, Repr

/-! ## The carcass image (R43 to R51) -/

structure Station where
  kind : Nat
  flags : Nat
  layer : Nat
  tensor : Nat
  tensor2 : Nat
  opts : List Byte
  deriving DecidableEq, Repr

structure StreamRec where
  src : Nat
  srcPort : Nat
  dstPort : Nat
  dst : Nat
  depth : Nat
  format : Nat
  deriving DecidableEq, Repr

structure TensorRec where
  tensorId : Nat
  format : Nat
  rank : Nat
  role : Nat
  sparse : Nat
  modes : Nat
  seqShard : Nat
  mask : Nat
  valueVa : Nat
  scaleVa : Nat
  extent : List Nat
  stride : List Int
  deriving DecidableEq, Repr

structure MaskRec where
  metaVa : Nat
  metaTVa : Nat
  capacity : Nat
  maskId : Nat
  tSource : Nat
  deriving DecidableEq, Repr

structure UpdateRec where
  rule : Nat
  flags : Nat
  hpSet : Nat
  stateWords : Nat
  program : Nat
  length : Nat
  recordVa : Nat
  statsVa : Nat
  frozenVa : Nat
  divergeVa : Nat
  vspan64 : Nat
  sspan64 : Nat
  bcBase : Nat
  deriving DecidableEq, Repr

structure PolicyRec where
  fieldId : Nat
  value : U32
  deriving DecidableEq, Repr

structure GroupRec where
  groupId : Nat
  size : Nat
  width : Nat
  deriving DecidableEq, Repr

structure PlaceRec where
  station : Nat
  first : Nat
  last : Nat
  deriving DecidableEq, Repr

/-- A carcass image as the device reads it; `hash` is the carcass hash (R44). -/
structure Image where
  arithRev : Nat := 0
  bytes : Nat := 0
  generation : U32 := 0
  qmask : BitVec 4 := 0
  runSeed : U64 := 0
  hash : List Byte := []
  stations : List Station := []
  streams : List StreamRec := []
  tensors : List TensorRec := []
  masks : List MaskRec := []
  updates : List UpdateRec := []
  policy : List PolicyRec := []
  vcode : List U64 := []
  groups : List GroupRec := []
  places : List PlaceRec := []
  deriving DecidableEq, Repr

/-- The staged slot (R54). -/
inductive Staged where
  | empty
  | loading (va : Nat)
  | valid (img : Image)
  | invalid
  deriving DecidableEq, Repr

/-! ## Stations at work -/

/-- The stationary registers of an array (R122): the tile held, and its decoded codebook tables in LUT mode (R127), one
list of 16 BF16 entries a column, `none` where the row lies outside the tensor (0x0502). -/
structure StatTile where
  xy : TileXY
  books : List (Option (List Nat))
  deriving DecidableEq, Repr

/-- A tile buffer with its open segment (R105, R113). -/
structure SegBuf where
  out : TileXY
  anchor : Int
  log2 : Nat
  v : List Int
  st : List (BitVec 2)
  inSeg : Nat
  blocksDone : List Nat
  total : Nat
  bad : Bool
  deriving DecidableEq, Repr

/-- A deep accumulator (R106): D and states of an output tile, and the segments received. -/
structure DeepAcc where
  out : TileXY
  anchor : Int
  segments : Nat
  got : Nat
  d : List Int
  st : List (BitVec 2)
  present : List Bool
  cols : List SlotPos := []
  deriving DecidableEq, Repr

/-- An X lane (R183): its 336-bit integer and its state. -/
abbrev XLane := Int × BitVec 2

/-- The registers of a vector unit as a station uses them (R183), its tiles in work and its output tiles. -/
structure VecUnit where
  v : List (List U32) := List.replicate 24 (List.replicate 64 0)
  vb : List (List (List U32)) := List.replicate 16 (List.replicate 8 (List.replicate 64 0))
  q : List (List Bool) := List.replicate 7 (List.replicate 64 false)
  q0 : List (List Bool) := List.replicate 16 (List.replicate 64 false)
  x : List (List (List XLane)) := List.replicate 16 (List.replicate 4 (List.replicate 64 (0, 0)))
  ins : List (Option Tile) := [none, none, none]
  out0 : List (List U32) := List.replicate 16 (List.replicate 64 0)
  out1 : List (List U32) := List.replicate 16 (List.replicate 64 0)
  xy : TileXY := ⟨0, 0, 0, 0⟩
  final : Bool := false
  deriving DecidableEq, Repr

/-- An open sweep (R187): its output 1 coordinates, its length, its banked registers, how many positions are processed, the
tile sets received and not processed (position, then the tiles of ports 0 to 2), the tile sets that only write a NaN tile
after the last one (R200), and its mode 1 tiles. -/
structure Sweep where
  out : TileXY
  len : Nat
  vb : List (List (List U32))
  x : List (List (List XLane))
  next : Nat
  sets : List (Nat × List (Option Tile))
  late : List TileXY
  p1 : Option Tile
  p2 : Option Tile
  deriving DecidableEq, Repr

/-- A candidate set of the regrowth scan (R165). -/
structure CandSet where
  unit : Nat
  tiles : Nat
  cs : List (Nat × Key)
  sent : Bool
  deriving DecidableEq, Repr

/-- The progress of one station within the step. `amid` says that an UPDATE has done some, not all, of the record blocks of a
gradient tile. -/
structure StnState where
  next : Nat := 0
  fin : Bool := false
  bench : Nat := 0
  seen : List TileXY := []
  stageA : List Tile := []
  stageB : List Tile := []
  stageP : List Tile := []
  cur : Option StatTile := none
  idle : Option StatTile := none
  segs : List SegBuf := []
  emitted : List TileXY := []
  accs : List DeepAcc := []
  chain : List Tile := []
  held : List Tile := []
  sweeps : List Sweep := []
  unit : VecUnit := {}
  cands : List CandSet := []
  units : List Nat := []
  bands : List Nat := []
  amid : Bool := false
  deriving DecidableEq, Repr

/-! ## Collectives (R263 to R272) -/

/-- What a member holds of one exchange block: its own elements with its own scale record once its input tile has come, the
combined record with the number of members it combines, its own integers once quantised, the sum with the number of
members it sums, and the gathered bytes (R266 to R272). -/
structure BlockSum where
  block : Nat
  vals : List Val
  own : Option ScaleRec
  srec : ScaleRec
  recN : Nat
  q : Option (List Int)
  sums : List Int
  sumN : Nat
  bytes : Option (List Byte)
  deriving DecidableEq, Repr

/-- A tile position of W with the exchange blocks of its 32 rows, and for a sparse W the columns of its slots. -/
structure ShapeTile where
  xy : TileXY
  blocks : List (Option Nat)
  cols : List SlotPos
  deriving DecidableEq, Repr

/-- An open or complete collective instance (R263). `nan` is the fallback of 0x0C01; `mat` and `fac` hold M and Ph of R274.
`begun` says that the exchange has begun (R21). -/
structure Inst where
  st : Nat
  groupId : U32
  size : Nat
  rank : Nat
  tensorId : U32
  subject : Nat
  coll : Nat
  step : U64
  gen : U32
  hash64 : U64
  width : Nat
  rec64 : Bool
  accepted : List Nat
  shape : List ShapeTile
  tiles : List Tile
  blocks : List BlockSum
  emitted : List TileXY
  nan : Bool
  complete : Bool
  mat : List U32
  fac : List U32
  begun : Bool := false
  deriving DecidableEq, Repr

/-- A group slot of a context (R425 to R429). -/
inductive GroupState where
  | empty | forming | formed | refused
  deriving DecidableEq, Repr

structure GroupSlot where
  id : U32 := 0
  rank : BitVec 12 := 0
  sizeM1 : BitVec 12 := 0
  membersVa : BitVec 61 := 0
  state : GroupState := .empty
  reason : BitVec 4 := 0
  who : BitVec 12 := 0
  members : List U64 := []
  memberDigest : U64 := 0
  agreed : List Nat := []
  deriving DecidableEq, Repr

/-! ## Gauge (R224 to R236) -/

structure LayerRec where
  rung : Nat := 0
  streak : Nat := 0
  changed : Bool := false
  sat : Bool := false
  nl : Nat := 0
  bad : Nat := 0
  probe : Nat := 0
  satcnt : Nat := 0
  deriving DecidableEq, Repr

/-- A site record (R234): HIST with `none` for an empty entry. -/
structure SiteRec where
  count : Nat := 0
  sat : Bool := false
  hist : List (Option Int) := List.replicate 16 none
  satSteps : Nat := 0
  deriving DecidableEq, Repr

/-- What Gauge counts of one layer or one site within the step. -/
structure GaugeStat where
  ran : Bool := false
  max : Option Int := none
  n : Nat := 0
  s : Nat := 0
  thresh : U32 := 0
  nl : Nat := 0
  bad : Nat := 0
  probe : Nat := 0
  satcnt : Nat := 0
  deriving DecidableEq, Repr

/-! ## Registers of a context, by group -/

/-- The members of agreement groups 0 to 5 (R61). -/
structure AgVals where
  srEnable : Bool := false
  runSeed : U64 := 0
  prunePeriod : U32 := 0
  pruneK : U16 := 0
  regrowK : U16 := 0
  pruneStart : U64 := 0
  ovfMode : BitVec 2 := 0
  scaleDelay : BitVec 5 := 0
  policyEnable : Bool := false
  lr : Vector U32 64 := Vector.replicate 64 0
  beta1 : Vector U32 64 := Vector.replicate 64 0
  beta2 : Vector U32 64 := Vector.replicate 64 0
  eps : Vector U32 64 := Vector.replicate 64 0
  decay : Vector U32 64 := Vector.replicate 64 0
  cutPin : Vector U64 8 := Vector.replicate 8 0
  cutExclude : Vector U32 16 := Vector.replicate 16 0
  spillLog2 : BitVec 5 := 0x14
  deriving DecidableEq, Repr

/-- Which words of the 64-bit members have been written since the last commit of their group (R63). -/
structure AgWords where
  seedLo : Bool := false
  seedHi : Bool := false
  startLo : Bool := false
  startHi : Bool := false
  pinLo : Vector Bool 8 := Vector.replicate 8 false
  pinHi : Vector Bool 8 := Vector.replicate 8 false
  deriving DecidableEq, Repr

/-- The live fields (R64). -/
structure LiveVals where
  predThresh : U32 := 0
  shadowShare : BitVec 17 := 0
  satThresh : U32 := 0x00100000
  w0 : U32 := 0x00400000
  w1 : U32 := 0x00010000
  patience : Byte := 0x10
  hi : BitVec 4 := 4
  lo : BitVec 4 := 0
  cutWeights : U32 := 0x10101010
  deriving DecidableEq, Repr

/-- An entry of the live log (R313): the field, the value, and for each station that reads it the first ordinal issued under it. -/
structure LiveEntry where
  fieldId : Nat
  value : U32
  pool : List (Nat × Option Nat)
  deriving DecidableEq, Repr

/-- The 48-bit event counters of a context, and its violation registers (R11, R15). -/
structure Counters where
  accVanish : U48 := 0
  accTrunc : U48 := 0
  accWrap : U48 := 0
  metaDrop : U48 := 0
  metaErr : U48 := 0
  scribe : Vector U48 8 := Vector.replicate 8 0
  tagSlip : U48 := 0
  residue : U48 := 0
  eccUe : U48 := 0
  digest : U48 := 0
  gauClass : Vector U48 88 := Vector.replicate 88 0
  gauSat : U48 := 0
  cutMigrate : U48 := 0
  gluRefuse : U48 := 0
  gluVanish : U48 := 0
  stepDiff : U48 := 0
  formRefuse : U48 := 0
  viol : U48 := 0
  violLast : U16 := 0
  deriving DecidableEq, Repr

/-- The phases of CTX_STEP_STATE (R29). -/
inductive Phase where
  | idle | running | closing | held | committing | preempted
  deriving DecidableEq, Repr

/-- Where the closing of a step stands (R23): before step 2, waiting for digests in step 3, sealed and committed with steps 6 and 7 outstanding. -/
inductive Closing where
  | no | open | recorded | sealed
  deriving DecidableEq, Repr

/-- Increments of the step that enter the Witness record (R312). -/
structure StepCounts where
  metaDrop : Nat := 0
  metaErr : Nat := 0
  skip : Nat := 0
  sample : Nat := 0
  miss : Nat := 0
  lost : Nat := 0
  deriving DecidableEq, Repr

/-- The digests folded during the step (R309, R310). -/
structure Folds where
  layers : List U64 := []
  localD : U64 := 0
  contrib : U64 := 0
  exchange : U64 := 0
  deriving DecidableEq, Repr

/-- RESULT of WIT_REPLAY_STATUS (R318). -/
inductive ReplayResult where
  | idle | checking | armed | refused | matched | mismatch
  deriving DecidableEq, Repr

/-- The Witness registers and the record under construction (R311 to R324). -/
structure Witness where
  logVa : BitVec 52 := 0
  ldigVa : BitVec 58 := 0
  refLdigVa : BitVec 58 := 0
  logDepth : U16 := 0
  logHead : U64 := 0
  chain : List Byte := List.replicate 32 0
  replicaGroup : U32 := 0xFFFFFFFF
  refAddr : BitVec 52 := 0
  commit : Bool := false
  mode : BitVec 2 := 0
  result : ReplayResult := .idle
  check : BitVec 4 := 0
  mismatch : BitVec 7 := 0
  layerValid : Bool := false
  layer : U16 := 0
  refRecord : List Byte := []
  replaying : Bool := false
  attempt : U16 := 0
  record : List Byte := []
  shardDigest : U64 := 0
  layerDigests : List U64 := []
  heldDigests : List (U32 × Nat × U64 × U64 × U16) := []
  compared : List Nat := []
  folds : Folds := {}
  counts : StepCounts := {}
  first : LiveVals := {}
  closing : LiveVals := {}
  log : List LiveEntry := []
  deriving DecidableEq, Repr

/-- Who stopped at a page fault (R366, R367). -/
structure FaultReq where
  kind : Nat
  source : Nat
  deriving DecidableEq, Repr

/-- An outstanding FAULT_ID (R365). -/
structure PageFault where
  id : U16
  cause : Nat
  page : Nat
  reqs : List FaultReq
  deriving DecidableEq, Repr

/-- An access that met the limit of 64 outstanding FAULT_IDs (R365). -/
structure FaultWait where
  cause : Nat
  va : Nat
  write : Bool
  req : FaultReq
  deriving DecidableEq, Repr

/-- What an access to a host page waits for (R369, R370): its translation, the answer to a page request, or room for a page
request among the 512 that may be outstanding (R368). -/
inductive HostStage where
  | translation
  | asked
  | queued
  deriving DecidableEq, Repr

/-- An access that waits for a host page: the PASID that its requests carry (R368), the page, and the access. -/
structure HostWait where
  pasid : BitVec 20
  hostPage : Nat
  va : Nat
  write : Bool
  stage : HostStage
  req : FaultReq
  deriving DecidableEq, Repr

/-- A cached translation (R363): a 64 KiB page of the virtual space, its frame, W and HOST. -/
structure Tlb where
  page : Nat
  frame : Nat
  writable : Bool
  host : Bool
  deriving DecidableEq, Repr

structure Mmu where
  root : BitVec 27 := 0
  pasid : BitVec 20 := 0
  tlb : List Tlb := []
  atc : List AtsCompletion := []
  ats : List HostWait := []
  faults : List PageFault := []
  waiting : List FaultWait := []
  nextId : U16 := 0
  kept : List (U16 × Bool) := []
  collPages : List Tlb := []
  deriving DecidableEq, Repr

/-- A descriptor at work (R372 to R375), by its slot in the ring: its 64 bytes as read, whether its WAIT has joined the
queue and still waits, whether it has started, its next granule or packet, the writes not acknowledged by device and WSEQ,
the STATUS that its end writes (0 while it runs), and whether it has ended; for a CHECKPOINT its step, its regions, whether
it still reads them, and its slot header. -/
structure DescState where
  index : Nat
  bytes : List Byte := []
  waited : Bool := false
  waiting : Bool := false
  started : Bool := false
  granule : Nat := 0
  unacked : List (U64 × U32) := []
  result : Nat := 0
  ended : Bool := false
  step : U64 := 0
  regions : List (Nat × Nat) := []
  reading : Bool := false
  header : List Byte := []
  deriving DecidableEq, Repr

structure Dma where
  ringVa : BitVec 58 := 0
  log2 : BitVec 4 := 4
  tail : U16 := 0
  head : U16 := 0
  descs : List DescState := []
  wseq : List (U64 × U32) := []
  deriving DecidableEq, Repr

/-- Who waits on a semaphore (R342, R345). -/
inductive Waiter where
  | host (tag : U16)
  | desc (index : Nat)
  deriving DecidableEq, Repr

structure Sem where
  count : U16 := 0
  queue : List (U16 × Waiter) := []
  deriving DecidableEq, Repr

/-- A held release-ordered signal (R349): the source, its sequence number, the semaphore and the value. -/
structure HeldSignal where
  source : U16
  groupId : U32
  wseq : U32
  sem : SemId
  value : U16
  deriving DecidableEq, Repr

/-- Watchdog configuration (R395). -/
structure WdtCfg where
  action : BitVec 2
  limit : BitVec 30
  deriving DecidableEq, Repr

/-- STATUS of SEC_ATTEST_STATUS (R437). -/
inductive AttestStatus where
  | idle | pending | done | refused
  deriving DecidableEq, Repr

/-- Work on tables in memory that a context leaves outstanding (R232, R298, R161): the initial Gauge tables, their
write-back, the marking of an UPDATE record, the derivation of a mask's transposed metadata. -/
inductive Chore where
  | gaugeInit
  | gaugeBack
  | mark (k : Nat)
  | derive (k : Nat)
  deriving DecidableEq, Repr

/-- The mask state of a context (R156 to R160), by index in MASKS. -/
structure MaskState where
  gen : U32 := 0
  digest : U64 := 0
  nextDigest : U64 := 0
  edited : Bool := false
  deriving DecidableEq, Repr

/-- A context (R18, R54, R388). `semBench` is the bench that holds its semaphore storage (R341). `updates` lists the record blocks that UPDATE has done in the step (UPDATE record, block,
written), `cleared` counts the UPDATE records whose next divergence bitmap the step has cleared (R297), `statsDone` lists
those whose statistics the step has written (R292), and `chores` lists the work on tables that is outstanding, in order. `startWait` holds a STEPS value whose run has not
started yet (R298), `releasing` a RELEASE whose commit waits for a CHECKPOINT (R384). -/
structure Ctx where
  phase : Phase := .idle
  saved : Phase := .idle
  savedClosing : Closing := .no
  closing : Closing := .no
  step : U64 := 0
  suspResidue : Bool := false
  suspEcc : Bool := false
  suspDigest : Bool := false
  left : BitVec 24 := 0
  carcassAddr : BitVec 58 := 0
  staged : Staged := .empty
  err : U16 := 0
  active : Option Image := none
  visible : AgVals := {}
  shadow : AgVals := {}
  pend : AgVals := {}
  agPending : BitVec 6 := 0
  words : AgWords := {}
  live : LiveVals := {}
  liveCount : Nat := 0
  cnt : Counters := {}
  maskSel : U32 := 0
  masks : List MaskState := []
  rowSets : List (Nat × TileXY × U32) := []
  layerVa : BitVec 58 := 0
  siteVa : BitVec 58 := 0
  layers : List LayerRec := []
  sites : List SiteRec := []
  layerStats : List GaugeStat := []
  siteStats : List GaugeStat := []
  stns : List StnState := []
  streams : List (List Tile) := []
  insts : List Inst := []
  heldJoins : List (LinkId × CollHdr) := []
  heldPackets : List (U32 × Nat × U64 × List Byte) := []
  pausedBy : List (U32 × Nat) := []
  pausing : List (U32 × Nat) := []
  seqIn : List (U32 × Nat × U32) := []
  seqOut : List (U32 × U32) := []
  areaPackets : List Instr := []
  areaUsed : Nat := 0
  chores : List Chore := []
  startWait : Option (BitVec 24) := none
  updates : List (Nat × Nat × Bool) := []
  cleared : Nat := 0
  statsDone : List Nat := []
  keptPlace : List (Nat × Option (Nat × Nat) × List U32) := []
  keepNext : List Nat := []
  releasing : Bool := false
  wit : Witness := {}
  mmu : Mmu := {}
  dma : Dma := {}
  sems : Vector Sem 1024 := Vector.replicate 1024 {}
  semBench : Option BenchId := none
  hostWaits : Nat := 0
  signals : List HeldSignal := []
  groups : Vector GroupSlot 16 := Vector.replicate 16 {}
  heldRemote : List Instr := []
  saveVa : BitVec 58 := 0
  collVa : BitVec 58 := 0
  collBytes : U64 := 0
  collNeed : U64 := 0
  buddySlot : Bool := false
  saving : Bool := false
  restoring : Bool := false
  saveHeader : List Byte := []
  saveLen : Nat := 0
  busy : Bool := false
  lastCause : Byte := 0
  resets : U16 := 0
  wdt : Vector WdtCfg 4 := #v[⟨1, 0x2710⟩, ⟨0, 0xF4240⟩, ⟨0, 0xF4240⟩, ⟨0, 0⟩]
  wdtExpired : BitVec 4 := 0
  attestVa : BitVec 58 := 0
  attestStatus : AttestStatus := .idle
  attestKind : BitVec 2 := 0
  assigned : Bool := false
  func : FnId := 0
  qmask : BitVec 4 := 0
  deriving DecidableEq, Repr

/-! ## Links (R252 to R259, R469) -/

inductive LinkState where
  | down | training | up | failed
  deriving DecidableEq, Repr

/-- A data flit as sent or to be sent (R253). The last flit of a packet keeps the module it goes to and the whole packet,
for the resending of R257. -/
structure TxFlit where
  vc : Fin 4
  sop : Bool
  eop : Bool
  payload : List Byte
  dst : U64
  packet : List Byte
  deriving DecidableEq, Repr

/-- A link (R252 to R259). `stayDown` holds it DOWN after its RETIRE bit was cleared (R336); `scram` are the scrambler registers of
its transmit lanes and `wire` the bytes of its last slot as each lane carries them (R252); `vc0Out` lists the VC0 flits sent and
not credited, each with the module that a release-ordered signal in it goes to (R349). -/
structure Link where
  state : LinkState := .down
  peerLink : BitVec 4 := 0
  trainFails : BitVec 2 := 0
  disable : Bool := false
  farEnd : Bool := false
  peerUid : U64 := 0
  peerSlot : BitVec 3 := 0
  crcCount : U48 := 0
  replayCount : U48 := 0
  slot : Nat := 0
  crTurn : Nat := 0
  lastVc : Nat := 3
  rxSeq : U16 := 0xFFFF
  rxNak : Bool := false
  nakRepeat : Nat := 0
  nakSeq : U16 := 0
  txSeq : U16 := 0
  replay : List (U16 × TxFlit) := []
  replayPos : Option Nat := none
  txq : List (List TxFlit) := [[], [], [], []]
  credits : List Nat := [32, 1536, 256, 224]
  crSeen : List U16 := [0, 0, 0, 0]
  crBack : List U16 := [0, 0, 0, 0]
  reasm : List (List Byte) := [[], [], [], []]
  delivered : List (Fin 4 × List Byte) := []
  sent : List Byte := []
  stayDown : Bool := false
  scram : List (BitVec 58) := List.replicate 8 0
  wire : List (List Byte) := List.replicate 8 []
  vc0Out : List (Option U64) := []
  deriving DecidableEq, Repr

/-! ## Barriers (R350 to R355) -/

structure Barrier where
  enable : Bool := false
  scope : Bool := false
  owner : CtxId := 0
  tag : U16 := 0
  group : U32 := 0xFFFFFFFF
  mask : Vector U32 16 := Vector.replicate 16 0
  epoch : U32 := 0
  arrived : List (Nat × Option SemId) := []
  heldNext : List (Nat × Option SemId) := []
  deriving DecidableEq, Repr

/-! ## Functions (R406 to R415) -/

/-- An event as raised: code, whether it is a fault of R12, the 40 payload bytes, and the always-on time. -/
structure Event where
  code : U16
  fault : Bool
  payload : List Byte
  time : U64
  deriving DecidableEq, Repr

/-- The function block of a function, and what the device keeps for it: the event ring (R411 to R414), whether PRI has stopped
(R370), the latched high words and the low words of R458 by offset, the data of the last read, the writes held behind one to a
context in reset (R14, R393), and its MSI-X entry and pending bit (R407, R414). -/
structure Func where
  evtBase : BitVec 52 := 0
  en : Bool := false
  irq : Bool := false
  log2 : BitVec 5 := 6
  mod : U16 := 0
  head : U32 := 0
  tail : U32 := 0
  lost : U32 := 0
  held : List Event := []
  owed : Bool := false
  inMod : Bool := false
  msgs : Nat := 0
  priStopped : Bool := false
  latches : List (Nat × U32) := []
  lows : List (Nat × U32) := []
  lastRead : List Byte := []
  heldWrites : List Instr := []
  msixAddr : U64 := 0
  msixData : U32 := 0
  msixMask : Bool := true
  msixPending : Bool := false
  deriving DecidableEq, Repr

/-! ## Device-wide registers -/

/-- The device-wide registers. `wseqIn` holds, by the module that sends, the lowest number not yet dealt with of its writes and
signals, and the higher ones that are (R348, R349). -/
structure Glb where
  uid : U64 := Config.deviceUid
  slot : BitVec 3 := Config.slotStraps
  buddyGib : BitVec 9 := 0x80
  buddyGibInForce : BitVec 9 := 0x80
  buddyLinks : U16 := 0
  lastDomain : BitVec 4 := 0
  lastCause : BitVec 4 := 0
  partBusy : BitVec 4 := 0
  chipBusy : Bool := false
  chipDone : Bool := false
  engBusy : List (UnitRef × Nat × List FnId) := []
  partRst : List (BitVec 4 × Nat × List FnId) := []
  chipCause : Nat := 0
  autoPower : Bool := true
  autoChip : Bool := true
  retireLimit : Byte := 4
  benchRetire : Vector U32 16 := Vector.replicate 16 0
  linkRetire : U16 := 0
  benchFenced : Vector U32 16 := Vector.replicate 16 0
  engineFenced : U32 := 0
  benchRfail : Vector Byte 512 := Vector.replicate 512 0
  linkRfail : Vector Byte 16 := Vector.replicate 16 0
  stkCe : Vector U48 8 := Vector.replicate 8 0
  stkUe : Vector U48 8 := Vector.replicate 8 0
  sramCe : Vector U48 4 := Vector.replicate 4 0
  sramUe : Vector U48 4 := Vector.replicate 4 0
  violCount : U48 := 0
  violLast : U16 := 0
  barStray : U48 := 0
  dmaStray : U48 := 0
  vfEnable : Bool := false
  numVfs : Fin 16 := 0
  wseqIn : List (U64 × U32 × List U32) := []
  deriving DecidableEq, Repr

/-- Management and I3C (R417 to R420), and MGT_RECOVERY (R401). `daaBytes` is what the device sent at its last ENTDAA (R417). -/
structure Mgt where
  recReq : Bool := false
  recReason : Byte := 0
  daValid : Bool := false
  da : BitVec 7 := 0
  werr : Bool := false
  alert : BitVec 5 := 0x10
  alertEn : BitVec 5 := 1
  readPtr : BitVec 24 := 0
  latch : Option (Nat × U32) := none
  hotJoinOn : Bool := true
  hotJoins : Nat := 0
  ibis : List Nat := []
  daaBytes : List Byte := []
  lastRead : List Byte := []
  deriving DecidableEq, Repr

/-- Security (R432 to R438). `keySlot` is the key slot of the firmware that runs; `svnBound` and `revokeBound` are the fuses as
they stood at the boot, which bind until the next (R434); `identityKey` is the private key derived at the boot (R435). -/
structure Sec where
  bootSlot : BitVec 4 := 0
  errA : BitVec 4 := 0
  errB : BitVec 4 := 0
  err : BitVec 4 := 0
  fwVersion : U32 := Config.bootFwVersion
  fwSvn : Byte := Config.bootSvn
  fwHash : List Byte := (List.range 32).map Config.bootFwHashByte
  svn : BitVec 6 := Config.fusedSvn
  keyRevoke : BitVec 4 := Config.fusedKeyRevoke
  rootKeys : Vector (List Byte) 4 := Vector.ofFn (fun k => (List.range 32).map (Config.rootKeyHashByte k.val))
  certVa : BitVec 58 := 0
  keySlot : BitVec 2 := Config.bootKeySlot
  svnBound : BitVec 6 := Config.fusedSvn
  revokeBound : BitVec 4 := Config.fusedKeyRevoke
  identityKey : Option (List Byte) := if Config.fusedRma then none else some (Config.deriveKey Config.fusedSecret)
  debugState : BitVec 2 := if Config.fusedRma then 2 else 0
  debugNext : Option (BitVec 2) := none
  nonce : U64 := Config.debugNonce 0
  nonceDraws : Nat := 1
  lastNonce : Option U64 := none
  flashA : List Byte := Config.flashA
  flashB : List Byte := Config.flashB
  flashEngine : List Byte := Config.flashEngine
  flashRevoke : List Byte := Config.flashRevoke
  queue : List CtxId := []
  deriving DecidableEq, Repr

/-- Power, clocks and pins (R440 to R455). `perst` is PERST# asserted, `forceLow` FORCE_OFF_N low. -/
structure Pwr where
  aoOn : Bool := true
  mainOn : Bool := true
  bootEvent : Nat := 6
  pgood : Bool := true
  refValid : Bool := true
  perst : Bool := false
  pcieUp : Bool := true
  forceLow : Bool := false
  clkMax : Vector (BitVec 5) 4 := Vector.replicate 4 0x1E
  mult : Vector (BitVec 5) 4 := #v[16, 0, 0, 0]
  capW : U16 := 0x030C
  alertT : Byte := 0x69
  throttle : Byte := 0x5F
  temps : Vector U16 40 := Vector.replicate 40 0
  overCrit : List Bool := List.replicate 40 false
  mv : U16 := 0
  ca : U16 := 0
  dw : U16 := 0
  gateIdle : U16 := 0x64
  benchGated : Vector U32 16 := Vector.replicate 16 0
  doubleRefresh : Byte := 0
  time : U64 := 0
  offCause : BitVec 3 := 0
  deriving DecidableEq, Repr

/-- The on-chip stores with an ECC of 8 check bits per 64 data bits (R329): a bench store, a shared slice (16q to 16q + 15
belong to quarter q, R16), the stream buffers of a bench, the replay buffer of a link. -/
inductive SramStore where
  | benchStore (b : BenchId)
  | slice (k : Fin 64)
  | streamBuffer (b : BenchId)
  | replayBuffer (l : LinkId)
  deriving DecidableEq, Repr

/-- A failure of the hardware that has happened and that the next operation to meet it detects or misses (R130, R328,
R329): at a tap, the integer that the unit should have delivered and the one that it did; in a store, the 64-bit word of the
tile read and how many of its bits are wrong. -/
inductive Upset where
  | residue (tap : Nat) (lane : Nat) (vrow : Nat) (exact delivered : Int)
  | sram (store : SramStore) (word : Nat) (bits : Nat)
  deriving DecidableEq, Repr

/-- The module. `pending` is the queue of the commands that wait, first in first out; `draws` counts the free numbers
drawn (log entry 3). Of the 32-byte words of the stacks (R329), `correctable` lists those with one wrong byte, which the code
corrects, `uncorr` those with two, which it detects, and `poison` those written back with the poison syndrome (R332). -/
structure State where
  pending : List Instr := []
  draws : Nat := 0
  ctxs : Vector Ctx 32 := Vector.replicate 32 {}
  links : Vector Link 16 := Vector.replicate 16 {}
  barriers : Vector Barrier 64 := Vector.replicate 64 {}
  funcs : Vector Func 16 := Vector.replicate 16 {}
  glb : Glb := {}
  mgt : Mgt := {}
  sec : Sec := {}
  pwr : Pwr := {}
  routes : List (U64 × Nat × LinkId) := []
  txWait : List (U64 × Fin 4 × List Byte) := []
  loopback : List (Fin 4 × List Byte) := []
  heldBuddy : List (LinkId × RemoteHdr × List Byte) := []
  mem : List Host.Cell := []
  hostMem : List Host.Cell := []
  poison : List Nat := []
  uncorr : List Nat := []
  correctable : List Nat := []
  upsets : List Upset := []
  deriving DecidableEq, Repr

/-- The module right after boot event 6 (R443): every register at its reset value, every byte of the stacks zero, every
link DOWN, BOOTED set. -/
def State.reset : State := {}

end Sys2Proof.Machine
end

