-- ==== Sys2Proof/Machine/Flags.lean ====
section
/-! DEFINITION. Access to a context, violations (R11, R465), alerts (R419), events and event rings (R411 to R416), and
the marks of a suspect step (R24, R30, R334). -/

namespace Sys2Proof.Machine

open Sys2Proof

/-! ## Contexts, links and functions -/

def State.ctx (s : State) (c : CtxId) : Ctx := s.ctxs[c]

def State.setCtx (s : State) (c : CtxId) (x : Ctx) : State := { s with ctxs := s.ctxs.set c x }

def State.modCtx (s : State) (c : CtxId) (f : Ctx → Ctx) : State := s.setCtx c (f (s.ctx c))

def State.link (s : State) (l : LinkId) : Link := s.links[l]

def State.setLink (s : State) (l : LinkId) (x : Link) : State := { s with links := s.links.set l x }

def State.modLink (s : State) (l : LinkId) (f : Link → Link) : State := s.setLink l (f (s.link l))

def State.func (s : State) (f : FnId) : Func := s.funcs[f]

def State.setFunc (s : State) (f : FnId) (x : Func) : State := { s with funcs := s.funcs.set f x }

def State.modFunc (s : State) (f : FnId) (g : Func → Func) : State := s.setFunc f (g (s.func f))

def State.barrier (s : State) (k : BarId) : Barrier := s.barriers[k]

def State.setBarrier (s : State) (k : BarId) (b : Barrier) : State := { s with barriers := s.barriers.set k b }

def State.modBarrier (s : State) (k : BarId) (f : Barrier → Barrier) : State := s.setBarrier k (f (s.barrier k))

def State.modGlb (s : State) (f : Glb → Glb) : State := { s with glb := f s.glb }

def State.modMgt (s : State) (f : Mgt → Mgt) : State := { s with mgt := f s.mgt }

def State.modSec (s : State) (f : Sec → Sec) : State := { s with sec := f s.sec }

def State.modPwr (s : State) (f : Pwr → Pwr) : State := { s with pwr := f s.pwr }

def allCtx : List CtxId := List.finRange 32

def allLinks : List LinkId := List.finRange 16

def allFns : List FnId := List.finRange 16

/-- Applies an operation for each element of a list, in order. -/
def State.each {α : Type} (s : State) (l : List α) (f : α → State → State) : State := l.foldl (fun t a => f a t) s

/-- The quarters of the context's partition; none while it is unassigned (R18, R410). -/
def Ctx.quarters (x : Ctx) : BitVec 4 := if x.assigned then x.qmask else 0

/-! ## Violations -/

def Ctx.violate (x : Ctx) (code : U16) : Ctx :=
  { x with cnt := { x.cnt with viol := satAdd x.cnt.viol 1, violLast := code } }

/-- A violation charged to context `c` (R11). -/
def violate (c : CtxId) (code : U16) (s : State) : State := s.modCtx c (·.violate code)

/-- A violation that names no context (R465). -/
def violateGlb (code : U16) (s : State) : State :=
  s.modGlb (fun g => { g with violCount := satAdd g.violCount 1, violLast := code })

/-- Counts events of one context. -/
def Ctx.count (x : Ctx) (f : Counters → Counters) : Ctx := { x with cnt := f x.cnt }

/-! ## Alerts (R419) -/

/-- Alert bit `n` becomes 1: an IBI when the bit is enabled; nothing when it is 1 already. -/
def raiseAlert (n : Nat) (s : State) : State :=
  if s.mgt.alert.getLsbD n then s
  else s.modMgt (fun m =>
    { m with alert := m.alert ||| BitVec.ofNat 5 (2 ^ n),
             ibis := if m.alertEn.getLsbD n then m.ibis ++ [n] else m.ibis })

def alertRecovery : Nat := 0
def alertThermal : Nat := 1
def alertSupply : Nat := 2
def alertFault : Nat := 3
def alertBooted : Nat := 4

/-- The pin ALERT_N: low while an enabled alert stands (R420). -/
def alertN (m : Mgt) : Bool := m.alert &&& m.alertEn == 0

/-! ## Memory cells -/

/-- What an address that is not listed reads as: 0 (R443 event 5; for host memory log entry 2). -/
def memDefault : Byte := 0

def memGet (m : List Host.Cell) (a : Nat) : Byte := ((m.find? (fun p => p.1 == a)).map (·.2)).getD memDefault

/-- The next `n` bytes from address `a` of a list whose cells all lie at or above `a`. -/
def memTake : Nat → List Host.Cell → Nat → List Byte
  | 0, _, _ => []
  | n + 1, m, a =>
    match m with
    | [] => memDefault :: memTake n [] (a + 1)
    | (k, b) :: t => if k = a then b :: memTake n t (a + 1) else memDefault :: memTake n ((k, b) :: t) (a + 1)

/-- The bytes at `a` to `a + n − 1`. -/
def memRead (m : List Host.Cell) (a n : Nat) : List Byte := memTake n (m.dropWhile (fun p => decide (p.1 < a))) a

/-- The cells of a run of bytes that differ from what an unlisted address reads as. -/
def memCells : Nat → List Byte → List Host.Cell
  | _, [] => []
  | a, b :: bs => if b = memDefault then memCells (a + 1) bs else (a, b) :: memCells (a + 1) bs

/-- Writes `bs` from address `a`, keeping the canonical form. -/
def memWrite (m : List Host.Cell) (a : Nat) (bs : List Byte) : List Host.Cell :=
  m.takeWhile (fun p => decide (p.1 < a)) ++ memCells a bs ++ m.dropWhile (fun p => decide (p.1 < a + bs.length))

/-- The canonical form: addresses strictly rising, and no cell equal to what an unlisted address reads as. -/
def Memory.wf (m : List Host.Cell) : Bool :=
  m.all (fun p => p.2 != memDefault) && decide (m.Pairwise (fun p q => p.1 < q.1))

/-! ## Event rings (R411 to R416) -/

def Func.room (f : Func) : Bool := f.en && decide ((f.tail - f.head).toNat < 2 ^ f.log2.toNat)

/-- The 64 bytes of entry `idx` (R411). -/
def entryBytes (fn : FnId) (log2 : Nat) (idx : U32) (e : Event) : List Byte :=
  let phase := 1 - (idx.toNat >>> log2) % 2
  leBytes 2 e.code.toNat ++ leBytes 1 (phase + 2 * b2n e.fault) ++ leBytes 1 fn.val ++ leBytes 4 idx.toNat ++
    e.payload ++ leBytes 8 e.time.toNat ++ zeroBytes 8

/-- Writes one entry into the ring of `fn` (R412), which has room. -/
def writeEntry (fn : FnId) (e : Event) (s : State) : State :=
  let f := s.func fn
  let l := f.log2.toNat
  let a := f.evtBase.toNat * 4096 + 64 * (f.tail.toNat % 2 ^ l)
  { s with hostMem := memWrite s.hostMem a (entryBytes fn l f.tail e) }.setFunc fn
    { f with tail := f.tail + 1, owed := true }

/-- The message of a function's MSI-X vector: sent, or pending while the vector is masked (R414). -/
def Func.message (f : Func) : Func :=
  if f.msixMask then { f with msixPending := true } else { f with msgs := f.msgs + 1 }

/-- Sends the message that is owed, unless the ring asks for none or moderation withholds it (R414). -/
def sendMsg (fn : FnId) (s : State) : State :=
  s.modFunc fn (fun f =>
    if f.irq && f.owed && !f.inMod then { f.message with owed := false, inMod := f.mod != 0 } else f)

/-- Forty payload bytes from (offset, size, value) fields; the rest is 0 (R416). -/
def payload (fields : List (Nat × Nat × Nat)) : List Byte :=
  fields.foldl (fun p f => spliceBytes p f.1 (leBytes f.2.1 f.2.2)) (zeroBytes 40)

/-- Writes held events while the ring has room, oldest first, each with its message. -/
def writeHeld (fn : FnId) : List Event → State → State
  | [], s => s.modFunc fn (fun f => { f with held := [] })
  | e :: es, s =>
    if (s.func fn).room then writeHeld fn es (sendMsg fn (writeEntry fn e s))
    else s.modFunc fn (fun f => { f with held := e :: es })

/-- R413: room has returned: the held events, then event 0x1901 when events were lost, then a message that a write of HEAD
owes. -/
def drainRing (fn : FnId) (s : State) : State :=
  let s := writeHeld fn (s.func fn).held s
  let f := s.func fn
  let s :=
    if f.lost != 0 && f.room && f.held.isEmpty then
      (writeEntry fn ⟨0x1901, false, payload [(0, 1, 0xFF), (4, 4, f.lost.toNat)], s.pwr.time⟩ s).modFunc fn
        (fun f => { f with lost := 0 })
    else s
  sendMsg fn s

/-- An event for the ring of `fn` (R413): written, held, or lost. -/
def raise (fn : FnId) (code : U16) (fault : Bool) (pl : List Byte) (s : State) : State :=
  let e : Event := ⟨code, fault, pl, s.pwr.time⟩
  let f := s.func fn
  let s :=
    if f.room then sendMsg fn (writeEntry fn e s)
    else if f.held.length < 256 then s.setFunc fn { f with held := f.held ++ [e] }
    else s.setFunc fn { f with lost := satAdd f.lost 1 }
  if fault then raiseAlert alertFault s else s

def fn0 : FnId := 0

/-- Whether VF `f` exists (R409). -/
def fnExists (s : State) (f : FnId) : Bool := f == 0 || (s.glb.vfEnable && decide (f.val ≤ s.glb.numVfs.val))

/-- The function whose ring takes the events of context `c` (R415). -/
def ctxFn (s : State) (c : CtxId) : FnId :=
  let x := s.ctx c
  if x.assigned && fnExists s x.func then x.func else fn0

def ctxEvent (c : CtxId) (code : U16) (fault : Bool) (pl : List Byte) (s : State) : State :=
  raise (ctxFn s c) code fault pl s

/-! ## The marks of a step (R24, R30, R334) -/

/-- A step of the context can be marked suspect: it runs or closes and is not sealed (R23 step 4). -/
def Ctx.inStep (x : Ctx) : Bool := (x.phase == .running || x.phase == .closing) && x.closing != .sealed

/-- A residue mismatch of an operation of the step. -/
def Ctx.markResidue (x : Ctx) : Ctx :=
  let x := x.count (fun k => { k with residue := satAdd k.residue 1 })
  if x.inStep then { x with suspResidue := true } else x

/-- An uncorrectable read of an operation of the context; the accesses that are no operation of the step leave the mark as it
was (R331; log entry 67). -/
def Ctx.markEcc (x : Ctx) : Ctx :=
  let x := x.count (fun k => { k with eccUe := satAdd k.eccUe 1 })
  if x.inStep then { x with suspEcc := true } else x

/-- A digest or packet mismatch: CTX_DIGEST_COUNT counts steps (R334). -/
def Ctx.markDigest (x : Ctx) : Ctx :=
  if x.inStep && !x.suspDigest then
    { x with suspDigest := true, cnt := { x.cnt with digest := satAdd x.cnt.digest 1 } }
  else x

def Ctx.suspect (x : Ctx) : Bool := x.suspResidue || x.suspEcc || x.suspDigest

/-! ## Context resets (R393) -/

/-- A request of a reset of context `c` with CAUSE code `cause` (R403), which LAST_CAUSE takes; a context in reset joins the
reset that runs. -/
def requestCtxReset (c : CtxId) (cause : Nat) (s : State) : State :=
  s.modCtx c (fun x => if x.busy then x else { x with busy := true, lastCause := BitVec.ofNat 8 cause })

end Sys2Proof.Machine
end

