-- ==== Sys2Proof/Machine/Ops.lean ====
section
/-! DEFINITION. The shared operations over memory: ECC and poison (R329 to R333), address translation (R361 to R364), page
faults (R365, R366), host pages (R369, R370), and reading and writing through translated pages. -/

namespace Sys2Proof.Machine

open Sys2Proof

/-! ## Device memory with ECC -/

/-- The 32-byte words that a run of bytes touches (R329). -/
def wordsOf (a n : Nat) : List Nat := if n = 0 then [] else (List.range ((a + n - 1) / 32 + 1 - a / 32)).map (· + a / 32)

def stackOf (dpa : Nat) : StackId := Fin.ofNat 8 (dpa / 2 ^ 36)

def countStkCe (k : StackId) (n : Nat) (s : State) : State :=
  s.modGlb (fun g => { g with stkCe := g.stkCe.set k (satAdd g.stkCe[k] n) })

def countStkUe (k : StackId) (s : State) : State :=
  s.modGlb (fun g => { g with stkUe := g.stkUe.set k (satAdd g.stkUe[k] 1) })

def badWord (s : State) (w : Nat) : Bool := s.poison.contains w || s.uncorr.contains w

def minNat : List Nat → Option Nat
  | [] => none
  | a :: l => some (l.foldl min a)

/-- R330: corrected words are counted for their stack and written back. -/
def correctWords (ws : List Nat) (s : State) : State :=
  let hit := s.correctable.filter (fun w => ws.contains w)
  { (s.each hit (fun w t => countStkCe (stackOf (32 * w)) 1 t)) with
    correctable := s.correctable.filter (fun w => !ws.contains w) }

/-- R331, R332: an uncorrectable read: counted once, one fault 0x1502 for its lowest bad word, the step marked, and the
words written back with the poison syndrome. -/
def reportUe (who : Option CtxId) (bad : List Nat) (s : State) : State :=
  match minNat bad with
  | none => s
  | some w =>
    let k := stackOf (32 * w)
    let pois := s.poison.contains w
    let s := countStkUe k s
    let s := { s with poison := s.poison ++ s.uncorr.filter (fun u => bad.contains u),
                      uncorr := s.uncorr.filter (fun u => !bad.contains u) }
    match who with
    | some c =>
      let st := (s.ctx c).step.toNat
      ctxEvent c 0x1502 true
        (payload [(0, 1, c.val), (1, 1, 2), (2, 2, k.val), (4, 1, b2n pois), (8, 8, st), (0x18, 8, 32 * w)])
        (s.modCtx c (·.markEcc))
    | none =>
      raise fn0 0x1502 true
        (payload [(0, 1, 0xFF), (1, 1, 2), (2, 2, k.val), (4, 1, b2n pois), (0x18, 8, 32 * w)]) s

/-- What a read of the words `ws` does to the state. -/
def eccRead (who : Option CtxId) (ws : List Nat) (s : State) : State :=
  reportUe who (ws.filter (badWord s)) (correctWords ws s)

/-- Word `w` lies wholly within a write of `n` bytes at `a`. -/
def wholeWord (a n w : Nat) : Bool := decide (a ≤ 32 * w) && decide (32 * w + 32 ≤ a + n)

/-- The bytes `bs` at the device physical address `a`; a word written whole loses its poison. -/
def devPut (a : Nat) (bs : List Byte) (s : State) : State :=
  let keep (w : Nat) : Bool := !wholeWord a bs.length w
  { s with mem := memWrite s.mem a bs, poison := s.poison.filter keep, uncorr := s.uncorr.filter keep,
           correctable := s.correctable.filter keep }

/-- A write of `bs` at the device physical address `a`: whole words replace poison, partial words keep it and report the
read (R332). -/
def devWrite (who : Option CtxId) (a : Nat) (bs : List Byte) (s : State) : State :=
  devPut a bs (eccRead who ((wordsOf a bs.length).filter (fun w => !wholeWord a bs.length w)) s)

/-! ## Address translation -/

/-- GLB_BUDDY_GIB in force: the size of the buddy region of each stack in bytes (R360). -/
def buddyBytes (s : State) : Nat := s.glb.buddyGibInForce.toNat / 8 * 2 ^ 30

/-- Whether a device physical address is context memory of the quarters `q` (R18, R360). -/
def inPartition (s : State) (q : BitVec 4) (dpa : Nat) : Bool :=
  decide (dpa < 2 ^ 39) && q.getLsbD (dpa / 2 ^ 37) && decide (dpa % 2 ^ 36 < 2 ^ 36 - buddyBytes s)

/-- The causes of R364. -/
def cNotMapped : Nat := 0
def cWrite : Nat := 1
def cNonCanon : Nat := 2
def cBadPte : Nat := 3
def cOutside : Nat := 4
def cHostDeny : Nat := 5
def cPoisoned : Nat := 6

/-- Bits of a virtual address that index the table of a level (R361). -/
def levelIndex (level va : Nat) : Nat :=
  match level with
  | 3 => fieldOf va 47 39
  | 2 => fieldOf va 38 30
  | 1 => fieldOf va 29 21
  | _ => fieldOf va 20 16

def levelShift (level : Nat) : Nat :=
  match level with
  | 2 => 30
  | 1 => 21
  | _ => 16

/-- A leaf of a level (R362, R364): the cached translation of the 64 KiB page of `va`, or the cause of failure. -/
def leafOf (s : State) (q : BitVec 4) (level pte va : Nat) : Except Nat Tlb :=
  let addr := fieldOf pte 51 8 * 256
  let size := 2 ^ levelShift level
  let host := bitOf pte 3
  if level = 3 then .error cBadPte
  else if addr % size ≠ 0 then .error cBadPte
  else if !host && decide (2 ^ 39 ≤ addr) then .error cBadPte
  else if !host && !inPartition s q addr then .error cOutside
  else .ok ⟨va / 65536, (addr + va % size) / 65536, bitOf pte 2, host⟩

/-- The walk from the table of `level` at `table` (R361 to R364). Answers with the words read. -/
def walk (s : State) (q : BitVec 4) : Nat → Nat → Nat → List Nat → Except Nat Tlb × List Nat
  | level, table, va, ws =>
    if 2 ^ 39 ≤ table then (.error cBadPte, ws)
    else if !inPartition s q table then (.error cOutside, ws)
    else
      let a := table + 8 * levelIndex level va
      let ws := ws ++ [a / 32]
      if badWord s (a / 32) then (.error cPoisoned, ws)
      else
        let pte := leNat (memRead s.mem a 8)
        let next := fieldOf pte 51 8 * 256
        if !bitOf pte 0 then (.error cNotMapped, ws)
        else if bitOf pte 1 then (leafOf s q level pte va, ws)
        else
          match level with
          | 0 => (.error cBadPte, ws)
          | 1 => walk s q 0 next va ws
          | n + 2 => if next % 4096 ≠ 0 then (.error cBadPte, ws) else walk s q (n + 1) next va ws

/-- The cached entry, or a walk, of the page of `va`; a valid entry is cached (R363; log entry 20). -/
def lookupPage (c : CtxId) (va : Nat) (s : State) : Except Nat Tlb × State :=
  let x := s.ctx c
  if 2 ^ 48 ≤ va then (.error cNonCanon, s)
  else
    match (x.mmu.collPages ++ x.mmu.tlb).find? (fun t => t.page == va / 65536) with
    | some t => (.ok t, s)
    | none =>
      let r := walk s x.quarters 3 (x.mmu.root.toNat * 4096) va []
      let s := eccRead (some c) r.2 s
      match r.1 with
      | .ok t => (.ok t, s.modCtx c (fun y => { y with mmu := { y.mmu with tlb := t :: y.mmu.tlb } }))
      | .error e => (.error e, s)

/-! ## Page faults (R365, R366) -/

/-- The first identifier at or after `n` that is not outstanding. -/
def freeId (used : List U16) : Nat → U16 → U16
  | 0, n => n
  | k + 1, n => if used.contains n then freeId used k (n + 1) else n

/-- A failed access: joins an outstanding fault of its cause and page, waits when 64 are outstanding, or takes a new
FAULT_ID and writes event 0x1701. -/
def pageFault (c : CtxId) (req : FaultReq) (cause va : Nat) (write : Bool) (s : State) : State :=
  let x := s.ctx c
  let m := x.mmu
  if m.faults.any (fun f => f.cause == cause && f.page == va / 65536) then
    s.modCtx c (fun y => { y with mmu := { y.mmu with faults := y.mmu.faults.map (fun f =>
      if f.cause == cause && f.page == va / 65536 then { f with reqs := f.reqs ++ [req] } else f) } })
  else if 64 ≤ m.faults.length then
    s.setCtx c { x with mmu := { m with waiting := m.waiting ++ [⟨cause, va, write, req⟩] } }
  else
    let id := freeId (m.faults.map (·.id)) 65 m.nextId
    let s := s.setCtx c { x with mmu := { m with faults := m.faults ++ [⟨id, cause, va / 65536, [req]⟩], nextId := id + 1 } }
    ctxEvent c 0x1701 false
      (payload [(0, 1, c.val), (1, 1, req.kind), (2, 1, cause), (3, 1, b2n write), (4, 2, id.toNat), (8, 8, va),
        (0x10, 4, req.source), (0x18, 8, x.step.toNat)]) s

/-- The accesses that belong to an operation of the step (R331, R364): those of stations, of the tables of Gauge and Witness, and
the markings of UPDATE. DESIGN CHOICE (log entry 67): a copy engine, a carcass load, pre-emption, a remote write and an
attestation report are none. -/
def FaultReq.ofStep (r : FaultReq) : Bool := r.kind == 0 || r.kind == 6 || (r.kind == 5 && r.source != 0x8000)

/-- After an access: one that belongs to no operation of the step marks no step. -/
def keepMark (c : CtxId) (req : FaultReq) (s t : State) : State :=
  if req.ofStep then t else t.modCtx c (fun y => { y with suspEcc := (s.ctx c).suspEcc })

/-- A requester that a page fault, the fault limit or a host page holds (R366, R369). -/
def stopped (x : Ctx) (req : FaultReq) : Bool :=
  x.mmu.faults.any (fun f => f.reqs.contains req) || x.mmu.waiting.any (fun w => w.req == req) ||
    x.mmu.ats.any (fun w => w.req == req)

/-- A requester's work is abandoned: it waits on nothing any more; its outstanding faults stay. -/
def Ctx.forgetReq (x : Ctx) (req : FaultReq) : Ctx :=
  { x with mmu := { x.mmu with
    faults := x.mmu.faults.map (fun f => { f with reqs := f.reqs.filter (· != req) })
    waiting := x.mmu.waiting.filter (fun w => w.req != req)
    ats := x.mmu.ats.filter (fun w => w.req != req) } }

/-! ## Access through pages -/

/-- A page of an access: its number, the byte address of its frame, and whether it is a host page. -/
structure PageMap where
  page : Nat
  base : Nat
  host : Bool
  deriving DecidableEq, Repr

/-- A byte range of an access. -/
structure Span where
  va : Nat
  len : Nat
  deriving DecidableEq, Repr

/-- The first byte of each page that the spans touch, in order, each page once. -/
def spanPages (spans : List Span) : List Nat :=
  spans.foldl (fun acc sp =>
    let p0 := sp.va / 65536
    let n := if sp.len = 0 then 0 else (sp.va + sp.len - 1) / 65536 + 1 - p0
    (List.range n).foldl (fun acc i =>
      let va := if i = 0 then sp.va else (p0 + i) * 65536
      if acc.any (fun v => v / 65536 == va / 65536) then acc else acc ++ [va]) acc) []

/-- The access that met a failed translation stops (R365). -/
def hostWait (c : CtxId) (w : HostWait) (s : State) : State :=
  s.modCtx c (fun y => { y with mmu := { y.mmu with ats := y.mmu.ats ++ [w] } })

/-- What the device reports of ATS and PRI (R368): its smallest translation unit is 2^(12 + STU) bytes. -/
def atsStu : Nat := 4
def atsQueueDepth : Nat := 32
def priCapacity : Nat := 512

/-- The host pages of a context with an outstanding page request. -/
def Ctx.priPages (x : Ctx) : List Nat := ((x.mmu.ats.filter (fun w => w.stage == .asked)).map (·.hostPage)).eraseDups

/-- The outstanding page requests of a function (R368). -/
def priOut (s : State) (fn : FnId) : Nat :=
  (allCtx.filter (fun c => ctxFn s c == fn)).foldl (fun n c => n + (s.ctx c).priPages.length) 0

/-- A page request is issued, or waits while its function has as many outstanding as it may. -/
def priStage (s : State) (c : CtxId) : HostStage := if priOut s (ctxFn s c) < priCapacity then .asked else .queued

/-- The oldest waiting page requests of a context are issued, `n` at most. -/
def askNext : Nat → List HostWait → List HostWait
  | _, [] => []
  | 0, ws => ws
  | n + 1, w :: ws => if w.stage = .queued then { w with stage := .asked } :: askNext n ws else w :: askNext (n + 1) ws

/-- Page requests that waited for room are issued, contexts in order (log entry 50). -/
def askQueued (s : State) : State :=
  s.each allCtx (fun c t =>
    if (t.ctx c).mmu.ats.any (fun w => w.stage == .queued) then
      t.modCtx c (fun x => { x with mmu := { x.mmu with ats := askNext (priCapacity - priOut t (ctxFn t c)) x.mmu.ats } })
    else t)

/-- One page of an access: its frame, or the requester stops. `dev` marks an access of R371. -/
def getPage (c : CtxId) (req : FaultReq) (dev write : Bool) (va : Nat) (s : State) : Option PageMap × State :=
  match lookupPage c va s with
  | (.error e, s) => (none, pageFault c req e va write s)
  | (.ok t, s) =>
    if t.host && dev then (none, pageFault c req cOutside va write s)
    else if write && !t.writable then (none, pageFault c req cWrite va write s)
    else if !t.host then (some ⟨va / 65536, t.frame * 65536, false⟩, s)
    else
      let m := (s.ctx c).mmu
      match m.atc.find? (fun a => a.hostPage.toNat == t.frame) with
      | some a =>
        if (if write then a.canWrite else a.canRead) then (some ⟨va / 65536, a.target.toNat * 65536, true⟩, s)
        else if (s.func (ctxFn s c)).priStopped then (none, pageFault c req cHostDeny va write s)
        else (none, hostWait c ⟨m.pasid, t.frame, va, write, priStage s c, req⟩ s)
      | none => (none, hostWait c ⟨m.pasid, t.frame, va, write, .translation, req⟩ s)

/-- Every page of the list in order; the first that fails stops the requester. -/
def getPages (c : CtxId) (req : FaultReq) (dev write : Bool) : List Nat → List PageMap → State → Option (List PageMap) × State
  | [], acc, s => (some acc, s)
  | va :: vas, acc, s =>
    match getPage c req dev write va s with
    | (some p, s) => getPages c req dev write vas (p :: acc) s
    | (none, s) => (none, s)

/-- All pages that the spans touch, or the requester stops; a requester that is stopped stays so. -/
def access (c : CtxId) (req : FaultReq) (dev write : Bool) (spans : List Span) (s : State) : Option (List PageMap) × State :=
  if stopped (s.ctx c) req then (none, s)
  else
    let r := getPages c req dev write (spanPages spans) [] s
    (r.1, keepMark c req s r.2)

/-- Where a virtual address lies: in a host page or not, and at which address. -/
def resolve (tab : List PageMap) (va : Nat) : Bool × Nat :=
  match tab.find? (fun p => p.page == va / 65536) with
  | some p => (p.host, p.base + va % 65536)
  | none => (false, va)

/-- A span cut at page ends into runs of device or host bytes. -/
def runsOf (tab : List PageMap) : Nat → Nat → Nat → List (Bool × Nat × Nat)
  | 0, _, _ => []
  | fuel + 1, va, len =>
    if len = 0 then []
    else
      let n := min len (65536 - va % 65536)
      let r := resolve tab va
      (r.1, r.2, n) :: runsOf tab fuel (va + n) (len - n)

def spanRuns (tab : List PageMap) (sp : Span) : List (Bool × Nat × Nat) := runsOf tab (sp.len / 65536 + 2) sp.va sp.len

/-- The bytes of a span, as they stand. -/
def readSpan (tab : List PageMap) (s : State) (sp : Span) : List Byte :=
  (spanRuns tab sp).flatMap (fun r => memRead (if r.1 then s.hostMem else s.mem) r.2.1 r.2.2)

/-- The device words that a span touches. -/
def spanWords (tab : List PageMap) (sp : Span) : List Nat :=
  (spanRuns tab sp).flatMap (fun r => if r.1 then [] else wordsOf r.2.1 r.2.2)

/-- Whether a byte of the span is poisoned. -/
def spanBad (tab : List PageMap) (s : State) (sp : Span) : Bool := (spanWords tab sp).any (badWord s)

/-- The state after a read of the spans: corrected and uncorrectable words (R330, R331). -/
def chargeRead (c : CtxId) (tab : List PageMap) (spans : List Span) (s : State) : State :=
  eccRead (some c) (spans.flatMap (spanWords tab)) s

/-- Writes a run of bytes at a virtual address whose pages are in the table. -/
def writeVa (c : CtxId) (tab : List PageMap) (va : Nat) (bs : List Byte) (s : State) : State :=
  ((spanRuns tab ⟨va, bs.length⟩).foldl (fun (st : State × List Byte) r =>
    let now := st.2.take r.2.2
    let t := if r.1 then { st.1 with hostMem := memWrite st.1.hostMem r.2.1 now } else devWrite (some c) r.2.1 now st.1
    (t, st.2.drop r.2.2)) (s, bs)).1

/-- Reads one span through translation: its bytes and whether any is poisoned. -/
def fetchVa (c : CtxId) (req : FaultReq) (dev : Bool) (sp : Span) (s : State) : Option (List Byte × Bool) × State :=
  match access c req dev false [sp] s with
  | (none, s) => (none, s)
  | (some tab, s) => (some (readSpan tab s sp, spanBad tab s sp), keepMark c req s (chargeRead c tab [sp] s))

/-- Writes one span through translation, every page before the first byte. -/
def putVa (c : CtxId) (req : FaultReq) (dev : Bool) (va : Nat) (bs : List Byte) (s : State) : Bool × State :=
  match access c req dev true [⟨va, bs.length⟩] s with
  | (none, s) => (false, s)
  | (some tab, s) => (true, keepMark c req s (writeVa c tab va bs s))

/-- Writes several runs, every page of all of them before the first byte (R367). -/
def putMany (c : CtxId) (req : FaultReq) (dev : Bool) (ws : List (Nat × List Byte)) (s : State) : Bool × State :=
  match access c req dev true (ws.map (fun w => ⟨w.1, w.2.length⟩)) s with
  | (none, s) => (false, s)
  | (some tab, s) => (true, keepMark c req s (ws.foldl (fun t w => writeVa c tab w.1 w.2 t) s))

/-! ## The requesters of R367 -/

def reqStation (st : Nat) : FaultReq := ⟨0, st⟩
def reqCopy (i : Nat) : FaultReq := ⟨1, i⟩
def reqLoad : FaultReq := ⟨2, 0⟩
def reqPreempt : FaultReq := ⟨3, 0⟩
def reqRemote (n : Nat) : FaultReq := ⟨4, n⟩
def reqTable (n : Nat) : FaultReq := ⟨5, n⟩
def reqMarking (i : Nat) : FaultReq := ⟨6, i⟩

/-! ## What stops all work -/

/-- The host reaches the registers: the main domain runs, the PCIe link is up, and no chip reset runs. -/
def hostUp (s : State) : Bool := s.pwr.mainOn && s.pwr.pcieUp && decide (6 ≤ s.pwr.bootEvent) && !s.glb.chipBusy

/-- The device does work: powered, booted, no chip reset, and no power-cycle request standing (R401). -/
def mayWork (s : State) : Bool := s.pwr.mainOn && decide (6 ≤ s.pwr.bootEvent) && !s.glb.chipBusy && !s.mgt.recReq

/-- Quarter bits in common: a partition reset covers the context. -/
def inPartReset (s : State) (x : Ctx) : Bool := x.assigned && (s.glb.partBusy &&& x.qmask) != 0

/-- The context can do work of its own: not in reset, not being saved or restored; a save waits for step 6 (R32). -/
def ctxLive (s : State) (c : CtxId) : Bool :=
  let x := s.ctx c
  mayWork s && !x.busy && (!x.saving || x.phase == .committing) && !x.restoring && !inPartReset s x

/-- Stations of the context run. -/
def stationsRun (s : State) (c : CtxId) : Bool := ctxLive s c && (s.ctx c).phase == .running

/-- A free number (log entry 3). -/
def drawNat (s : State) : Nat × State := (Config.freeNat s.draws, { s with draws := s.draws + 1 })

/-! ## No command waits -/

/-- With no command waiting the always-on clock counts one 20 ns unit of PWR_TIME while the always-on domain is up
(R455; log entry 5). -/
def idle (s : State) : State :=
  if s.pwr.aoOn then { s with pwr := { s.pwr with time := s.pwr.time + 1 } } else s

end Sys2Proof.Machine
end

