-- ==== Sys2Proof/Machine/Port.lean ====
section
/-! DEFINITION. The way of a host write into the control space: who reaches what (R407 to R409, R459), and the order of the
writes of a function, those to a context in reset and those behind them being held (R14, R393). -/

namespace Sys2Proof.Machine

open Sys2Proof

/-- R409: PF0 reaches every context window, an existing VF those of its contexts. -/
def fnReaches (s : State) (fn : FnId) (c : CtxId) : Bool :=
  fn == 0 || (fnExists s fn && (s.ctx c).assigned && (s.ctx c).func == fn)

/-- R14: the writes of a function take effect in order: one that follows a held write is held behind it. -/
def holdWrite (fn : FnId) (cmd : Instr) (s : State) : State := s.modFunc fn (fun f => { f with heldWrites := f.heldWrites ++ [cmd] })

/-- The command `cmd` of a function that writes: held while `wait` or behind a write that is held, else done. -/
def writeInOrder (fn : FnId) (wait : Bool) (cmd : Instr) (act : State → State) (s : State) : State :=
  if wait || !(s.func fn).heldWrites.isEmpty then holdWrite fn cmd s else act s

/-- A write to the window of context `c`: ignored where the function does not reach it, held while the context is in
reset, else done. -/
def ctxPort (fn : FnId) (c : CtxId) (cmd : Instr) (act : State → State) (s : State) : State :=
  if !hostUp s || !fnReaches s fn c then s else writeInOrder fn (s.ctx c).busy cmd act s

/-- A write to the global region: PF0 alone (R459). -/
def glbPort (fn : FnId) (cmd : Instr) (act : State → State) (s : State) : State :=
  if hostUp s && fn == 0 then writeInOrder fn false cmd act s else s

/-- A write to the global region that asks for a reset or a power cycle: it waits for no other write (log entry 7). -/
def rstPort (fn : FnId) (act : State → State) (s : State) : State := if hostUp s && fn == 0 then act s else s

/-- A write to a function block: by the function itself. -/
def fnPort (fn : FnId) (cmd : Instr) (act : State → State) (s : State) : State :=
  if hostUp s && fnExists s fn then writeInOrder fn false cmd act s else s

/-- R11: one write that meets the conditions of several violations is charged with the lowest code. -/
def lowestCode : List U16 → Option U16
  | [] => none
  | c :: cs => some (cs.foldl (fun a b => if b.toNat < a.toNat then b else a) c)

/-- Charges the lowest code of a write, if any. -/
def Ctx.charge (codes : List U16) (x : Ctx) : Ctx :=
  match lowestCode codes with
  | none => x
  | some c => x.violate c

end Sys2Proof.Machine
end

