-- ==== Sys2Proof/Machine/Fp32.lean ====
section
/-! DEFINITION. The FP32 and INT32 lane operations of the vector engine (R195, R196), on the 32 bits of a lane. -/

namespace Sys2Proof.Machine

open Sys2Proof

/-- The value of an FP32 lane, with subnormals read as zero (R76). -/
def fpVal (a : U32) : Val := decodeElem 10 a.toNat

/-- R82 and R83 with the FP32 parameters and mode RNE; overflow to ±Inf, NaN 0x7FC0_0000 (R196). -/
def fpRound (v : Val) : U32 := BitVec.ofNat 32 (toFmt 10 0 none v)

def fpNan : U32 := 0x7FC00000

def Val.neg : Val → Val
  | .fin s m e => .fin (!s) m e
  | .inf s => .inf (!s)
  | .nan => .nan

def Val.isZero : Val → Bool
  | .fin _ m _ => m == 0
  | _ => false

/-- The integer of a finite value in units of 2^g, for g at or below its exponent. -/
def Val.units (s : Bool) (m : Nat) (e g : Int) : Int := Val.sgn s (m <<< (e - g).toNat)

/-- The exact sum; a zero sum is +0 unless both addends are −0 (R196). -/
def Val.add (a b : Val) : Val :=
  match a, b with
  | .nan, _ => .nan
  | _, .nan => .nan
  | .inf s, .inf t => if s = t then .inf s else .nan
  | .inf s, _ => .inf s
  | _, .inf t => .inf t
  | .fin s m e, .fin t n f =>
    let g := min e f
    let z := Val.units s m e g + Val.units t n f g
    if z = 0 then .fin (s && t && m == 0 && n == 0) 0 0 else .fin (z < 0) z.natAbs g

/-- The exact product. -/
def Val.mul (a b : Val) : Val :=
  match a, b with
  | .nan, _ => .nan
  | _, .nan => .nan
  | .inf s, .inf t => .inf (s != t)
  | .inf s, .fin t n _ => if n = 0 then .nan else .inf (s != t)
  | .fin s m _, .inf t => if m = 0 then .nan else .inf (s != t)
  | .fin s m e, .fin t n f => .fin (s != t) (m * n) (e + f)

/-- An exact value from an integer part `q` and whether something non-zero lies below it: the bit below stands for it. -/
def sticky (s : Bool) (q : Nat) (more : Bool) (e : Int) : Val := .fin s (2 * q + b2n more) (e - 1)

def fadd (a b : U32) : U32 := fpRound ((fpVal a).add (fpVal b))
def fsub (a b : U32) : U32 := fpRound ((fpVal a).add (fpVal b).neg)
def fmul (a b : U32) : U32 := fpRound ((fpVal a).mul (fpVal b))
def ffma (a b c : U32) : U32 := fpRound (((fpVal a).mul (fpVal b)).add (fpVal c))

/-- The quotient to 80 bits beyond the divisor's, with its remainder in the bit below. -/
def Val.div (a b : Val) : Val :=
  match a, b with
  | .nan, _ => .nan
  | _, .nan => .nan
  | .inf _, .inf _ => .nan
  | .inf s, .fin t _ _ => .inf (s != t)
  | .fin s _ _, .inf t => .fin (s != t) 0 0
  | .fin s m e, .fin t n f =>
    if n = 0 then (if m = 0 then .nan else .inf (s != t))
    else sticky (s != t) (m <<< 80 / n) (m <<< 80 % n != 0) (e - f - 80)

def fdiv (a b : U32) : U32 := fpRound ((fpVal a).div (fpVal b))

/-- Bits n−1 to 0 of the integer square root of `v`, above the root `r` found so far. -/
def isqrtFrom : Nat → Nat → Nat → Nat
  | 0, _, r => r
  | n + 1, v, r =>
    let r' := r + 2 ^ n
    isqrtFrom n v (if r' * r' ≤ v then r' else r)

/-- ⌊√v⌋. -/
def isqrt (v : Nat) : Nat := isqrtFrom (bitLen v / 2 + 1) v 0

/-- A finite value with an even exponent. -/
def evenExp (m : Nat) (e : Int) : Nat × Int := if e % 2 = 0 then (m, e) else (2 * m, e - 1)

def Val.sqrt : Val → Val
  | .nan => .nan
  | .inf s => if s then .nan else .inf false
  | .fin s m e =>
    if m = 0 then .fin s 0 0
    else if s then .nan
    else
      let p := evenExp m e
      let v := p.1 <<< 80
      let r := isqrt v
      sticky false r (r * r != v) (p.2 / 2 - 40)

def fsqrt (a : U32) : U32 := fpRound (fpVal a).sqrt

def Val.rsqrt : Val → Val
  | .nan => .nan
  | .inf s => if s then .nan else .fin false 0 0
  | .fin s m e =>
    if m = 0 then .inf s
    else if s then .nan
    else
      let p := evenExp m e
      let n := 2 ^ 160 / p.1
      let r := isqrt n
      sticky false r (r * r * p.1 != 2 ^ 160) (-(p.2 / 2) - 80)

def frsqrt (a : U32) : U32 := fpRound (fpVal a).rsqrt

/-- Fraction bits of the exp2 computation. -/
def expPrec : Nat := 96

/-- 2^(0.b1 b2 … bk) in units of 2^−expPrec, from the bits of `f`, least significant first (log entry 21). -/
def exp2Bits : Nat → Nat → Nat → Nat
  | 0, _, r => r
  | k + 1, f, r => exp2Bits k (f / 2) (isqrt ((if f % 2 = 1 then 2 * r else r) <<< expPrec))

/-- 2^v for a finite v: exact for an integer; ±2^−26 and below give 1 with a bit far below it. -/
def exp2Fin (s : Bool) (m : Nat) (e : Int) : Val :=
  if m = 0 then .fin false 1 0
  else if magGt m e 255 0 then (if s then .fin false 1 (-300) else .fin false 1 300)
  else if magGt 1 (-26) m e then (if s then .fin false (2 ^ 40 - 1) (-40) else .fin false (2 ^ 40 + 1) (-40))
  else
    let z := Val.units s m e (-60)
    let n := z / (2 ^ 60 : Nat)
    let f := (z % (2 ^ 60 : Nat)).toNat
    if f = 0 then .fin false 1 n
    else sticky false (exp2Bits 60 f (2 ^ expPrec)) true (n - expPrec)

def Val.exp2 : Val → Val
  | .nan => .nan
  | .inf s => if s then .fin false 0 0 else .inf false
  | .fin s m e => exp2Fin s m e

def fexp2 (a : U32) : U32 := fpRound (fpVal a).exp2

/-- Fraction bits of the log2 computation, and of its result. -/
def logPrec : Nat := 320
def logBits : Nat := 120

/-- The next `k` bits of log2 x for x in [1, 2) in units of 2^−logPrec, after the bits `acc` (log entry 21). -/
def log2Bits : Nat → Nat → Nat → Nat
  | 0, _, acc => acc
  | k + 1, x, acc =>
    let y := (x * x) >>> logPrec
    if y ≥ 2 ^ (logPrec + 1) then log2Bits k (y / 2) (2 * acc + 1) else log2Bits k y (2 * acc)

def Val.log2 : Val → Val
  | .nan => .nan
  | .inf s => if s then .nan else .inf false
  | .fin s m e =>
    if m = 0 then .inf true
    else if s then .nan
    else
      let n : Int := (bitLen m : Int) - 1 + e
      if m = 2 ^ (bitLen m - 1) then .fin (n < 0) n.natAbs 0
      else
        let z : Int := n * (2 ^ logBits : Nat) + log2Bits logBits (m <<< (logPrec - (bitLen m - 1))) 0
        let w := 2 * z + 1
        .fin (w < 0) w.natAbs (-(logBits : Int) - 1)

def flog2 (a : U32) : U32 := fpRound (fpVal a).log2

/-- The lane with subnormals flushed and NaN canonical (R196). -/
def fpFlush (a : U32) : U32 :=
  match fpVal a with
  | .nan => fpNan
  | .fin s m _ => if m = 0 then (if s then 0x80000000 else 0) else a
  | .inf _ => a

def fabsBits (a : U32) : U32 :=
  let f := fpFlush a
  if f = fpNan then f else f &&& 0x7FFFFFFF

def fnegBits (a : U32) : U32 :=
  let f := fpFlush a
  if f = fpNan then f else f ^^^ 0x80000000

/-- An integer in the order of the values, −0 just below +0 (R195). -/
def fpOrder (a : U32) : Int :=
  if a.msb then -((a.toNat % 2 ^ 31 : Nat) : Int) - 1 else (a.toNat : Int)

def fmaxBits (a b : U32) : U32 :=
  let x := fpFlush a
  let y := fpFlush b
  if x = fpNan ∨ y = fpNan then fpNan else if fpOrder x < fpOrder y then y else x

def fminBits (a b : U32) : U32 :=
  let x := fpFlush a
  let y := fpFlush b
  if x = fpNan ∨ y = fpNan then fpNan else if fpOrder y < fpOrder x then y else x

/-- The order of the values, ±0 equal. -/
def fpKey (a : U32) : Int := if a.msb then -((a.toNat % 2 ^ 31 : Nat) : Int) else (a.toNat : Int)

/-- The conditions of AUX: 0 EQ, 1 NE, 2 LT, 3 LE. -/
def condInt (aux : Nat) (x y : Int) : Bool :=
  match aux with
  | 0 => decide (x = y)
  | 1 => decide (x ≠ y)
  | 2 => decide (x < y)
  | _ => decide (x ≤ y)

def fcmpBits (aux : Nat) (a b : U32) : Bool :=
  let x := fpFlush a
  let y := fpFlush b
  if x = fpNan ∨ y = fpNan then aux == 1 else condInt aux (fpKey x) (fpKey y)

/-- FTOI: the integer path of R82 to R84, RNE. -/
def ftoiBits (a : U32) : U32 := BitVec.ofNat 32 (toFmt 8 0 none (fpVal a))

/-- ITOF: FP32 from an INT32, RNE. -/
def itofBits (a : U32) : U32 := fpRound (decodeElem 8 a.toNat)

end Sys2Proof.Machine
end

