-- ==== Sys2Proof/Machine/Accum.lean ====
section
/-! DEFINITION. Exact accumulation: states (R96), ceilings and the anchor (R98, R99), block contributions (R102), joins
(R108), the ACC128 element as a value (R111) and as bytes (R112). -/

namespace Sys2Proof.Machine

open Sys2Proof

/-- The table of R96: 0b00 finite, 0b01 +Inf, 0b10 −Inf, 0b11 NaN; the join is bitwise. -/
def comb (a b : BitVec 2) : BitVec 2 := a ||| b

def combAll (l : List (BitVec 2)) : BitVec 2 := l.foldl comb 0

/-- The state of a value that enters an accumulator. -/
def Val.state : Val → BitVec 2
  | .fin _ _ _ => 0
  | .inf false => 1
  | .inf true => 2
  | .nan => 3

/-- A finite non-zero term as sign, significand and exponent. -/
def Val.term : Val → Option (Bool × Nat × Int)
  | .fin s m e => if m = 0 then none else some (s, m, e)
  | _ => none

/-- The loss of a truncation (R102). -/
inductive Loss where
  | none
  | vanish
  | trunc
  deriving DecidableEq, Repr

/-- Truncation of `z` by `d` bits toward zero (tshift of R108). -/
def tshift (z : Int) (d : Nat) : Int :=
  let mag := z.natAbs >>> d
  if z < 0 then -(mag : Int) else mag

/-- Whether tshift discards a non-zero bit. -/
def tshiftLost (z : Int) (d : Nat) : Bool := z.natAbs % 2 ^ d != 0

/-- A term in units of 2^g, truncated toward zero, and whether bits are lost (first stage of R102). -/
def onGrid (t : Bool × Nat × Int) (g : Int) : Int × Bool :=
  if g ≤ t.2.2 then (Val.sgn t.1 (t.2.1 <<< (t.2.2 - g).toNat), false)
  else
    let d := (g - t.2.2).toNat
    (Val.sgn t.1 (t.2.1 >>> d), t.2.1 % 2 ^ d != 0)

/-- The exponent bound of the largest product of a block: the maximum of bitlen(m) + e (pb of R102). -/
def blockTop (ts : List (Bool × Nat × Int)) : Option Int :=
  ts.foldl (fun a t => maxOpt a (some ((bitLen t.2.1 : Int) + t.2.2))) none

/-- R102: one block of products under anchor `A`; the contribution in units of 2^(A−127), its state and its loss. -/
def blockSum (prods : List Val) (A : Int) : Int × BitVec 2 × Loss :=
  let st := combAll (prods.map Val.state)
  let ts := prods.filterMap Val.term
  match blockTop ts with
  | none => (0, st, .none)
  | some pb =>
    let g := pb - 66
    let parts := ts.map (fun t => onGrid t g)
    let s := sumInt (parts.map (·.1))
    let w := A - 127
    let c : Int := if w ≤ g then s * (2 ^ (g - w).toNat : Nat) else tshift s (w - g).toNat
    let lost := parts.any (·.2) || (decide (g < w) && tshiftLost s (w - g).toNat)
    if lost then (c, st, if c = 0 then .vanish else .trunc) else (c, st, .none)

/-- R98: the U of an MX operand format. -/
def ceilU (f : Nat) : Int :=
  match f with
  | 1 => 9
  | 2 => 16
  | 3 => 5
  | 4 => 3
  | 5 => 3
  | _ => 2

/-- The largest block scale X over the scales that are not 0xFF or poisoned. -/
def maxScale (scales : List Nat) : Option Int :=
  scales.foldl (fun a (s : Nat) => if 255 ≤ s then a else maxOpt a (some ((s : Int) - 127))) none

/-- The largest f − 126 over normal non-zero BF16 encodings. -/
def maxBf16 (raws : List Nat) : Option Int :=
  raws.foldl (fun a (r : Nat) =>
    let f := (r >>> 7) % 256
    if f = 0 ∨ f = 255 then a else maxOpt a (some ((f : Int) - 126))) none

/-- R98: the ceiling of an operand from its block scales (MX, those of slipped blocks left out) or its BF16 encodings. -/
def ceiling (f : Nat) (scales bf16s : List Nat) : Int :=
  if isMx f then
    match maxScale scales with
    | some x => ceilU f + x
    | none => ceilU f - 127
  else if f = fINT8 then 8
  else (maxBf16 bf16s).getD (-125)

/-- R99. -/
def anchorOf (ca cb : Int) : Int := ca + cb + 29

/-- An ACC128 element or a total T as an exact value (R111): 0 is +0. -/
def accVal (A : Int) (v : Int) (st : BitVec 2) : Val :=
  if st = 0 then .fin (v < 0) v.natAbs (A - 127)
  else if st = 1 then .inf false
  else if st = 2 then .inf true
  else .nan

/-- A joined element (R108): its total, its state, and the loss of each tshift. -/
def joinElem (A aOwn aIn : Int) (d : Int) (stOwn : BitVec 2) (vIn : Int) (stIn : BitVec 2) : Int × BitVec 2 × List Loss :=
  let sx := (A - aOwn).toNat
  let sy := (A - aIn).toNat
  let loss (z : Int) (n : Nat) : Loss :=
    if tshiftLost z n then (if tshift z n = 0 then .vanish else .trunc) else .none
  (wrapS 192 (tshift d sx + tshift vIn sy), comb stOwn stIn, [loss d sx, loss vIn sy])

def countVanish (l : List Loss) : Nat := l.countP (· == .vanish)
def countTrunc (l : List Loss) : Nat := l.countP (· == .trunc)

/-! ## ACC128 tiles in memory (R112) -/

def accTileBytes : Nat := 16704

/-- Four states to a byte, element 4i lowest. -/
def packStates : Nat → List (BitVec 2) → List Byte
  | 0, _ => []
  | n + 1, l => BitVec.ofNat 8 (packBits 2 ((l.take 4).map (·.toNat))) :: packStates n (l.drop 4)

def accToBytes (anchor : Int) (segments : Nat) (v : List Int) (st : List (BitVec 2)) : List Byte :=
  leBytes 2 (lowBits 16 anchor) ++ zeroBytes 2 ++ leBytes 4 segments ++ zeroBytes 56 ++ packStates 256 st ++
    v.flatMap (fun z => leBytes 16 (lowBits 128 z))

/-- The element states of a packed area. -/
def unpackStates (bs : List Byte) : List (BitVec 2) :=
  bs.flatMap (fun b => [b.extractLsb' 0 2, b.extractLsb' 2 2, b.extractLsb' 4 2, b.extractLsb' 6 2])

/-- The signed 128-bit integers of a byte string. -/
def unpackV : Nat → List Byte → List Int
  | 0, _ => []
  | n + 1, bs => signedOf 128 (leNat (bs.take 16)) :: unpackV n (bs.drop 16)

/-- Anchor, SEGMENTS as stored, V and states of a stored tile. -/
def accOfBytes (bs : List Byte) : Int × Nat × List Int × List (BitVec 2) :=
  (signedOf 16 (natAt bs 0 2), natAt bs 4 4, unpackV 1024 (bs.drop 0x140), unpackStates ((bs.drop 0x40).take 256))

end Sys2Proof.Machine
end

