-- ==== Sys2Proof/Machine/Image.lean ====
section
/-! DEFINITION. The carcass image: its bytes as records (R43 to R51, R137, R193, R246, R260, R282) and the checks 0x0201 to
0x020F of R52. -/

namespace Sys2Proof.Machine

open Sys2Proof

/-- 0xFFFF_FFFF: no tensor, no mask. -/
def noneIx : Nat := 0xFFFFFFFF

/-! ## Kinds (R42) -/

def kFETCH : Nat := 1
def kCONVERT : Nat := 2
def kSPREAD : Nat := 3
def kMATMUL : Nat := 4
def kACCUM : Nat := 5
def kVECTOR : Nat := 6
def kSCRIBE : Nat := 7
def kREDUCE : Nat := 8
def kUPDATE : Nat := 9
def kSTORE : Nat := 10

/-- The option field of `n` bytes at OPTIONS offset `off`. -/
def Station.o (st : Station) (off n : Nat) : Nat := natAt st.opts off n

/-! ## Bits of MODES (R49) -/

def TensorRec.mode (t : TensorRec) (i : Nat) : Bool := bitOf t.modes i
def mPRED : Nat := 0
def mFRZR : Nat := 1
def mFRZB : Nat := 2
def mFRZA : Nat := 3
def mCB : Nat := 4
def mLR : Nat := 5
def mEMB : Nat := 6
def mOWN : Nat := 7

/-- The MX formats and the rung choice, whose five formats are MX. -/
def isMxR (f : Nat) : Bool := isMx f || f == fRUNG

/-! ## Records -/

def stationOf (b : List Byte) : Station :=
  ⟨natAt b 0 1, natAt b 1 1, natAt b 2 2, natAt b 4 4, natAt b 8 4, (b.drop 16).take 32⟩

def streamOf (b : List Byte) : StreamRec :=
  ⟨natAt b 0 2, natAt b 2 1, natAt b 3 1, natAt b 4 2, natAt b 6 1, natAt b 7 1⟩

def tensorOf (b : List Byte) : TensorRec :=
  { tensorId := natAt b 0 4, format := natAt b 4 1, rank := natAt b 5 1, role := natAt b 6 1, sparse := natAt b 7 1,
    modes := natAt b 8 2, seqShard := natAt b 10 1, mask := natAt b 12 4, valueVa := natAt b 16 8, scaleVa := natAt b 24 8,
    extent := (List.range 4).map (fun i => natAt b (32 + 4 * i) 4),
    stride := (List.range 4).map (fun i => signedOf 32 (natAt b (48 + 4 * i) 4)) }

def maskOf (b : List Byte) : MaskRec := ⟨natAt b 0 8, natAt b 8 8, natAt b 16 4, natAt b 20 4, natAt b 24 1⟩

def updateOf (b : List Byte) : UpdateRec :=
  { rule := natAt b 0 1, flags := natAt b 1 1, hpSet := natAt b 2 1, stateWords := natAt b 3 1, program := natAt b 4 4,
    length := natAt b 8 2, recordVa := natAt b 16 8, statsVa := natAt b 24 8, frozenVa := natAt b 32 8,
    divergeVa := natAt b 40 8, vspan64 := natAt b 48 4, sspan64 := natAt b 52 4, bcBase := natAt b 56 8 }

def policyOf (b : List Byte) : PolicyRec := ⟨natAt b 0 2, BitVec.ofNat 32 (natAt b 4 4)⟩

def groupOf (b : List Byte) : GroupRec := ⟨natAt b 0 4, natAt b 4 2, natAt b 6 1⟩

def placeOf (b : List Byte) : PlaceRec := ⟨natAt b 0 4, natAt b 4 2, natAt b 6 2⟩

/-- A directory entry (R45). -/
structure DirEntry where
  type : Nat
  recBytes : Nat
  offset : Nat
  count : Nat
  deriving DecidableEq, Repr

def dirOf (b : List Byte) (n : Nat) : List DirEntry :=
  (List.range n).map (fun i => ⟨natAt b (0x80 + 16 * i) 2, natAt b (0x82 + 16 * i) 2, natAt b (0x84 + 16 * i) 4,
    natAt b (0x88 + 16 * i) 4⟩)

/-- The records of a section as byte strings; none when the section is absent. -/
def sectionOf (b : List Byte) (dir : List DirEntry) (type : Nat) : List (List Byte) :=
  match dir.find? (fun d => d.type == type) with
  | none => []
  | some d => (List.range d.count).map (fun i => (b.drop (d.offset + i * d.recBytes)).take d.recBytes)

def imageOf (b : List Byte) : Image :=
  let dir := dirOf b (natAt b 0x18 2)
  { arithRev := natAt b 6 2, bytes := natAt b 8 4, generation := BitVec.ofNat 32 (natAt b 12 4),
    qmask := BitVec.ofNat 4 (natAt b 0x1A 1), runSeed := BitVec.ofNat 64 (natAt b 0x20 8), hash := (b.drop 0x40).take 32,
    stations := (sectionOf b dir 1).map stationOf, streams := (sectionOf b dir 2).map streamOf,
    tensors := (sectionOf b dir 3).map tensorOf, masks := (sectionOf b dir 4).map maskOf,
    updates := (sectionOf b dir 5).map updateOf, policy := (sectionOf b dir 6).map policyOf,
    vcode := (sectionOf b dir 7).map (fun r => BitVec.ofNat 64 (leNat r)), groups := (sectionOf b dir 8).map groupOf,
    places := (sectionOf b dir 9).map placeOf }

/-! ## Lookups -/

def Image.tensor (m : Image) (i : Nat) : Option TensorRec := if i = noneIx then none else m.tensors[i]?

def emptyTensor : TensorRec := ⟨0, 0, 0, 0, 0, 0, 0, noneIx, 0, 0, [1, 1, 1, 1], [1, 0, 0, 0]⟩

def emptyStation : Station := ⟨0, 0, 0, noneIx, noneIx, []⟩

def Image.station (m : Image) (i : Nat) : Station := m.stations.getD i emptyStation

/-- The stream that feeds an input port, with its index; each port is fed by at most one (R41). -/
def Image.inStream (m : Image) (st port : Nat) : Option (Nat × StreamRec) :=
  (m.streams.zipIdx.find? (fun p => p.1.dst == st && p.1.dstPort == port)).map (fun p => (p.2, p.1))

/-- The indices of the streams that an output port feeds. -/
def Image.outStreams (m : Image) (st port : Nat) : List Nat :=
  (m.streams.zipIdx.filter (fun p => p.1.src == st && p.1.srcPort == port)).map (·.2)

def Image.fed (m : Image) (st port : Nat) : Bool := (m.inStream st port).isSome

def Image.feeds (m : Image) (st port : Nat) : Bool := !(m.outStreams st port).isEmpty

/-- The format of the stream that feeds an input port; 0 when unfed. -/
def Image.inFmt (m : Image) (st port : Nat) : Nat := ((m.inStream st port).map (fun p => p.2.format)).getD 0

/-- The format of the streams of an output port; 0 when it feeds none. -/
def Image.outFmt (m : Image) (st port : Nat) : Nat :=
  match m.outStreams st port with
  | [] => 0
  | i :: _ => (m.streams[i]?.map (·.format)).getD 0

/-- LAYER_COUNT: one more than the largest LAYER in STATIONS (R310). -/
def Image.layerCount (m : Image) : Nat := m.stations.foldl (fun a s => max a (s.layer + 1)) 0

/-! ## Tensor geometry (R205, R206) -/

def TensorRec.ext (t : TensorRec) (d : Nat) : Nat := t.extent.getD d 1
def TensorRec.str (t : TensorRec) (d : Nat) : Int := t.stride.getD d 0
def TensorRec.nt0 (t : TensorRec) : Nat := ceilDiv (t.ext 0) 32
def TensorRec.nt1 (t : TensorRec) : Nat := ceilDiv (t.ext 1) 32

/-- The bits of WG_MASK that a tensor record implies (R125). -/
def TensorRec.wgMask (t : TensorRec) : Nat := b2n (t.sparse != 0) + 2 * b2n (t.mode mFRZR) + 4 * b2n (t.mode mFRZB)

/-! ## Checks 0x0201 to 0x0208 -/

def check0201 (b : List Byte) : Bool := natAt b 0 4 == 0x53435243 && natAt b 4 2 == 1

def check0202 (b : List Byte) : Bool := natAt b 6 2 == 1

def check0203 (b : List Byte) : Bool :=
  let n := natAt b 8 4
  decide (0x100 ≤ n) && decide (n ≤ 0x4000000) && n % 64 == 0

/-- R43: SHA-256 over the image with bytes 0x40 to 0x5F taken as zero. -/
def imageHash (b : List Byte) : List Byte := sha256 (b.take 0x40 ++ zeroBytes 32 ++ b.drop 0x60)

def check0204 (b : List Byte) : Bool := imageHash b == (b.drop 0x40).take 32

/-- RECORD_BYTES of the assigned section types (R46). -/
def sectionBytes (type : Nat) : Option Nat :=
  match type with
  | 1 => some 64
  | 2 => some 16
  | 3 => some 64
  | 4 => some 32
  | 5 => some 64
  | 6 => some 8
  | 7 => some 8
  | 8 => some 32
  | 9 => some 16
  | _ => none

def DirEntry.ends (d : DirEntry) : Nat := d.offset + d.recBytes * d.count

def entryOk (imageBytes dirEnd : Nat) (d : DirEntry) : Bool :=
  sectionBytes d.type == some d.recBytes && d.offset % 64 == 0 && decide (dirEnd ≤ d.offset) && decide (d.ends ≤ imageBytes)

def disjoint (a b : DirEntry) : Bool :=
  decide (a.ends ≤ b.offset) || decide (b.ends ≤ a.offset) || a.count == 0 || b.count == 0

def pairwise {α : Type} (f : α → α → Bool) : List α → Bool
  | [] => true
  | a :: l => l.all (f a) && pairwise f l

def check0207 (b : List Byte) : Bool :=
  let n := natAt b 0x18 2
  let dir := dirOf b n
  let bytes := natAt b 8 4
  let stations := natAt b 0x10 4
  let streams := natAt b 0x14 4
  let has (t : Nat) : Bool := dir.any (fun d => d.type == t)
  let cnt (t : Nat) : Nat := ((dir.find? (fun d => d.type == t)).map (·.count)).getD 0
  let kind (k : Nat) : Bool := ((sectionOf b dir 1).map stationOf).any (fun s => s.kind == k)
  decide (0x80 + 16 * n ≤ bytes) && dir.all (entryOk bytes (0x80 + 16 * n)) && pairwise disjoint dir &&
    pairwise (fun a b => a.type != b.type) dir && has 1 && cnt 1 == stations && (has 2 || streams == 0) && cnt 2 == streams &&
    has 3 && (has 4 || !((sectionOf b dir 3).map tensorOf).any (fun t => t.sparse != 0)) && (has 5 || !kind kUPDATE) &&
    (has 7 || !kind kVECTOR) && (has 8 || !kind kREDUCE)

def check0208 (b : List Byte) : Bool :=
  let s := natAt b 0x10 4
  let m := natAt b 0x14 4
  let n := natAt b 0x18 2
  decide (1 ≤ s) && decide (s ≤ 65536) && decide (m ≤ 262144) && decide (3 ≤ n) && decide (n ≤ 9)

/-! ## Check 0x0209 -/

/-- Numbers of input and output ports of a kind (R42). -/
def portsOf (k : Nat) : Nat × Nat :=
  match k with
  | 1 => (0, 3)
  | 2 => (2, 2)
  | 3 => (4, 2)
  | 4 => (4, 1)
  | 5 => (2, 2)
  | 6 => (3, 2)
  | 7 => (2, 1)
  | 8 => (1, 1)
  | 9 => (1, 0)
  | 10 => (3, 0)
  | _ => (0, 0)

/-- The streams whose stations exist: only these are counted by checks 0x020A to 0x020D (R52). -/
def Image.known (m : Image) : List StreamRec :=
  m.streams.filter (fun r => decide (r.src < m.stations.length) && decide (r.dst < m.stations.length))

def streamOk (m : Image) (r : StreamRec) : Bool :=
  decide (r.srcPort ≤ 2) && decide (r.dstPort ≤ 3) && decide (2 ≤ r.depth) && decide (r.depth ≤ 64) && decide (1 ≤ r.format) &&
    decide (r.format ≤ 13) &&
    (if r.src < m.stations.length ∧ r.dst < m.stations.length then
      decide (r.srcPort < (portsOf (m.station r.src).kind).2) && decide (r.dstPort < (portsOf (m.station r.dst).kind).1)
    else true)

def tensorOk (t : TensorRec) : Bool :=
  decide (1 ≤ t.format) && decide (t.format ≤ 13) && decide (1 ≤ t.rank) && decide (t.rank ≤ 4) && decide (t.role ≤ 4) &&
    decide (t.sparse ≤ 4) && (t.format != fRUNG || t.role == 2) && t.extent.all (fun e => e != 0) &&
    (t.extent.drop t.rank).all (fun e => e == 1) && decide (t.seqShard ≤ 3) && (t.seqShard == 0 || t.role == 0) &&
    (t.role != 0 || decide (t.ext 1 ≤ 2 ^ 20)) &&
    (!(isMxR t.format || t.format == fCODEBOOK) || t.sparse != 0 ||
      (t.str 0 == 1 && (t.stride.drop 1).all (fun x => x % 32 == 0)))

def zeroOrigin (st : Station) : Bool := st.o 4 16 == 0

/-- The conditions of R210, R211, R216, R217 and R220 on a FETCH or STORE. -/
def fetchStoreOk (m : Image) (st : Station) (store : Bool) : Bool :=
  decide (st.o 0 1 ≤ 1) && decide (st.o 1 1 ≤ 1) && decide (st.o 2 1 ≤ 3) && ((st.o 2 1 != 0) == (st.tensor2 != noneIx)) &&
    (match m.tensor st.tensor2 with
      | some x => x.format == fINT32 && x.rank == 1 && x.sparse == 0
      | none => true) &&
    (match m.tensor st.tensor with
      | none => true
      | some t =>
        let o0 := signedOf 32 (st.o 4 4)
        (!isMxR t.format || (o0 % 32 == 0 && (o0 == 0 || t.ext 0 % 32 == 0))) &&
        (!(t.format == fACC128 || t.sparse != 0) || zeroOrigin st) &&
        (if store then st.o 1 1 == 0 || t.format == fINT32 || t.format == fACC128
         else st.o 1 1 == 0 || !(isMxR t.format || t.format == fCODEBOOK || t.sparse != 0)))

def convertOk (st : Station) : Bool :=
  let f := st.o 0 1
  decide (1 ≤ f) && decide (f ≤ 13) && decide (st.o 1 1 ≤ 1) && decide (st.o 2 1 ≤ 2) && decide (st.o 3 1 ≤ 1) &&
    (st.o 3 1 == 0 || isMxR f) && (!(st.o 1 1 == 1 || f == fRUNG || st.o 3 1 == 1) || st.tensor != noneIx)

def matmulOk (m : Image) (st : Station) : Bool :=
  decide (st.o 0 1 ≤ 2) && decide (st.o 1 1 ≤ 7) && decide (st.o 2 1 ≤ 1) && st.tensor2 != noneIx &&
    (st.o 0 1 != 2 ||
      (match m.tensor st.tensor with
        | some t => st.o 1 1 == t.wgMask
        | none => true))

def accumOk (st : Station) : Bool :=
  decide (1 ≤ st.o 0 1) && decide (st.o 0 1 ≤ 12) && decide (st.o 1 1 ≤ 1) && decide (st.o 2 1 ≤ 2) &&
    (st.o 1 1 == 0 || st.tensor != noneIx)

/-! ### Vector programs (R193, R199, R303) -/

def vecOpc (w : U64) : Nat := fieldOf w.toNat 63 56
def vecAux (w : U64) : Nat := fieldOf w.toNat 35 32
def vecRecOf (w : U64) : VecRec :=
  { mm := BitVec.ofNat 2 (fieldOf w.toNat 55 54), qp := BitVec.ofNat 3 (fieldOf w.toNat 53 51),
    vd := BitVec.ofNat 5 (fieldOf w.toNat 50 46), va := BitVec.ofNat 5 (fieldOf w.toNat 45 41),
    vb := BitVec.ofNat 5 (fieldOf w.toNat 40 36), aux := BitVec.ofNat 4 (vecAux w), imm := w.truncate 32 }

def vecOpcKnown (o : Nat) : Bool :=
  decide (o ≤ 6) || (decide (0x10 ≤ o) && decide (o ≤ 0x2A)) || (decide (0x30 ≤ o) && decide (o ≤ 0x34)) ||
    (decide (0x38 ≤ o) && decide (o ≤ 0x3B)) || (decide (0x40 ≤ o) && decide (o ≤ 0x43)) || o == 0xFF

/-- The AUX values that an opcode defines (R195, R198, R199). -/
def vecAuxOk (o a : Nat) : Bool :=
  match o with
  | 0x01 => decide (a ≤ 2)
  | 0x02 => decide (a ≤ 1)
  | 0x04 => decide (a ≤ 6)
  | 0x18 => decide (a ≤ 3)
  | 0x2A => decide (a ≤ 3)
  | 0x30 => decide (a ≤ 3)
  | 0x31 => decide (a ≤ 3)
  | 0x32 => decide (a ≤ 3)
  | 0x33 => decide (a ≤ 7)
  | 0x34 => a % 8 < 4
  | 0x38 => a == 0 || a == 4
  | 0x39 => a == 0 || a == 4
  | _ => true

/-- The opcodes whose destination is a predicate. -/
def vecPredDst (o : Nat) : Bool := o == 0x18 || o == 0x2A || (decide (0x40 ≤ o) && decide (o ≤ 0x43))

/-- The fields that name a predicate source: VA of QAND, QOR and QNOT, VB of QAND, QOR and the scans. -/
def vecPredSrcOk (o : Nat) (w : U64) : Bool :=
  let va := fieldOf w.toNat 45 41
  let vb := fieldOf w.toNat 40 36
  (!(decide (0x40 ≤ o) && decide (o ≤ 0x42)) || decide (va < 8)) && (!(o == 0x40 || o == 0x41 || o == 0x3A || o == 0x3B) || decide (vb < 8))

def vecRecordOk (w : U64) : Bool :=
  let o := vecOpc w
  vecOpcKnown o && fieldOf w.toNat 55 54 != 3 && vecAuxOk o (vecAux w) && vecPredSrcOk o w &&
    (!vecPredDst o || (fieldOf w.toNat 50 49 == 0 && fieldOf w.toNat 48 46 != 0))

/-- The records of a program, or `none` when it reaches beyond VECTOR_CODE (check 0x020E). -/
def Image.program (m : Image) (start len : Nat) : Option (List U64) :=
  if start + len ≤ m.vcode.length then some ((m.vcode.drop start).take len) else none

/-- The records before the first VEND, and those after it. -/
def bodyOf (p : List U64) : List U64 := p.takeWhile (fun w => vecOpc w != 0xFF)
def finalOf (p : List U64) : List U64 := (p.dropWhile (fun w => vecOpc w != 0xFF)).drop 1

/-- The records of a program that lie in VECTOR_CODE. -/
def Image.code (m : Image) (start len : Nat) : List U64 := (m.vcode.drop start).take len

def vectorOk (m : Image) (i : Nat) (st : Station) : Bool :=
  let p := m.code (st.o 0 4) (st.o 4 2)
  let p1 := st.o 12 1
  let p2 := st.o 13 1
  let out1 := m.feeds i 1
  let mode (a : Nat) : Nat := if a = 1 then p1 else if a = 2 then p2 else 0
  decide (1 ≤ st.o 4 2) && decide (st.o 6 1 ≤ 1) && decide (st.o 7 1 ≤ 2) && decide (st.o 8 1 ≤ 1) && decide (st.o 9 1 ≤ 2) &&
    decide (st.o 10 1 ≤ 1) && decide (st.o 11 1 ≤ 2) && decide (p1 ≤ 1) && decide (p2 ≤ 1) && (out1 == (st.tensor2 != noneIx)) &&
    decide ((p.filter (fun w => vecOpc w == 0xFF)).length ≤ 1) && (!p.any (fun w => vecOpc w == 0xFF) || out1) &&
    (!out1 || p.any (fun w => vecOpc w == 0xFF) || decide (p.length < st.o 4 2)) &&
    p.all (fun w => vecOpc w != 1 || m.fed i (vecAux w)) &&
    (finalOf p).all (fun w => vecOpc w != 1 || (vecAux w != 0 && mode (vecAux w) == 1)) &&
    (finalOf p).all (fun w => vecOpc w != 2 || vecAux w == 1) &&
    (bodyOf p).all (fun w => vecOpc w != 2 || vecAux w == 0)

/-- R303: the checks of an update program. -/
def updateProgramOk (u : UpdateRec) (p : List U64) : Bool :=
  p.all (fun w => vecOpc w != 0xFF) &&
    (u.stateWords == 1 ||
      p.all (fun w => (vecOpc w != 1 || vecAux w != 2) && (vecOpc w != 2 || vecAux w != 1)))

/-! ### SCRIBE (R154, R172) -/

/-- R172: a factor of the predictor. -/
def factorOk (t : TensorRec) : Bool := t.sparse == 0 && isMx t.format

/-- A condition on two tensors that both stand in TENSORS; an index beyond it fails check 0x020E. -/
def bothOk (a b : Option TensorRec) (p : TensorRec → TensorRec → Bool) : Bool := a.all (fun x => b.all (p x))

def scribeOk (m : Image) (i : Nat) (st : Station) : Bool :=
  let op := st.o 0 1
  let w := m.tensor st.tensor
  let t2 := m.tensor st.tensor2
  let v := m.tensor (st.o 4 4)
  decide (op ≤ 3) && w.all (fun w => w.role == 1) && (op % 2 == 1 || !m.fed i 1) && ((op % 2 == 0) == (st.tensor2 != noneIx)) &&
    (if op = 0 then
      w.all (fun w => w.mode mPRED) && t2.all (fun u => factorOk u && decide (u.ext 1 ≤ 64)) &&
      v.all (fun v => factorOk v && decide (v.ext 0 ≤ 64)) && bothOk w t2 (fun w u => u.ext 0 == w.ext 0) &&
      bothOk w v (fun w v => v.ext 1 == w.ext 1) && bothOk t2 v (fun u v => u.ext 1 == v.ext 0)
    else
      w.all (fun w => w.sparse != 0) &&
      (op != 2 || (t2.all (fun g => g.role == 2 && g.sparse == 0) && bothOk w t2 (fun w g => g.extent == w.extent))))

/-! ### REDUCE and UPDATE (R261, R281, R283) -/

def groupOk (g : GroupRec) : Bool :=
  decide (1 ≤ g.size) && decide (g.size ≤ 4096) && decide (g.width ≤ 1) && (g.width != 0 || decide (g.size ≤ 128))

def reduceOk (m : Image) (st : Station) : Bool :=
  let thin := st.o 1 1
  let r := st.o 2 1
  let va := st.o 8 8
  decide (st.o 0 1 ≤ 2) && decide (thin ≤ 1) && (thin == 1 || (r == 0 && va == 0)) &&
    (thin == 0 ||
      (st.o 0 1 == 0 && decide (1 ≤ r) && decide (r ≤ 32) && va % 64 == 0 &&
        (match m.tensor st.tensor with
          | some w => w.role == 1 && w.rank == 2 && w.mode mLR && decide (r ≤ min (w.ext 0) (w.ext 1))
          | none => true)))

/-- The REDUCE that feeds an UPDATE station. -/
def Image.feeder (m : Image) (i : Nat) : Option Station := (m.inStream i 0).map (fun p => m.station p.2.src)

/-- R281: the feeder of an UPDATE station, as far as its tensor and its record stand in the image. -/
def feederOk (m : Image) (i : Nat) (st : Station) (u : Option UpdateRec) : Bool :=
  match m.feeder i with
  | none => false
  | some r =>
    r.kind == kREDUCE && r.tensor == st.tensor &&
      (match m.tensor st.tensor, u with
        | some w, some u => r.o 0 1 == (if w.mode mOWN && u.rule != 2 then 1 else 0)
        | some w, none => decide (r.o 0 1 ≤ b2n (w.mode mOWN))
        | none, _ => decide (r.o 0 1 ≤ 1))

def updateOk (m : Image) (i : Nat) (st : Station) (u : UpdateRec) : Bool :=
  decide (u.rule ≤ 4) && decide (u.hpSet ≤ 63) && decide (fieldOf u.flags 3 2 ≤ 2) &&
    (match u.rule with
      | 1 => u.stateWords == 2
      | 4 => decide (u.stateWords ≤ 1)
      | _ => u.stateWords == 1) &&
    (if u.rule = 4 then decide (1 ≤ u.length) else u.program == 0 && u.length == 0) &&
    (!bitOf u.flags 0 || u.rule == 2) && (u.rule != 2 || u.statsVa != 0) && u.recordVa != 0 && u.divergeVa != 0 && u.vspan64 != 0 && u.recordVa % 64 == 0 && u.divergeVa % 64 == 0 && u.statsVa % 64 == 0 &&
    (match m.tensor st.tensor with
      | none => true
      | some w =>
        w.role == 1 && w.format != fACC128 && w.format != fRUNG && (!bitOf u.flags 0 || w.mode mOWN) &&
        (u.rule != 2 || (w.rank == 2 && w.sparse == 0 && !w.mode mEMB)) &&
        (!w.mode mEMB || (w.rank == 2 && u.rule != 2 && u.statsVa != 0)) &&
        (u.statsVa != 0) == (u.rule == 2 || w.mode mEMB) && (u.frozenVa != 0) == (w.mode mFRZR || w.mode mFRZB) &&
        (u.sspan64 == 0 || isMx w.format) &&
        (match m.feeder i with
          | none => false
          | some r => (u.rule != 4 || w.mode mOWN || ((m.groups[r.o 4 4]?).map (·.size)).getD 1 == 1))) &&
    (u.rule != 4 || updateProgramOk u (m.code u.program u.length))

def stationOk (m : Image) (i : Nat) (st : Station) : Bool :=
  let needs := st.tensor != noneIx
  match st.kind with
  | 1 => needs && fetchStoreOk m st false
  | 2 => convertOk st
  | 3 => decide (st.o 0 1 ≤ 1)
  | 4 => needs && matmulOk m st
  | 5 => accumOk st
  | 6 => needs && vectorOk m i st
  | 7 => needs && scribeOk m i st
  | 8 => needs && reduceOk m st
  | 9 => needs && feederOk m i st m.updates[st.o 0 4]? && m.updates[st.o 0 4]?.all (updateOk m i st)
  | 10 => needs && fetchStoreOk m st true
  | _ => false

/-- The identifiers of R466. -/
def fieldIdKnown (i : Nat) : Bool :=
  i == 1 || (decide (0x10 ≤ i) && decide (i ≤ 0x14)) || (decide (0x20 ≤ i) && decide (i ≤ 0x22)) || (decide (0x30 ≤ i) && decide (i ≤ 0x50)) ||
    (decide (0x60 ≤ i) && decide (i ≤ 0x67)) || (decide (0x100 ≤ i) && decide (i < 0x240))

/-- Bench `b` lies in the quarters `q`. -/
def benchIn (q : BitVec 4) (b : Nat) : Bool := q.getLsbD (b / 128)

def placesOk (m : Image) : Bool :=
  m.places.all (fun p =>
    (!decide (p.station < m.stations.length) || bitOf (m.station p.station).flags 1) && decide (p.first ≤ p.last) &&
      decide (p.last < 512) &&
      (List.range 512).any (fun b => decide (p.first ≤ b) && decide (b ≤ p.last) && benchIn m.qmask b)) &&
    pairwise (fun a b => a.station != b.station) m.places &&
    m.stations.zipIdx.all (fun s => !bitOf s.1.flags 1 || m.places.any (fun p => p.station == s.2))

def masksOk (m : Image) : Bool := m.masks.all (fun k => k.metaVa % 64 == 0 && decide (k.tSource ≤ 1))

def check0209 (m : Image) : Bool :=
  m.stations.all (fun s => decide (1 ≤ s.kind) && decide (s.kind ≤ 10)) && m.streams.all (streamOk m) && m.tensors.all tensorOk &&
    pairwise (fun a b => a.tensorId != b.tensorId) m.tensors && m.groups.all groupOk && m.policy.all (fun p => fieldIdKnown p.fieldId) &&
    masksOk m && placesOk m && m.vcode.all vecRecordOk && m.stations.zipIdx.all (fun s => stationOk m s.2 s.1) &&
    m.updates.zipIdx.all (fun u => (m.stations.filter (fun s => s.kind == kUPDATE && s.o 0 4 == u.2)).length == 1)

/-! ## Checks 0x020A to 0x020C -/

/-- The required ports of a station: those that must be fed, and those that must feed (R42, R154). -/
def requiredPorts (m : Image) (i : Nat) (st : Station) : List Nat × List Nat :=
  let fmt := ((m.tensor st.tensor).map (·.format)).getD 0
  let sparse := ((m.tensor st.tensor).map (·.sparse)).getD 0
  let mxIn (p : Nat) : Bool := isMxR (m.inFmt i p)
  let sel (b : Bool) (p : Nat) : List Nat := if b then [p] else []
  match st.kind with
  | 1 => ([], [0] ++ sel (isMxR fmt) 1 ++ sel (sparse != 0) 2)
  | 2 => ([0] ++ sel (mxIn 0) 1, [0] ++ sel (isMxR (st.o 0 1)) 1)
  | 3 => ([0, 2] ++ sel (mxIn 0) 1, [0] ++ sel (mxIn 0) 1)
  | 4 => ([0, 2] ++ sel (mxIn 0) 1 ++ sel (mxIn 2) 3, [0])
  | 5 => ([0], [])
  | 6 => ([0], [0])
  | 7 => ([0] ++ sel (st.o 0 1 == 1 && (sparse == 1 || sparse == 2)) 1, [0])
  | 8 => ([0], [0])
  | 9 => ([0], [])
  | 10 => ([0] ++ sel (isMxR fmt) 1 ++ sel (sparse != 0) 2, [])
  | _ => ([], [])

def check020A (m : Image) : Bool :=
  let k := { m with streams := m.known }
  m.stations.zipIdx.all (fun s =>
      let r := requiredPorts k s.2 s.1
      r.1.all (k.fed s.2) && r.2.all (k.feeds s.2) && (s.1.kind != kACCUM || k.feeds s.2 0 || k.feeds s.2 1)) &&
    pairwise (fun a b => !(a.dst == b.dst && a.dstPort == b.dstPort)) k.streams

def check020B (m : Image) : Bool :=
  let k := { m with streams := m.known }
  m.known.all (fun r => decide ((k.outStreams r.src r.srcPort).length ≤ 8))

/-- Removes stations without an incoming stream until none is left to remove. -/
def peel : Nat → List Nat → List StreamRec → List Nat
  | 0, nodes, _ => nodes
  | fuel + 1, nodes, edges =>
    let free := nodes.filter (fun n => !edges.any (fun e => e.dst == n))
    if free.isEmpty then nodes
    else peel fuel (nodes.filter (fun n => !free.contains n)) (edges.filter (fun e => !free.contains e.src))

def check020C (m : Image) : Bool :=
  m.known.all (fun r => r.src != r.dst) && (peel m.stations.length (List.range m.stations.length) m.known).isEmpty

/-! ## Check 0x020D -/

/-- The codes of a stream of metadata, row sets or candidates, whose tiles have none of the formats of R50: not 0x0D, whose three
places R50 names, not CODEBOOK (R81) and not ACC128 (R468); log entry 48. -/
def metaFmt (f : Nat) : Bool := decide (1 ≤ f) && decide (f ≤ 10)

/-- Whether output port `p` of a station emits format `f` (R42, R50, R81, R111, R192, R261, R468). -/
def emits (m : Image) (i : Nat) (st : Station) (p f : Nat) : Bool :=
  match st.kind with
  | 1 => if p = 2 then metaFmt f else (m.tensor st.tensor).all (fun t => f == t.format && (p == 0 || isMxR f))
  | 2 => f == st.o 0 1 && f != fACC128 && f != fCODEBOOK && (p == 0 || isMxR f)
  | 3 => f == m.inFmt i 0 && f != fACC128 && (p == 0 || isMxR f)
  | 4 => f == fACC128
  | 5 => if p = 0 then f == fACC128 else f == st.o 0 1 && f != fCODEBOOK
  | 6 => decide (f ≤ 10)
  | 7 => metaFmt f
  | 8 => if st.o 0 1 = 2 then f == m.inFmt i 0 && decide (f ≤ 10) else f == fFP32 || f == fBF16
  | _ => true

/-- A CODEBOOK stream comes from the VAL port of a FETCH, directly or through one SPREAD (R81). -/
def codebookSource (m : Image) (i p : Nat) : Bool :=
  let st := m.station i
  if st.kind = kFETCH then p == 0
  else if st.kind = kSPREAD then
    (match m.inStream i 0 with
      | some (_, r) => (m.station r.src).kind == kFETCH && r.srcPort == 0
      | none => false)
  else false

/-- Whether input port `p` of a station accepts format `f`. -/
def accepts (m : Image) (i : Nat) (st : Station) (p f : Nat) : Bool :=
  let pair : Bool := isMxR f && f == m.inFmt i (p - 1)
  match st.kind with
  | 2 => if p = 0 then f != fCODEBOOK else pair
  | 3 => if p = 0 then f != fACC128 else if p = 1 then pair else metaFmt f
  | 4 =>
    if p = 1 ∨ p = 3 then pair
    else if p = 2 ∧ f = fCODEBOOK then st.o 2 1 == 1
    else (isMxR f || f == fINT8 || f == fBF16) && (p == 0 || st.o 2 1 == 0)
  | 5 => f == fACC128
  | 6 => f != fCODEBOOK
  | 7 => if p = 1 then metaFmt f else f != fCODEBOOK && f != fACC128
  | 8 => if st.o 0 1 = 2 then f != fACC128 && f != fCODEBOOK else f == fACC128 || f == fFP32 || f == fBF16 || isMxR f
  | 9 => f == fFP32 || f == fBF16
  | 10 => if p = 2 then metaFmt f else f != fCODEBOOK && (m.tensor st.tensor).all (fun t => f == t.format && (p == 0 || isMxR f))
  | _ => true

/-- The pairs of R120. -/
def pairOk (a b : Nat) : Bool := (a == fINT8) == (b == fINT8) || b == fCODEBOOK

/-- The origin of a rung-format stream that leaves station `i` (R50). -/
def rungOrigin (m : Image) : Nat → Nat → Nat
  | 0, i => i
  | fuel + 1, i =>
    if (m.station i).kind = kSPREAD then
      match m.inStream i 0 with
      | some (_, r) => rungOrigin m fuel r.src
      | none => i
    else i

def check020D (m : Image) : Bool :=
  let k := { m with streams := m.known }
  k.streams.all (fun r =>
      emits k r.src (k.station r.src) r.srcPort r.format && accepts k r.dst (k.station r.dst) r.dstPort r.format &&
      (r.format != fCODEBOOK || codebookSource k r.src r.srcPort)) &&
    pairwise (fun a b => !(a.src == b.src && a.srcPort == b.srcPort) || a.format == b.format) k.streams &&
    m.stations.zipIdx.all (fun s =>
      let st := s.1
      (st.kind != kMATMUL || !k.fed s.2 0 || !k.fed s.2 2 || pairOk (k.inFmt s.2 0) (k.inFmt s.2 2)) &&
      (st.kind != kVECTOR || st.o 10 1 == 0 || st.tensor2 != noneIx) &&
      (st.kind != kACCUM || st.o 0 1 != fCODEBOOK) && (st.kind != kCONVERT || (st.o 0 1 != fACC128 && st.o 0 1 != fCODEBOOK)) &&
      (st.kind != kSTORE || k.inFmt s.2 0 != fRUNG ||
        (match k.inStream s.2 0 with
          | some (_, r) => (k.station (rungOrigin k m.stations.length r.src)).layer == st.layer
          | none => true)))

/-! ## Checks 0x020E and 0x020F -/

def ixOk (i n : Nat) : Bool := i == noneIx || decide (i < n)

def check020E (m : Image) : Bool :=
  m.streams.all (fun r => decide (r.src < m.stations.length) && decide (r.dst < m.stations.length)) &&
    m.tensors.all (fun t => if t.sparse = 0 then ixOk t.mask m.masks.length else decide (t.mask < m.masks.length)) &&
    m.places.all (fun p => decide (p.station < m.stations.length)) &&
    m.updates.all (fun u => u.rule != 4 || decide (u.program + u.length ≤ m.vcode.length)) &&
    m.stations.all (fun st =>
      ixOk st.tensor m.tensors.length && ixOk st.tensor2 m.tensors.length &&
      (match st.kind with
        | 6 => decide (st.o 0 4 + st.o 4 2 ≤ m.vcode.length)
        | 7 => st.o 0 1 != 0 || decide (st.o 4 4 < m.tensors.length)
        | 8 => decide (st.o 4 4 < m.groups.length)
        | 9 => decide (st.o 0 4 < m.updates.length)
        | _ => true))

/-- The modes of R67 in the order of its table: CB, S24, T24, B16, UN, PRED, FRZR, FRZB, FRZA, OWN, LR, EMB. -/
def modeSet (t : TensorRec) : List Bool :=
  [t.mode mCB, t.sparse == 1, t.sparse == 2, t.sparse == 3, t.sparse == 4, t.mode mPRED, t.mode mFRZR, t.mode mFRZB,
    t.mode mFRZA, t.mode mOWN, t.mode mLR, t.mode mEMB]

/-- The upper triangle of the table of R67: for each mode, whether each later mode may stand beside it. -/
def modePairs : List (List Bool) :=
  let y := true
  let n := false
  [ [n, n, y, n, y, n, n, y, n, n, n],
    [n, n, n, y, y, y, y, y, n, n],
    [n, n, y, y, y, y, y, n, n],
    [n, y, y, y, y, y, n, n],
    [y, y, y, y, y, n, n],
    [y, y, y, y, y, n],
    [y, n, y, n, y],
    [n, y, n, n],
    [n, n, n],
    [n, y],
    [n],
    [] ]

def pairsPermitted : List Bool → List (List Bool) → Bool
  | a :: as, r :: rs => (!a || (as.zip r).all (fun p => !p.1 || p.2)) && pairsPermitted as rs
  | _, _ => true

/-- R67 and R135 for one tensor. -/
def modesOk (t : TensorRec) : Bool :=
  (t.modes % 256 / 2 == 0 || t.role == 1) && (!t.mode mPRED || (t.role == 1 && t.rank == 2)) &&
    (t.format != fCODEBOOK || (t.mode mCB && t.mode mFRZA)) && (!t.mode mCB || t.mode mFRZA) &&
    pairsPermitted (modeSet t) modePairs &&
    (t.sparse == 0 || (t.rank == 2 && decide (1 ≤ t.role) && decide (t.role ≤ 3))) &&
    (match t.sparse with
      | 1 => t.ext 0 % 64 == 0
      | 2 => t.ext 0 % 64 == 0 && t.ext 1 % 32 == 0
      | 3 => t.ext 0 % 16 == 0 && t.ext 1 % 16 == 0
      | _ => true)

def check020F (m : Image) : Bool := m.tensors.all modesOk

/-- R52: the checks in the order of their codes; the first that fails. `generation` is the active generation, `none` when
the active slot is empty; `q` the quarters of the context's partition. -/
def imageErr (generation : Option U32) (q : BitVec 4) (b : List Byte) : Option U16 :=
  let m := imageOf b
  if !check0201 b then some 0x0201
  else if !check0202 b then some 0x0202
  else if !check0203 b then some 0x0203
  else if !check0204 b then some 0x0204
  else if !(match generation with | none => true | some g => m.generation == g + 1) then some 0x0205
  else if q == 0 || m.qmask != q then some 0x0206
  else if !check0207 b then some 0x0207
  else if !check0208 b then some 0x0208
  else if !check0209 m then some 0x0209
  else if !check020A m then some 0x020A
  else if !check020B m then some 0x020B
  else if !check020C m then some 0x020C
  else if !check020D m then some 0x020D
  else if !check020E m then some 0x020E
  else if !check020F m then some 0x020F
  else none

end Sys2Proof.Machine
end

