-- ==== Sys2Proof/Machine/Net.lean ====
section
/-! DEFINITION. Packets and links: routes (R424), sending a packet as flits (R253), the release-ordered signals under way
(R349), and a link that leaves UP (R257). -/

namespace Sys2Proof.Machine

open Sys2Proof

/-- The route to a module: the shortest, over the lowest-numbered UP link (R424). -/
def routeTo (s : State) (uid : U64) : Option (Nat × LinkId) :=
  (s.routes.filter (fun r => r.1 == uid && (s.link r.2.2).state == .up)).foldl
    (fun best r =>
      match best with
      | none => some r.2
      | some b => if r.2.1 < b.1 ∨ (r.2.1 = b.1 ∧ r.2.2.val < b.2.val) then some r.2 else some b) none

/-- The payloads of the flits of a packet. -/
def cutFlits : Nat → List Byte → List (List Byte)
  | 0, _ => []
  | n + 1, bs => if bs.length ≤ 256 then [bs] else bs.take 256 :: cutFlits n (bs.drop 256)

def flitsOf (dst : U64) (vc : Fin 4) (bs : List Byte) : List TxFlit :=
  let ps := cutFlits 16 bs
  ps.zipIdx.map (fun p =>
    let last := p.2 + 1 == ps.length
    { vc := vc, sop := p.2 == 0, eop := last, payload := p.1, dst := dst, packet := if last then bs else [] })

def Link.queue (k : Link) (vc : Fin 4) : List TxFlit := k.txq.getD vc.val []

def Link.setQueue (k : Link) (vc : Fin 4) (q : List TxFlit) : Link := { k with txq := k.txq.set vc.val q }

/-- Sends a packet to a module: to this module itself without a link, over the route, or it waits for a route (R257). -/
def sendPacket (uid : U64) (vc : Fin 4) (bs : List Byte) (s : State) : State :=
  if uid = s.glb.uid then { s with loopback := s.loopback ++ [(vc, bs)] }
  else
    match routeTo s uid with
    | some (_, l) => s.modLink l (fun k => k.setQueue vc (k.queue vc ++ flitsOf uid vc bs))
    | none => { s with txWait := s.txWait ++ [(uid, vc, bs)] }

/-- Packets that waited for a route are sent where one exists now. -/
def retryWaiting (s : State) : State :=
  let w := s.txWait
  w.foldl (fun t p => sendPacket p.1 p.2.1 p.2.2 t) { s with txWait := [] }

/-- The packets of a link that are not acknowledged: those whose last flit waits or stands in the replay buffer. -/
def Link.unsent (k : Link) : List (U64 × Fin 4 × List Byte) :=
  ((k.replay.map (·.2) ++ k.txq.flatten).filter (·.eop)).map (fun f => (f.dst, f.vc, f.packet))

/-! ## Release-ordered signals under way (R349) -/

/-- The module that a release-ordered signal goes to; `none` for another packet. -/
def relTarget (dst : U64) (packet : List Byte) : Option U64 :=
  if natAt packet 0 1 = 0x10 ∧ bitOf (natAt packet 1 1) 0 = true then some dst else none

/-- The release-ordered signals to a module that a link holds or has sent without a credit for them. -/
def Link.relOut (k : Link) (uid : U64) : Nat :=
  k.vc0Out.count (some uid) + (k.queue 0).countP (fun f => f.eop && relTarget f.dst f.packet == some uid)

/-- The release-ordered signals to a module that are not known to be applied (log entry 69). -/
def relUnapplied (s : State) (uid : U64) : Nat :=
  (allLinks.map (fun l => (s.link l).relOut uid)).foldl (· + ·) 0 + s.txWait.countP (fun p => relTarget p.1 p.2.2 == some uid)

/-- A sender keeps at most so many unapplied per destination device (R349). -/
def relLimit : Nat := 16

/-- A link that carries nothing: nothing is queued or kept, and numbers and credits start again (log entry 16). -/
def Link.halt (k : Link) (st : LinkState) : Link :=
  { k with state := st, replay := [], replayPos := none, txq := [[], [], [], []], reasm := [[], [], [], []], txSeq := 0,
           rxSeq := 0xFFFF, rxNak := false, nakRepeat := 0, credits := [32, 1536, 256, 224], crSeen := [0, 0, 0, 0],
           crBack := [0, 0, 0, 0], vc0Out := [] }

/-- Link `l` stops in a state that carries nothing: its routes go, and its unacknowledged packets are sent on another
link or wait (R257). -/
def stopLink (l : LinkId) (st : LinkState) (s : State) : State :=
  let k := s.link l
  let out := k.unsent
  let s := s.setLink l (k.halt st)
  let s := { s with routes := s.routes.filter (fun r => r.2.2 != l) }
  out.foldl (fun t p => sendPacket p.1 p.2.1 p.2.2 t) s

end Sys2Proof.Machine
end

