-- ==== Sys2Proof/Machine/Fence.lean ====
section
/-! DEFINITION. Fences and engine resets (R391, R397), the residue code and its mismatches (R130, R325 to R328, R334, R338),
the errors of on-chip stores (R329 to R331), and retirement (R335 to R337). -/

namespace Sys2Proof.Machine

open Sys2Proof

/-! ## Bits of the fence and retire masks -/

def benchBit (m : Vector U32 16) (b : Nat) : Bool := bitOf (m.toList.getD (b / 32) 0).toNat (b % 32)

def setBenchBit (m : Vector U32 16) (b : BenchId) (v : Bool) : Vector U32 16 :=
  let i : Fin 16 := Fin.ofNat 16 (b.val / 32)
  let bit : U32 := BitVec.ofNat 32 (2 ^ (b.val % 32))
  m.set i (if v then m[i] ||| bit else m[i] &&& ~~~bit)

/-- The bit of a Glue-up or a copy engine in GLB_ENGINE_FENCED. -/
def engineIx : UnitRef → Nat
  | .bench _ => 32
  | .glueUp e => e.val
  | .copyEngine e => 16 + e.val

def setFenced (u : UnitRef) (v : Bool) (g : Glb) : Glb :=
  match u with
  | .bench b => { g with benchFenced := setBenchBit g.benchFenced b v }
  | _ =>
    let bit : U32 := BitVec.ofNat 32 (2 ^ engineIx u)
    { g with engineFenced := if v then g.engineFenced ||| bit else g.engineFenced &&& ~~~bit }

def unitFenced (g : Glb) : UnitRef → Bool
  | .bench b => benchBit g.benchFenced b.val
  | u => bitOf g.engineFenced.toNat (engineIx u)

/-- A unit whose RETIRE bit is set stays fenced (R397 step 4). Glue-up engine n is that of link n. -/
def unitRetired (g : Glb) : UnitRef → Bool
  | .bench b => benchBit g.benchRetire b.val
  | .glueUp e => g.linkRetire.getLsbD e.val
  | .copyEngine _ => false

/-- The quarter that a unit belongs to (R16). -/
def unitQuarter : UnitRef → Nat
  | .bench b => b.val / 128
  | .glueUp e => e.val / 4
  | .copyEngine e => e.val / 4

/-! ## Contexts with state on a unit -/

/-- A context whose stations stand on benches: a step runs, closes, is held or commits (R27, R29). -/
def Phase.working : Phase → Bool
  | .running => true
  | .closing => true
  | .held => true
  | .committing => true
  | _ => false

/-- The copy engine that carries a descriptor: one of the four of the home quarter (placement class, log entry 22). -/
def homeQuarter (q : BitVec 4) : Nat := if q.getLsbD 0 then 0 else if q.getLsbD 1 then 1 else if q.getLsbD 2 then 2 else 3

def copyEngineOf (x : Ctx) (index : Nat) : Nat := 4 * homeQuarter x.qmask + index % 4

/-- The formed slot of a context with a group identifier. -/
def formedSlot (x : Ctx) (gid : U32) : Option GroupSlot := x.groups.toList.find? (fun g => g.state == .formed && g.id == gid)

/-- Link `e` carries the group: it is on the route to a member. -/
def carries (s : State) (x : Ctx) (gid : U32) (e : EngineId) : Bool :=
  match formedSlot x gid with
  | some g => g.members.any (fun u => match routeTo s u with
      | some (_, l) => l.val == e.val
      | none => false)
  | none => false

/-- The groups whose links run an UPDATE of the context: those of SIZE 2 or more that feed one of a W without OWN (R280). -/
def updateGroups (m : Image) : List U32 :=
  (List.range m.stations.length).filterMap (fun i =>
    let st := m.station i
    if st.kind = kUPDATE && !(((m.tensor st.tensor).map (·.mode mOWN)).getD true) then
      ((m.feeder i).bind (fun r => m.groups[r.o 4 4]?)).bind (fun g => if 2 ≤ g.size then some (BitVec.ofNat 32 g.groupId) else none)
    else none)

/-- Whether a context has a station, a tile, semaphore storage, a copy, a collective instance, an UPDATE or a descriptor on the
unit (R280, R341, R397). -/
def usesUnit (s : State) (x : Ctx) : UnitRef → Bool
  | .bench b => x.semBench == some b || (x.phase.working && x.stns.any (fun t => t.bench == b.val))
  | .glueUp e =>
    x.phase.working && (x.insts.any (fun i => !i.complete && carries s x i.groupId e) ||
      (x.phase == .running && ((x.active.map updateGroups).getD []).any (fun g => carries s x g e)))
  | .copyEngine e => x.dma.descs.any (fun d => d.started && !d.ended && copyEngineOf x d.index == e.val)

/-! ## Bench PLLs (R448) -/

/-- The bench PLL of quarter `q` runs: quarter 0 always, another while a valid assignment or a reset includes it. -/
def pllNeeded (s : State) (q : QuarterId) : Bool :=
  q == 0 || s.glb.chipBusy || s.glb.partBusy.getLsbD q.val ||
    allCtx.any (fun c => (s.ctx c).assigned && (s.ctx c).qmask.getLsbD q.val)

/-- Starts and stops the bench PLL of a quarter; the spec gives no MULT for a start but its range (R447). -/
def updatePll (q : QuarterId) (s : State) : State :=
  let m := s.pwr.mult[q]
  if pllNeeded s q then
    if m = 0 then
      let d := drawNat s
      let top := (s.pwr.clkMax[q]).toNat
      d.2.modPwr (fun p => { p with mult := p.mult.set q (BitVec.ofNat 5 (16 + d.1 % (top - 15))) })
    else s
  else s.modPwr (fun p => { p with mult := p.mult.set q 0 })

def updatePlls (s : State) : State := s.each (List.finRange 4) (fun q t => updatePll q t)

/-! ## Semaphore storage (R341, R449) -/

/-- The bench of semaphore storage for a partition: its lowest-numbered bench that is not fenced (placement class, log entry
22). -/
def storageBench (g : Glb) (q : BitVec 4) : Option BenchId :=
  (List.finRange 512).find? (fun b => q.getLsbD (b.val / 128) && !benchBit g.benchFenced b.val)

/-- The semaphores of context `c` get their bench, awake: the one they have where it is not fenced. -/
def placeSems (c : CtxId) (s : State) : State :=
  let x := s.ctx c
  let keep : Option BenchId := x.semBench.filter (fun b => x.quarters.getLsbD (b.val / 128) && !benchBit s.glb.benchFenced b.val)
  let b := if keep.isSome then keep else storageBench s.glb x.quarters
  let s := s.modCtx c (fun x => { x with semBench := b })
  match b with
  | some b => s.modPwr (fun p => { p with benchGated := setBenchBit p.benchGated b false })
  | none => s

/-! ## Engine resets -/

/-- The quarters of a partition reset, or a chip reset, cover the unit: a request joins it (R399). -/
def unitInReset (s : State) (u : UnitRef) : Bool := s.glb.chipBusy || s.glb.partBusy.getLsbD (unitQuarter u)

/-- A reset of a gated bench wakes it first (R449). -/
def wakeUnit (u : UnitRef) (p : Pwr) : Pwr :=
  match u with
  | .bench b => { p with benchGated := setBenchBit p.benchGated b false }
  | _ => p

/-- R397 steps 1 and 2: the unit is fenced and every context on it is reset with cause 7 (fence). A request for a unit
that is in reset joins it. -/
def requestEngineReset (u : UnitRef) (cause : Nat) (s : State) : State :=
  if unitInReset s u || s.glb.engBusy.any (fun p => p.1 == u) then s
  else
    let hit := allCtx.filter (fun c => usesUnit s (s.ctx c) u)
    let s := s.modGlb (fun g => { setFenced u true g with engBusy := g.engBusy ++ [(u, cause, hit.map (ctxFn s))] })
    (updatePlls (s.modPwr (wakeUnit u))).each hit (fun c t => requestCtxReset c 7 t)

/-! ## Retirement (R335 to R337) -/

/-- Event 0x1504. -/
def retireEvent (kind unit : Nat) (s : State) : State :=
  raise fn0 0x1504 true
    (payload [(0, 1, 0xFF), (1, 1, kind), (2, 2, unit), (0x20, 4, s.glb.retireLimit.toNat)]) s

/-- The bench is retired when its count reaches LIMIT: RETIRE bit, event, then fence with cause 5. -/
def retireBench (b : BenchId) (s : State) : State :=
  let lim := s.glb.retireLimit
  if lim == 0 || benchBit s.glb.benchRetire b.val || (s.glb.benchRfail[b]).toNat < lim.toNat then s
  else
    let s := s.modGlb (fun g => { g with benchRetire := setBenchBit g.benchRetire b true })
    requestEngineReset (.bench b) 5 (retireEvent 0 b.val s)

/-- The link is retired: RETIRE bit, held DOWN, event (R336). -/
def retireLink (l : LinkId) (s : State) : State :=
  let lim := s.glb.retireLimit
  if lim == 0 || s.glb.linkRetire.getLsbD l.val || (s.glb.linkRfail[l]).toNat < lim.toNat then s
  else
    let s := s.modGlb (fun g => { g with linkRetire := g.linkRetire ||| BitVec.ofNat 16 (2 ^ l.val) })
    retireEvent 1 l.val (stopLink l .down s)

/-! ## The residue mismatch (R130) -/

def tapsM : List Nat := [1, 2, 3, 4, 5, 6]
def tapsV : List Nat := [0x11, 0x12, 0x13]
def tapG1 : List Nat := [0x21]
def tapG2 : List Nat := [0x22]
def tapG3 : List Nat := [0x23]
def tapD1 : List Nat := [0x31]
/-- Tap V2 on FEXP2, FLOG2 and FRSQRT, where it compares with a second evaluation bit for bit (R327). -/
def tapTwice : Nat := 0x112

/-- Where a checked operation ran. -/
inductive CheckSite where
  | bench (b : BenchId)
  | link (l : LinkId)
  | stack (k : StackId)
  deriving DecidableEq, Repr

/-- What the event of a mismatch names beside the unit (R338, R470). -/
structure CheckOp where
  station : Nat
  tensorId : Nat
  ordinal : Nat
  deriving DecidableEq, Repr

/-- One mismatched element: the result is kept, the step marked, the event raised, the unit counted and retired at its
limit (R334, R337). Only a V tap names lane and vector row, and G3 the element of its record block (R338). -/
def residueMismatch (c : CtxId) (site : CheckSite) (op : CheckOp) (tap lane vrow : Nat) (s : State) : State :=
  let lane := if tapsV.contains tap || tapG3.contains tap then lane else 0
  let vrow := if tapsV.contains tap then vrow else 0
  let s := s.modCtx c (·.markResidue)
  let s :=
    match site with
    | .bench b => s.modGlb (fun g => { g with benchRfail := g.benchRfail.set b (satAdd g.benchRfail[b] 1) })
    | .link l => s.modGlb (fun g => { g with linkRfail := g.linkRfail.set l (satAdd g.linkRfail[l] 1) })
    | .stack _ => s
  let unit : Nat × Nat × Nat :=
    match site with
    | .bench b => (0, b.val, (s.glb.benchRfail[b]).toNat)
    | .link l => (1, l.val, (s.glb.linkRfail[l]).toNat)
    | .stack k => (2, k.val, 0)
  let s := ctxEvent c 0x1501 true
    (payload [(0, 1, c.val), (1, 1, unit.1), (2, 2, unit.2.1), (4, 1, tap), (5, 1, lane), (6, 2, vrow),
      (8, 8, (s.ctx c).step.toNat), (0x10, 4, op.tensorId), (0x14, 4, op.ordinal), (0x20, 4, unit.2.2),
      (0x24, 4, op.station)]) s
  match site with
  | .bench b => retireBench b s
  | .link l => retireLink l s
  | .stack _ => s

/-- A tap compares the residue of the integer delivered with the residue predicted from the operands, which by the three laws of
R325 is that of the exact integer: it misses a change by a multiple of 127 (R328). -/
def tapSees (exact delivered : Int) : Bool := res127 delivered != res127 exact

/-- The taps `taps` see a failure at tap `t`. -/
def tapsSee (taps : List Nat) (t : Nat) (exact delivered : Int) : Bool :=
  (taps.contains t && tapSees exact delivered) || (t == 0x12 && taps.contains tapTwice && delivered != exact)

/-- The operation uses the unit of tap `t`. -/
def tapsMeet (taps : List Nat) (t : Nat) : Bool := taps.contains t || (t == 0x12 && taps.contains tapTwice)

/-- The residues that a payload's fields have (R326): elements, then scales or codebook entries. -/
def Payload.residues : Payload → List Nat
  | .val f es scs _ _ => es.map (elemResidue f) ++ scs.map (fun k => res127 (scaleByte k : Nat))
  | .scl scs _ => scs.map (fun k => res127 (scaleByte k : Nat))
  | .acc _ _ v _ => v.map res127
  | .codes cs books => cs.map (fun k => res127 (k : Nat)) ++ books.flatten.map (elemResidue fBF16)
  | _ => []

/-- The tile with the residues that its read generates at the ECC decode (R326). -/
def Tile.coded (t : Tile) : Tile := { t with side := t.payload.residues }

/-- The elements of an operand tile whose carried residue differs from that of the field decoded, as lane and vector row. -/
def Tile.sideFails (t : Tile) : List (Nat × Nat) :=
  if t.side.isEmpty || t.side == t.payload.residues then []
  else ((List.range 1024).filter (fun e => t.side.getD e 0 != t.payload.residues.getD e 0)).map (fun e => (e % 64, e / 64))

/-- The failures of the units that the taps `taps` of an operation see. -/
def tapHits (taps : List Nat) (us : List Upset) : List (Nat × Nat × Nat) :=
  us.filterMap (fun u =>
    match u with
    | .residue t lane vrow exact delivered => if tapsSee taps t exact delivered then some (t, lane, vrow) else none
    | _ => none)

/-- An operation of taps `taps` leaves this error waiting. -/
def staysAt (taps : List Nat) : Upset → Bool
  | .residue t _ _ _ _ => !tapsMeet taps t
  | .sram _ _ _ => true

/-- The residues carried with the operand tiles `ts` are compared at tap `tap` (R326). -/
def checkSides (c : CtxId) (site : CheckSite) (op : CheckOp) (tap : Nat) (ts : List Tile) (s : State) : State :=
  s.each (ts.flatMap Tile.sideFails) (fun p t => residueMismatch c site op tap p.1 p.2 t)

/-- An operation whose taps are `taps` meets every failure of the hardware that waits at one of them, and handles those that a tap
sees; `ts` are its operand tiles. -/
def checkResidue (c : CtxId) (site : CheckSite) (op : CheckOp) (taps : List Nat) (ts : List Tile) (s : State) : State :=
  let hits := tapHits taps s.upsets
  let s := checkSides c site op (taps.headD 0 % 0x100) ts s
  let s := { s with upsets := s.upsets.filter (staysAt taps) }
  s.each hits (fun h t => residueMismatch c site op h.1 h.2.1 h.2.2 t)

/-! ## Errors of on-chip stores (R329 to R331) -/

/-- The quarter that a store belongs to (R16). -/
def storeQuarter : SramStore → QuarterId
  | .benchStore b => Fin.ofNat 4 (b.val / 128)
  | .slice k => Fin.ofNat 4 (k.val / 16)
  | .streamBuffer b => Fin.ofNat 4 (b.val / 128)
  | .replayBuffer l => Fin.ofNat 4 (l.val / 4)

/-- UNIT_KIND and UNIT of a store (R338). -/
def storeUnit : SramStore → Nat × Nat
  | .benchStore b => (3, b.val)
  | .slice k => (4, k.val)
  | .streamBuffer b => (5, b.val)
  | .replayBuffer l => (5, l.val)

/-- The errors that a read of the stores `mine` meets. -/
def sramHits (mine : SramStore → Bool) (us : List Upset) : List (SramStore × Nat × Nat) :=
  us.filterMap (fun u =>
    match u with
    | .sram k w n => if mine k then some (k, w, n) else none
    | _ => none)

/-- The stores that a read found an uncorrectable word in: two wrong bits, which the code detects (R329). -/
def badStores (hits : List (SramStore × Nat × Nat)) : List SramStore :=
  (hits.filter (fun h => h.2.2 == 2)).foldl (fun acc h => if acc.contains h.1 then acc else acc ++ [h.1]) []

/-- Event 0x1502 for a store: of a context's operation, or of none (R338). -/
def storeEvent (who : Option CtxId) (k : SramStore) (s : State) : State :=
  let u := storeUnit k
  match who with
  | some c => ctxEvent c 0x1502 true (payload [(0, 1, c.val), (1, 1, u.1), (2, 2, u.2), (8, 8, (s.ctx c).step.toNat)]) s
  | none => raise fn0 0x1502 true (payload [(0, 1, 0xFF), (1, 1, u.1), (2, 2, u.2)]) s

/-- One read of the stores `mine`: each word with one wrong bit is corrected and counted; each store with an uncorrectable word
counts and reports the read once, and marks the step (R330, R331). Answers the words that the read delivers poisoned. -/
def readStores (who : Option CtxId) (mine : SramStore → Bool) (s : State) : List Nat × State :=
  let hits := sramHits mine s.upsets
  if hits.isEmpty then ([], s)
  else
    let s := { s with upsets := s.upsets.filter (fun u =>
      match u with
      | .sram k _ _ => !mine k
      | _ => true) }
    let s := s.each (hits.filter (fun h => h.2.2 == 1)) (fun h t =>
      t.modGlb (fun g => { g with sramCe := g.sramCe.set (storeQuarter h.1) (satAdd g.sramCe[storeQuarter h.1] 1) }))
    let s := s.each (badStores hits) (fun k t =>
      let t := t.modGlb (fun g => { g with sramUe := g.sramUe.set (storeQuarter k) (satAdd g.sramUe[storeQuarter k] 1) })
      storeEvent who k (match who with
        | some c => t.modCtx c (·.markEcc)
        | none => t))
    ((hits.filter (fun h => h.2.2 == 2)).map (fun h => h.2.1), s)

/-- A station on bench `b` reads a tile: from the bench's stream buffers and store and the slices of its quarters. -/
def checkSram (c : CtxId) (bench : Nat) (s : State) : List Nat × State :=
  let q := (s.ctx c).quarters
  readStores (some c) (fun k =>
    match k with
    | .benchStore b => b.val == bench
    | .slice n => q.getLsbD (n.val / 16)
    | .streamBuffer b => b.val == bench
    | .replayBuffer _ => false) s

end Sys2Proof.Machine
end

