-- ==== Sys2Proof/Machine/StepVals.lean ====
section
/-! DEFINITION. The values under which a step runs: the visible agreement-group values (R62) and the live fields (R64, R307),
or those of the reference record in a replay (R319). -/

namespace Sys2Proof.Machine

open Sys2Proof

def u32At (r : List Byte) (off : Nat) : U32 := BitVec.ofNat 32 (natAt r off 4)

/-- A column of the OPTIM table of a record (R312). -/
def optimAt (r : List Byte) (k : Nat) : Vector U32 64 := Vector.ofFn (fun p : Fin 64 => u32At r (0x500 + 20 * p.val + 4 * k))

/-- The group values of a record in place of the visible ones (R319). -/
def recordAg (v : AgVals) (r : List Byte) : AgVals :=
  { v with
    srEnable := natAt r 0x68 1 % 2 == 1, runSeed := BitVec.ofNat 64 (natAt r 0x60 8),
    prunePeriod := u32At r 0x6C, pruneK := BitVec.ofNat 16 (natAt r 0x70 2), regrowK := BitVec.ofNat 16 (natAt r 0x72 2),
    pruneStart := BitVec.ofNat 64 (natAt r 0x78 8), ovfMode := BitVec.ofNat 2 (natAt r 0x69 1),
    scaleDelay := BitVec.ofNat 5 (natAt r 0x6A 1), policyEnable := natAt r 0x6B 1 % 2 == 1,
    lr := optimAt r 0, beta1 := optimAt r 1, beta2 := optimAt r 2, eps := optimAt r 3, decay := optimAt r 4 }

/-- The agreement-group values of the step. -/
def Ctx.ag (x : Ctx) : AgVals := if x.wit.replaying then recordAg x.visible x.wit.refRecord else x.visible

/-- Field identifiers of the numeric live fields that stations read (R466). -/
def idPredThresh : Nat := 0x60
def idShadowShare : Nat := 0x61
def idSatThresh : Nat := 0x62

def liveNow (v : LiveVals) (f : Nat) : U32 :=
  if f = 0x60 then v.predThresh
  else if f = 0x61 then v.shadowShare.zeroExtend 32
  else v.satThresh

/-- The live log of a record: field, value, first and number of its pool entries (R313). -/
def recordLive (r : List Byte) : List (Nat × U32 × Nat × Nat) :=
  (List.range (natAt r 0x102 1)).map (fun i =>
    let o := 0x110 + 16 * i
    (natAt r o 2, u32At r (o + 4), natAt r (o + 3) 1, natAt r (o + 2) 1))

/-- The first ordinal of a station under a logged write; 0xFFFF_FFFF when it issued no tile under it. -/
def recordOrdinal (r : List Byte) (first n st : Nat) : Nat :=
  (((List.range n).find? (fun j => natAt r (0x190 + 8 * (first + j)) 2 == st)).map
    (fun j => natAt r (0x194 + 8 * (first + j)) 4)).getD 0xFFFFFFFF

/-- R319: the value of field `f` at tile ordinal `o` of station `st` in a replay. -/
def replayLive (r : List Byte) (f st o : Nat) : U32 :=
  let start := if f = 0x60 then u32At r 0x80 else if f = 0x61 then u32At r 0x84 else u32At r 0x88
  (recordLive r).foldl (fun v e =>
    if e.1 = f ∧ recordOrdinal r e.2.2.1 e.2.2.2 st ≤ o ∧ recordOrdinal r e.2.2.1 e.2.2.2 st ≠ 0xFFFFFFFF then e.2.1 else v) start

/-- The value of a live field for the tile of ordinal `o` that station `st` issues. -/
def Ctx.liveAt (x : Ctx) (f st o : Nat) : U32 :=
  if x.wit.replaying then replayLive x.wit.refRecord f st o else liveNow x.live f

/-- The last entry of field `f` takes `o` as the first ordinal of station `st` when it has none yet (R313): on the log
with its newest entry first. -/
def markFirst (f st o : Nat) : List LiveEntry → List LiveEntry
  | [] => []
  | e :: l =>
    if e.fieldId = f then
      { e with pool := e.pool.map (fun p => if p.1 = st ∧ p.2 = none then (st, some o) else p) } :: l
    else e :: markFirst f st o l

/-- Station `st` issues the tile of ordinal `o` under the present value of field `f`. -/
def Ctx.issue (x : Ctx) (f st o : Nat) : Ctx :=
  { x with wit := { x.wit with log := (markFirst f st o x.wit.log.reverse).reverse } }

/-- The format of a rung of the ladder (R231). -/
def rungFmt (r : Nat) : Nat :=
  match r with
  | 0 => 5
  | 1 => 4
  | 2 => 3
  | 3 => 1
  | _ => 2

/-- The rung format of a layer in the step (R231). -/
def Ctx.rungOf (x : Ctx) (layer : Nat) : Nat := rungFmt ((x.layers.getD layer {}).rung)

/-- Copy N mod 2 in force (R285). -/
def Ctx.parity (x : Ctx) : Nat := x.step.toNat % 2

end Sys2Proof.Machine
end

