-- ==== Sys2Proof/Machine/Tiles.lean ====
section
/-! DEFINITION. Stations and streams (R39 to R41), tiles as values, block tags (R222), the gated stations of R163, and the
counts that conversions and accumulators make (R103, R224). -/

namespace Sys2Proof.Machine

open Sys2Proof

/-! ## Stations and streams -/

def Ctx.stn (x : Ctx) (i : Nat) : StnState := x.stns.getD i {}

def Ctx.setStn (x : Ctx) (i : Nat) (t : StnState) : Ctx := { x with stns := x.stns.set i t }

def Ctx.modStn (x : Ctx) (i : Nat) (f : StnState → StnState) : Ctx := x.setStn i (f (x.stn i))

def Ctx.queue (x : Ctx) (k : Nat) : List Tile := x.streams.getD k []

def Ctx.setQueue (x : Ctx) (k : Nat) (q : List Tile) : Ctx := { x with streams := x.streams.set k q }

/-- R162 for the step that the context runs. -/
def Ctx.scheduled (x : Ctx) : Bool :=
  let a := x.ag
  a.prunePeriod != 0 && decide (a.pruneStart.toNat ≤ x.step.toNat) &&
    (x.step.toNat - a.pruneStart.toNat) % a.prunePeriod.toNat == 0

/-- Adds to `g` every station whose outputs all reach `g`, or whose inputs all come from `g` (R163). -/
def gateMore (m : Image) (g : List Nat) : List Nat :=
  (List.range m.stations.length).filter (fun i =>
    g.contains i ||
      (m.streams.any (fun r => r.src == i) && m.streams.all (fun r => r.src != i || g.contains r.dst)) ||
      (m.streams.any (fun r => r.dst == i) && m.streams.all (fun r => r.dst != i || g.contains r.src)))

def gateFix (m : Image) : Nat → List Nat → List Nat
  | 0, g => g
  | n + 1, g =>
    let h := gateMore m g
    if h.length = g.length then g else gateFix m n h

/-- The gated stations (R163). -/
def gatedSet (m : Image) : List Nat :=
  gateFix m m.stations.length
    ((List.range m.stations.length).filter (fun i =>
      (m.station i).kind == kSCRIBE && ((m.station i).o 0 1 == 1 || (m.station i).o 0 1 == 2)))

/-- Adds every station fed from `g` (R321). -/
def feedMore (m : Image) (g : List Nat) : List Nat :=
  (List.range m.stations.length).filter (fun i => g.contains i || m.streams.any (fun r => r.dst == i && g.contains r.src))

def feedFix (m : Image) : Nat → List Nat → List Nat
  | 0, g => g
  | n + 1, g =>
    let h := feedMore m g
    if h.length = g.length then g else feedFix m n h

/-- The stations fed, directly or through others, from a REDUCE output. -/
def reduceFed (m : Image) : List Nat :=
  let r := (List.range m.stations.length).filter (fun i => (m.station i).kind == kREDUCE)
  (feedFix m m.stations.length r).filter (fun i => !r.contains i || m.streams.any (fun e => e.dst == i &&
    (feedFix m m.stations.length r).contains e.src))

/-- The stations that take no work in the step: gated on a step that is not scheduled (R163), and under contribution
replay every station fed from a REDUCE output (R321). -/
def idleSet (x : Ctx) (m : Image) : List Nat :=
  (if x.scheduled then [] else gatedSet m) ++ (if x.wit.replaying && x.wit.mode == 2 then reduceFed m else [])

/-- The streams of an output port that carry tiles in this step. -/
def liveOut (x : Ctx) (m : Image) (i port : Nat) : List Nat :=
  let idle := idleSet x m
  (m.outStreams i port).filter (fun k =>
    match m.streams[k]? with
    | some r => !idle.contains r.dst
    | none => false)

/-- The first tile of an input port. -/
def Ctx.peek (x : Ctx) (m : Image) (i port : Nat) : Option Tile :=
  match m.inStream i port with
  | some (k, _) => (x.queue k).head?
  | none => none

/-- Takes the first tile of an input port. -/
def Ctx.pop (x : Ctx) (m : Image) (i port : Nat) : Ctx :=
  match m.inStream i port with
  | some (k, _) => x.setQueue k ((x.queue k).drop 1)
  | none => x

/-- Every stream of the port has room for a tile (R39). -/
def Ctx.room (x : Ctx) (m : Image) (i port : Nat) : Bool :=
  (liveOut x m i port).all (fun k => decide ((x.queue k).length < ((m.streams[k]?).map (·.depth)).getD 0))

/-- Emits a tile on every stream of the port (R41). -/
def Ctx.push (x : Ctx) (m : Image) (i port : Nat) (t : Tile) : Ctx :=
  (liveOut x m i port).foldl (fun y k => y.setQueue k (y.queue k ++ [t])) x

/-! ## Tiles as values -/

/-- Whether element `e` of the tile is an element of its tensor (R205) that the tile holds (R269). -/
def Tile.has (t : Tile) (e : Nat) : Bool := t.present.isEmpty || t.present.getD e false

/-- The code of a padding element, which reads as zero whatever the codebook holds (R205, log entry 62). -/
def padCode : Nat := 17

/-- A codebook code as stored; 16 stands for a code whose byte is poisoned (R331). -/
def codeVal (book : List Nat) (code : Nat) : Val :=
  if code < 16 then decodeElem fBF16 (book.getD code 0x7FC0) else if code = padCode then .fin false 0 0 else .nan

/-- The field of an element that is not there. -/
def padField (fmt : Nat) : Nat := if fmt = fCODEBOOK then padCode else 0

/-- Decodes a list of raw elements, block by block with its scale. -/
def decodeRows (fmt : Nat) : List Nat → List Nat → Nat → List Val
  | _, _, 0 => []
  | elems, scales, n + 1 =>
    let sc := scales.headD 0
    (elems.take 32).map (fun r => decodeVal fmt r sc) ++ decodeRows fmt (elems.drop 32) (scales.drop 1) n

def decodeBooks : List Nat → List (List Nat) → Nat → List Val
  | _, _, 0 => []
  | codes, books, n + 1 =>
    (codes.take 32).map (codeVal (books.headD [])) ++ decodeBooks (codes.drop 32) (books.drop 1) n

/-- The 1024 values of a tile. -/
def Tile.vals (t : Tile) : List Val :=
  match t.payload with
  | .val f es scs _ _ => decodeRows f es scs 32
  | .acc a _ v st => (v.zip st).map (fun p => accVal a p.1 p.2)
  | .codes cs books => decodeBooks cs books 32
  | _ => List.replicate 1024 (.fin false 0 0)

/-- The format of a tile's elements. -/
def Tile.fmt (t : Tile) : Nat :=
  match t.payload with
  | .val f _ _ _ _ => f
  | .acc _ _ _ _ => fACC128
  | .codes _ _ => fCODEBOOK
  | _ => 0

def Tile.scales (t : Tile) : List Nat :=
  match t.payload with
  | .val _ _ s _ _ => s
  | .scl s _ => s
  | _ => []

def Tile.vtags (t : Tile) : List Nat :=
  match t.payload with
  | .val _ _ _ v _ => v
  | _ => []

def Tile.stags (t : Tile) : List Nat :=
  match t.payload with
  | .val _ _ _ _ v => v
  | .scl _ v => v
  | _ => []

def Tile.raws (t : Tile) : List Nat :=
  match t.payload with
  | .val _ es _ _ _ => es
  | .codes cs _ => cs
  | _ => []

/-- The tile with other scales; the blocks of the rows `nan` become block NaN (R84). -/
def Tile.withScales (t : Tile) (sc tags nan : List Nat) : Tile :=
  match t.payload with
  | .val f es _ v _ =>
    { t with payload := .val f (if nan.isEmpty then es else es.zipIdx.map (fun p => if nan.contains (p.2 / 32) then 0 else p.1)) sc v tags }
  | _ => t

/-- Tile row `b` holds an element. -/
def Tile.rowUsed (t : Tile) (b : Nat) : Bool := t.present.isEmpty || (t.present.drop (32 * b) |>.take 32).any id

/-! ## Block tags (R221, R222) -/

/-- The linear block index of tile row `b` of a tile, in the grid of a view of extents `ext` (R206), as a tag. -/
def blockTag (ext : List Nat) (xy : TileXY) (b : Nat) : Nat :=
  (xy.tc + ceilDiv (ext.getD 0 1) 32 * (32 * xy.tr + b + ext.getD 1 1 * (xy.x2 + ext.getD 2 1 * xy.x3))) % 256

def blockTags (ext : List Nat) (xy : TileXY) : List Nat := (List.range 32).map (blockTag ext xy)

/-- The scales of an MX value tile as its SCL stream delivers them, 0xFF for a block whose tags differ (R222) and for one with
a poisoned byte (R331); the slipped rows. -/
def joinScales (v : Tile) (scl : Option Tile) : Tile × List Nat :=
  match scl with
  | none => (v, [])
  | some q =>
    let slipped := (List.range 32).filter (fun b => v.rowUsed b && v.vtags.getD b 0 != q.stags.getD b 0)
    let bad := (List.range 32).filter (fun b => v.scales.getD b 0 == poisonScale)
    let sc := (List.range 32).map (fun b =>
      if bad.contains b then poisonScale else if slipped.contains b then 255 else q.scales.getD b 255)
    (v.withScales sc q.stags (slipped ++ bad), slipped)

/-! ## Counts -/

/-- Adds `n` to the count of a class under a format (R225). -/
def gaugeAdd (fmt cls n : Nat) (k : Counters) : Counters :=
  let i : Fin 88 := Fin.ofNat 88 (8 * (fmt - 1) + cls)
  if fmt = 0 ∨ 11 < fmt ∨ n = 0 then k else { k with gauClass := k.gauClass.set i (satAdd k.gauClass[i] n) }

/-- Counts the outcome classes of the elements that a conversion wrote; `none` for padding. -/
def gaugeClasses (fmt : Nat) (cls : List (Option Nat)) (k : Counters) : Counters :=
  (List.range 7).foldl (fun k j => gaugeAdd fmt j (cls.countP (· == some j)) k) k

/-- The losses of block contributions and joins (R103, R108, R224). -/
def countLosses (van trn : Nat) (k : Counters) : Counters :=
  let k := { k with accVanish := satAdd k.accVanish van, accTrunc := satAdd k.accTrunc trn }
  gaugeAdd fACC128 1 trn (gaugeAdd fACC128 2 van k)

/-- R222: slipped blocks are counted for the station, and their elements as NAN_IN of the value stream's format. -/
def countSlips (v : Tile) (slipped : List Nat) (x : Ctx) : Ctx :=
  let n := sumNat (slipped.map (fun b => ((List.range 32).filter (fun k => v.has (32 * b + k))).length))
  x.count (fun k => gaugeAdd v.fmt 5 n { k with tagSlip := satAdd k.tagSlip slipped.length })

/-! ## Tensor coordinates -/

/-- A tile position lies within the extents (R205). -/
def inExt (ext : List Nat) (xy : TileXY) (e : Nat) : Bool :=
  decide (32 * xy.tc + e % 32 < ext.getD 0 1) && decide (32 * xy.tr + e / 32 < ext.getD 1 1) && decide (xy.x2 < ext.getD 2 1) &&
    decide (xy.x3 < ext.getD 3 1)

/-- The presence bits of a tile of a tensor; empty when nothing is padding. -/
def presentOf (ext : List Nat) (xy : TileXY) : List Bool :=
  if 32 * xy.tc + 32 ≤ ext.getD 0 1 ∧ 32 * xy.tr + 32 ≤ ext.getD 1 1 ∧ xy.x2 < ext.getD 2 1 ∧ xy.x3 < ext.getD 3 1 then []
  else (List.range 1024).map (inExt ext xy)

/-- R92: the logical index of an element. -/
def elemIndex (ext : List Nat) (xy : TileXY) (e : Nat) : Nat :=
  (32 * xy.tc + e % 32) + ext.getD 0 1 * ((32 * xy.tr + e / 32) + ext.getD 1 1 * (xy.x2 + ext.getD 2 1 * xy.x3))

/-- R307: the logical tile ordinal in a tensor's grid. -/
def tileOrdinal (ext : List Nat) (xy : TileXY) : Nat :=
  xy.tc + ceilDiv (ext.getD 0 1) 32 * (xy.tr + ceilDiv (ext.getD 1 1) 32 * (xy.x2 + ext.getD 2 1 * xy.x3))

/-- The tile lies in the grid of the extents (R205). -/
def inGrid (ext : List Nat) (xy : TileXY) : Bool :=
  decide (xy.tc < ceilDiv (ext.getD 0 1) 32) && decide (xy.tr < ceilDiv (ext.getD 1 1) 32) && decide (xy.x2 < ext.getD 2 1) &&
    decide (xy.x3 < ext.getD 3 1)

/-- The tiles of a grid in an ORDER (R207). -/
def gridTiles (ext : List Nat) (order : Nat) : List TileXY :=
  let n0 := ceilDiv (ext.getD 0 1) 32
  let n1 := ceilDiv (ext.getD 1 1) 32
  (List.range (ext.getD 3 1)).flatMap (fun x3 => (List.range (ext.getD 2 1)).flatMap (fun x2 =>
    if order = 0 then (List.range n1).flatMap (fun tr => (List.range n0).map (fun tc => ⟨tr, tc, x2, x3⟩))
    else (List.range n0).flatMap (fun tc => (List.range n1).map (fun tr => ⟨tr, tc, x2, x3⟩))))

/-- The site of a residue check of a station. -/
def benchSite (x : Ctx) (i : Nat) : CheckSite := .bench (Fin.ofNat 512 (x.stn i).bench)

def checkOp (m : Image) (i ordinal : Nat) : CheckOp :=
  ⟨i, ((m.tensor (m.station i).tensor).map (·.tensorId)).getD 0, ordinal⟩

/-! ## Whether a source has finished -/

/-- The input port carries no further tile: its stream is empty and its source holds nothing more to emit. `done` says
whether a station by itself holds nothing. -/
def exhausted (x : Ctx) (m : Image) (idle : List Nat) (done : Nat → Bool) : Nat → Nat → Nat → Bool
  | 0, _, _ => false
  | fuel + 1, i, port =>
    match m.inStream i port with
    | none => true
    | some (k, r) =>
      (x.queue k).isEmpty &&
        (idle.contains r.src || (done r.src && [0, 1, 2, 3].all (fun p => exhausted x m idle done fuel r.src p)))

end Sys2Proof.Machine
end

