-- ==== Sys2Proof/Machine/Cutlist.lean ====
section
/-! DEFINITION. Cutlist (R241 to R249): where stations may run, where they run, moves, and the checks of a PLACE commit;
gating of benches (R449). -/

namespace Sys2Proof.Machine

open Sys2Proof

/-! ## Ranges and exclusions (R241, R246, R247) -/

def pinValid (p : U64) : Bool := bitOf p.toNat 63
def pinFirst (p : U64) : Nat := fieldOf p.toNat 40 32
def pinLast (p : U64) : Nat := fieldOf p.toNat 49 41
def pinStation (p : U64) : Nat := fieldOf p.toNat 15 0

/-- The range of station `i`: the valid CUT_PIN entry of highest index, else the image's, else none. -/
def benchRange (v : AgVals) (m : Image) (i : Nat) : Option (Nat × Nat) :=
  match (v.cutPin.toList.reverse).find? (fun p => pinValid p && pinStation p == i) with
  | some p => some (pinFirst p, pinLast p)
  | none =>
    if bitOf (m.station i).flags 1 then (m.places.find? (fun p => p.station == i)).map (fun p => (p.first, p.last)) else none

/-- What binds a station: its range and the exclusion words. -/
structure Bound where
  range : Option (Nat × Nat)
  out : List U32
  deriving DecidableEq, Repr

def boundOf (v : AgVals) (m : Image) (i : Nat) : Bound := ⟨benchRange v m i, v.cutExclude.toList⟩

/-- The bound in force: that of a refused commit stands (R248). -/
def Ctx.bound (x : Ctx) (m : Image) (i : Nat) : Bound :=
  match x.keptPlace.find? (fun k => k.1 == i) with
  | some k => ⟨k.2.1, k.2.2⟩
  | none => boundOf x.visible m i

/-- A bench that a station with this bound may use in the quarters `q` (R241). -/
def usable (g : Glb) (q : BitVec 4) (w : Bound) (b : Nat) : Bool :=
  decide (b < 512) && benchIn q b && !benchBit g.benchFenced b && !bitOf (w.out.getD (b / 32) 0).toNat (b % 32) &&
    (match w.range with
      | some r => decide (r.1 ≤ b) && decide (b ≤ r.2)
      | none => true)

def firstUsable (g : Glb) (q : BitVec 4) (w : Bound) : Option Nat := (List.range 512).find? (usable g q w)

/-- No bench: the station takes no work until it has one. -/
def noBench : Nat := 512

/-! ## Placing and moving (R244, R245, R449) -/

/-- Cutlist wakes a gated bench before it places anything on it. -/
def wakeBench (b : Nat) (s : State) : State :=
  if b < 512 then s.modPwr (fun p => { p with benchGated := setBenchBit p.benchGated (Fin.ofNat 512 b) false }) else s

/-- The bench of station `i`: the one it has where it may stay, else the lowest it may use (placement class). -/
def placeFor (s : State) (x : Ctx) (m : Image) (i old : Nat) : Nat :=
  let w := x.bound m i
  if usable s.glb x.qmask w old then old else (firstUsable s.glb x.qmask w).getD noBench

/-- Puts station `i` on bench `b`, awake. -/
def putStation (c : CtxId) (i b : Nat) (s : State) : State := (wakeBench b s).modCtx c (fun x => x.modStn i (fun t => { t with bench := b }))

/-- A move of R244: counted. -/
def moveStation (c : CtxId) (i b : Nat) (s : State) : State :=
  (putStation c i b s).modCtx c (fun x => x.count (fun k => { k with cutMigrate := satAdd k.cutMigrate 1 }))

/-- Station `i` takes the bench that its bound in force gives it: a counted move from one bench to another (R245 case 1),
else its first placement. -/
def resettle (c : CtxId) (m : Image) (i : Nat) (s : State) : State :=
  let x := s.ctx c
  let old := (x.stn i).bench
  let new := placeFor s x m i old
  if old < 512 ∧ new < 512 ∧ new ≠ old then moveStation c i new s else putStation c i new s

/-- R40: the station stands between one input tile set and the next. A MATMUL is at work on an output tile until its last
pass, an UPDATE on a gradient tile until its last record block, and a station that waits on a page is at work on the tile whose
access stopped. -/
def Ctx.atBoundary (x : Ctx) (m : Image) (i : Nat) : Bool :=
  let t := x.stn i
  !stopped x (reqStation i) &&
    (if (m.station i).kind == kMATMUL then t.segs.isEmpty
     else if (m.station i).kind == kUPDATE then !t.amid
     else true)

/-- The moves that the bounds in force compel, of the stations that stand at a tile boundary (R244, R245 case 1, R247);
another station moves at its next one (`atTile`). -/
def compelMoves (c : CtxId) (m : Image) (s : State) : State :=
  s.each (List.range (s.ctx c).stns.length) (fun i t =>
    if (t.ctx c).atBoundary m i then resettle c m i t else t)

/-- The bound in force leaves station `i` its bench, or the station is amid a tile. -/
def Ctx.maySit (x : Ctx) (g : Glb) (m : Image) (i : Nat) : Bool :=
  usable g x.qmask (x.bound m i) (x.stn i).bench || !x.atBoundary m i

/-- What a station does before it accepts the next tile set: a move that the bounds compel (R247). -/
def atTile (c : CtxId) (m : Image) (i : Nat) (s : State) : State :=
  if (s.ctx c).maySit s.glb m i then s else resettle c m i s

/-- A command of station `i` of kind `k`: it acts when the station runs on a bench in this step, and waits otherwise (R39,
log entry 1). -/
def withStation (c : CtxId) (i k : Nat) (act : Image → Station → State → State) (s : State) : State :=
  if stationsRun s c then
    match (s.ctx c).active with
    | none => s
    | some m =>
      match m.stations[i]? with
      | none => s
      | some st =>
        if st.kind = k ∧ !(idleSet (s.ctx c) m).contains i ∧ !stopped (s.ctx c) (reqStation i) then
          let s := atTile c m i s
          if ((s.ctx c).stn i).bench < 512 then act m st s else s
        else s
  else s

/-- STATION_MIGRATE: at a tile boundary of the running station, to another bench that it may use; with all weights zero only
from a bench that it may not use (R244, R245). -/
def doStationMigrate (c : CtxId) (i : Nat) (b : BenchId) (s : State) : State :=
  let x := s.ctx c
  match x.active with
  | none => s
  | some m =>
    let w := x.bound m i
    let old := (x.stn i).bench
    if stationsRun s c && decide (i < x.stns.length) && x.atBoundary m i && usable s.glb x.qmask w b.val && b.val != old &&
        (x.live.cutWeights != 0 || !usable s.glb x.qmask w old) then
      moveStation c i b.val s
    else s

def execStationMigrate (c : CtxId) (st : Nat) (b : BenchId) (s : State) : Host.Outcome State Fault Refusal := .next (doStationMigrate c st b s)

/-! ## Gating (R449) -/

/-- No context holds anything on the bench: no station, tile or staged operand, and no semaphore storage. -/
def benchEmpty (s : State) (b : BenchId) : Bool :=
  allCtx.all (fun c => !usesUnit s (s.ctx c) (.bench b))

/-- BENCH_GATE: a bench that has held nothing for IDLE µs loses power. -/
def doBenchGate (b : BenchId) (s : State) : State :=
  if s.pwr.mainOn && decide (6 ≤ s.pwr.bootEvent) && s.pwr.gateIdle != 0 && benchEmpty s b then
    s.modPwr (fun p => { p with benchGated := setBenchBit p.benchGated b true })
  else s

def execBenchGate (b : BenchId) (s : State) : Host.Outcome State Fault Refusal := .next (doBenchGate b s)

/-! ## The checks of a PLACE commit (R248, R251) -/

/-- A valid entry that the commit refuses (0x0B02); the station is checked where an image is active. -/
def badPin (stations : Option Nat) (p : U64) : Bool :=
  pinValid p && (decide (pinLast p < pinFirst p) ||
    (match stations with
      | some n => decide (n ≤ pinStation p)
      | none => false))

/-- The entries with every refused one committed with VALID = 0. -/
def fixPins (stations : Option Nat) (v : AgVals) : AgVals :=
  { v with cutPin := v.cutPin.map (fun p => if badPin stations p then p &&& 0x7FFFFFFFFFFFFFFF else p) }

/-- The stations that values of PLACE leave without a usable bench. -/
def strandedBy (g : Glb) (q : BitVec 4) (v : AgVals) (m : Image) : List Nat :=
  (List.range m.stations.length).filter (fun i => (firstUsable g q (boundOf v m i)).isNone)

/-- The bounds that stay in force for the stations `keep` when new values of PLACE take effect; every other station takes
them. -/
def keptBounds (x : Ctx) (m : Image) (keep : List Nat) : List (Nat × Option (Nat × Nat) × List U32) :=
  keep.map (fun i => (i, (x.bound m i).range, (x.bound m i).out))

end Sys2Proof.Machine
end

