-- ==== Sys2Proof/Machine/Gauge.lean ====
section
/-! DEFINITION. Conversion of a tile (R86 to R92, R206), and Gauge: sites, saturation, the format policy and its tables
(R224 to R234). -/

namespace Sys2Proof.Machine

open Sys2Proof

/-! ## Converting a tile -/

/-- A tile as converted: elements, one scale byte a row, and the outcome classes with `none` for padding. -/
structure TileConv where
  elems : List Nat
  scales : List Nat
  classes : List (Option Nat)
  deriving DecidableEq, Repr

/-- The conversion of one tile to format `f` (not 0x0D): `sub e` marks a BF16 or FP32 subnormal input, `draw e` the
stochastic word of R92. Padding enters as zero (R206). -/
def convertTile (f ovf : Nat) (xfix : Option Int) (vals : List Val) (sub : List Bool) (has : Nat → Bool)
    (draw : Nat → Option Nat) : TileConv :=
  let rows := (List.range 32).map (fun b =>
    convertBlock f ovf xfix ((List.range 32).map (fun k =>
      let e := 32 * b + k
      if has e then (vals.getD e .nan, sub.getD e false, draw e) else (Val.fin false 0 0, false, none))))
  { elems := rows.flatMap (·.elems), scales := rows.map (·.scale),
    classes := (rows.flatMap (·.classes)).zipIdx.map (fun p => if has p.2 then some p.1 else none) }

/-- The subnormal marks of a tile's elements (R76, R88). -/
def Tile.subs (t : Tile) : List Bool := t.raws.map (isSubnormal t.fmt)

/-- R92: the logical index of element `e` of a packed tile in tile row tr of W: row and column of its position; `none` for a slot
without one. -/
def slotIndex (ext : List Nat) (xy : TileXY) (cols : List SlotPos) (e : Nat) : Option Nat :=
  match cols.getD e .none with
  | .col c => some (c + ext.getD 0 1 * ((32 * xy.tr + e / 32) + ext.getD 1 1 * (xy.x2 + ext.getD 2 1 * xy.x3)))
  | .none => none

/-- The stochastic word of element `e` of a tile of tensor `t` (R90, R92); `none` under RNE. `cols` are the positions of a packed
tile. A slot without a position has no coordinates: its word is open (log entry 55). -/
def stochastic (x : Ctx) (t : Option TensorRec) (site round : Nat) (xy : TileXY) (cols : List SlotPos) (e : Nat) : Option Nat :=
  if round = 1 ∧ x.ag.srEnable = true then
    t.map (fun t =>
      match (if cols.isEmpty then some (elemIndex t.extent xy e) else slotIndex t.extent xy cols e) with
      | some i => roundDraw x.ag.runSeed x.step t.tensorId site i
      | none => Config.openValue [2, x.ag.runSeed.toNat, x.step.toNat, t.tensorId, site, xy.tr, xy.tc, e] % 2 ^ 32)
  else none

/-- An output tile from a conversion, with both block tags set from the block written (R221). -/
def outTile (f : Nat) (ext : List Nat) (xy : TileXY) (r : TileConv) : Tile :=
  let tags := if isMx f then blockTags ext xy else []
  { xy := xy, payload := .val f r.elems (if isMx f then r.scales else []) tags tags,
    present := if r.classes.all (·.isSome) then [] else r.classes.map (·.isSome) }

/-- The SCL tile that goes with an MX value tile. -/
def sclTile (t : Tile) : Tile := { xy := t.xy, payload := .scl (t.scales.map scaleByte) t.stags, present := t.present }

/-! ## Sites (R226 to R228, R231) -/

/-- A CONVERT station that is a site. -/
def isSite (st : Station) : Bool := st.kind == kCONVERT && st.o 3 1 == 1 && (st.o 0 1 == fRUNG || isMx (st.o 0 1))

/-- R227: the scale of a site in the step, or `none` for the immediate rule. -/
def siteScale (x : Ctx) (i f : Nat) : Option Int :=
  let h := min x.ag.scaleDelay.toNat 16
  ((((x.sites.getD i {}).hist.take h).foldl maxOpt none)).map
    (fun k => max (-127) (min 127 (k - (fmtParams f).emaxElem)))

def clsSat (c : Option Nat) : Bool := c == some 3 || c == some 4
def clsBad (c : Option Nat) : Bool := c == some 2 || clsSat c

/-- What one converted tile adds to the statistics: N_L (or n), s, BAD, PROBE, SATCNT, and the step maximum. `probe` are
the classes at rung − 1. -/
def tileStat (has : Nat → Bool) (vals : List Val) (cls probe : List (Option Nat)) : GaugeStat :=
  let live := (List.range 1024).filter (fun e => has e && (vals.getD e .nan).expOf.isSome)
  { ran := true
    max := live.foldl (fun a e => maxOpt a (vals.getD e .nan).expOf) none
    n := live.length
    s := live.countP (fun e => clsSat (cls.getD e none))
    nl := live.length
    bad := live.countP (fun e => clsBad (cls.getD e none))
    probe := live.countP (fun e => clsBad (probe.getD e none))
    satcnt := cls.countP clsSat }

def GaugeStat.plus (a b : GaugeStat) (thresh : U32) : GaugeStat :=
  { ran := true, max := maxOpt a.max b.max, n := a.n + b.n, s := a.s + b.s, thresh := thresh, nl := a.nl + b.nl,
    bad := a.bad + b.bad, probe := a.probe + b.probe, satcnt := a.satcnt + b.satcnt }

/-- R228. -/
def GaugeStat.saturated (g : GaugeStat) : Bool := decide (g.n ≠ 0) && decide (g.thresh.toNat * g.n < g.s * 2 ^ 32)

/-! ## The format policy (R230, R232) -/

/-- The evaluation of one layer: rung and streak after the commit. -/
def policyStep (w : LiveVals) (r : LayerRec) (g : GaugeStat) : Nat × Nat :=
  let lo := w.lo.toNat
  let hi := w.hi.toNat
  let rung := min (max r.rung lo) hi
  if rung < hi ∧ w.w0.toNat * g.nl < g.bad * 2 ^ 32 then (rung + 1, 0)
  else if lo < rung ∧ g.probe * 2 ^ 32 ≤ w.w1.toNat * g.nl then
    let streak := min (r.streak + 1) 255
    if max w.patience.toNat 1 ≤ streak then (rung - 1, 0) else (rung, streak)
  else (rung, 0)

/-- A layer record after the commit (R232, R234). `sat` says that a site of the layer was saturated. -/
def layerAfter (en : Bool) (w : LiveVals) (r : LayerRec) (g : GaugeStat) (sat : Bool) : LayerRec :=
  let p := if en && decide (0 < g.nl) then policyStep w r g else (r.rung, r.streak)
  { rung := p.1, streak := p.2, changed := p.1 != r.rung, sat := sat, nl := g.nl, bad := g.bad, probe := g.probe,
    satcnt := g.satcnt }

/-- A site record after the commit (R226, R230). -/
def siteAfter (r : SiteRec) (g : GaugeStat) : SiteRec :=
  let sat := g.ran && g.saturated
  let old := if sat then [] else r.hist.take r.count
  if g.ran then
    let h := (g.max :: old).take 16
    { count := h.length, sat := sat, hist := h ++ List.replicate (16 - h.length) none,
      satSteps := min (r.satSteps + b2n sat) (2 ^ 64 - 1) }
  else { r with sat := false }

/-- Sites saturated in the step, in station order (R229). -/
def satSites (x : Ctx) (m : Image) : List Nat :=
  (List.range m.stations.length).filter (fun i =>
    isSite (m.station i) && (x.siteStats.getD i {}).ran && (x.siteStats.getD i {}).saturated)

def layersAfter (x : Ctx) (m : Image) : List LayerRec :=
  let sat := (satSites x m).map (fun i => (m.station i).layer)
  x.layers.zipIdx.map (fun p =>
    layerAfter x.ag.policyEnable x.wit.closing p.1 (x.layerStats.getD p.2 {}) (sat.contains p.2))

def sitesAfter (x : Ctx) (m : Image) : List SiteRec :=
  x.sites.zipIdx.map (fun p => if isSite (m.station p.2) then siteAfter p.1 (x.siteStats.getD p.2 {}) else p.1)

/-! ## The tables as bytes (R234) -/

def layerBytes (r : LayerRec) : List Byte :=
  leBytes 1 r.rung ++ leBytes 1 r.streak ++ leBytes 1 (b2n r.changed + 2 * b2n r.sat) ++ zeroBytes 5 ++ leBytes 8 r.nl ++
    leBytes 8 r.bad ++ leBytes 8 r.probe ++ leBytes 8 r.satcnt ++ zeroBytes 24

def histEntry (h : Option Int) : List Byte := leBytes 2 (match h with
  | none => 0x8000
  | some k => lowBits 16 k)

def histBytes (r : SiteRec) : List Byte := r.hist.flatMap histEntry

def siteBytes (r : SiteRec) : List Byte :=
  leBytes 1 r.count ++ leBytes 1 (b2n r.sat) ++ zeroBytes 6 ++ histBytes r ++ leBytes 8 r.satSteps ++ zeroBytes 16

def layerRecOf (b : List Byte) : LayerRec :=
  { rung := min (natAt b 0 1) 4, streak := natAt b 1 1, changed := bitOf (natAt b 2 1) 0, sat := bitOf (natAt b 2 1) 1,
    nl := natAt b 8 8, bad := natAt b 16 8, probe := natAt b 24 8, satcnt := natAt b 32 8 }

def siteRecOf (b : List Byte) : SiteRec :=
  let n := min (natAt b 0 1) 16
  { count := n, sat := bitOf (natAt b 1 1) 0,
    hist := (List.range 16).map (fun j =>
      let v := natAt b (8 + 2 * j) 2
      if j < n ∧ v ≠ 0x8000 then some (signedOf 16 v) else none),
    satSteps := natAt b 0x28 8 }

/-- 64-byte records of a byte string. -/
def records64 : Nat → List Byte → List (List Byte)
  | 0, _ => []
  | n + 1, b => b.take 64 :: records64 n (b.drop 64)

/-- R233: the Gauge digest of the tables as they will stand after the commit. -/
def gaugeDigest (x : Ctx) (m : Image) : U64 :=
  let sites := (sitesAfter x m).zipIdx.filter (fun p => isSite (m.station p.2))
  crc64 ((layersAfter x m).map (fun r => BitVec.ofNat 8 r.rung) ++ sites.flatMap (fun p => histBytes p.1))

/-- The reset state of the tables for an image (R232). -/
def freshLayers (m : Image) (hi : Nat) : List LayerRec := List.replicate m.layerCount { rung := hi }
def freshSites (m : Image) : List SiteRec := List.replicate m.stations.length {}

/-- Counts a converted tile under its format, and for a site or a rung conversion in the statistics of the step. -/
def observe (i : Nat) (st : Station) (has : Nat → Bool) (vals : List Val) (cls probe : List (Option Nat)) (thresh : U32)
    (x : Ctx) : Ctx :=
  let g := tileStat has vals cls probe
  let x := if isSite st then
      { x with siteStats := x.siteStats.set i ((x.siteStats.getD i {}).plus g thresh) } else x
  if st.o 0 1 = fRUNG then
    { x with layerStats := x.layerStats.set st.layer ((x.layerStats.getD st.layer {}).plus g thresh) }
  else x

end Sys2Proof.Machine
end

