-- ==== Sys2Proof/Machine/Layout.lean ====
section
/-! DEFINITION. From coordinates to addresses (R209 to R212, R216 to R218, R285), reading and writing the tiles of a view, and
what poisoned bytes decode as (R331). -/

namespace Sys2Proof.Machine

open Sys2Proof

/-! ## Copies of an updated tensor (R285) -/

/-- The UPDATE record of a tensor, with its station. -/
def updateFor (m : Image) (tensor : Nat) : Option (Nat × UpdateRec) :=
  match m.stations.zipIdx.find? (fun p => p.1.kind == kUPDATE && p.1.tensor == tensor) with
  | some (st, i) => (m.updates[st.o 0 4]?).map (fun u => (i, u))
  | none => none

/-- VALUE_VA and SCALE_VA of copy `k` of a tensor; the stated addresses for a tensor that no UPDATE writes. -/
def basesOf (m : Image) (tensor k : Nat) (t : TensorRec) : Nat × Nat :=
  match updateFor m tensor with
  | some (_, u) => (t.valueVa + k * 64 * u.vspan64, t.scaleVa + k * 64 * u.sspan64)
  | none => (t.valueVa, t.scaleVa)

/-! ## Owned blocks (R265, R300) -/

/-- NB: the blocks of R206, or the 32-slot groups that the scale bytes of a sparse tensor number (log entry 24). -/
def blockCount (w : TensorRec) (k : Option MaskRec) : Nat :=
  match w.sparse, k with
  | 0, _ => w.nt0 * w.ext 1 * w.ext 2 * w.ext 3
  | 3, some k => 16 * k.capacity
  | 4, some k => k.capacity
  | _, _ => w.ext 0 * w.ext 1 / 64

/-- SIZE and the own rank of the group that feeds an UPDATE station; 1 and 0 where there is none. -/
def feedingGroup (x : Ctx) (m : Image) (i : Nat) : Nat × Nat :=
  let g := (m.feeder i).bind (fun r => m.groups[r.o 4 4]?)
  let slot := g.bind (fun g => formedSlot x (BitVec.ofNat 32 g.groupId))
  (max 1 ((g.map (·.size)).getD 1), (slot.map (·.rank.toNat)).getD 0)

/-- The blocks b0 to b1 − 1 that the member of rank `r` of `n` owns (R265). -/
def ownedBlocks (nb n r : Nat) : Nat × Nat := (r * nb / n, (r + 1) * nb / n)

/-- R300: the blocks of an OWN tensor that the device reads, those the member owns; `none` for a tensor read whole. -/
def ownedRange (x : Ctx) (m : Image) (tensor : Nat) : Option (Nat × Nat) :=
  match m.tensor tensor, updateFor m tensor with
  | some w, some (i, _) =>
    if w.mode mOWN then
      let g := feedingGroup x m i
      some (ownedBlocks (blockCount w (if w.sparse = 0 then none else m.masks[w.mask]?)) g.1 g.2)
    else none
  | _, _ => none

def inOwned (r : Option (Nat × Nat)) (b : Nat) : Bool :=
  match r with
  | some r => decide (r.1 ≤ b) && decide (b < r.2)
  | none => true

/-! ## Views -/

/-- A FETCH or STORE view of a dense tensor: format, stored and view extents, strides, origin, the indexed dimension (0
none) with its indices, the exchange of dimensions 0 and 1, the bases, and the blocks that it reads where the tensor has an
owner (R300). -/
structure View where
  fmt : Nat
  ext : List Nat
  vext : List Nat
  stride : List Int
  origin : List Int
  idxDim : Nat
  idx : List Int
  swap : Bool
  base : Nat
  scale : Nat
  own : Option (Nat × Nat)
  deriving DecidableEq, Repr

def wrap64 (a : Int) : Nat := (a % (2 ^ 64 : Nat)).toNat

/-- The stored coordinates of a view coordinate (R209, R216, R218). -/
def View.stored (v : View) (p : List Nat) : List Nat :=
  let q := if v.swap then [p.getD 1 0, p.getD 0 0, p.getD 2 0, p.getD 3 0] else p
  (List.range 4).map (fun d =>
    let x : Int := if v.idxDim = d ∧ d ≠ 0 then v.idx.getD (q.getD d 0) 0 else (q.getD d 0 : Int)
    ((x + v.origin.getD d 0) % (v.ext.getD d 1 : Int)).toNat)

/-- The element offset o of R209, an s64. -/
def View.offset (v : View) (u : List Nat) : Int :=
  wrapS 64 (sumInt ((List.range 4).map (fun d => (u.getD d 0 : Int) * v.stride.getD d 0)))

/-- The address of the scale byte of the block of stored coordinates `u` (R210). -/
def View.scaleAddr (v : View) (u : List Nat) : Nat :=
  wrap64 ((v.scale : Int) + (u.getD 0 0 / 32 : Nat) +
    sumInt ([1, 2, 3].map (fun d => (u.getD d 0 : Int) * (v.stride.getD d 0 / 32))))

/-- The bytes of the field of an element and its bit position within them: address, bytes, shift, width (R77, R209). -/
def fieldAddr (fmt base : Nat) (o : Int) : Nat × Nat × Nat × Nat :=
  match fmt with
  | 3 => (wrap64 (base + 3 * (o / 4)), 3, 6 * (o % 4).toNat, 6)
  | 4 => (wrap64 (base + 3 * (o / 4)), 3, 6 * (o % 4).toNat, 6)
  | 5 => (wrap64 (base + o / 2), 1, 4 * (o % 2).toNat, 4)
  | 12 => (wrap64 (base + o / 2), 1, 4 * (o % 2).toNat, 4)
  | 8 => (wrap64 (base + 4 * o), 4, 0, 32)
  | 9 => (wrap64 (base + 2 * o), 2, 0, 16)
  | 10 => (wrap64 (base + 4 * o), 4, 0, 32)
  | _ => (wrap64 (base + o), 1, 0, 8)

/-- The view coordinates of element `e` of a tile. -/
def tileCoord (xy : TileXY) (e : Nat) : List Nat := [32 * xy.tc + e % 32, 32 * xy.tr + e / 32, xy.x2, xy.x3]

/-- The linear block index of stored coordinates (R206). -/
def View.block (v : View) (u : List Nat) : Nat :=
  u.getD 0 0 / 32 + ceilDiv (v.ext.getD 0 1) 32 * (u.getD 1 0 + v.ext.getD 1 1 * (u.getD 2 0 + v.ext.getD 2 1 * u.getD 3 0))

/-- Element `e` of a tile lies in the view, in a block that the view reads. -/
def View.here (v : View) (xy : TileXY) (e : Nat) : Bool :=
  inExt v.vext xy e && (v.own.isNone || inOwned v.own (v.block (v.stored (tileCoord xy e))))

/-- The presence bits of a tile of the view. -/
def View.present (v : View) (xy : TileXY) : List Bool :=
  if v.own.isNone then presentOf v.vext xy else (List.range 1024).map (v.here xy)

/-- The elements of a tile inside the view. -/
def View.inside (v : View) (xy : TileXY) : List Nat := (List.range 1024).filter (v.here xy)

/-- Extends an existing run of bytes, or starts a new one: spans of an access in few pieces. -/
def addSpan (acc : List Span) (a n : Nat) : List Span :=
  match acc with
  | [] => [⟨a, n⟩]
  | sp :: rest =>
    if sp.va ≤ a ∧ a ≤ sp.va + sp.len then ⟨sp.va, max sp.len (a + n - sp.va)⟩ :: rest else ⟨a, n⟩ :: sp :: rest

/-- The spans of the value fields of the elements. -/
def View.valueSpans (v : View) (xy : TileXY) (es : List Nat) : List Span :=
  (es.foldl (fun acc e =>
    let f := fieldAddr v.fmt v.base (v.offset (v.stored (tileCoord xy e)))
    addSpan acc f.1 f.2.1) []).reverse

/-- Whether a row of the tile lies inside the view, and the stored coordinates of its block. -/
def View.blockRows (v : View) (xy : TileXY) : List Nat :=
  (List.range 32).filter (fun b => v.here xy (32 * b))

def View.scaleSpans (v : View) (xy : TileXY) : List Span :=
  if isMx v.fmt then ((v.blockRows xy).map (fun b => ⟨v.scaleAddr (v.stored (tileCoord xy (32 * b))), 1⟩))
  else if v.fmt = fCODEBOOK then
    ((v.blockRows xy).map (fun b => ⟨wrap64 (v.scale + 32 * (v.stored (tileCoord xy (32 * b))).getD 1 0 : Nat), 32⟩))
  else []

/-- The raw field of an element, and whether a byte of it is poisoned. -/
def View.field (v : View) (tab : List PageMap) (s : State) (xy : TileXY) (e : Nat) : Nat × Bool :=
  let f := fieldAddr v.fmt v.base (v.offset (v.stored (tileCoord xy e)))
  let sp : Span := ⟨f.1, f.2.1⟩
  ((leNat (readSpan tab s sp) >>> f.2.2.1) % 2 ^ f.2.2.2, spanBad tab s sp)

/-- What a poisoned field of a format enters as (R331). -/
def poisoned (fmt raw : Nat) (bad : Bool) : Nat :=
  if bad then
    match fmt with
    | 7 => 0
    | 8 => 0
    | 9 => 0x7FC0
    | 10 => 0x7FC00000
    | 12 => 16
    | _ => raw
  else raw

/-- The fields of a block with a poisoned byte are those of block NaN (R84, R331). -/
def nanBlocks (es scs : List Nat) : List Nat :=
  if scs.contains poisonScale then es.zipIdx.map (fun p => if scs.getD (p.2 / 32) 0 = poisonScale then 0 else p.1) else es

/-- The tile of a dense view as read: value tile with scales and tags. -/
def View.readTile (v : View) (tab : List PageMap) (s : State) (xy : TileXY) : Tile :=
  let fs := (List.range 1024).map (fun e => if v.here xy e then v.field tab s xy e else (padField v.fmt, false))
  let es := fs.map (fun f => poisoned v.fmt f.1 f.2)
  let present := v.present xy
  if v.fmt = fCODEBOOK then
    let books := (List.range 32).map (fun b =>
      if v.here xy (32 * b) then
        let a := wrap64 (v.scale + 32 * (v.stored (tileCoord xy (32 * b))).getD 1 0 : Nat)
        (List.range 16).map (fun k =>
          if spanBad tab s ⟨a + 2 * k, 2⟩ then 0x7FC0 else leNat (readSpan tab s ⟨a + 2 * k, 2⟩))
      else List.replicate 16 0)
    { xy := xy, payload := .codes es books, present := present }
  else if isMx v.fmt then
    let scs := (List.range 32).map (fun b =>
      if v.here xy (32 * b) then
        let sp : Span := ⟨v.scaleAddr (v.stored (tileCoord xy (32 * b))), 1⟩
        if spanBad tab s sp || ((fs.drop (32 * b)).take 32).any (·.2) then poisonScale else leNat (readSpan tab s sp)
      else 0)
    let tags := blockTags v.vext xy
    { xy := xy, payload := .val v.fmt (nanBlocks es scs) scs tags tags, present := present }
  else { xy := xy, payload := .val v.fmt es [] [] [], present := present }

/-- All spans that a tile of the view reads. -/
def View.spans (v : View) (xy : TileXY) : List Span := v.valueSpans xy (v.inside xy) ++ v.scaleSpans xy

/-! ## ACC128 tensors (R211) -/

/-- The address of an ACC128 tile. -/
def accTileVa (t : TensorRec) (base : Nat) (xy : TileXY) : Nat :=
  wrap64 (base + accTileBytes * (xy.tc + t.nt0 * (xy.tr + t.nt1 * (xy.x2 + t.ext 2 * xy.x3))) : Nat)

/-- The elements of an ACC128 tile whose bytes are poisoned take state NaN; a poisoned anchor or SEGMENTS makes every
element NaN (R331). -/
def accTileRead (tab : List PageMap) (s : State) (va : Nat) : Int × Nat × List Int × List (BitVec 2) :=
  let r := accOfBytes (readSpan tab s ⟨va, accTileBytes⟩)
  if spanBad tab s ⟨va, accTileBytes⟩ then
    let head := spanBad tab s ⟨va, 8⟩
    let st := r.2.2.2.zipIdx.map (fun p =>
      if head || spanBad tab s ⟨va + 0x40 + p.2 / 4, 1⟩ || spanBad tab s ⟨va + 0x140 + 16 * p.2, 16⟩ then 3 else p.1)
    (r.1, r.2.1, r.2.2.1, st)
  else r

/-- Where an element of a tile of a view of an ACC128 tensor stands: the stored tile and the element there (R211, R216,
R218). -/
def View.accPlace (v : View) (xy : TileXY) (e : Nat) : TileXY × Nat :=
  let u := v.stored (tileCoord xy e)
  (⟨u.getD 1 0 / 32, u.getD 0 0 / 32, u.getD 2 0, u.getD 3 0⟩, 32 * (u.getD 1 0 % 32) + u.getD 0 0 % 32)

/-- How a station's view of an ACC128 tensor lies in memory: where element `e` of a tile of the view stands, as a stored tile
and the element there, the address of a stored tile, and an order of the view's positions that agrees with R92's on positions
of one stored element. -/
structure AccMap where
  place : TileXY → Nat → Option (TileXY × Nat)
  va : TileXY → Nat
  order : TileXY → Nat → Nat

/-- The ACC128 view of a dense tensor. -/
def View.accMap (v : View) (t : TensorRec) : AccMap :=
  { place := fun xy e => if v.here xy e then some (v.accPlace xy e) else none
    va := accTileVa t v.base
    order := elemIndex v.vext }

/-- The stored tiles that a tile of the view meets, in the order of its elements. -/
def AccMap.tiles (a : AccMap) (xy : TileXY) : List TileXY :=
  (List.range 1024).foldl (fun acc e =>
    match a.place xy e with
    | some p => if acc.contains p.1 then acc else acc ++ [p.1]
    | none => acc) []

/-! ## The index tensor (R217, R218) -/

/-- The index tensor of a FETCH or STORE station, at the copy that the step reads (R285). -/
def indexTensor (x : Ctx) (m : Image) (st : Station) : Option TensorRec :=
  if st.o 2 1 = 0 then none
  else (m.tensor st.tensor2).map (fun t => { t with valueVa := (basesOf m st.tensor2 x.parity t).1 })

/-- The spans of the `n` entries of an INT32 index tensor. -/
def indexSpans (t : TensorRec) : List Span :=
  ((List.range (t.ext 0)).foldl (fun acc (p : Nat) => addSpan acc (wrap64 (t.valueVa + 4 * ((p : Int) * t.str 0))) 4) []).reverse

def indexRead (tab : List PageMap) (s : State) (t : TensorRec) : List Int :=
  (List.range (t.ext 0)).map (fun (p : Nat) =>
    let sp : Span := ⟨wrap64 (t.valueVa + 4 * ((p : Int) * t.str 0)), 4⟩
    if spanBad tab s sp then 0 else signedOf 32 (leNat (readSpan tab s sp)))

/-- The view of a FETCH or STORE station, with the copy of R285 that it reads or writes. -/
def viewOf (x : Ctx) (m : Image) (st : Station) (t : TensorRec) (idx : List Int) : View :=
  let fmt := if t.format = fRUNG then x.rungOf st.layer else t.format
  let b := if st.kind = kFETCH then basesOf m st.tensor x.parity t else (t.valueVa, t.scaleVa)
  let swap := st.kind == kFETCH && st.o 1 1 == 1
  let d := st.o 2 1
  let ext := (List.range 4).map (fun k => if d ≠ 0 ∧ k = d then idx.length else t.ext k)
  let vext := if swap then [ext.getD 1 1, ext.getD 0 1, ext.getD 2 1, ext.getD 3 1] else ext
  { fmt := fmt, ext := t.extent, vext := vext, stride := (List.range 4).map t.str,
    origin := (List.range 4).map (fun k => signedOf 32 (st.o (4 + 4 * k) 4)), idxDim := d, idx := idx, swap := swap,
    base := b.1, scale := b.2, own := if st.kind = kFETCH then ownedRange x m st.tensor else none }

/-- The number of indices of the view: the extent of the index tensor (R218). -/
def indexCount (m : Image) (st : Station) : Nat := ((m.tensor st.tensor2).map (·.ext 0)).getD 0

/-! ## Taking a tile from a stream -/

/-- The bits that an element of a payload takes in an on-chip store. -/
def Payload.elemBits : Payload → Nat
  | .val f _ _ _ _ => (fmtParams f).bits
  | .acc _ _ _ _ => 128
  | .codes _ _ => 4
  | _ => 8

/-- Field `e` of `bits` bits lies in one of the 64-bit words `ws`. -/
def inWords (ws : List Nat) (bits e : Nat) : Bool :=
  ws.any (fun w => decide (w * 64 < (e + 1) * bits) && decide (e * bits < (w + 1) * 64))

/-- A tile of which the words `ws` were poisoned in an on-chip store: its elements in order, then its scales or codebook
entries (R215, R331). -/
def poisonTile (ws : List Nat) (t : Tile) : Tile :=
  let n := t.payload.elemBits
  let bad (e : Nat) : Bool := inWords ws n e
  let tail := ws.filterMap (fun w => if 16 * n ≤ w then some (w - 16 * n) else none)
  let after (bits k : Nat) : Bool := inWords tail bits k
  match t.payload with
  | .val f es scs v g =>
    if isMx f then
      let scs' := scs.zipIdx.map (fun p =>
        if after 8 p.2 || (List.range 32).any (fun k => bad (32 * p.2 + k)) then poisonScale else p.1)
      { t with payload := .val f (nanBlocks es scs') scs' v g }
    else { t with payload := .val f (es.zipIdx.map (fun p => poisoned f p.1 (bad p.2))) scs v g }
  | .scl scs g => { t with payload := .scl (scs.zipIdx.map (fun p => if inWords ws 8 p.2 then 255 else p.1)) g }
  | .acc a k v st => { t with payload := .acc a k v (st.zipIdx.map (fun p => if bad p.2 then 3 else p.1)) }
  | .codes cs bk =>
    let cs' := cs.zipIdx.map (fun p => if bad p.2 then 16 else p.1)
    { t with payload := .codes cs' (bk.zipIdx.map (fun r => r.1.zipIdx.map (fun p => if after 16 (16 * r.2 + p.2) then 0x7FC0 else p.1))) }
  | _ => t

/-- Takes the first tile of an input port, with the errors of the storage it waited in (R330, R331) and the residues that the
read generates (R326). -/
def takeTile (c : CtxId) (m : Image) (i port : Nat) (s : State) : Option Tile × State :=
  match (s.ctx c).peek m i port with
  | none => (none, s)
  | some t =>
    let r := checkSram c ((s.ctx c).stn i).bench (s.modCtx c (fun x => x.pop m i port))
    (some (if r.1.isEmpty then t else poisonTile r.1 t).coded, r.2)

/-- Takes a value tile with its scales from ports `port` and `port + 1`: the SCL tile is taken where the port is fed and
the tile is MX, the tags are compared (R222). Waits until both are there. -/
def takeScaled (c : CtxId) (m : Image) (i port : Nat) (s : State) : Option (Tile × List Nat) × State :=
  match (s.ctx c).peek m i port with
  | none => (none, s)
  | some t =>
    if isMx t.fmt && m.fed i (port + 1) then
      if ((s.ctx c).peek m i (port + 1)).isNone then (none, s)
      else
        let a := takeTile c m i port s
        let b := takeTile c m i (port + 1) a.2
        let j := joinScales (a.1.getD t) b.1
        (some (j.1.coded, j.2), b.2.modCtx c (countSlips j.1 j.2))
    else
      let a := takeTile c m i port s
      (a.1.map (fun t => (t, [])), a.2)

end Sys2Proof.Machine
end

