-- ==== Sys2Proof/Machine/Sparse.lean ====
section
/-! DEFINITION. Sparse structures (R134 to R145, R156, R157): spans, metadata as slots, the packed layout, the column
schedule, and views by index (R218). -/

namespace Sys2Proof.Machine

open Sys2Proof

def align64 (n : Nat) : Nat := (n + 63) / 64 * 64

/-- What the layouts of a sparse tensor depend on. -/
structure SparseDim where
  kind : Nat
  rows : Nat
  cols : Nat
  capacity : Nat
  deriving DecidableEq, Repr

def sparseDim (t : TensorRec) (k : MaskRec) : SparseDim := ⟨t.sparse, t.ext 1, t.ext 0, k.capacity⟩

def SparseDim.bands (d : SparseDim) : Nat := ceilDiv d.rows 32
def SparseDim.blockRows (d : SparseDim) : Nat := d.rows / 16
def SparseDim.blockCols (d : SparseDim) : Nat := d.cols / 16
def SparseDim.dxTiles (d : SparseDim) : Nat := ceilDiv d.cols 32
/-- S24 and T24. -/
def SparseDim.grouped (d : SparseDim) : Bool := d.kind == 1 || d.kind == 2

/-- SPAN of R156. -/
def SparseDim.span (d : SparseDim) : Nat :=
  align64 (match d.kind with
    | 3 => align64 (4 * (d.blockRows + 1)) + 8 * d.blockRows * ceilDiv d.blockCols 64
    | 4 => align64 (4 * (d.rows + 1)) + 128 * d.capacity
    | _ => d.rows * d.cols / 8)

/-- SPAN_T of R156. -/
def SparseDim.spanT (d : SparseDim) : Nat :=
  align64 (match d.kind with
    | 2 => d.cols * d.rows / 8
    | 4 => align64 (4 * (d.dxTiles + 1)) + 8 * d.capacity * min d.dxTiles 1024
    | _ => 0)

/-- SPAN before rounding: the bytes that the mask digest covers are the first SPAN bytes (R160). -/
def metaVaOf (d : SparseDim) (k : MaskRec) (copy : Nat) : Nat := k.metaVa + copy * d.span
def metaTVaOf (d : SparseDim) (k : MaskRec) (copy : Nat) : Nat := k.metaTVa + copy * d.spanT

/-- The generation of mask `i` (R157). -/
def Ctx.maskGen (x : Ctx) (i : Nat) : Nat := ((x.masks.getD i {}).gen).toNat

/-! ## Row metadata as slots -/

/-- A decoded row: its slots, with the index in the value array and the index in the scale array of each stored slot,
malformed entries and dropped entries. -/
structure SparseRow where
  slots : List SlotPos
  elemIx : List (Option Nat)
  scaleIx : List (Option Nat)
  errs : Nat
  drops : Nat
  deriving DecidableEq, Repr

/-- The row beyond the tensor, or without a stored block. -/
def emptyRow : SparseRow := ⟨[], [], [], 0, 0⟩

/-- The nibble of group `g` in a 2:4 row that starts at byte `a` (R138). -/
def nibbleAt (b : List Byte) (a g : Nat) : Nat := (natAt b (a + g / 2) 1 >>> (4 * (g % 2))) % 16

/-- One 2:4 row (R138, R144). -/
def rowGrouped (d : SparseDim) (b : List Byte) (r : Nat) : SparseRow :=
  let gs := List.range (d.cols / 4)
  let nib := gs.map (nibbleAt b (r * (d.cols / 8)))
  { slots := (gs.zip nib).flatMap (fun p =>
      [.col (4 * p.1 + p.2 % 4), if p.2 % 4 = p.2 / 4 then .none else .col (4 * p.1 + p.2 / 4)])
    elemIx := (List.range (d.cols / 2)).map (fun k => some (r * (d.cols / 2) + k))
    scaleIx := (List.range (d.cols / 64)).map (fun j => some (r * (d.cols / 64) + j))
    errs := nib.countP (fun n => n % 4 == n / 4)
    drops := 0 }

/-- The set bits of block-row `i` of a B16 bitmap (R140), those beyond J16 included. -/
def bitmapRow (d : SparseDim) (b : List Byte) (i : Nat) : List Nat :=
  let w := ceilDiv d.blockCols 64
  let v := natAt b (align64 (4 * (d.blockRows + 1)) + 8 * w * i) (8 * w)
  (List.range (64 * w)).filter (bitOf v)

/-- The stored blocks of block-row `i`: (stored index, block-column), with malformed and dropped entries (R144). A block
at or beyond CAPACITY keeps its place with no index. A pair that descends and also differs from the popcount counts once, a
case that R144 leaves open (DESIGN CHOICE, log entry 63). -/
def blockRow (d : SparseDim) (b : List Byte) (i : Nat) : List (Option Nat × Nat) × Nat × Nat :=
  let p0 := natAt b (4 * i) 4
  let p1 := natAt b (4 * i + 4) 4
  let bits := bitmapRow d b i
  let js := bits.filter (fun j => decide (j < d.blockCols))
  let drops := bits.length - js.length
  if p1 < p0 ∨ p1 - p0 ≠ js.length then ([], 1, drops)
  else
    let bs := js.zipIdx.map (fun q => if p0 + q.2 < d.capacity then (some (p0 + q.2), q.1) else (none, q.1))
    (bs, bs.countP (fun q => q.1.isNone), drops)

/-- Row `y` of a block-row as slots, 32 a pair (R134, R140). -/
def rowOfBlocks (bs : List (Option Nat × Nat)) (first y : Nat) : SparseRow :=
  let n := 2 * ceilDiv bs.length 2
  let cell (k x : Nat) : Option (Option Nat × Nat) := if x < 16 then bs[k]? else none
  let each (k : Nat) : List (SlotPos × Option Nat) :=
    (List.range 16).map (fun x =>
      match cell k x with
      | some (some q, j) => (.col (16 * j + x), some (256 * q + 16 * y + x))
      | _ => (.none, none))
  let all := (List.range n).flatMap each
  { slots := all.map (·.1), elemIx := all.map (·.2),
    scaleIx := (List.range (n / 2)).map (fun p => some (16 * (first + 2 * p) + y)), errs := 0, drops := 0 }

/-- One UN row (R141, R144). -/
def rowUnstructured (d : SparseDim) (b : List Byte) (r : Nat) : SparseRow :=
  let p0 := natAt b (4 * r) 4
  let p1 := natAt b (4 * r + 4) 4
  if p1 < p0 then ⟨[], [], [], 1, 0⟩
  else
    let base := align64 (4 * (d.rows + 1))
    let blocks := (List.range (p1 - p0)).map (· + p0)
    let cells := blocks.flatMap (fun q => (List.range 32).map (fun k =>
      if d.capacity ≤ q then (SlotPos.none, (none : Option Nat), false)
      else
        let ix := natAt b (base + 4 * (32 * q + k)) 4
        if ix = 0xFFFFFFFF then (SlotPos.none, some (32 * q + k), false)
        else if d.cols ≤ ix then (SlotPos.none, some (32 * q + k), true)
        else (SlotPos.col ix, some (32 * q + k), false)))
    { slots := cells.map (·.1), elemIx := cells.map (·.2.1),
      scaleIx := blocks.map (fun q => if d.capacity ≤ q then none else some q),
      errs := blocks.countP (fun q => decide (d.capacity ≤ q)), drops := cells.countP (·.2.2) }

/-- The rows of a band, with the errors and drops of its block-rows. Rows beyond the tensor are empty. -/
def bandRows (d : SparseDim) (b : List Byte) (band : Nat) : List SparseRow × Nat × Nat :=
  if d.kind = 3 then
    let get (h : Nat) : List (Option Nat × Nat) × Nat × Nat :=
      if 2 * band + h < d.blockRows then blockRow d b (2 * band + h) else ([], 0, 0)
    let up := get 0
    let lo := get 1
    let rows := (List.range 32).map (fun v =>
      let h := if v < 16 then up else lo
      rowOfBlocks h.1 (natAt b (4 * (2 * band + v / 16)) 4) (v % 16))
    (rows, up.2.1 + lo.2.1, up.2.2 + lo.2.2)
  else
    let rows := (List.range 32).map (fun v =>
      if 32 * band + v < d.rows then
        (if d.kind = 4 then rowUnstructured d b (32 * band + v) else rowGrouped d b (32 * band + v))
      else ⟨[], [], [], 0, 0⟩)
    (rows, sumNat (rows.map (·.errs)), sumNat (rows.map (·.drops)))

/-- The passes of a band: 32 slots of every row each (R146). -/
def passesOf (rows : List SparseRow) : Nat := rows.foldl (fun a r => max a (ceilDiv r.slots.length 32)) 0

/-! ## Transposed metadata -/

/-- The stored rows of column `c` in the aligned 4×4 block of row group `a`, by the row metadata. -/
def storedIn (rows : List SparseRow) (a c : Nat) : List Nat :=
  (List.range 4).filter (fun y => ((rows.getD (4 * a + y) ⟨[], [], [], 0, 0⟩).slots).contains (.col c))

/-- Whether the nibble `n` of transposed metadata names exactly the rows `ys`. -/
def nibbleNames (n : Nat) (ys : List Nat) : Bool :=
  n % 4 != n / 4 && ys.length == 2 && ys.contains (n % 4) && ys.contains (n / 4)

/-- R139, R144: the aligned 4×4 blocks of a T24 band that are not transposable or whose transposed metadata differs. -/
def badBlocks (d : SparseDim) (rows : List SparseRow) (bt : List Byte) (band : Nat) : Nat :=
  ((List.range 8).flatMap (fun a => (List.range (d.cols / 4)).map (fun g =>
    (List.range 4).all (fun k =>
      nibbleNames (nibbleAt bt ((4 * g + k) * (d.rows / 8)) (8 * band + a)) (storedIn rows a (4 * g + k)))))).countP (!·)

/-- A list of schedule entries after the checks of R144: kept (band, pass), then errors and drops. `valid` says whether
(band, pass) names a pass. Where R144 leaves it open, an entry that fails both checks counts as a drop only, and the predecessor
is the entry before it in the list, kept or not (DESIGN CHOICE, log entry 63). -/
def schedCheck (valid : Nat → Nat → Bool) : Option (Nat × Nat) → List (Nat × Nat) → List (Nat × Nat) × Nat × Nat
  | _, [] => ([], 0, 0)
  | prev, e :: es =>
    let r := schedCheck valid (some e) es
    if !valid e.1 e.2 then (r.1, r.2.1, r.2.2 + 1)
    else if (match prev with
      | none => false
      | some p => decide (e.1 < p.1) || (e.1 == p.1 && decide (e.2 ≤ p.2))) then (r.1, r.2.1 + 1, r.2.2)
    else (e :: r.1, r.2.1, r.2.2)

/-- The raw schedule list of dx tile `j` (R142): (band, pass). R144 names no check of the CPTR words: a pair that descends gives an
empty list, and entries beyond the room of SPAN_T are cut off, both uncounted (DESIGN CHOICE, log entry 63). -/
def schedList (d : SparseDim) (bt : List Byte) (j : Nat) : List (Nat × Nat) :=
  let c0 := natAt bt (4 * j) 4
  let c1 := natAt bt (4 * j + 4) 4
  let base := align64 (4 * (d.dxTiles + 1))
  let room := (d.spanT - base) / 8
  (List.range (min c1 room - c0)).map (fun i =>
    let v := natAt bt (base + 8 * (c0 + i)) 8
    (v % 2 ^ 32, fieldOf v 55 32))

/-- The schedule of R142 that Scribe derives (R161): one entry for each (tile, band, pass) with a slot in the tile. -/
def deriveSched (d : SparseDim) (bands : List (List SparseRow)) (j : Nat) : List (Nat × Nat) :=
  bands.zipIdx.flatMap (fun p =>
    (List.range (passesOf p.1)).filterMap (fun q =>
      if p.1.any (fun r => ((r.slots.drop (32 * q)).take 32).any (fun sl =>
        match sl with
        | .col c => c / 32 == j && decide (c < d.cols)
        | .none => false)) then some (p.2, q) else none))

/-- The decoded metadata of every band. `bt` is the transposed copy where the structure has one. -/
def bandMetas (d : SparseDim) (b bt : List Byte) : List BandMeta :=
  let all := (List.range d.bands).map (bandRows d b)
  let valid (bd p : Nat) : Bool := decide (bd < d.bands) && decide (p < passesOf ((all.getD bd ([], 0, 0)).1))
  let lists := if d.kind = 4 then (List.range d.dxTiles).map (fun j => schedCheck valid none (schedList d bt j)) else []
  all.zipIdx.map (fun p =>
    { band := p.2, bands := d.bands, rows := p.1.1.map (·.slots), errs := p.1.2.1, drops := p.1.2.2,
      sched := if d.kind = 4 then
          some (lists.zipIdx.flatMap (fun l => l.1.1.filterMap (fun e => if e.1 = p.2 then some (l.2, e.2) else none)))
        else none,
      tErrs := if d.kind = 4 then (if p.2 = 0 then sumNat (lists.map (fun l => l.2.1)) else 0)
        else if d.kind = 2 then badBlocks d p.1.1 bt p.2 else 0,
      tDrops := if d.kind = 4 ∧ p.2 = 0 then sumNat (lists.map (fun l => l.2.2)) else 0 })

/-! ## Views of a sparse tensor (R211, R218) -/

/-- The view of a sparse tensor: the stored row that each view row names, and its planes; `whole` where no index is set. -/
structure SparseView where
  whole : Bool
  rows : List Nat
  planes : List (Nat × Nat)
  deriving DecidableEq, Repr

/-- The view with IDX_DIM = `dim` and the indices: the rows along dimension 1, and along dimensions 2 and 3, of extent 1, the one
plane again for each index. -/
def sparseView (d : SparseDim) (dim : Nat) (idx : Option (List Int)) : SparseView :=
  match idx, dim with
  | some l, 1 => ⟨false, l.map (fun z => (z % (d.rows : Int)).toNat), [(0, 0)]⟩
  | some l, 2 => ⟨true, List.range d.rows, (List.range l.length).map (fun p => (p, 0))⟩
  | some l, 3 => ⟨true, List.range d.rows, (List.range l.length).map (fun p => (0, p))⟩
  | _, _ => ⟨true, List.range d.rows, [(0, 0)]⟩

/-- The stored rows of band `b` of the view, `none` beyond it. -/
def SparseView.bandRows (v : SparseView) (b : Nat) : List (Option Nat) := (List.range 32).map (fun k => v.rows[32 * b + k]?)

/-- The decoded rows of the bands of the view. -/
def SparseView.bands (v : SparseView) (d : SparseDim) (b : List Byte) : List (List SparseRow) :=
  let all := (List.range d.bands).map (fun k => (Machine.bandRows d b k).1)
  if v.whole then all
  else (List.range (ceilDiv v.rows.length 32)).map (fun k =>
    (v.bandRows k).map (fun r => match r with
      | some r => (all.getD (r / 32) []).getD (r % 32) emptyRow
      | none => emptyRow))

/-- The metadata of the bands of the view. A view by index has no column schedule, and counts each malformed row where it first
stands. -/
def SparseView.metas (v : SparseView) (d : SparseDim) (b bt : List Byte) : List BandMeta :=
  if v.whole then bandMetas d b bt
  else
    let bands := v.bands d b
    bands.zipIdx.map (fun p =>
      let first := (List.range 32).filter (fun k => match v.rows[32 * p.2 + k]? with
        | some r => !(v.rows.take (32 * p.2 + k)).contains r
        | none => false)
      { band := p.2, bands := bands.length, rows := p.1.map (·.slots),
        errs := sumNat (first.map (fun k => (p.1.getD k emptyRow).errs)),
        drops := sumNat (first.map (fun k => (p.1.getD k emptyRow).drops)), sched := none, tErrs := 0, tDrops := 0 })

/-- An order of the view's rows that agrees with R92's on positions of one stored element. -/
def packedRank (xy : TileXY) (b : Nat) : Nat := 32 * xy.tr + b + 2 ^ 32 * (xy.x2 + 2 ^ 32 * xy.x3)

/-- The ACC128 view of a sparse tensor. The spec gives no packed layout for ACC128: packed tile (band, pass) lies as R211 lays
tiles, counted with bands ascending and passes ascending as R470 counts them (log entry 59). -/
def SparseView.accMap (v : SparseView) (d : SparseDim) (b : List Byte) (base : Nat) : AccMap :=
  let all := (List.range d.bands).map (fun k => (Machine.bandRows d b k).1)
  { place := fun xy e =>
      (v.rows[32 * xy.tr + e / 32]?).bind (fun r =>
        (((all.getD (r / 32) []).getD (r % 32) emptyRow).elemIx.getD (32 * xy.tc + e % 32) none).map (fun _ =>
          (⟨r / 32, xy.tc, 0, 0⟩, 32 * (r % 32) + e % 32)))
    va := fun xy => wrap64 (base + accTileBytes * (sumNat ((all.take xy.tr).map passesOf) + xy.tc) : Nat)
    order := fun xy e => packedRank xy (e / 32) }

/-! ## Packed tiles -/

/-- The packed tile (band, pass): the positions of its slots, value indices where a slot is stored, and scale indices of the 32
rows. -/
structure PackedTile where
  xy : TileXY
  cols : List SlotPos
  elemIx : List (Option Nat)
  scaleIx : List (Option Nat)
  deriving DecidableEq, Repr

/-- The positions of the slots of pass `p` in the rows of a band. -/
def passCols (rows : List (List SlotPos)) (p : Nat) : List SlotPos :=
  rows.flatMap (fun r =>
    let cut := (r.drop (32 * p)).take 32
    cut ++ List.replicate (32 - cut.length) SlotPos.none)

/-- The packed tile at (band, pass) of the band's rows. -/
def packedTile (rows : List SparseRow) (xy : TileXY) : PackedTile :=
  { xy := xy
    cols := passCols (rows.map (·.slots)) xy.tc
    elemIx := rows.flatMap (fun r =>
      let cut := (r.elemIx.drop (32 * xy.tc)).take 32
      cut ++ List.replicate (32 - cut.length) none)
    scaleIx := rows.map (fun r => r.scaleIx.getD xy.tc none) }

/-- The part of a packed tile in the blocks that the member owns (R300). -/
def PackedTile.owned (own : Option (Nat × Nat)) (k : PackedTile) : PackedTile :=
  if own.isNone then k
  else
    let mine (b : Option Nat) : Bool := match b with
      | some b => inOwned own b
      | none => false
    { k with elemIx := k.elemIx.zipIdx.map (fun p => if mine (k.scaleIx.getD (p.2 / 32) none) then p.1 else none),
             scaleIx := k.scaleIx.map (fun b => if mine b then b else none) }

def packedSpans (fmt base scale : Nat) (k : PackedTile) : List Span :=
  ((k.elemIx.foldl (fun acc (o : Option Nat) =>
    match o with
    | none => acc
    | some i => let f := fieldAddr fmt base i; addSpan acc f.1 f.2.1) []).reverse) ++
  (if isMx fmt then k.scaleIx.filterMap (fun o => o.map (fun i => ⟨wrap64 (scale + i : Nat), 1⟩)) else [])

/-- A packed value tile as read (R136, R331). `books` are the codebooks of the band's rows where the tensor has them. -/
def readPacked (fmt base scale : Nat) (tab : List PageMap) (s : State) (k : PackedTile) (books : List (List Nat)) : Tile :=
  let fs := k.elemIx.map (fun o =>
    match o with
    | none => (padField fmt, false)
    | some i =>
      let f := fieldAddr fmt base i
      let sp : Span := ⟨f.1, f.2.1⟩
      ((leNat (readSpan tab s sp) >>> f.2.2.1) % 2 ^ f.2.2.2, spanBad tab s sp))
  let es := fs.map (fun f => poisoned fmt f.1 f.2)
  let present := k.elemIx.map (·.isSome)
  let tags := k.scaleIx.map (fun o => (o.getD 0) % 256)
  if fmt = fCODEBOOK then { xy := k.xy, payload := .codes es books, present := present, cols := k.cols }
  else if isMx fmt then
    let scs := k.scaleIx.zipIdx.map (fun p =>
      match p.1 with
      | none => 0
      | some i =>
        let sp : Span := ⟨wrap64 (scale + i : Nat), 1⟩
        if spanBad tab s sp || ((fs.drop (32 * p.2)).take 32).any (·.2) then poisonScale else leNat (readSpan tab s sp))
    { xy := k.xy, payload := .val fmt (nanBlocks es scs) scs tags tags, present := present, cols := k.cols }
  else { xy := k.xy, payload := .val fmt es [] [] [], present := present, cols := k.cols }

/-! ## Reading metadata through translation -/

/-- The spans of the committed metadata of a mask: rows, and transposed rows where the structure has them. -/
def metaSpans (x : Ctx) (d : SparseDim) (k : MaskRec) (ix : Nat) : List Span :=
  let copy := x.maskGen ix % 2
  ⟨metaVaOf d k copy, d.span⟩ :: (if d.spanT = 0 then [] else [⟨metaTVaOf d k copy, d.spanT⟩])

/-- The bytes of the committed row metadata and of the transposed metadata. -/
def readMeta (x : Ctx) (tab : List PageMap) (s : State) (d : SparseDim) (k : MaskRec) (ix : Nat) : List Byte × List Byte :=
  let copy := x.maskGen ix % 2
  (readSpan tab s ⟨metaVaOf d k copy, d.span⟩, readSpan tab s ⟨metaTVaOf d k copy, d.spanT⟩)

/-! ## Frozen rows and blocks (R143) -/

def frozenBlockBase (d : SparseDim) : Nat := align64 (8 * ceilDiv d.rows 64)

def frozenSpan (d : SparseDim) : Nat := frozenBlockBase d + 8 * ceilDiv d.cols 2048 * d.rows

def frozenRow (b : List Byte) (r : Nat) : Bool := bitOf (natAt b (r / 8) 1) (r % 8)

def frozenBlock (d : SparseDim) (b : List Byte) (r c : Nat) : Bool :=
  let a := frozenBlockBase d + 8 * ceilDiv d.cols 2048 * r
  bitOf (natAt b (a + c / 256) 1) (c / 32 % 8)

/-- Whether position (r, c) of W is frozen, by the bitmaps that its modes use. -/
def frozenAt (t : TensorRec) (d : SparseDim) (b : List Byte) (r c : Nat) : Bool :=
  (t.mode mFRZR && frozenRow b r) || (t.mode mFRZB && frozenBlock d b r c)

end Sys2Proof.Machine
end

