-- ==== Sys2Proof/Machine/Fetch.lean ====
section
/-! DEFINITION. FETCH_TILE (R209 to R212, R216 to R219, R221, R112, R134). -/

namespace Sys2Proof.Machine

open Sys2Proof

/-- What a FETCH emits at one turn: a dense tile, a band's metadata, or a packed tile of plane (x2, x3). -/
inductive FetchItem where
  | tile (xy : TileXY)
  | bandMeta (b : Nat)
  | packed (b p x2 x3 : Nat)
  deriving DecidableEq, Repr

/-- The items of one plane of a sparse tensor, metadata with `withMeta`: under ORDER 0 each band's metadata and then its
passes; under ORDER 1 every band's metadata and then the passes, band fastest. -/
def planeItems (order : Nat) (passes : List Nat) (withMeta : Bool) (pl : Nat × Nat) : List FetchItem :=
  if order = 0 then
    passes.zipIdx.flatMap (fun q =>
      (if withMeta then [FetchItem.bandMeta q.2] else []) ++ (List.range q.1).map (fun p => .packed q.2 p pl.1 pl.2))
  else
    (if withMeta then (List.range passes.length).map FetchItem.bandMeta else []) ++
      (List.range (passes.foldl max 0)).flatMap (fun p =>
        passes.zipIdx.filterMap (fun q => if p < q.1 then some (.packed q.2 p pl.1 pl.2) else none))

/-- The items of a sparse tensor, plane by plane, each band's metadata once. -/
def sparseItems (order : Nat) (passes : List Nat) (planes : List (Nat × Nat)) : List FetchItem :=
  planes.zipIdx.flatMap (fun q => planeItems order passes (q.2 == 0) q.1)

/-- The view extents that the grid of a FETCH or STORE follows. -/
def viewExtents (m : Image) (st : Station) (t : TensorRec) : List Nat :=
  (viewOf {} m st t (List.replicate (indexCount m st) 0)).vext

/-- Emission on port 0, on port 1 for an MX tile, where every stream of both has room (R39). -/
def fetchRoom (x : Ctx) (m : Image) (i : Nat) : Bool := x.room m i 0 && x.room m i 1 && x.room m i 2

/-- A tile read from memory goes out with the residues generated at the ECC decode (R326), its scales beside it. -/
def emitValue (m : Image) (i : Nat) (t : Tile) (x : Ctx) : Ctx :=
  let x := x.push m i 0 t.coded
  if isMx t.fmt then x.push m i 1 (sclTile t).coded else x

/-- The station has emitted item `next` of `count`. -/
def advanceFetch (i count : Nat) (x : Ctx) : Ctx :=
  x.modStn i (fun n => { n with next := n.next + 1, fin := decide (count ≤ n.next + 1) })

/-- A stored ACC128 tile as read. -/
abbrev AccRead := TileXY × Int × Nat × List Int × List (BitVec 2)

/-- The value and the state of element `e` of a gathered ACC128 tile. Where an index joins rows of stored tiles with different
anchors, the spec gives no anchor for the tile: it takes that of its first element, and the elements of the other tiles are
open values, a function of the element's logical place and of what is stored there (R8, log entry 23). -/
def accGathered (a : AccMap) (xy : TileXY) (got : List AccRead) (key : List Nat) (e : Nat) : Int × BitVec 2 :=
  match a.place xy e with
  | none => (0, 0)
  | some p =>
    match got.find? (fun g => g.1 == p.1), got.head? with
    | some g, some h =>
      let v := g.2.2.2.1.getD p.2 0
      let st := g.2.2.2.2.getD p.2 0
      if g.2.1 = h.2.1 then (v, st)
      else
        let k := key ++ [a.order xy e, lowBits 16 h.2.1, lowBits 16 g.2.1, lowBits 128 v, st.toNat]
        (wrapS 128 (Config.openValue (0 :: k)), BitVec.ofNat 2 (Config.openValue (1 :: k)))
    | _, _ => (0, 0)

/-- The tile that a FETCH emits from the stored ACC128 tiles `got` (R112, R211). -/
def accTile (x : Ctx) (t : TensorRec) (a : AccMap) (xy : TileXY) (cols : List SlotPos) (got : List AccRead) : Tile :=
  let key := [x.ag.runSeed.toNat, x.step.toNat, t.tensorId]
  let es := (List.range 1024).map (accGathered a xy got key)
  let n := ((got.head?).map (·.2.2.1)).getD 1
  let has := (List.range 1024).map (fun e => (a.place xy e).isSome)
  { xy := xy, payload := .acc (((got.head?).map (·.2.1)).getD 0) (if n = 0 then 1 else n) (es.map (·.1)) (es.map (·.2)),
    present := if has.all id then [] else has, cols := cols }

/-- An ACC128 tile of the view; SEGMENTS 0 is 0x0404 (R112). -/
def fetchAcc (c : CtxId) (i : Nat) (m : Image) (t : TensorRec) (a : AccMap) (tab0 : List PageMap) (ix : List Span) (xy : TileXY)
    (cols : List SlotPos) (count : Nat) (s : State) : State :=
  let tiles := a.tiles xy
  let sps := tiles.map (fun p => (⟨a.va p, accTileBytes⟩ : Span))
  match access c (reqStation i) false false sps s with
  | (none, s) => s
  | (some tab, s) =>
    let got := tiles.map (fun p => (p, accTileRead tab s (a.va p)))
    let s := chargeRead c (tab0 ++ tab) (ix ++ sps) s
    let s := if got.any (fun g => g.2.2.1 == 0) then violate c 0x0404 s else s
    s.modCtx c (fun x => advanceFetch i count (x.push m i 0 (accTile x t a xy cols got).coded))

/-- A dense tile of item `xy`. -/
def fetchDense (c : CtxId) (i : Nat) (m : Image) (st : Station) (t : TensorRec) (xy : TileXY) (count : Nat) (s : State) : State :=
  let req := reqStation i
  let ixT := indexTensor (s.ctx c) m st
  let ixSpans := (ixT.map indexSpans).getD []
  match access c req false false ixSpans s with
  | (none, s) => s
  | (some tab0, s) =>
    let idx := (ixT.map (indexRead tab0 s)).getD []
    let v := viewOf (s.ctx c) m st t idx
    if t.format = fACC128 then fetchAcc c i m t (v.accMap t) tab0 ixSpans xy [] count s
    else
      match access c req false false (v.spans xy) s with
      | (none, s) => s
      | (some tab, s) =>
        let tile := v.readTile tab s xy
        let s := chargeRead c (tab0 ++ tab) (ixSpans ++ v.spans xy) s
        s.modCtx c (fun x => advanceFetch i count (emitValue m i tile x))

/-- The codebook spans and the codebooks of the stored rows that a band of the view names (R80). -/
def bandBookSpans (t : TensorRec) (scale : Nat) (rows : List (Option Nat)) : List Span :=
  if t.format = fCODEBOOK then rows.filterMap (fun r => r.map (fun r => ⟨wrap64 (scale + 32 * r : Nat), 32⟩)) else []

def bandBooks (scale : Nat) (rows : List (Option Nat)) (tab : List PageMap) (s : State) : List (List Nat) :=
  rows.map (fun r =>
    match r with
    | some r =>
      let a := wrap64 (scale + 32 * r : Nat)
      (List.range 16).map (fun k =>
        if spanBad tab s ⟨a + 2 * k, 2⟩ then 0x7FC0 else leNat (readSpan tab s ⟨a + 2 * k, 2⟩))
    | none => List.replicate 16 0)

/-- An item of a sparse tensor. -/
def fetchSparse (c : CtxId) (i : Nat) (m : Image) (st : Station) (t : TensorRec) (k : MaskRec) (s : State) : State :=
  let req := reqStation i
  let d := sparseDim t k
  let ixT := indexTensor (s.ctx c) m st
  let head := metaSpans (s.ctx c) d k t.mask ++ (ixT.map indexSpans).getD []
  match access c req false false head s with
  | (none, s) => s
  | (some tab0, s) =>
    let x := s.ctx c
    let mb := readMeta x tab0 s d k t.mask
    let v := sparseView d (st.o 2 1) (ixT.map (indexRead tab0 s))
    let bands := v.bands d mb.1
    let items := sparseItems (st.o 0 1) (bands.map passesOf) v.planes
    match items[(x.stn i).next]? with
    | none => s
    | some (.tile _) => s
    | some (.bandMeta b) =>
      let s := chargeRead c tab0 head s
      match (v.metas d mb.1 mb.2)[b]? with
      | none => s
      | some bm =>
        s.modCtx c (fun x => advanceFetch i items.length (x.push m i 2 { xy := ⟨b, 0, 0, 0⟩, payload := .band bm }))
    | some (.packed b p x2 x3) =>
      let fmt := if t.format = fRUNG then x.rungOf st.layer else t.format
      let base := basesOf m st.tensor x.parity t
      let pk := packedTile (bands.getD b []) ⟨b, p, x2, x3⟩
      if fmt = fACC128 then fetchAcc c i m t (v.accMap d mb.1 base.1) tab0 head pk.xy pk.cols items.length s
      else
        let pk := pk.owned (ownedRange x m st.tensor)
        let books := v.bandRows b
        let sps := packedSpans fmt base.1 base.2 pk ++ bandBookSpans t base.2 books
        match access c req false false sps s with
        | (none, s) => s
        | (some tab, s) =>
          let tile := readPacked fmt base.1 base.2 tab s pk (bandBooks base.2 books tab s)
          let s := chargeRead c tab sps s
          s.modCtx c (fun x => advanceFetch i items.length (emitValue m i tile x))

/-- One tile of the FETCH station `i`: the next tile of its view, where its streams have room. -/
def fetchNext (c : CtxId) (i : Nat) (s : State) : State :=
  withStation c i kFETCH (fun m st s =>
    let x := s.ctx c
    if (x.stn i).fin || !fetchRoom x m i then s
    else
      match m.tensor st.tensor with
      | none => s
      | some t =>
        match (if t.sparse = 0 then none else m.masks[t.mask]?) with
        | some k => fetchSparse c i m st t k s
        | none =>
          let items := gridTiles (viewExtents m st t) (st.o 0 1)
          match items[(x.stn i).next]? with
          | none => s.modCtx c (fun x => x.modStn i (fun n => { n with fin := true }))
          | some xy => fetchDense c i m st t xy items.length s) s

end Sys2Proof.Machine
end

