-- ==== Sys2Proof/Machine/Matmul.lean ====
section
/-! DEFINITION. MATMUL_PASS and STATIONARY_TILE_LOAD (R98 to R105, R117 to R133, R143 to R152, R176), and whether a station
holds anything more to emit. -/

namespace Sys2Proof.Machine

open Sys2Proof

/-! ## Staging (R100) -/

/-- Takes the tiles that wait on an operand port into staging. -/
def stagePort (c : CtxId) (m : Image) (i port : Nat) (put : Tile → StnState → StnState) : Nat → State → State
  | 0, s => s
  | n + 1, s =>
    match takeScaled c m i port s with
    | (none, s) => s
    | (some (t, _), s) => stagePort c m i port put n (s.modCtx c (fun x => x.modStn i (put t)))

def waitingOn (x : Ctx) (m : Image) (i port : Nat) : Nat :=
  match m.inStream i port with
  | some (k, _) => (x.queue k).length
  | none => 0

def stageOperands (c : CtxId) (m : Image) (i : Nat) (s : State) : State :=
  let s := stagePort c m i 0 (fun t n => { n with stageA := n.stageA ++ [t] }) (waitingOn (s.ctx c) m i 0) s
  stagePort c m i 2 (fun t n => { n with stageB := n.stageB ++ [t] }) (waitingOn (s.ctx c) m i 2) s

/-! ## The output grid -/

/-- What a MATMUL station is: its product, W (or G), the sparse layout and metadata in force, and the extents of the operand
on port 2. -/
structure MatInfo where
  prod : Nat
  w : TensorRec
  sparse : Bool
  metas : List BandMeta
  tokens : Nat
  bExt : List Nat
  deriving DecidableEq, Repr

/-- The plane of the operand on port 2 that an output tile pairs with: its own where the operand has that plane, else plane
(0, 0) (log entry 11). -/
def MatInfo.planeB (q : MatInfo) (x2 x3 : Nat) : Nat × Nat :=
  if x2 < q.bExt.getD 2 1 ∧ x3 < q.bExt.getD 3 1 then (x2, x3) else (0, 0)

/-- Tile (tr, tc) of the operand on port 2 for output tile `o`. -/
def MatInfo.atB (q : MatInfo) (o : TileXY) (tr tc : Nat) : TileXY := ⟨tr, tc, (q.planeB o.x2 o.x3).1, (q.planeB o.x2 o.x3).2⟩

def nubBy {α : Type} [DecidableEq α] (l : List α) : List α := l.foldl (fun acc a => if acc.contains a then acc else acc ++ [a]) []

/-- The passes that a band holds. -/
def BandMeta.passes (b : BandMeta) : Nat := b.rows.foldl (fun a r => max a (ceilDiv r.length 32)) 0

def MatInfo.band (q : MatInfo) (b : Nat) : Option BandMeta := q.metas.find? (fun k => k.band == b)

/-- The slots of row `v` of a band in pass `p`. -/
def BandMeta.cut (b : BandMeta) (p v : Nat) : List SlotPos := ((b.rows.getD v []).drop (32 * p)).take 32

/-- Pass (band, p) holds a slot in dx tile `j`. -/
def BandMeta.meets (b : BandMeta) (p j : Nat) : Bool :=
  (List.range 32).any (fun v => (b.cut p v).any (fun sl => match sl with
    | .col c => c / 32 == j
    | .none => false))

/-- The passes that contribute to dx tile `j`: by the column schedule under UN, else every pass that holds a slot in the
tile (R142, R147). -/
def dxPasses (q : MatInfo) (j : Nat) : List (Nat × Nat) :=
  q.metas.flatMap (fun b =>
    match b.sched with
    | some l => (l.filter (fun e => e.1 == j && decide (e.2 < b.passes))).map (fun e => (b.band, e.2))
    | none => ((List.range b.passes).filter (fun p => b.meets p j)).map (fun p => (b.band, p)))

/-- The output tiles that the staged operands define. -/
def matGrid (q : MatInfo) (n : StnState) : List TileXY :=
  let rows := nubBy (n.stageA.map (fun t => (if q.prod = 2 then t.xy.tc else t.xy.tr, t.xy.x2, t.xy.x3)))
  if q.sparse && q.prod == 2 then
    let planes := nubBy (n.stageA.map (fun t => (t.xy.x2, t.xy.x3)))
    planes.flatMap (fun pl => q.metas.flatMap (fun b => (List.range b.passes).map (fun p => ⟨b.band, p, pl.1, pl.2⟩)))
  else
    rows.flatMap (fun r =>
      let cols := if q.sparse then
          (if q.prod = 0 then q.metas.map (·.band) else List.range (ceilDiv (q.w.ext 0) 32))
        else nubBy ((n.stageB.filter (fun t => (t.xy.x2, t.xy.x3) == q.planeB r.2.1 r.2.2)).map
          (fun t => if q.prod = 0 then t.xy.tr else t.xy.tc))
      cols.map (fun cc => ⟨r.1, cc, r.2.1, r.2.2⟩))

/-! ## Whether a station holds more to emit -/

def matInfoPure (x : Ctx) (m : Image) (i : Nat) : MatInfo :=
  let st := m.station i
  let w := (m.tensor st.tensor).getD emptyTensor
  let n := x.stn i
  let metas := match (n.stageA ++ n.stageB).find? (fun t => !t.sel.isEmpty) with
    | some t => t.sel
    | none => (n.stageP.filterMap (fun t => match t.payload with
      | .band b => some b
      | _ => none))
  { prod := st.o 0 1, w := w, sparse := w.sparse != 0, metas := metas,
    tokens := ((m.tensor st.tensor2).map (·.nt1)).getD 0,
    bExt := if st.o 0 1 = 2 then ((m.tensor st.tensor2).map (·.extent)).getD [] else w.extent }

/-- The station by itself holds nothing more to emit; its inputs are judged apart. -/
def stnDone (x : Ctx) (m : Image) (i : Nat) : Bool :=
  let n := x.stn i
  let k := (m.station i).kind
  if k = kFETCH then n.fin
  else if k = kMATMUL then (matGrid (matInfoPure x m i) n).all (fun o => n.emitted.contains o)
  else if k = kSCRIBE ∧ (m.station i).o 0 1 ≠ 0 then n.fin
  else if k = kREDUCE then n.fin
  else n.held.isEmpty && n.accs.isEmpty && n.sweeps.isEmpty

/-- The input port will carry no further tile in this step. -/
def portEnded (x : Ctx) (m : Image) (i port : Nat) : Bool :=
  exhausted x m (idleSet x m) (stnDone x m) (m.stations.length + 1) i port

/-! ## Operands of an output tile -/

/-- The staged tile at coordinates. -/
def stagedAt (l : List Tile) (xy : TileXY) : Option Tile := l.find? (fun t => t.xy == xy)

/-- Tile (tr, tc) of B for an output tile, in the plane that it pairs with. -/
def stagedB (q : MatInfo) (n : StnState) (o : TileXY) (tr tc : Nat) : Option Tile := stagedAt n.stageB (q.atB o tr tc)

/-- A's tile for block `k` of an output tile: (row, k) or, in PRODUCT 2, (k, row). -/
def operandA (q : MatInfo) (n : StnState) (o : TileXY) (k : Nat) : Option Tile :=
  stagedAt n.stageA (if q.prod = 2 then ⟨k, o.tr, o.x2, o.x3⟩ else ⟨o.tr, k, o.x2, o.x3⟩)

/-- B's tile for block `k` of a dense output tile. -/
def operandB (q : MatInfo) (n : StnState) (o : TileXY) (k : Nat) : Option Tile :=
  if q.prod = 0 then stagedB q n o o.tc k else stagedB q n o k o.tc

/-- The blocks of the whole reduction range by the records: block columns of W, block rows of W, or token tiles. -/
def rangeOf (q : MatInfo) : Nat := if q.prod = 0 then q.w.nt0 else if q.prod = 1 then q.w.nt1 else q.tokens

/-- The blocks of A and of B that are staged for a dense output tile. -/
def blocksA (q : MatInfo) (n : StnState) (o : TileXY) : List Nat :=
  nubBy ((n.stageA.filter (fun t => t.xy.x2 == o.x2 && t.xy.x3 == o.x3 && (if q.prod = 2 then t.xy.tc else t.xy.tr) == o.tr)).map
    (fun t => if q.prod = 2 then t.xy.tr else t.xy.tc))

def blocksB (q : MatInfo) (n : StnState) (o : TileXY) : List Nat :=
  nubBy ((n.stageB.filter (fun t => (if q.prod = 0 then t.xy.tr else t.xy.tc) == o.tc &&
      (t.xy.x2, t.xy.x3) == q.planeB o.x2 o.x3)).map
    (fun t => if q.prod = 0 then t.xy.tc else t.xy.tr))

def covers (l : List Nat) (n : Nat) : Bool := (List.range n).all l.contains

/-- The dense columns that the slots of a packed dW tile or of a whole band meet, as x tiles. -/
def metTiles (b : BandMeta) (ps : List Nat) : List Nat :=
  nubBy (ps.flatMap (fun p => (List.range 32).flatMap (fun v => (b.cut p v).filterMap (fun sl => match sl with
    | .col c => some (c / 32)
    | .none => none))))

/-! ## The rows that the predictor keeps (R124, R149, R176) -/

/-- The row sets that Scribe keeps for tensor `ti`: the active rows of a band in a token tile; all rows where there is
no predictor. -/
def rowActive (x : Ctx) (ti tau r : Nat) : Bool :=
  match x.rowSets.find? (fun e => e.1 == ti && e.2.1.tr == tau && e.2.1.tc == r / 32) with
  | some e => e.2.2.getLsbD (r % 32)
  | none => true

/-- Row `v` of band `b` takes part for the token tile of the operand: by the row sets on the operand (PRODUCT 0) or by
those that Scribe keeps (PRODUCT 1). -/
def rowOn (x : Ctx) (q : MatInfo) (ti : Nat) (a : Tile) (b v : Nat) : Bool :=
  if q.prod = 0 then
    match a.active.find? (fun e => e.1 == b) with
    | some e => e.2.getLsbD v
    | none => true
  else rowActive x ti a.xy.tr (32 * b + v)

/-- Row `v` of band `b` takes part in an output tile of PRODUCT 0 or 1. -/
def rowIn (x : Ctx) (q : MatInfo) (ti : Nat) (n : StnState) (o : TileXY) (b v : Nat) : Bool :=
  match n.stageA.find? (fun t => t.xy.tr == o.tr && t.xy.x2 == o.x2 && t.xy.x3 == o.x3) with
  | some a => rowOn x q ti a b v
  | none => true

/-- R149: the passes of a band, of which only the rows `on` count as having stored positions: a band without one takes none; under
B16 a block-row without one counts as empty; under UN such a row does not enter mb. -/
def BandMeta.passesOn (b : BandMeta) (kind : Nat) (on : Nat → Bool) : Nat :=
  let act := (List.range 32).filter on
  let len (vs : List Nat) : Nat := vs.foldl (fun a v => max a (ceilDiv (b.rows.getD v []).length 32)) 0
  if act.isEmpty then 0
  else if kind = 3 then len ((List.range 32).filter (fun v => act.any (fun r => r / 16 == v / 16)))
  else if kind = 4 then len act
  else b.passes

/-! ## The passes of an output tile -/

/-- One pass of an output tile: a stored pass (band, k), or a dense pair of A's block `k` with B's block `kb`. -/
structure MatPass where
  band : Nat
  k : Nat
  kb : Nat
  deriving DecidableEq, Repr

/-- The members of a list in ascending order. -/
def ascending (l : List Nat) : List Nat := (List.range (l.foldl (fun x y => max x (y + 1)) 0)).filter l.contains

/-- The blocks of A and of B as a pass pairs them: a block with its own number on the other side, and what is left over in
ascending order; a block without a partner stays unpaired (R133, log entry 60). -/
def pairBlocks (a b : List Nat) : List (Nat × Nat) :=
  let sa := ascending a
  let sb := ascending b
  let left := (sa.filter (fun k => !sb.contains k)).zip (sb.filter (fun k => !sa.contains k))
  sa.filterMap (fun k => if sb.contains k then some (k, k) else left.find? (fun p => p.1 == k))

/-- The passes of an output tile in order. The reduction is never divided among benches: R101 and R150 leave that to Cutlist
(log entry 61). -/
def matPasses (x : Ctx) (q : MatInfo) (ti : Nat) (n : StnState) (o : TileXY) : List MatPass :=
  let count (b : BandMeta) : Nat := b.passesOn q.w.sparse (rowIn x q ti n o b.band)
  if q.sparse && q.prod == 0 then (List.range (((q.band o.tc).map count).getD 0)).map (fun p => ⟨o.tc, p, p⟩)
  else if q.sparse && q.prod == 1 then
    ((dxPasses q o.tc).filter (fun e => decide (e.2 < ((q.band e.1).map count).getD 0))).map (fun e => ⟨e.1, e.2, e.2⟩)
  else if q.sparse then (ascending (blocksA q n o)).map (fun k => ⟨o.tr, k, k⟩)
  else (pairBlocks (blocksA q n o) (blocksB q n o)).map (fun p => ⟨o.tr, p.1, p.2⟩)

/-- The tiles of B that a pass multiplies. -/
def passB (q : MatInfo) (o : TileXY) (p : MatPass) : List TileXY :=
  if !q.sparse then [if q.prod = 0 then q.atB o o.tc p.kb else q.atB o p.kb o.tc]
  else if q.prod = 2 then (((q.band o.tr).map (fun b => metTiles b [o.tc])).getD []).map (q.atB o p.k)
  else [q.atB o p.band p.k]

/-- The blocks of A that a pass multiplies. -/
def passA (q : MatInfo) (p : MatPass) : List Nat :=
  if !q.sparse || q.prod == 2 then [p.k]
  else if q.prod = 1 then [p.band]
  else ((q.band p.band).map (fun b => metTiles b [p.k])).getD []

/-- The staged operand tiles of a pass. -/
def passTiles (q : MatInfo) (n : StnState) (o : TileXY) (p : MatPass) : List Tile :=
  (passA q p).filterMap (operandA q n o) ++ (passB q o p).filterMap (stagedAt n.stageB)

/-- 0x0501: the operands do not carry the same blocks of the reduction range; for a sparse W, a tile that one of its passes
needs did not come. -/
def matBad (q : MatInfo) (n : StnState) (o : TileXY) (ps : List MatPass) : Bool :=
  if q.sparse then
    ps.any (fun p => (passA q p).any (fun k => (operandA q n o k).isNone) || (passB q o p).any (fun xy => (stagedAt n.stageB xy).isNone))
  else
    let a := blocksA q n o
    let b := blocksB q n o
    !(a.all b.contains && b.all a.contains)

/-- The blocks of the reduction range that the FETCH behind A delivers, directly or through a SPREAD; 0 where A comes from
another station, whose tiles follow the range of W. -/
def sourceRange (m : Image) (i prod : Nat) : Nat :=
  let src := ((m.inStream i 0).map (fun p => p.2.src)).getD noneIx
  let src := if (m.station src).kind = kSPREAD then ((m.inStream src 0).map (fun p => p.2.src)).getD noneIx else src
  let st := m.station src
  match m.tensor st.tensor with
  | some t => if st.kind = kFETCH then ceilDiv ((viewExtents m st t).getD (if prod = 2 then 1 else 0) 1) 32 else 0
  | none => 0

/-- Both operands of the whole range are staged, or their sources have ended (R100). -/
def matReady (x : Ctx) (m : Image) (i : Nat) (q : MatInfo) (o : TileXY) : Bool :=
  let n := x.stn i
  let ti := (m.station i).tensor
  let a := blocksA q n o
  let full :=
    if q.sparse then
      (if q.prod = 2 then
        covers a q.tokens && (match q.band o.tr with
          | some b => (metTiles b [o.tc]).all (fun tc => (List.range q.tokens).all (fun k => (stagedB q n o k tc).isSome))
          | none => true)
       else
        covers a (rangeOf q) && (matPasses x q ti n o).all (fun p => (stagedB q n o p.band p.k).isSome))
    else covers a (max (rangeOf q) (sourceRange m i q.prod)) && covers (blocksB q n o) (rangeOf q)
  full || (portEnded x m i 0 && portEnded x m i 2)

/-! ## Ceilings and anchor (R98, R99, R148) -/

/-- The ceiling that a set of operand tiles of format `fmt` gives, over the rows that `row` keeps and, for BF16, the elements that
`elem` keeps; the empty value where nothing remains. -/
def tilesCeiling (fmt : Nat) (l : List Tile) (row elem : Tile → Nat → Bool) : Int :=
  let rows (t : Tile) (b : Nat) : Bool := t.rowUsed b && row t b
  let scs := l.flatMap (fun t => t.scales.zipIdx.filterMap (fun p => if rows t p.2 then some p.1 else none))
  let raws := l.flatMap (fun t =>
    match t.payload with
    | .codes _ books => (books.zipIdx.filter (fun p => rows t p.2)).flatMap (·.1)
    | _ => if fmt = fBF16 then t.raws.zipIdx.filterMap (fun p =>
        if t.has p.2 && row t (p.2 / 32) && elem t p.2 then some p.1 else none) else [])
  ceiling fmt scs raws

/-- The format of an operand: that of its staged tiles, else that of its stream. -/
def operandFmt (x : Ctx) (m : Image) (i port : Nat) (l : List Tile) : Nat :=
  match l.head?, m.inStream i port with
  | some t, _ => t.fmt
  | none, some (_, r) => if r.format = fRUNG then x.rungOf (m.station r.src).layer else r.format
  | none, none => 0

/-- Element `e` of the packed stationary tile `t` stands at a column that `ok` keeps. -/
def slotIn (q : MatInfo) (ok : Nat → Bool) (t : Tile) (e : Nat) : Bool :=
  match q.band t.xy.tr with
  | some b => (match (b.cut t.xy.tc (e / 32)).getD (e % 32) .none with
    | .col c => ok c
    | .none => false)
  | none => false

/-- The tiles of A and of B that the reduction of an output tile reads (R98, R148). -/
def rangeTiles (q : MatInfo) (n : StnState) (o : TileXY) : List Tile × List Tile :=
  let mine (t : Tile) : Bool := (if q.prod = 2 then t.xy.tc else t.xy.tr) == o.tr && t.xy.x2 == o.x2 && t.xy.x3 == o.x3
  let plane (t : Tile) : Bool := (t.xy.x2, t.xy.x3) == q.planeB o.x2 o.x3
  let a := n.stageA.filter mine
  let b := n.stageB.filter plane
  if q.sparse && q.prod == 0 then
    let met := ((q.band o.tc).map (fun b => metTiles b (List.range b.passes))).getD []
    (a.filter (fun t => met.contains t.xy.tc), b.filter (fun t => t.xy.tr == o.tc))
  else if q.sparse && q.prod == 1 then
    let ps := dxPasses q o.tc
    (a.filter (fun t => ps.any (fun e => e.1 == t.xy.tc)), b.filter (fun t => ps.contains (t.xy.tr, t.xy.tc)))
  else if q.sparse then
    let met := ((q.band o.tr).map (fun b => metTiles b [o.tc])).getD []
    (a, b.filter (fun t => met.contains t.xy.tc))
  else (a, b.filter (fun t => (if q.prod = 0 then t.xy.tr else t.xy.tc) == o.tc))

/-- The anchor of an output tile over its whole reduction range. The slots of a sparse stationary tile count where the output tile
reads them. -/
def matAnchor (x : Ctx) (m : Image) (i : Nat) (q : MatInfo) (o : TileXY) : Int :=
  let n := x.stn i
  let r := rangeTiles q n o
  let all : Tile → Nat → Bool := fun _ _ => true
  let ok (c : Nat) : Bool := q.prod != 1 || c / 32 == o.tc
  let elem : Tile → Nat → Bool := if q.sparse && q.prod != 2 then slotIn q ok else all
  let row (t : Tile) (v : Nat) : Bool :=
    !(q.sparse && q.prod == 1) || (List.range 32).any (fun u => slotIn q ok t (32 * v + u))
  anchorOf (tilesCeiling (operandFmt x m i 0 n.stageA) r.1 all all) (tilesCeiling (operandFmt x m i 2 n.stageB) r.2 row elem)

/-! ## Positions that form products in PRODUCT 2 (R124, R126, R143, R176) -/

/-- Row `r` is skipped in every token tile of the step. -/
def rowGone (x : Ctx) (ti r : Nat) : Bool :=
  let l := x.rowSets.filter (fun e => e.1 == ti && e.2.1.tc == r / 32)
  !l.isEmpty && l.all (fun e => !e.2.2.getLsbD (r % 32))

/-- Whether dW position (r, c) stays: not frozen, not in a frozen-whole tensor, not in a row skipped throughout. -/
def gradPos (x : Ctx) (q : MatInfo) (ti : Nat) (frozen : List Byte) (r c : Nat) : Bool :=
  let d : SparseDim := ⟨q.w.sparse, q.w.ext 1, q.w.ext 0, 0⟩
  decide (r < q.w.ext 1) && decide (c < q.w.ext 0) && !q.w.mode mFRZA && !frozenAt q.w d frozen r c && !rowGone x ti r

/-- The dW positions of the 1024 elements of an output tile; `none` where no product is formed. -/
def dwPositions (x : Ctx) (q : MatInfo) (ti : Nat) (frozen : List Byte) (o : TileXY) : List (Option (Nat × Nat)) :=
  (List.range 1024).map (fun e =>
    let pos : Option (Nat × Nat) :=
      if q.sparse then
        match q.band o.tr with
        | some b => (match (b.cut o.tc (e / 32)).getD (e % 32) .none with
          | .col c => some (32 * o.tr + e / 32, c)
          | .none => none)
        | none => none
      else some (32 * o.tr + e / 32, 32 * o.tc + e % 32)
    pos.bind (fun p => if gradPos x q ti frozen p.1 p.2 then some p else none))

/-! ## Products of one pass (R102, R117, R118) -/

def rows32 (l : List Val) : List (List Val) := (List.range 32).map (fun i => (l.drop (32 * i)).take 32)

def cols32 (l : List Val) : List (List Val) := (List.range 32).map (fun j => (List.range 32).map (fun i => l.getD (32 * i + j) .nan))

/-- The values of a stationary tile: codes decode by the tables that the array loaded (R127). -/
def statVals (t : Tile) (cur : Option StatTile) : List Val :=
  match t.payload, cur with
  | .codes cs _, some k => cs.zipIdx.map (fun p =>
      match k.books.getD (p.2 / 32) none with
      | some b => codeVal b p.1
      | none => .nan)
  | _, _ => t.vals

def mulZip (a b : List Val) : List Val := (a.zip b).map (fun p => p.1.mul p.2)

/-- The products of every output element in one pass, element 32i + j. -/
def passProducts (x : Ctx) (q : MatInfo) (ti : Nat) (n : StnState) (o : TileXY) (p : MatPass)
    (dw : List (Option (Nat × Nat))) : List (List Val) :=
  let get (k : Nat) : List (List Val) := rows32 (((operandA q n o k).map (·.vals)).getD [])
  if q.prod = 2 then
    let dy := cols32 (((operandA q n o p.k).map (·.vals)).getD [])
    let cached := (nubBy (dw.filterMap (fun d => d.map (fun q => q.2 / 32)))).filterMap (fun tc =>
      (stagedB q n o p.kb tc).map (fun t => (tc, cols32 t.vals)))
    dw.zipIdx.map (fun d =>
      match d.1 with
      | none => []
      | some (r, cc) =>
        if rowActive x ti p.k r then
          mulZip (dy.getD (r % 32) []) ((((cached.find? (fun u => u.1 == cc / 32)).map (·.2)).getD []).getD (cc % 32) [])
        else [])
  else if q.sparse then
    let bm := q.band p.band
    let w := rows32 (((stagedB q n o p.band p.k).map (fun t => statVals t n.cur)).getD [])
    let cut (v : Nat) : List SlotPos := (bm.map (fun b => b.cut p.k v)).getD []
    if q.prod = 0 then
      let met := (bm.map (fun b => metTiles b [p.k])).getD []
      let xs := met.filterMap (fun tc => (operandA q n o tc).map (fun t => (tc, rows32 t.vals)))
      (List.range 1024).map (fun e =>
        let v := e % 32
        if rowIn x q ti n o p.band v then
          ((cut v).zip (w.getD v [])).filterMap (fun z =>
            match z.1 with
            | .col cc => (xs.find? (fun u => u.1 == cc / 32)).map (fun u => ((u.2.getD (e / 32) []).getD (cc % 32) .nan).mul z.2)
            | .none => none)
        else [])
    else
      match operandA q n o p.band with
      | none => List.replicate 1024 []
      | some a =>
        let dy := rows32 a.vals
        (List.range 1024).map (fun e =>
          (List.range 32).flatMap (fun v =>
            if rowOn x q ti a p.band v then
              ((cut v).zip (w.getD v [])).filterMap (fun z =>
                if z.1 = .col (32 * o.tc + e % 32) then some (((dy.getD (e / 32) []).getD v .nan).mul z.2) else none)
            else []))
  else
    let a := operandA q n o p.k
    let ar := get p.k
    let bv := ((operandB q n o p.kb).map (fun t => statVals t n.cur)).getD []
    if q.prod = 0 then
      let br := rows32 bv
      (List.range 1024).map (fun e =>
        if (match a with
          | some t => rowOn x q ti t o.tc (e % 32)
          | none => true) then mulZip (ar.getD (e / 32) []) (br.getD (e % 32) []) else [])
    else
      let bc := cols32 bv
      let on := (List.range 32).map (fun v => (match a with
        | some t => rowOn x q ti t p.kb v
        | none => true))
      (List.range 1024).map (fun e =>
        (((ar.getD (e / 32) []).zip (bc.getD (e % 32) [])).zip on).filterMap (fun z => if z.2 then some (z.1.1.mul z.1.2) else none))

/-! ## The pass -/

/-- The presence of the output elements: rows and columns that the operands hold. -/
def matPresent (q : MatInfo) (n : StnState) (o : TileXY) : List Bool :=
  if q.prod = 2 then
    (if q.sparse then
      (match q.band o.tr with
        | some b => (List.range 1024).map (fun e => decide (e % 32 < (b.cut o.tc (e / 32)).length) && decide (32 * o.tr + e / 32 < q.w.ext 1))
        | none => [])
     else presentOf q.w.extent o)
  else
    let rowOk (i : Nat) : Bool :=
      (n.stageA.filter (fun t => t.xy.tr == o.tr && t.xy.x2 == o.x2 && t.xy.x3 == o.x3)).any (fun t => t.rowUsed i)
    let lim := if q.prod = 0 then q.w.ext 1 else q.w.ext 0
    let rows := (List.range 32).map rowOk
    if rows.all id && decide (32 * o.tc + 32 ≤ lim) then []
    else (List.range 1024).map (fun e => rows.getD (e / 32) false && decide (32 * o.tc + e % 32 < lim))

/-- The stationary tile of a pass (R118, R122): none in PRODUCT 2. -/
def statOf (q : MatInfo) (o : TileXY) (p : MatPass) : Option TileXY := if q.prod = 2 then none else (passB q o p).head?

def holds (t : Option StatTile) (w : TileXY) : Bool :=
  match t with
  | some k => k.xy == w
  | none => false

/-- The register that holds the stationary tile becomes the one that passes run from (R122). -/
def switchStat (w : Option TileXY) (n : StnState) : Option StnState :=
  match w with
  | none => some n
  | some w =>
    if holds n.cur w then some n
    else if holds n.idle w then some { n with cur := n.idle, idle := n.cur }
    else none

def emptySeg (o : TileXY) (anchor : Int) (l total : Nat) (bad : Bool) : SegBuf :=
  { out := o, anchor := anchor, log2 := l, v := List.replicate 1024 0, st := List.replicate 1024 0, inSeg := 0, blocksDone := [],
    total := total, bad := bad }

/-- Counts malformed and dropped metadata entries (R144, R145). -/
def countMeta (errs drops : Nat) (x : Ctx) : Ctx :=
  let x := x.count (fun k => { k with metaErr := satAdd k.metaErr errs, metaDrop := satAdd k.metaDrop drops })
  { x with wit := { x.wit with counts := { x.wit.counts with
      metaErr := x.wit.counts.metaErr + errs, metaDrop := x.wit.counts.metaDrop + drops } } }

/-- R144: station `i` uses the entries of the bands, those of the transposed metadata where it reads by columns; each entry counts
once for the station in a step. -/
def useBands (i : Nat) (transposed : Bool) (ms : List BandMeta) (x : Ctx) : Ctx :=
  let new := ms.filter (fun b => !(x.stn i).bands.contains b.band)
  let errs := sumNat (new.map (fun b => b.errs + (if transposed then b.tErrs else 0)))
  let drops := sumNat (new.map (fun b => b.drops + (if transposed then b.tDrops else 0)))
  (countMeta errs drops x).modStn i (fun n => { n with bands := n.bands ++ new.map (·.band) })

/-- The ordinal of R470 for an M tap. -/
def matOrdinal (q : MatInfo) (o : TileXY) (p : MatPass) : Nat :=
  if q.sparse then
    let b := if q.prod = 2 then o.tr else p.band
    let k := if q.prod = 2 then o.tc else p.k
    sumNat ((q.metas.filter (fun r => decide (r.band < b))).map (·.passes)) + k
  else tileOrdinal q.w.extent ((statOf q o p).getD o)

/-- The ACC tile that delivers a segment (R105); every element is NaN after 0x0501. -/
def segTile (q : MatInfo) (n : StnState) (b : SegBuf) : Tile :=
  { xy := b.out
    payload := .acc b.anchor (max 1 (ceilDiv b.total (2 ^ b.log2))) b.v (if b.bad then b.st.map (fun _ => 3) else b.st)
    present := matPresent q n b.out
    cols := if q.sparse && q.prod == 2 then passCols (((q.band b.out.tr).map (·.rows)).getD []) b.out.tc else [] }

/-- A SPREAD with a META input feeds an operand of the station: it delivers the metadata. -/
def spreadFed (m : Image) (i : Nat) : Bool :=
  [0, 2].any (fun p =>
    match m.inStream i p with
    | some (_, r) => (m.station r.src).kind == kSPREAD && m.fed r.src 2
    | none => false)

/-- What the pass reads of memory beside its streams: the committed metadata of a sparse W that no SPREAD delivers, and
the frozen bitmaps (R143). -/
def matSpans (x : Ctx) (m : Image) (i : Nat) (st : Station) (q : MatInfo) : List Span × List Span :=
  let ms := if q.sparse && q.metas.isEmpty && !spreadFed m i then
      (match m.masks[q.w.mask]? with
        | some k => metaSpans x (sparseDim q.w k) k q.w.mask
        | none => [])
    else []
  let fs := if q.prod = 2 && (q.w.mode mFRZR || q.w.mode mFRZB) then
      (match updateFor m st.tensor with
        | some (_, u) => [⟨u.frozenVa, frozenSpan ⟨q.w.sparse, q.w.ext 1, q.w.ext 0, 0⟩⟩]
        | none => [])
    else []
  (ms, fs)

/-- The metadata of a sparse W read by the station itself is kept for the step. -/
def keepMetas (i : Nat) (ms : List BandMeta) (x : Ctx) : Ctx :=
  x.modStn i (fun n => { n with stageP := ms.map (fun b => { xy := ⟨b.band, 0, 0, 0⟩, payload := .band b }) })

/-- The pass itself, once metadata, bitmaps and operands are there. Pass `blk` waits for room where it ends a segment, and for its
stationary tile. -/
def runPass (c : CtxId) (i : Nat) (m : Image) (st : Station) (q : MatInfo) (frozen : List Byte) (o : TileXY) (blk : Nat) (s : State) : State :=
  let x := s.ctx c
  let n := x.stn i
  if n.emitted.contains o || !(matGrid q n).contains o || !matReady x m i q o then s
  else
    let dw := if q.prod = 2 then dwPositions x q st.tensor frozen o else []
    let gone := q.prod == 2 && dw.all (·.isNone)
    let ps := if gone then [] else matPasses x q st.tensor n o
    let bad := !gone && matBad q n o ps
    let open? := n.segs.find? (fun g => g.out == o)
    let seg := open?.getD (emptySeg o (matAnchor x m i q o) x.visible.spillLog2.toNat ps.length bad)
    let charged := if open?.isNone && bad then violate c 0x0501 s else s
    match ps[blk]? with
    | none =>
      if ps.isEmpty && x.room m i 0 then
        charged.modCtx c (fun x => (x.push m i 0 (segTile q n seg)).modStn i (fun n => { n with emitted := n.emitted ++ [o] }))
      else s
    | some p =>
      let last := decide (ps.length ≤ seg.blocksDone.length + 1)
      let ends := last || decide (2 ^ seg.log2 ≤ seg.inSeg + 1)
      if seg.blocksDone.contains blk || (ends && !x.room m i 0) then s
      else
        match switchStat (statOf q o p) n with
        | none => s
        | some n =>
          let cs := (passProducts x q st.tensor n o p dw).map (fun l => blockSum l seg.anchor)
          let seg' := { seg with v := (seg.v.zip cs).map (fun z => wrapS 128 (z.1 + z.2.1)),
                                 st := (seg.st.zip cs).map (fun z => comb z.1 z.2.2.1),
                                 inSeg := seg.inSeg + 1, blocksDone := seg.blocksDone ++ [blk] }
          let s := charged.modCtx c (fun x => x.count (countLosses (countVanish (cs.map (·.2.2))) (countTrunc (cs.map (·.2.2)))))
          let others := n.segs.filter (fun g => g.out != o)
          let s := s.modCtx c (fun x =>
            if ends then
              let x := x.push m i 0 (segTile q n seg')
              let again := emptySeg o seg.anchor seg.log2 seg.total seg.bad
              if last then x.setStn i { n with segs := others, emitted := n.emitted ++ [o] }
              else x.setStn i { n with segs := others ++ [{ again with blocksDone := seg'.blocksDone }] }
            else x.setStn i { n with segs := others ++ [seg'] })
          checkResidue c (benchSite (s.ctx c) i) (checkOp m i (matOrdinal q o p)) tapsM (passTiles q n o p) s

/-- MATMUL_PASS: stages the operands that wait, reads metadata and bitmaps, and runs pass `blk` of output tile `o`. -/
def doMatmulPass (c : CtxId) (i : Nat) (o : TileXY) (blk : Nat) (s : State) : State :=
  withStation c i kMATMUL (fun m st s =>
    let s := stageOperands c m i s
    let q0 := matInfoPure (s.ctx c) m i
    let sp := matSpans (s.ctx c) m i st q0
    match access c (reqStation i) false false (sp.1 ++ sp.2) s with
    | (none, s) => s
    | (some tab, s) =>
      let s' := s
      let s := chargeRead c tab (sp.1 ++ sp.2) s
      let s := if sp.1.isEmpty then s
        else
          match m.masks[q0.w.mask]? with
          | some k =>
            let d := sparseDim q0.w k
            let b := readMeta (s.ctx c) tab s' d k q0.w.mask
            s.modCtx c (keepMetas i (bandMetas d b.1 b.2))
          | none => s
      let q := matInfoPure (s.ctx c) m i
      let s := s.modCtx c (useBands i (q.prod == 1) q.metas)
      runPass c i m st q (sp.2.flatMap (readSpan tab s')) o blk s) s

def execMatmulPass (c : CtxId) (st : Nat) (out : TileXY) (blk : Nat) (s : State) : Host.Outcome State Fault Refusal :=
  .next (doMatmulPass c st out blk s)

/-! ## STATIONARY_TILE_LOAD (R122, R127) -/

/-- The codebook tables of a code tile, `none` for a row outside the CODEBOOK tensor (0x0502). -/
def tablesOf (w : TensorRec) (t : Tile) : List (Option (List Nat)) :=
  match t.payload with
  | .codes _ books => books.zipIdx.map (fun p => if 32 * t.xy.tr + p.2 < w.ext 1 then some p.1 else none)
  | _ => []

/-- Loads the B tile of coordinates `xy` into the idle register. -/
def doStationaryTileLoad (c : CtxId) (i : Nat) (xy : TileXY) (s : State) : State :=
  withStation c i kMATMUL (fun m st s =>
    let s := stageOperands c m i s
    let n := (s.ctx c).stn i
    if st.o 0 1 = 2 then s
    else
      match stagedAt n.stageB xy with
      | none => s
      | some t =>
        let w := (m.tensor st.tensor).getD emptyTensor
        let tb := tablesOf w t
        let s := if tb.any (·.isNone) then violate c 0x0502 s else s
        s.modCtx c (fun x => x.modStn i (fun n => { n with idle := some ⟨xy, tb⟩ }))) s

def execStationaryTileLoad (c : CtxId) (st : Nat) (tile : TileXY) (s : State) : Host.Outcome State Fault Refusal :=
  .next (doStationaryTileLoad c st tile s)

end Sys2Proof.Machine
end

