-- ==== Sys2Proof/Machine/Convert.lean ====
section
/-! DEFINITION. CONVERT_TILE (R85 to R90, R227, R228, R231, R307) and SPREAD_TILE (R134, R144, R145, R176). -/

namespace Sys2Proof.Machine

open Sys2Proof

/-- Takes every scaled tile that waits on port 0 into staging (R307). -/
def stageHeld (c : CtxId) (m : Image) (i : Nat) (s : State) : State :=
  stagePort c m i 0 (fun t n => { n with held := n.held ++ [t] }) (waitingOn (s.ctx c) m i 0) s

/-- Removes the first tile at the coordinates. -/
def dropTile (xy : TileXY) : List Tile → List Tile
  | [] => []
  | t :: l => if t.xy = xy then l else t :: dropTile xy l

/-- The extents in whose grid a station's tiles stand: those of its TENSOR. -/
def stationExt (m : Image) (st : Station) : List Nat := ((m.tensor st.tensor).map (·.extent)).getD [1, 1, 1, 1]

/-- Element `e` of a tile is an element of the station's tensor, where it names one, and the tile holds it. -/
def stationHas (m : Image) (st : Station) (t : Tile) (e : Nat) : Bool :=
  t.has e && (match m.tensor st.tensor with
    | some w => w.sparse != 0 || inExt w.extent t.xy e
    | none => true)

/-- The tile with the lowest ordinal. -/
def lowestTile (ext : List Nat) (l : List Tile) : Option Tile :=
  l.foldl (fun a t => match a with
    | none => some t
    | some b => if tileOrdinal ext t.xy < tileOrdinal ext b.xy then some t else a) none

/-- Converts one tile and emits it. -/
def convertOne (i : Nat) (m : Image) (st : Station) (t : Tile) (x : Ctx) : Ctx :=
  let rung := st.o 0 1 == fRUNG
  let f := if rung then x.rungOf st.layer else st.o 0 1
  let ovf := if rung then x.ag.ovfMode.toNat else st.o 2 1
  let site := isSite st
  let ext := stationExt m st
  let has := stationHas m st t
  let vals := t.vals
  let o := tileOrdinal ext t.xy
  let r := convertTile f ovf (if site then siteScale x i f else none) vals t.subs has
    (stochastic x (m.tensor st.tensor) 0 (st.o 1 1) t.xy t.cols)
  let ri := (x.layers.getD st.layer {}).rung
  let probe := if rung && decide (0 < ri) then
      (convertTile (rungFmt (ri - 1)) ovf none vals t.subs has (fun _ => none)).classes
    else []
  let thresh := x.liveAt idSatThresh i o
  let x := if site then x.issue idSatThresh i o else x
  let x := observe i st has vals r.classes probe thresh (x.count (gaugeClasses f r.classes))
  let out := { outTile f ext t.xy r with cols := t.cols }
  let x := x.push m i 0 out
  if isMx f then x.push m i 1 (sclTile out) else x

/-- CONVERT_TILE of station `i`: a site issues its tiles in ascending ordinal; another station takes them as they come. -/
def doConvertTile (c : CtxId) (i : Nat) (s : State) : State :=
  withStation c i kCONVERT (fun m st s =>
    if !((s.ctx c).room m i 0 && (s.ctx c).room m i 1) then s
    else if isSite st then
      let s := stageHeld c m i s
      let x := s.ctx c
      let n := x.stn i
      let ext := stationExt m st
      match lowestTile ext n.held with
      | none => s
      | some t =>
        let o := tileOrdinal ext t.xy
        if decide (o ≤ n.next) || portEnded x m i 0 then
          let rest := dropTile t.xy n.held
          let more := rest.any (fun u => tileOrdinal ext u.xy == o)
          let s := s.modCtx c (convertOne i m st t)
          s.modCtx c (fun x => x.modStn i (fun n => { n with held := rest, next := if more then n.next else max n.next (o + 1) }))
        else s
    else
      match takeScaled c m i 0 s with
      | (none, s) => s
      | (some (t, _), s) => s.modCtx c (convertOne i m st t)) s

def execConvertTile (c : CtxId) (st : Nat) (s : State) : Host.Outcome State Fault Refusal := .next (doConvertTile c st s)

/-! ## SPREAD_TILE -/

/-- The metadata of a band as a station without transposed use passes it on. -/
def BandMeta.rowOnly (b : BandMeta) : BandMeta := { b with sched := none, tErrs := 0, tDrops := 0 }

/-- Takes the metadata tiles that wait. -/
def takeMetas (c : CtxId) (m : Image) (i : Nat) (transposed : Bool) : Nat → State → State
  | 0, s => s
  | k + 1, s =>
    match takeTile c m i 2 s with
    | (none, s) => s
    | (some t, s) =>
      match t.payload with
      | .band b =>
        let b := if transposed then b else b.rowOnly
        takeMetas c m i transposed k (s.modCtx c (fun x =>
          x.modStn i (fun n => { n with stageB := n.stageB ++ [{ t with payload := .band b }] })))
      | _ => takeMetas c m i transposed k s

/-- Takes the row-set tiles that wait on the PRED port. -/
def takeRowSets (c : CtxId) (m : Image) (i : Nat) : Nat → State → State
  | 0, s => s
  | k + 1, s =>
    match takeTile c m i 3 s with
    | (none, s) => s
    | (some t, s) => takeRowSets c m i k (s.modCtx c (fun x => x.modStn i (fun n => { n with stageP := n.stageP ++ [t] })))

def stagedMetas (n : StnState) : List BandMeta :=
  n.stageB.filterMap (fun t => match t.payload with
    | .band b => some b
    | _ => none)

/-- The row sets of token tile `tau` by band. -/
def stagedRows (n : StnState) (tau : Nat) : List (Nat × U32) :=
  n.stageP.filterMap (fun t => match t.payload with
    | .rows w => if t.xy.tr = tau then some (t.xy.tc, w) else none
    | _ => none)

/-- Both tags of a block are those of the block written (R221). -/
def Tile.retagged (t : Tile) : Tile :=
  match t.payload with
  | .val f es scs v _ => { t with payload := .val f es scs v v }
  | _ => t

/-- The number of bands of the tensor whose rows the PRED source scores. -/
def predBands (m : Image) (i : Nat) : Nat :=
  match m.inStream i 3 with
  | some (_, r) => ((m.tensor (m.station r.src).tensor).map (fun w => ceilDiv (w.ext 1) 32)).getD 0
  | none => 0

/-- SPREAD_TILE of station `i`: with the metadata of every band, and the row sets of the tile's token tile where PRED is
fed, the next value tile goes out with its positions. -/
def doSpreadTile (c : CtxId) (i : Nat) (s : State) : State :=
  withStation c i kSPREAD (fun m st s =>
    let s := takeMetas c m i (st.o 0 1 == 1) (waitingOn (s.ctx c) m i 2) s
    let s := takeRowSets c m i (waitingOn (s.ctx c) m i 3) s
    let x := s.ctx c
    let n := x.stn i
    let metas := stagedMetas n
    let ready := match metas with
      | [] => portEnded x m i 2
      | b :: _ => decide (b.bands ≤ metas.length)
    match x.peek m i 0 with
    | none => s
    | some t0 =>
      let rows := stagedRows n t0.xy.tr
      let predOk := !m.fed i 3 || decide (predBands m i ≤ rows.length) || portEnded x m i 3
      if ready && predOk && x.room m i 0 && x.room m i 1 then
        match takeScaled c m i 0 s with
        | (none, s) => s
        | (some (t, _), s) =>
          let out := { t.retagged with sel := metas, active := rows }
          s.modCtx c (fun x =>
            let x := x.push m i 0 out
            if isMx out.fmt then x.push m i 1 (sclTile out) else x)
      else s) s

def execSpreadTile (c : CtxId) (st : Nat) (s : State) : Host.Outcome State Fault Refusal := .next (doSpreadTile c st s)

end Sys2Proof.Machine
end

