-- ==== Sys2Proof/Machine/AccumStation.lean ====
section
/-! DEFINITION. ACCUM_SEGMENT and CHAIN_JOIN (R105 to R111). -/

namespace Sys2Proof.Machine

open Sys2Proof

/-- V of an ACC port element from the total T, and whether it wrapped (R110). -/
def accWrapped (t : Int) : Bool := wrapS 128 t != t

/-- The tile that leaves on the ACC port. -/
def accOut (out : TileXY) (anchor : Int) (d : List Int) (st : List (BitVec 2)) (present : List Bool) (cols : List SlotPos) :
    Tile :=
  { xy := out, payload := .acc anchor 1 (d.map (wrapS 128)) st, present := present, cols := cols }

/-- Emission of a complete output tile on both ports (R110, R111). An element that wraps counts in ACC_WRAP_COUNT where V leaves on
either port, the VAL port under OUT_FORMAT ACC128 included: the field map names the ACC port (DESIGN CHOICE, log entry 64). -/
def emitAccum (i : Nat) (m : Image) (st : Station) (out : TileXY) (anchor : Int) (d : List Int) (sts : List (BitVec 2))
    (present : List Bool) (cols : List SlotPos) (x : Ctx) : Ctx :=
  let f := st.o 0 1
  let acc := accOut out anchor d sts present cols
  let has := stationHas m st acc
  let onAcc := m.feeds i 0 || (m.feeds i 1 && f == fACC128)
  let wraps := if onAcc then d.zipIdx.countP (fun p => has p.2 && accWrapped p.1) else 0
  let x := x.count (fun k => { k with accWrap := satAdd k.accWrap wraps })
  let x := x.push m i 0 acc
  if !m.feeds i 1 then x
  else if f = fACC128 then x.push m i 1 acc
  else
    let vals := (d.zip sts).map (fun p => accVal anchor p.1 p.2)
    let r := convertTile f (st.o 2 1) none vals [] has (stochastic x (m.tensor st.tensor) 1 (st.o 1 1) out cols)
    (x.count (gaugeClasses f r.classes)).push m i 1 { outTile f (stationExt m st) out r with cols := cols }

/-- A segment added into the deep accumulator of its output tile; 0x0402 where its anchor or SEGMENTS differs (R107). -/
def addSegment (a : DeepAcc) (anchor : Int) (segments : Nat) (v : List Int) (st : List (BitVec 2)) : DeepAcc × Bool :=
  if anchor = a.anchor ∧ segments = a.segments then
    ({ a with got := a.got + 1, d := (a.d.zip v).map (fun p => wrapS 192 (p.1 + p.2)),
              st := (a.st.zip st).map (fun p => comb p.1 p.2) }, false)
  else ({ a with got := a.got + 1, st := a.st.map (fun _ => 3) }, true)

/-- The CHAIN port is fed by a station that works in this step. A port whose source is gated or idle in the step (R163, R321)
delivers nothing and counts as unfed, so that no tile waits on it and none is 0x0405 (DESIGN CHOICE, log entry 64). -/
def chained (x : Ctx) (m : Image) (i : Nat) : Bool :=
  match m.inStream i 1 with
  | some (_, r) => !(idleSet x m).contains r.src
  | none => false

/-- ACCUM_SEGMENT of station `i`: the next segment of port 0; a tile that it completes is emitted where no chain feeds
the station. -/
def doAccumSegment (c : CtxId) (i : Nat) (s : State) : State :=
  withStation c i kACCUM (fun m st s =>
    let x := s.ctx c
    if !(x.room m i 0 && x.room m i 1) then s
    else
      match takeTile c m i 0 s with
      | (none, s) => s
      | (some t, s) =>
        match t.payload with
        | .acc anchor segs v sts =>
          let n := (s.ctx c).stn i
          let isOpen (a : DeepAcc) : Bool := a.out == t.xy && decide (a.got < a.segments)
          let fresh : DeepAcc := { out := t.xy, anchor := anchor, segments := segs, got := 0, d := List.replicate 1024 0,
                                   st := List.replicate 1024 0, present := t.present, cols := t.cols }
          let a := (n.accs.find? isOpen).getD fresh
          let r := addSegment a anchor segs v sts
          let s := if r.2 then violate c 0x0402 s else s
          let rest := n.accs.filter (fun b => !isOpen b)
          if r.1.segments ≤ r.1.got ∧ chained x m i = false then
            s.modCtx c (fun x => emitAccum i m st t.xy r.1.anchor r.1.d r.1.st r.1.present r.1.cols
              (x.modStn i (fun n => { n with accs := rest })))
          else s.modCtx c (fun x => x.modStn i (fun n => { n with accs := rest ++ [r.1] }))
        | _ => s) s

def execAccumSegment (c : CtxId) (st : Nat) (s : State) : Host.Outcome State Fault Refusal := .next (doAccumSegment c st s)

/-- Takes the chain tiles that wait; one outside the station's grid is 0x0403 and discarded. -/
def takeChain (c : CtxId) (m : Image) (i : Nat) (ext : Option (List Nat)) : Nat → State → State
  | 0, s => s
  | k + 1, s =>
    match takeTile c m i 1 s with
    | (none, s) => s
    | (some t, s) =>
      if (match ext with
        | some e => inGrid e t.xy
        | none => true) then
        takeChain c m i ext k (s.modCtx c (fun x => x.modStn i (fun n => { n with chain := n.chain ++ [t] })))
      else takeChain c m i ext k (violate c 0x0403 s)

/-- The list without its first member that meets `p`. -/
def dropFirst {α : Type} (p : α → Bool) : List α → List α
  | [] => []
  | a :: l => if p a then l else a :: dropFirst p l

/-- CHAIN_JOIN of output tile `out` (R108): the complete own tile joins the chain tile of its coordinates; where the chain
source has finished without one, 0x0405 emits it as NaN. -/
def doChainJoin (c : CtxId) (i : Nat) (out : TileXY) (s : State) : State :=
  withStation c i kACCUM (fun m st s =>
    let s := takeChain c m i ((m.tensor st.tensor).map (·.extent)) (waitingOn (s.ctx c) m i 1) s
    let x := s.ctx c
    let n := x.stn i
    let full (a : DeepAcc) : Bool := a.out == out && decide (a.segments ≤ a.got)
    if !(x.room m i 0 && x.room m i 1) then s
    else
      match n.accs.find? full with
      | none => s
      | some a =>
        let rest := dropFirst full n.accs
        match n.chain.find? (fun t => t.xy == out) with
        | some t =>
          match t.payload with
          | .acc ai _ v sts =>
            let big := max a.anchor ai
            let js := (a.d.zip (a.st.zip (v.zip sts))).map (fun p => joinElem big a.anchor ai p.1 p.2.1 p.2.2.1 p.2.2.2)
            let losses := js.flatMap (fun j => j.2.2)
            s.modCtx c (fun x =>
              let x := x.count (countLosses (countVanish losses) (countTrunc losses))
              emitAccum i m st out big (js.map (fun j => j.1)) (js.map (fun j => j.2.1)) a.present a.cols
                (x.modStn i (fun n => { n with accs := rest, chain := dropTile out n.chain })))
          | _ => s
        | none =>
          if portEnded x m i 1 then
            (violate c 0x0405 s).modCtx c (fun x =>
              emitAccum i m st out a.anchor a.d (a.st.map (fun _ => 3)) a.present a.cols (x.modStn i (fun n => { n with accs := rest })))
          else s) s

def execChainJoin (c : CtxId) (st : Nat) (out : TileXY) (s : State) : Host.Outcome State Fault Refusal :=
  .next (doChainJoin c st out s)

end Sys2Proof.Machine
end

