-- ==== Sys2Proof/Machine/Lanes.lean ====
section
/-! DEFINITION. The lane machine of the vector engine: registers (R183), masking (R193), and the semantics of each
instruction on one vector row (R191, R195 to R198). -/

namespace Sys2Proof.Machine

open Sys2Proof

/-- What a lane instruction reads beside the registers: MASK_MODE, the vector row, the coordinates and the sequence
position of the lanes, the tiles on the input ports as lane bits with the outcome class of a conversion, and Q0. -/
structure LaneEnv where
  zero : Bool
  j : Nat
  coord : Nat → List Nat
  seq : Nat → Nat
  load : Nat → Nat → U32 × Option Nat

def lanes64 : List Nat := List.range 64

/-! ## Registers -/

def VecUnit.reg (u : VecUnit) (j k : Nat) : List U32 :=
  if k < 24 then u.v.getD k [] else (u.vb.getD j []).getD (k - 24) []

def VecUnit.setReg (u : VecUnit) (j k : Nat) (l : List U32) : VecUnit :=
  if k < 24 then { u with v := u.v.set k l } else { u with vb := u.vb.set j ((u.vb.getD j []).set (k - 24) l) }

/-- Q0 is the in-extent lanes of row `j` (R184). -/
def VecUnit.pred (u : VecUnit) (j k : Nat) : List Bool := if k = 0 then u.q0.getD j [] else u.q.getD (k - 1) []

/-- Q0 is read-only (R183). -/
def VecUnit.setPred (u : VecUnit) (k : Nat) (l : List Bool) : VecUnit := if k = 0 then u else { u with q := u.q.set (k - 1) l }

def VecUnit.acc (u : VecUnit) (j a : Nat) : List XLane := (u.x.getD j []).getD a []

def VecUnit.setAcc (u : VecUnit) (j a : Nat) (l : List XLane) : VecUnit :=
  { u with x := u.x.set j ((u.x.getD j []).set a l) }

/-- R193: active lanes take the result; inactive lanes keep the old value or take zero. -/
def maskLanes {α : Type} (zero : Bool) (act : List Bool) (old new : List α) (z : α) : List α :=
  lanes64.map (fun l => if act.getD l false then new.getD l z else if zero then z else old.getD l z)

/-- The mask mode of an instruction (R193). -/
def maskZero (env : LaneEnv) (r : VecRec) : Bool := r.mm == 2 || (r.mm == 0 && env.zero)

/-- Writes a V register through the mask. -/
def writeV (env : LaneEnv) (r : VecRec) (u : VecUnit) (f : Nat → U32) : VecUnit :=
  u.setReg env.j r.vd.toNat
    (maskLanes (maskZero env r) (u.pred env.j r.qp.toNat) (u.reg env.j r.vd.toNat) (lanes64.map f) 0)

/-- Writes a predicate through the mask. -/
def writeQ (env : LaneEnv) (r : VecRec) (u : VecUnit) (f : Nat → Bool) : VecUnit :=
  let d := r.vd.toNat % 8
  u.setPred d (maskLanes (maskZero env r) (u.pred env.j r.qp.toNat) (u.pred env.j d) (lanes64.map f) false)

/-- The accumulator that AUX[1:0] names. -/
def axOf (r : VecRec) : Nat := r.aux.toNat % 4

/-- Writes an X accumulator through the mask. -/
def writeX (env : LaneEnv) (r : VecRec) (u : VecUnit) (f : Nat → XLane) : VecUnit :=
  u.setAcc env.j (axOf r)
    (maskLanes (maskZero env r) (u.pred env.j r.qp.toNat) (u.acc env.j (axOf r)) (lanes64.map f) (0, 0))

/-! ## Exact accumulators (R197) -/

/-- The exact value of an FP32 lane as an X addend. -/
def xExact (a : U32) : XLane :=
  match fpVal a with
  | .fin s m e => (Val.sgn s (m <<< (e + 149).toNat), 0)
  | v => (0, v.state)

/-- The result of an addition: outside the 336-bit range it is kept modulo 2^336 and the state joins NaN. -/
def xFit (z : Int) (st : BitVec 2) : XLane :=
  if -(2 ^ 335 : Nat) ≤ z ∧ z < (2 ^ 335 : Nat) then (z, st) else (wrapS 336 z, comb st 3)

def xAdd (a b : XLane) : XLane := xFit (a.1 + b.1) (comb a.2 b.2)

/-- XRND: to FP32, or with `int` to INT32. -/
def xRound (int : Bool) (x : XLane) : U32 := BitVec.ofNat 32 (toFmt (if int then 8 else 10) 0 none (accVal (-22) x.1 x.2))

/-- The lanes of the group of lane `l`: a half, or all 64 where AUX[2] is 1. -/
def groupLanes (aux l : Nat) : List Nat := if bitOf aux 2 then lanes64 else (List.range 32).map (· + 32 * (l / 32))

/-! ## Scans (R198) -/

/-- The running state of a scan: carry and outputs, newest first. -/
structure ScanRun where
  run : XLane
  out : List U32
  deriving DecidableEq, Repr

/-- One lane of VSCAN or ISCAN. -/
def scanLane (int excl : Bool) (a : List U32) (act seg : List Bool) (t : ScanRun) (l : Nat) : ScanRun :=
  if act.getD l false then
    let r0 : XLane := if seg.getD l false then (0, 0) else t.run
    let r1 : XLane := if int then ((lowBits 32 (r0.1 + (a.getD l 0).toNat) : Nat), r0.2) else xAdd r0 (xExact (a.getD l 0))
    let pick := if excl then r0 else r1
    ⟨r1, (if int then BitVec.ofInt 32 pick.1 else xRound false pick) :: t.out⟩
  else ⟨t.run, 0 :: t.out⟩

/-- One group of a scan: its outputs and the carry that every X lane of the group takes. -/
def scanGroup (int excl : Bool) (a : List U32) (act seg : List Bool) (x : List XLane) (ls : List Nat) : ScanRun :=
  let x0 := x.getD (ls.headD 0) (0, 0)
  let start : XLane := if int then ((lowBits 32 x0.1 : Nat), x0.2) else x0
  let r := ls.foldl (scanLane int excl a act seg) ⟨start, []⟩
  ⟨r.run, r.out.reverse⟩

/-- VSCAN and ISCAN on the whole vector row. -/
def scanRow (int : Bool) (env : LaneEnv) (r : VecRec) (u : VecUnit) : VecUnit :=
  let aux := r.aux.toNat
  let a := u.reg env.j r.va.toNat
  let act := u.pred env.j r.qp.toNat
  let seg := u.pred env.j (r.vb.toNat % 8)
  let x := u.acc env.j (axOf r)
  let gs := if bitOf aux 2 then [groupLanes aux 0] else [groupLanes aux 0, groupLanes aux 32]
  let rs := gs.map (scanGroup int (bitOf aux 3) a act seg x)
  let out := rs.flatMap (·.out)
  let carry := (rs.zip gs).flatMap (fun p => p.2.map (fun _ => p.1.run))
  (writeV env r u (fun l => out.getD l 0)).setAcc env.j (axOf r) carry

/-! ## Instructions -/

def lane1 (env : LaneEnv) (r : VecRec) (u : VecUnit) (f : U32 → U32) : VecUnit :=
  let a := u.reg env.j r.va.toNat
  writeV env r u (fun l => f (a.getD l 0))

def lane2 (env : LaneEnv) (r : VecRec) (u : VecUnit) (f : U32 → U32 → U32) : VecUnit :=
  let a := u.reg env.j r.va.toNat
  let b := u.reg env.j r.vb.toNat
  writeV env r u (fun l => f (a.getD l 0) (b.getD l 0))

def lane3 (env : LaneEnv) (r : VecRec) (u : VecUnit) (f : U32 → U32 → U32 → U32) : VecUnit :=
  let a := u.reg env.j r.va.toNat
  let b := u.reg env.j r.vb.toNat
  let c := u.reg env.j (r.imm.toNat % 32)
  writeV env r u (fun l => f (a.getD l 0) (b.getD l 0) (c.getD l 0))

def laneCmp (env : LaneEnv) (r : VecRec) (u : VecUnit) (f : Nat → U32 → U32 → Bool) : VecUnit :=
  let a := u.reg env.j r.va.toNat
  let b := u.reg env.j r.vb.toNat
  writeQ env r u (fun l => f r.aux.toNat (a.getD l 0) (b.getD l 0))

/-- FRMAX and FRMIN: over the active lanes of the group of each lane. -/
def laneReduce (env : LaneEnv) (r : VecRec) (u : VecUnit) (f : U32 → U32 → U32) : VecUnit :=
  let a := u.reg env.j r.va.toNat
  let act := u.pred env.j r.qp.toNat
  let group (l : Nat) : U32 :=
    match (groupLanes r.aux.toNat l).filter (fun k => act.getD k false) with
    | [] => 0
    | k :: ks => ks.foldl (fun m k => f m (a.getD k 0)) (f (a.getD k 0) (a.getD k 0))
  writeV env r u group

/-- VLD (R191): the active lanes take the loaded bits; the classes of the conversions of lanes inside the extents. -/
def vecLd (env : LaneEnv) (r : VecRec) (u : VecUnit) : VecUnit × List Nat :=
  let got := lanes64.map (fun l => env.load r.aux.toNat (64 * env.j + l))
  let act := u.pred env.j r.qp.toNat
  (writeV env r u (fun l => (got.getD l (0, none)).1),
    lanes64.filterMap (fun l => if act.getD l false then (got.getD l (0, none)).2 else none))

/-- VST: all 64 lanes, whatever the mask (R193). -/
def vecSt (env : LaneEnv) (r : VecRec) (u : VecUnit) : VecUnit :=
  let a := u.reg env.j r.va.toNat
  if r.aux = 0 then { u with out0 := u.out0.set env.j a } else { u with out1 := u.out1.set env.j a }

/-- VIDX. -/
def vecIdx (env : LaneEnv) (r : VecRec) (u : VecUnit) : VecUnit :=
  writeV env r u (fun l =>
    let e := 64 * env.j + l
    BitVec.ofNat 32 (
      if r.aux.toNat < 4 then (env.coord e).getD r.aux.toNat 0
      else if r.aux.toNat = 4 then l
      else if r.aux.toNat = 5 then env.j
      else env.seq e))

/-- VSEL: the governing predicate selects, in every lane. -/
def vecSel (env : LaneEnv) (r : VecRec) (u : VecUnit) : VecUnit :=
  let a := u.reg env.j r.va.toNat
  let b := u.reg env.j r.vb.toNat
  let p := u.pred env.j r.qp.toNat
  u.setReg env.j r.vd.toNat (lanes64.map (fun l => if p.getD l false then a.getD l 0 else b.getD l 0))

/-- VPERM. -/
def vecPerm (env : LaneEnv) (r : VecRec) (u : VecUnit) : VecUnit :=
  let a := u.reg env.j r.va.toNat
  let b := u.reg env.j r.vb.toNat
  writeV env r u (fun l => a.getD ((b.getD l 0).toNat % 64) 0)

/-- XSUM. -/
def vecXsum (env : LaneEnv) (r : VecRec) (u : VecUnit) : VecUnit :=
  let x := u.acc env.j (axOf r)
  let act := u.pred env.j r.qp.toNat
  let group (l : Nat) : XLane :=
    let ls := (groupLanes r.aux.toNat l).filter (fun k => act.getD k false)
    xFit (sumInt (ls.map (fun k => (x.getD k (0, 0)).1))) (combAll (ls.map (fun k => (x.getD k (0, 0)).2)))
  writeX env r u group

def icmpBits (aux : Nat) (a b : U32) : Bool := condInt aux a.toInt b.toInt

/-- QAND, QOR, QNOT: sources are predicates. -/
def laneQ2 (env : LaneEnv) (r : VecRec) (u : VecUnit) (f : Bool → Bool → Bool) : VecUnit :=
  let a := u.pred env.j (r.va.toNat % 8)
  let b := u.pred env.j (r.vb.toNat % 8)
  writeQ env r u (fun l => f (a.getD l false) (b.getD l false))

/-- The effect of the instruction of opcode `opc` on vector row `env.j` (R195), and the FP32 outcome classes that a VLD
counts (R224). VEND and NOP change nothing. -/
def laneOp (env : LaneEnv) (opc : Nat) (r : VecRec) (u : VecUnit) : VecUnit × List Nat :=
  match opc with
  | 0x01 => vecLd env r u
  | 0x02 => (vecSt env r u, [])
  | 0x03 => (writeV env r u (fun _ => r.imm), [])
  | 0x04 => (vecIdx env r u, [])
  | 0x05 => (vecSel env r u, [])
  | 0x06 => (vecPerm env r u, [])
  | 0x10 => (lane2 env r u fadd, [])
  | 0x11 => (lane2 env r u fsub, [])
  | 0x12 => (lane2 env r u fmul, [])
  | 0x13 => (lane3 env r u ffma, [])
  | 0x14 => (lane2 env r u fmaxBits, [])
  | 0x15 => (lane2 env r u fminBits, [])
  | 0x16 => (lane1 env r u fabsBits, [])
  | 0x17 => (lane1 env r u fnegBits, [])
  | 0x18 => (laneCmp env r u fcmpBits, [])
  | 0x19 => (lane2 env r u fdiv, [])
  | 0x1A => (lane1 env r u fsqrt, [])
  | 0x1B => (lane1 env r u frsqrt, [])
  | 0x1C => (lane1 env r u fexp2, [])
  | 0x1D => (lane1 env r u flog2, [])
  | 0x1E => (lane1 env r u ftoiBits, [])
  | 0x1F => (lane1 env r u itofBits, [])
  | 0x20 => (lane2 env r u (· + ·), [])
  | 0x21 => (lane2 env r u (· - ·), [])
  | 0x22 => (lane2 env r u (· * ·), [])
  | 0x23 => (lane2 env r u (· &&& ·), [])
  | 0x24 => (lane2 env r u (· ||| ·), [])
  | 0x25 => (lane2 env r u (· ^^^ ·), [])
  | 0x26 => (lane2 env r u (fun a b => a <<< (b.toNat % 32)), [])
  | 0x27 => (lane2 env r u (fun a b => a.sshiftRight (b.toNat % 32)), [])
  | 0x28 => (lane2 env r u (fun a b => if a.toInt < b.toInt then b else a), [])
  | 0x29 => (lane2 env r u (fun a b => if b.toInt < a.toInt then b else a), [])
  | 0x2A => (laneCmp env r u icmpBits, [])
  | 0x30 => (writeX env r u (fun _ => (0, 0)), [])
  | 0x31 => (writeX env r u (fun l =>
      xAdd ((u.acc env.j (axOf r)).getD l (0, 0)) (xExact ((u.reg env.j r.va.toNat).getD l 0))), [])
  | 0x32 => (writeX env r u (fun l =>
      xAdd ((u.acc env.j (axOf r)).getD l (0, 0)) (((u.reg env.j r.va.toNat).getD l 0).toInt * (2 ^ 149 : Nat), 0)), [])
  | 0x33 => (vecXsum env r u, [])
  | 0x34 => (writeV env r u (fun l => xRound (bitOf r.aux.toNat 3) ((u.acc env.j (axOf r)).getD l (0, 0))), [])
  | 0x38 => (laneReduce env r u fmaxBits, [])
  | 0x39 => (laneReduce env r u fminBits, [])
  | 0x3A => (scanRow false env r u, [])
  | 0x3B => (scanRow true env r u, [])
  | 0x40 => (laneQ2 env r u (· && ·), [])
  | 0x41 => (laneQ2 env r u (· || ·), [])
  | 0x42 => (laneQ2 env r u (fun a _ => !a), [])
  | 0x43 => (writeQ env r u (fun l => (u.reg env.j r.va.toNat).getD l 0 != 0), [])
  | _ => (u, [])

/-- The V taps that check the instruction of opcode `opc` (R327). -/
def laneTaps (opc : Nat) : List Nat :=
  if 0x10 ≤ opc ∧ opc ≤ 0x13 ∨ 0x20 ≤ opc ∧ opc ≤ 0x22 then [0x11]
  else if opc = 0x19 ∨ opc = 0x1A then [0x12]
  else if 0x1B ≤ opc ∧ opc ≤ 0x1D then [tapTwice]
  else if 0x31 ≤ opc ∧ opc ≤ 0x34 ∨ opc = 0x3A ∨ opc = 0x3B then [0x13]
  else []

/-- The records of a program section, in order (R194). -/
def runRecords (env : LaneEnv) : List U64 → VecUnit → List Nat → VecUnit × List Nat
  | [], u, cs => (u, cs)
  | w :: ws, u, cs =>
    let t := laneOp env (vecOpc w) (vecRecOf w) u
    runRecords env ws t.1 (cs ++ t.2)

/-- One iteration: V0 to V23 and Q1 to Q7 start cleared (R183). -/
def VecUnit.fresh (u : VecUnit) : VecUnit :=
  { u with v := List.replicate 24 (List.replicate 64 0), q := List.replicate 7 (List.replicate 64 false) }

end Sys2Proof.Machine
end

