-- ==== Sys2Proof/Machine/Vector.lean ====
section
/-! DEFINITION. VECTOR_TILE_SET, SWEEP_FINAL and MODE1_TILE (R182 to R192, R200), and the vector instructions as commands on
a vector row of a station's unit. -/

namespace Sys2Proof.Machine

open Sys2Proof

/-! ## Loading and writing tiles -/

def u32Of (e : Enc) : U32 :=
  match e with
  | .raw r => BitVec.ofNat 32 r
  | .blockNan => fpNan

/-- R191: the lane bits of element `e` of a tile, and the outcome class of a conversion to FP32. -/
def laneBits (t : Tile) (e : Nat) : U32 × Option Nat :=
  match t.payload with
  | .val f es scs _ _ =>
    let raw := es.getD e 0
    if f = fBF16 then (BitVec.ofNat 32 (raw * 65536), none)
    else if f = fINT8 then (BitVec.ofInt 32 (signedOf 8 raw), none)
    else if isMx f then
      let r := convertElem fFP32 0 none (decodeMx f raw (scs.getD (e / 32) 0)) false
      (u32Of r.1, some r.2)
    else (BitVec.ofNat 32 raw, none)
  | .acc a _ v st =>
    let r := convertElem fFP32 0 none (accVal a (v.getD e 0) (st.getD e 0)) false
    (u32Of r.1, some r.2)
  | _ => (0, none)

/-- R184 and R200: what VLD reads from the tile on a port: NaN in every lane of a mode 0 tile with other coordinates; 0
outside the extents `ext` or where the tile lacks the element. -/
def loadLane (ext : List Nat) (xy : Option TileXY) (t : Option Tile) (e : Nat) : U32 × Option Nat :=
  match t with
  | none => (0, none)
  | some t =>
    if (match xy with
      | some c => t.xy != c
      | none => false) then (fpNan, none)
    else if inExt ext t.xy e && t.has e then laneBits t e
    else (0, none)

/-- The lanes of the rows of a unit's output as one list of elements. -/
def rowsFlat (l : List (List U32)) : List U32 := l.flatten

/-- R192: an output tile from lane bits: INT8 and INT32 take the lanes as INT32, every other format as FP32. -/
def vecOut (x : Ctx) (m : Image) (st : Station) (port f : Nat) (xy : TileXY) (cols : List SlotPos) (lanes : List U32)
    (all : Bool) : TileConv × Tile :=
  let ti := if port = 0 then st.tensor else st.tensor2
  let t := m.tensor ti
  let ext := (t.map (·.extent)).getD [1, 1, 1, 1]
  let vals := lanes.map (fun a => if isIntFmt f then decodeElem fINT32 a.toNat else fpVal a)
  let sub := lanes.map (fun a => !isIntFmt f && isSubnormal fFP32 a.toNat)
  let has (e : Nat) : Bool := all || inExt ext xy e
  let r := convertTile f (st.o (if port = 0 then 9 else 11) 1) none vals sub has
    (stochastic x t 3 (st.o (if port = 0 then 8 else 10) 1) xy cols)
  (r, { outTile f ext xy r with cols := cols })

/-- Emits an output tile of the unit, counted under the format of its streams. -/
def emitVec (i : Nat) (m : Image) (st : Station) (port : Nat) (xy : TileXY) (cols : List SlotPos) (lanes : List U32)
    (all : Bool) (x : Ctx) : Ctx :=
  let f := m.outFmt i port
  let o := vecOut x m st port f xy cols lanes all
  (x.count (gaugeClasses f o.1.classes)).push m i port o.2

/-- The tile of 0x0802. -/
def emitNan (i : Nat) (m : Image) (st : Station) (xy : TileXY) (x : Ctx) : Ctx :=
  emitVec i m st 0 xy [] (List.replicate 1024 fpNan) true x

/-! ## Sweeps (R187) -/

def vecProgram (m : Image) (st : Station) : List U64 := (m.program (st.o 0 4) (st.o 4 2)).getD []

def hasVend (m : Image) (st : Station) : Bool := (vecProgram m st).any (fun w => vecOpc w == 0xFF)

def portMode (st : Station) (p : Nat) : Nat := if p = 1 then st.o 12 1 else if p = 2 then st.o 13 1 else 0

/-- The program reads mode 1 port `p`. -/
def readsMode1 (m : Image) (st : Station) (p : Nat) : Bool :=
  portMode st p == 1 && (vecProgram m st).any (fun w => vecOpc w == 1 && vecAux w == p)

def vecExt (m : Image) (ti : Nat) : List Nat := ((m.tensor ti).map (·.extent)).getD [1, 1, 1, 1]

/-- The position of a tile along its sweep, the sweep's length, and its output 1 coordinates. -/
def sweepOf (st : Station) (ext : List Nat) (xy : TileXY) : Nat × Nat × TileXY :=
  match st.o 7 1 with
  | 1 => (xy.tc, ceilDiv (ext.getD 0 1) 32, { xy with tc := 0 })
  | 2 => (xy.tr, ceilDiv (ext.getD 1 1) 32, { xy with tr := 0 })
  | _ => (0, 1, xy)

/-- The coordinates are output 1 coordinates of a sweep of the grid. -/
def sweepInGrid (st : Station) (ext : List Nat) (out : TileXY) : Bool :=
  inGrid ext out && (match st.o 7 1 with
    | 1 => out.tc == 0
    | 2 => out.tr == 0
    | _ => true)

def clearV : List (List (List U32)) := List.replicate 16 (List.replicate 8 (List.replicate 64 0))
def clearX : List (List (List XLane)) := List.replicate 16 (List.replicate 4 (List.replicate 64 (0, 0)))

def newSweep (out : TileXY) (len : Nat) : Sweep :=
  { out := out, len := len, vb := clearV, x := clearX, next := 0, sets := [], late := [], p1 := none, p2 := none }

/-- The sweep has not received every position. -/
def Sweep.unfilled (w : Sweep) : Bool := decide (w.next + w.sets.length < w.len)

def Sweep.has (w : Sweep) (pos : Nat) : Bool := decide (pos < w.next) || w.sets.any (fun e => e.1 == pos)

/-- Changes the first sweep that meets `p`; opens `fresh`, changed, where there is none. -/
def updSweep (p : Sweep → Bool) (fresh : Sweep) (f : Sweep → Sweep) : List Sweep → List Sweep
  | [] => [f fresh]
  | w :: l => if p w then f w :: l else w :: updSweep p fresh f l

/-- Drops the first sweep that meets `p`. -/
def dropSweep (p : Sweep → Bool) : List Sweep → List Sweep
  | [] => []
  | w :: l => if p w then l else w :: dropSweep p l

/-! ## Receiving a tile set (R186, R187, R200) -/

/-- A tile waits on every connected port of mode 0. -/
def setWaiting (x : Ctx) (m : Image) (i : Nat) (st : Station) : Bool :=
  [0, 1, 2].all (fun p => portMode st p == 1 || (p != 0 && !m.fed i p) || (x.peek m i p).isSome)

/-- Takes the tiles of a tile set, in port order; `none` for a port without one. A vector port has no scale port beside
it: the scales travel with the tile (log entry 10). -/
def takeSet (c : CtxId) (m : Image) (i : Nat) (st : Station) (s : State) : List (Option Tile) × State :=
  [0, 1, 2].foldl (fun (a : List (Option Tile) × State) p =>
    if portMode st p = 1 ∨ m.fed i p = false then (a.1 ++ [none], a.2)
    else
      let r := takeTile c m i p a.2
      (a.1 ++ [r.1], r.2)) ([], s)

/-- Registers a received tile set: 0x0801 for each mode 0 tile of other coordinates; 0x0802 for a repeated or outside
position. Answers whether a NaN tile goes out on arrival. -/
def registerSet (c : CtxId) (i : Nat) (m : Image) (st : Station) (ts : List (Option Tile)) (s : State) : State :=
  match ts.getD 0 none with
  | none => s
  | some t0 =>
    let wrong := (ts.drop 1).countP (fun t => match t with
      | some u => u.xy != t0.xy
      | none => false)
    let s := s.each (List.range wrong) (fun _ t => violate c 0x0801 t)
    let ext := vecExt m st.tensor
    let p := sweepOf st ext t0.xy
    if !sweepInGrid st ext p.2.2 then (violate c 0x0802 s).modCtx c (emitNan i m st t0.xy)
    else
      let mine (w : Sweep) : Bool := w.out == p.2.2 && w.unfilled
      let cur := ((s.ctx c).stn i).sweeps.find? mine
      let repeated := match cur with
        | some w => w.has p.1
        | none => false
      if decide (p.2.1 ≤ p.1) || repeated then
        (violate c 0x0802 s).modCtx c (fun x => x.modStn i (fun n =>
          { n with sweeps := updSweep mine (newSweep p.2.2 p.2.1) (fun w => { w with late := w.late ++ [t0.xy] }) n.sweeps }))
      else
        s.modCtx c (fun x => x.modStn i (fun n =>
          { n with sweeps := updSweep mine (newSweep p.2.2 p.2.1) (fun w => { w with sets := w.sets ++ [(p.1, ts)] }) n.sweeps }))

/-! ## Running -/

def vecEnv (m : Image) (st : Station) (u : VecUnit) (j : Nat) : LaneEnv :=
  let ti := if u.final then st.tensor2 else st.tensor
  let ext1 := if st.tensor2 = noneIx then vecExt m st.tensor else vecExt m st.tensor2
  { zero := st.o 6 1 == 1
    j := j
    coord := fun e => tileCoord u.xy e
    seq := fun e => 32 * u.xy.tr + e / 32 + 2 ^ 20 * ((m.tensor ti).map (·.seqShard)).getD 0
    load := fun p e =>
      if portMode st p = 1 then loadLane ext1 none (u.ins.getD p none) e
      else loadLane (vecExt m st.tensor) (some u.xy) (u.ins.getD p none) e }

/-- Q0 of the sixteen vector rows of a tile (R184). -/
def q0Rows (ext : List Nat) (xy : TileXY) : List (List Bool) :=
  (List.range 16).map (fun j => lanes64.map (fun l => inExt ext xy (64 * j + l)))

/-- Runs a program section for the vector rows 0 to 15 (R188). -/
def runRows (m : Image) (st : Station) (prog : List U64) (u : VecUnit) : VecUnit × List Nat :=
  (List.range 16).foldl (fun (a : VecUnit × List Nat) j => runRecords (vecEnv m st a.1 j) prog a.1.fresh a.2) (u, [])

/-- The unit at the start of an iteration of a sweep. -/
def startUnit (m : Image) (st : Station) (w : Sweep) (xy : TileXY) (final : Bool) (ts : List (Option Tile)) : VecUnit :=
  let blank := List.replicate 16 (List.replicate 64 (0 : U32))
  { vb := w.vb, x := w.x, xy := xy, final := final, out0 := blank, out1 := blank,
    q0 := q0Rows (vecExt m (if final then st.tensor2 else st.tensor)) xy,
    ins := [ts.getD 0 none, if portMode st 1 = 1 then w.p1 else ts.getD 1 none, if portMode st 2 = 1 then w.p2 else ts.getD 2 none] }

/-- The FP32 conversions that VLDs made (R224). -/
def countLoads (cs : List Nat) (x : Ctx) : Ctx := x.count (gaugeClasses fFP32 (cs.map some))

/-- The sweep can run the body of its next position (R187, R188). -/
def bodyReady (m : Image) (st : Station) (w : Sweep) : Bool :=
  w.sets.any (fun e => e.1 == w.next) && (!readsMode1 m st 1 || w.p1.isSome) && (!readsMode1 m st 2 || w.p2.isSome)

/-- Every position of the sweep has been processed. -/
def Sweep.processed (w : Sweep) : Bool := decide (w.len ≤ w.next)

/-- A sweep without a final section goes when its last tile has gone out. -/
def tidySweeps (m : Image) (st : Station) (l : List Sweep) : List Sweep :=
  if hasVend m st then l else l.filter (fun w => !(w.processed && w.late.isEmpty))

/-- Runs the body of the next tile set of the sweep and emits output 0. -/
def runBody (c : CtxId) (i : Nat) (m : Image) (st : Station) (w : Sweep) (s : State) : State :=
  match w.sets.find? (fun e => e.1 == w.next) with
  | none => s
  | some e =>
    let xy := ((e.2.getD 0 none).map (·.xy)).getD w.out
    let r := runRows m st (bodyOf (vecProgram m st)) (startUnit m st w xy false e.2)
    let after : Sweep := { w with vb := r.1.vb, x := r.1.x, next := w.next + 1, sets := w.sets.filter (fun k => k.1 != w.next) }
    let s := s.modCtx c (fun x =>
      let x := emitVec i m st 0 xy (((e.2.getD 0 none).map (·.cols)).getD []) (rowsFlat r.1.out0) false (countLoads r.2 x)
      x.modStn i (fun n =>
        { n with unit := r.1, sweeps := tidySweeps m st (updSweep (fun k => k == w) after (fun _ => after) n.sweeps) }))
    checkResidue c (benchSite (s.ctx c) i) (checkOp m i (tileOrdinal (vecExt m st.tensor) xy))
      ((bodyOf (vecProgram m st)).flatMap (fun w => laneTaps (vecOpc w))) (e.2.filterMap id) s

/-- VECTOR_TILE_SET of station `i`: the NaN tiles that follow a finished sweep go first; then a waiting tile set is
received, and the next tile set that is ready runs. -/
def doVectorTileSet (c : CtxId) (i : Nat) (s : State) : State :=
  withStation c i kVECTOR (fun m st s =>
    if !(s.ctx c).room m i 0 then s
    else
      match ((s.ctx c).stn i).sweeps.find? (fun w => w.processed && !w.late.isEmpty) with
      | some w =>
        s.modCtx c (fun x => (emitNan i m st (w.late.headD w.out) x).modStn i (fun n =>
          let after := { w with late := w.late.drop 1 }
          { n with sweeps := tidySweeps m st (updSweep (fun k => k == w) after (fun _ => after) n.sweeps) }))
      | none =>
        let s :=
          if setWaiting (s.ctx c) m i st then
            let r := takeSet c m i st s
            registerSet c i m st r.1 r.2
          else s
        if !(s.ctx c).room m i 0 then s
        else
          match ((s.ctx c).stn i).sweeps.find? (bodyReady m st) with
          | some w => runBody c i m st w s
          | none => s) s

def execVectorTileSet (c : CtxId) (st : Nat) (s : State) : Host.Outcome State Fault Refusal := .next (doVectorTileSet c st s)

/-- SWEEP_FINAL of the sweep with output 1 coordinates `out` (R188, R189). -/
def doSweepFinal (c : CtxId) (i : Nat) (out : TileXY) (s : State) : State :=
  withStation c i kVECTOR (fun m st s =>
    let due (w : Sweep) : Bool := w.out == out && w.processed && w.late.isEmpty
    if !(s.ctx c).room m i 1 || !hasVend m st then s
    else
      match ((s.ctx c).stn i).sweeps.find? due with
      | none => s
      | some w =>
        let r := runRows m st (finalOf (vecProgram m st)) (startUnit m st w out true [none, none, none])
        let s := s.modCtx c (fun x =>
          (emitVec i m st 1 out [] (rowsFlat r.1.out1) false (countLoads r.2 x)).modStn i (fun n =>
            { n with unit := r.1, sweeps := dropSweep due n.sweeps }))
        checkResidue c (benchSite (s.ctx c) i) (checkOp m i (tileOrdinal (vecExt m st.tensor2) out))
          ((finalOf (vecProgram m st)).flatMap (fun w => laneTaps (vecOpc w))) [] s) s

def execSweepFinal (c : CtxId) (st : Nat) (out : TileXY) (s : State) : Host.Outcome State Fault Refusal :=
  .next (doSweepFinal c st out s)

/-- MODE1_TILE: the next tile of mode 1 port `p` joins the first sweep of its coordinates that has none (R187); 0x0801
where it names no sweep of the grid. -/
def doMode1Tile (c : CtxId) (i : Nat) (p : Nat) (s : State) : State :=
  withStation c i kVECTOR (fun m st s =>
    if p = 0 ∨ portMode st p ≠ 1 then s
    else
      match takeTile c m i p s with
      | (none, s) => s
      | (some t, s) =>
        let ext := vecExt m st.tensor
        if !sweepInGrid st ext t.xy then violate c 0x0801 s
        else if !readsMode1 m st p then s
        else
          let free (w : Sweep) : Bool := w.out == t.xy && (if p = 1 then w.p1.isNone else w.p2.isNone)
          let put (w : Sweep) : Sweep := if p = 1 then { w with p1 := some t } else { w with p2 := some t }
          s.modCtx c (fun x => x.modStn i (fun n =>
            { n with sweeps := updSweep free (newSweep t.xy (sweepOf st ext t.xy).2.1) put n.sweeps }))) s

def execMode1Tile (c : CtxId) (st : Nat) (port : Fin 3) (s : State) : Host.Outcome State Fault Refusal :=
  .next (doMode1Tile c st port.val s)

/-! ## The instructions as commands -/

/-- Instruction `opc` on vector row `j` of the unit of station `i`. -/
def doLane (opc : Nat) (c : CtxId) (i : Nat) (j : Fin 16) (r : VecRec) (s : State) : State :=
  withStation c i kVECTOR (fun m st s =>
    let u := ((s.ctx c).stn i).unit
    let ti := if u.final then st.tensor2 else st.tensor
    let s := s.modCtx c (fun x =>
      let t := laneOp (vecEnv m st u j.val) opc r u
      (countLoads t.2 x).modStn i (fun n => { n with unit := t.1 }))
    checkResidue c (benchSite (s.ctx c) i) ⟨i, ((m.tensor ti).map (·.tensorId)).getD 0, tileOrdinal (vecExt m ti) u.xy⟩ (laneTaps opc) []
      s) s

def execVNop (c : CtxId) (st : Nat) (j : Fin 16) (r : VecRec) (s : State) : Host.Outcome State Fault Refusal :=
  .next (doLane 0x00 c st j r s)

def execVld (c : CtxId) (st : Nat) (j : Fin 16) (r : VecRec) (s : State) : Host.Outcome State Fault Refusal :=
  .next (doLane 0x01 c st j r s)

def execVst (c : CtxId) (st : Nat) (j : Fin 16) (r : VecRec) (s : State) : Host.Outcome State Fault Refusal :=
  .next (doLane 0x02 c st j r s)

def execVmovi (c : CtxId) (st : Nat) (j : Fin 16) (r : VecRec) (s : State) : Host.Outcome State Fault Refusal :=
  .next (doLane 0x03 c st j r s)

def execVidx (c : CtxId) (st : Nat) (j : Fin 16) (r : VecRec) (s : State) : Host.Outcome State Fault Refusal :=
  .next (doLane 0x04 c st j r s)

def execVsel (c : CtxId) (st : Nat) (j : Fin 16) (r : VecRec) (s : State) : Host.Outcome State Fault Refusal :=
  .next (doLane 0x05 c st j r s)

def execVperm (c : CtxId) (st : Nat) (j : Fin 16) (r : VecRec) (s : State) : Host.Outcome State Fault Refusal :=
  .next (doLane 0x06 c st j r s)

def execFadd (c : CtxId) (st : Nat) (j : Fin 16) (r : VecRec) (s : State) : Host.Outcome State Fault Refusal :=
  .next (doLane 0x10 c st j r s)

def execFsub (c : CtxId) (st : Nat) (j : Fin 16) (r : VecRec) (s : State) : Host.Outcome State Fault Refusal :=
  .next (doLane 0x11 c st j r s)

def execFmul (c : CtxId) (st : Nat) (j : Fin 16) (r : VecRec) (s : State) : Host.Outcome State Fault Refusal :=
  .next (doLane 0x12 c st j r s)

def execFfma (c : CtxId) (st : Nat) (j : Fin 16) (r : VecRec) (s : State) : Host.Outcome State Fault Refusal :=
  .next (doLane 0x13 c st j r s)

def execFmax (c : CtxId) (st : Nat) (j : Fin 16) (r : VecRec) (s : State) : Host.Outcome State Fault Refusal :=
  .next (doLane 0x14 c st j r s)

def execFmin (c : CtxId) (st : Nat) (j : Fin 16) (r : VecRec) (s : State) : Host.Outcome State Fault Refusal :=
  .next (doLane 0x15 c st j r s)

def execFabs (c : CtxId) (st : Nat) (j : Fin 16) (r : VecRec) (s : State) : Host.Outcome State Fault Refusal :=
  .next (doLane 0x16 c st j r s)

def execFneg (c : CtxId) (st : Nat) (j : Fin 16) (r : VecRec) (s : State) : Host.Outcome State Fault Refusal :=
  .next (doLane 0x17 c st j r s)

def execFcmp (c : CtxId) (st : Nat) (j : Fin 16) (r : VecRec) (s : State) : Host.Outcome State Fault Refusal :=
  .next (doLane 0x18 c st j r s)

def execFdiv (c : CtxId) (st : Nat) (j : Fin 16) (r : VecRec) (s : State) : Host.Outcome State Fault Refusal :=
  .next (doLane 0x19 c st j r s)

def execFsqrt (c : CtxId) (st : Nat) (j : Fin 16) (r : VecRec) (s : State) : Host.Outcome State Fault Refusal :=
  .next (doLane 0x1A c st j r s)

def execFrsqrt (c : CtxId) (st : Nat) (j : Fin 16) (r : VecRec) (s : State) : Host.Outcome State Fault Refusal :=
  .next (doLane 0x1B c st j r s)

def execFexp2 (c : CtxId) (st : Nat) (j : Fin 16) (r : VecRec) (s : State) : Host.Outcome State Fault Refusal :=
  .next (doLane 0x1C c st j r s)

def execFlog2 (c : CtxId) (st : Nat) (j : Fin 16) (r : VecRec) (s : State) : Host.Outcome State Fault Refusal :=
  .next (doLane 0x1D c st j r s)

def execFtoi (c : CtxId) (st : Nat) (j : Fin 16) (r : VecRec) (s : State) : Host.Outcome State Fault Refusal :=
  .next (doLane 0x1E c st j r s)

def execItof (c : CtxId) (st : Nat) (j : Fin 16) (r : VecRec) (s : State) : Host.Outcome State Fault Refusal :=
  .next (doLane 0x1F c st j r s)

def execIadd (c : CtxId) (st : Nat) (j : Fin 16) (r : VecRec) (s : State) : Host.Outcome State Fault Refusal :=
  .next (doLane 0x20 c st j r s)

def execIsub (c : CtxId) (st : Nat) (j : Fin 16) (r : VecRec) (s : State) : Host.Outcome State Fault Refusal :=
  .next (doLane 0x21 c st j r s)

def execImul (c : CtxId) (st : Nat) (j : Fin 16) (r : VecRec) (s : State) : Host.Outcome State Fault Refusal :=
  .next (doLane 0x22 c st j r s)

def execIand (c : CtxId) (st : Nat) (j : Fin 16) (r : VecRec) (s : State) : Host.Outcome State Fault Refusal :=
  .next (doLane 0x23 c st j r s)

def execIor (c : CtxId) (st : Nat) (j : Fin 16) (r : VecRec) (s : State) : Host.Outcome State Fault Refusal :=
  .next (doLane 0x24 c st j r s)

def execIxor (c : CtxId) (st : Nat) (j : Fin 16) (r : VecRec) (s : State) : Host.Outcome State Fault Refusal :=
  .next (doLane 0x25 c st j r s)

def execIshl (c : CtxId) (st : Nat) (j : Fin 16) (r : VecRec) (s : State) : Host.Outcome State Fault Refusal :=
  .next (doLane 0x26 c st j r s)

def execIshr (c : CtxId) (st : Nat) (j : Fin 16) (r : VecRec) (s : State) : Host.Outcome State Fault Refusal :=
  .next (doLane 0x27 c st j r s)

def execImax (c : CtxId) (st : Nat) (j : Fin 16) (r : VecRec) (s : State) : Host.Outcome State Fault Refusal :=
  .next (doLane 0x28 c st j r s)

def execImin (c : CtxId) (st : Nat) (j : Fin 16) (r : VecRec) (s : State) : Host.Outcome State Fault Refusal :=
  .next (doLane 0x29 c st j r s)

def execIcmp (c : CtxId) (st : Nat) (j : Fin 16) (r : VecRec) (s : State) : Host.Outcome State Fault Refusal :=
  .next (doLane 0x2A c st j r s)

def execXclr (c : CtxId) (st : Nat) (j : Fin 16) (r : VecRec) (s : State) : Host.Outcome State Fault Refusal :=
  .next (doLane 0x30 c st j r s)

def execXacc (c : CtxId) (st : Nat) (j : Fin 16) (r : VecRec) (s : State) : Host.Outcome State Fault Refusal :=
  .next (doLane 0x31 c st j r s)

def execXacci (c : CtxId) (st : Nat) (j : Fin 16) (r : VecRec) (s : State) : Host.Outcome State Fault Refusal :=
  .next (doLane 0x32 c st j r s)

def execXsum (c : CtxId) (st : Nat) (j : Fin 16) (r : VecRec) (s : State) : Host.Outcome State Fault Refusal :=
  .next (doLane 0x33 c st j r s)

def execXrnd (c : CtxId) (st : Nat) (j : Fin 16) (r : VecRec) (s : State) : Host.Outcome State Fault Refusal :=
  .next (doLane 0x34 c st j r s)

def execFrmax (c : CtxId) (st : Nat) (j : Fin 16) (r : VecRec) (s : State) : Host.Outcome State Fault Refusal :=
  .next (doLane 0x38 c st j r s)

def execFrmin (c : CtxId) (st : Nat) (j : Fin 16) (r : VecRec) (s : State) : Host.Outcome State Fault Refusal :=
  .next (doLane 0x39 c st j r s)

def execVscan (c : CtxId) (st : Nat) (j : Fin 16) (r : VecRec) (s : State) : Host.Outcome State Fault Refusal :=
  .next (doLane 0x3A c st j r s)

def execIscan (c : CtxId) (st : Nat) (j : Fin 16) (r : VecRec) (s : State) : Host.Outcome State Fault Refusal :=
  .next (doLane 0x3B c st j r s)

def execQand (c : CtxId) (st : Nat) (j : Fin 16) (r : VecRec) (s : State) : Host.Outcome State Fault Refusal :=
  .next (doLane 0x40 c st j r s)

def execQor (c : CtxId) (st : Nat) (j : Fin 16) (r : VecRec) (s : State) : Host.Outcome State Fault Refusal :=
  .next (doLane 0x41 c st j r s)

def execQnot (c : CtxId) (st : Nat) (j : Fin 16) (r : VecRec) (s : State) : Host.Outcome State Fault Refusal :=
  .next (doLane 0x42 c st j r s)

def execQset (c : CtxId) (st : Nat) (j : Fin 16) (r : VecRec) (s : State) : Host.Outcome State Fault Refusal :=
  .next (doLane 0x43 c st j r s)

def execVend (c : CtxId) (st : Nat) (j : Fin 16) (r : VecRec) (s : State) : Host.Outcome State Fault Refusal :=
  .next (doLane 0xFF c st j r s)

end Sys2Proof.Machine
end

