-- ==== Sys2Proof/Machine/Store.lean ====
section
/-! DEFINITION. STORE_TILE (R112, R209 to R213, R217, R218, R220, R222, R367): storing a tile, and scatter-add. -/

namespace Sys2Proof.Machine

open Sys2Proof

/-! ## Fields to write -/

/-- A write of some bits of `n` bytes at an address: the mask of the bits written, and their values. -/
structure FieldPut where
  va : Nat
  n : Nat
  mask : Nat
  val : Nat
  deriving DecidableEq, Repr

/-- The field of `width` bits at `shift`. -/
def fieldPut (f : Nat × Nat × Nat × Nat) (raw : Nat) : FieldPut :=
  ⟨f.1, f.2.1, (2 ^ f.2.2.2 - 1) <<< f.2.2.1, (raw % 2 ^ f.2.2.2) <<< f.2.2.1⟩

/-- A later field over an earlier one of the same bytes: its bits win. -/
def FieldPut.onto (new old : FieldPut) : FieldPut :=
  { old with mask := old.mask ||| new.mask, val := (old.val &&& (old.mask ^^^ (old.mask &&& new.mask))) ||| new.val }

/-- Adds a field to a list with the newest first. -/
def addField (l : List FieldPut) (f : FieldPut) : List FieldPut :=
  match l with
  | [] => [f]
  | g :: r =>
    if g.va = f.va then f.onto g :: r
    else if r.any (fun h => h.va == f.va) then g :: r.map (fun h => if h.va = f.va then f.onto h else h)
    else f :: l

def mergeFields (fs : List FieldPut) : List FieldPut := (fs.foldl addField []).reverse

/-- The bytes of a merged field: its bits over those that stand in memory. -/
def FieldPut.bytes (f : FieldPut) (tab : List PageMap) (s : State) : List Byte :=
  if f.mask = 2 ^ (8 * f.n) - 1 then leBytes f.n f.val
  else
    let old := leNat (readSpan tab s ⟨f.va, f.n⟩)
    leBytes f.n ((old ^^^ (old &&& f.mask)) ||| f.val)

/-- Runs of bytes that follow one another are one write. -/
def joinRuns (l : List (Nat × List Byte)) : List (Nat × List Byte) :=
  (l.foldl (fun (acc : List (Nat × List Byte)) w =>
    match acc with
    | [] => [w]
    | p :: r => if p.1 + p.2.length = w.1 then (p.1, p.2 ++ w.2) :: r else w :: p :: r) []).reverse

/-- The pieces of a run in host or device memory. -/
def runPieces (tab : List PageMap) (w : Nat × List Byte) : List (Bool × Nat × List Byte) :=
  ((spanRuns tab ⟨w.1, w.2.length⟩).foldl (fun (a : List (Bool × Nat × List Byte) × List Byte) r =>
    (a.1 ++ [(r.1, r.2.1, a.2.take r.2.2)], a.2.drop r.2.2)) ([], w.2)).1

/-- Writes runs through their pages as one operation: its partial writes of bad words report one read (R332). -/
def writeRuns (c : CtxId) (tab : List PageMap) (ws : List (Nat × List Byte)) (s : State) : State :=
  let ps := ws.flatMap (runPieces tab)
  let part := ps.flatMap (fun p =>
    if p.1 then [] else (wordsOf p.2.1 p.2.2.length).filter (fun k => !wholeWord p.2.1 p.2.2.length k))
  ps.foldl (fun t p => if p.1 then { t with hostMem := memWrite t.hostMem p.2.1 p.2.2 } else devPut p.2.1 p.2.2 t)
    (eccRead (some c) part s)

/-- Writes the results of a scatter-add: every word touched is read, and a poisoned one keeps its poison and is reported
(R220, R332). -/
def patchRuns (c : CtxId) (tab : List PageMap) (ws : List (Nat × List Byte)) (s : State) : State :=
  let ps := ws.flatMap (runPieces tab)
  ps.foldl (fun t p => if p.1 then { t with hostMem := memWrite t.hostMem p.2.1 p.2.2 } else { t with mem := memWrite t.mem p.2.1 p.2.2 })
    (eccRead (some c) (ps.flatMap (fun p => if p.1 then [] else wordsOf p.2.1 p.2.2.length)) s)

/-! ## Which positions win (R213) -/

/-- A tile that the station has stored holds a position of the same field with a higher logical index. -/
def claimedBy (v : View) (seen : List TileXY) (xy : TileXY) (e : Nat) : Bool :=
  let f := fieldAddr v.fmt v.base (v.offset (v.stored (tileCoord xy e)))
  seen.any (fun t => (v.inside t).any (fun k =>
    decide (elemIndex v.vext xy e < elemIndex v.vext t k) &&
      (let g := fieldAddr v.fmt v.base (v.offset (v.stored (tileCoord t k))); g.1 == f.1 && g.2.2.1 == f.2.2.1)))

/-- The elements of a tile that the station writes: inside the view, and not under a stored position of higher index. -/
def View.winners (v : View) (seen : List TileXY) (xy : TileXY) : List Nat :=
  (v.inside xy).filter (fun e => !claimedBy v seen xy e)

/-! ## A dense tile -/

/-- The fields of a value tile: elements, and the scale bytes of its blocks. -/
def View.puts (v : View) (seen : List TileXY) (t : Tile) : List FieldPut :=
  let es := v.winners seen t.xy
  let vals := es.map (fun e =>
    fieldPut (fieldAddr v.fmt v.base (v.offset (v.stored (tileCoord t.xy e)))) (t.raws.getD e 0))
  let scs := if isMx v.fmt then
      ((v.blockRows t.xy).filter (fun b => es.contains (32 * b))).map (fun b =>
        fieldPut (v.scaleAddr (v.stored (tileCoord t.xy (32 * b))), 1, 0, 8) (scaleByte (t.scales.getD b 0)))
    else []
  mergeFields (vals ++ scs)

/-- R222: a mismatched block is written as block NaN (R84): zero elements under the scale 0xFF. -/
def blockNanRows (t : Tile) (slipped : List Nat) : Tile :=
  match t.payload with
  | .val f es scs v g =>
    { t with payload := .val f (es.zipIdx.map (fun p => if slipped.contains (p.2 / 32) then 0 else p.1)) scs v g }
  | _ => t

/-- WRITE = 1 to INT32: the sums at each address, every position adding (R220). -/
def addInts (base : Nat → Nat × Nat) (tab : List PageMap) (s : State) (t : Tile) (es : List Nat) : List (Nat × List Byte) :=
  let sums := es.foldl (fun (l : List (Nat × Nat)) e =>
    let a := (base e).1
    let old := match assocGet a l with
      | some k => k
      | none => if spanBad tab s ⟨a, 4⟩ then 0 else leNat (readSpan tab s ⟨a, 4⟩)
    assocPut a ((old + t.raws.getD e 0) % 2 ^ 32) l) []
  sums.reverse.map (fun p => (p.1, leBytes 4 p.2))

/-- Element `e` of a stored ACC128 tile after a store or an addition. -/
structure AccPut where
  tile : TileXY
  elem : Nat
  v : Int
  st : BitVec 2
  deriving DecidableEq, Repr

/-- The runs that write ACC128 elements into the stored tile at `va`: V, states, and with a store the header. -/
def accRuns (va : Nat) (hdr : Option Int) (tab : List PageMap) (s : State) (ps : List AccPut) : List (Nat × List Byte) :=
  let head := match hdr with
    | some a => [(va, leBytes 2 (lowBits 16 a) ++ zeroBytes 2 ++ leBytes 4 1 ++ zeroBytes 56)]
    | none => []
  let sts := mergeFields (ps.map (fun p => fieldPut (va + 0x40 + p.elem / 4, 1, 2 * (p.elem % 4), 2) p.st.toNat))
  head ++ sts.map (fun f => (f.va, f.bytes tab s)) ++
    ps.map (fun p => (va + 0x140 + 16 * p.elem, leBytes 16 (lowBits 128 p.v)))

/-- WRITE = 1 to ACC128: V modulo 2^128 and joined states; an element of another anchor is NaN and keeps its V (0x0901). -/
def addAcc (m : AccMap) (anchor : Int) (vs : List Int) (sts : List (BitVec 2)) (xy : TileXY)
    (old : TileXY → Int × Nat × List Int × List (BitVec 2)) (es : List Nat) : List AccPut × Nat :=
  es.foldl (fun (a : List AccPut × Nat) e =>
    let p := (m.place xy e).getD (xy, e)
    let o := old p.1
    let was : Int × BitVec 2 := match a.1.find? (fun k => k.tile == p.1 && k.elem == p.2) with
      | some k => (k.v, k.st)
      | none => (o.2.2.1.getD p.2 0, o.2.2.2.getD p.2 0)
    let rest := a.1.filter (fun k => !(k.tile == p.1 && k.elem == p.2))
    if anchor = o.1 then
      (rest ++ [⟨p.1, p.2, wrapS 128 (was.1 + vs.getD e 0), comb was.2 (sts.getD e 0)⟩], a.2)
    else (rest ++ [⟨p.1, p.2, was.1, 3⟩], a.2 + 1)) ([], 0)

/-- The stack of an address, for the D1 tap. -/
def stackAt (tab : List PageMap) (va : Nat) : CheckSite := .stack (stackOf (resolve tab va).2)

/-- What R338 names for a D1 mismatch. -/
def opD1 : CheckOp := ⟨0xFFFFFFFF, 0, 0⟩

/-- The tile has been stored. -/
def markStored (i : Nat) (xy : TileXY) (x : Ctx) : Ctx := x.modStn i (fun n => { n with seen := n.seen ++ [xy] })

/-- The elements of a tile that have a place in an ACC128 view. -/
def AccMap.inside (a : AccMap) (xy : TileXY) : List Nat := (List.range 1024).filter (fun e => (a.place xy e).isSome)

/-- The elements of an ACC128 tile that the station writes: those not under a stored position of higher index (R213). -/
def AccMap.winners (a : AccMap) (seen : List TileXY) (xy : TileXY) : List Nat :=
  (a.inside xy).filter (fun e => !seen.any (fun k => (a.inside k).any (fun f =>
    decide (a.order xy e < a.order k f) && a.place k f == a.place xy e)))

/-- Stores or adds the ACC128 tile that waits. -/
def storeAcc (c : CtxId) (i : Nat) (m : Image) (a : AccMap) (add : Bool) (xy : TileXY) (s : State) : State :=
  let tiles := a.tiles xy
  match access c (reqStation i) false true (tiles.map (fun p => ⟨a.va p, accTileBytes⟩)) s with
  | (none, s) => s
  | (some tab, s) =>
    match takeTile c m i 0 s with
    | (some tl, s) =>
      match tl.payload with
      | .acc anchor _ vs sts =>
        if add then
          let r := addAcc a anchor vs sts xy (fun p => accTileRead tab s (a.va p)) (a.inside xy)
          let ws := tiles.flatMap (fun p => accRuns (a.va p) none tab s (r.1.filter (fun k => k.tile == p)))
          let s := patchRuns c tab (joinRuns ws) s
          let s := s.each (List.range r.2) (fun _ u => violate c 0x0901 u)
          checkResidue c (stackAt tab ((tiles.head?.map a.va).getD 0)) opD1 tapD1 [tl] (s.modCtx c (markStored i xy))
        else
          let ps := (a.winners ((s.ctx c).stn i).seen xy).foldl (fun (l : List AccPut) e =>
            let p := (a.place xy e).getD (xy, e)
            l.filter (fun k => !(k.tile == p.1 && k.elem == p.2)) ++ [⟨p.1, p.2, vs.getD e 0, sts.getD e 0⟩]) []
          let ws := tiles.flatMap (fun p => accRuns (a.va p) (some anchor) tab s (ps.filter (fun k => k.tile == p)))
          (writeRuns c tab (joinRuns ws) s).modCtx c (markStored i xy)
      | _ => s
    | (none, s) => s

/-- Stores or adds the value tile that waits. -/
def storeValue (c : CtxId) (i : Nat) (m : Image) (v : View) (add : Bool) (xy : TileXY) (s : State) : State :=
  match access c (reqStation i) false true (v.spans xy) s with
  | (none, s) => s
  | (some tab, s) =>
    match takeScaled c m i 0 s with
    | (none, s) => s
    | (some (tl, slipped), s) =>
      if add then
        let es := v.inside xy
        let ws := addInts (fun e => ((fieldAddr v.fmt v.base (v.offset (v.stored (tileCoord xy e)))).1, 4)) tab s tl es
        let s := (patchRuns c tab (joinRuns ws) s).modCtx c (markStored i xy)
        checkResidue c (stackAt tab ((ws.head?.map (·.1)).getD 0)) opD1 tapD1 [tl] s
      else
        let fs := v.puts ((s.ctx c).stn i).seen (blockNanRows tl slipped)
        (writeRuns c tab (joinRuns (fs.map (fun f => (f.va, f.bytes tab s)))) s).modCtx c (markStored i xy)

/-! ## A packed tile of a sparse tensor -/

/-- A stored packed tile holds index `i` of the array `ix`, `per` slots a row, at a higher row of the view than row `b` of tile
`xy` (R213). -/
def claimedIx (ix : PackedTile → List (Option Nat)) (per : Nat) (seen : List PackedTile) (xy : TileXY) (b i : Nat) : Bool :=
  seen.any (fun t => (ix t).zipIdx.any (fun p => p.1 == some i && decide (packedRank xy b < packedRank t.xy (p.2 / per))))

/-- The fields of a packed tile (R136), less those under stored positions of higher index. -/
def packedPuts (fmt base scale : Nat) (seen : List PackedTile) (k : PackedTile) (t : Tile) : List FieldPut :=
  let vals := k.elemIx.zipIdx.filterMap (fun p => p.1.bind (fun i =>
    if claimedIx (·.elemIx) 32 seen k.xy (p.2 / 32) i then none
    else some (fieldPut (fieldAddr fmt base i) (t.raws.getD p.2 0))))
  let scs := if isMx fmt then
      k.scaleIx.zipIdx.filterMap (fun p => p.1.bind (fun i =>
        if claimedIx (·.scaleIx) 1 seen k.xy p.2 i then none
        else some (fieldPut (wrap64 (scale + i : Nat), 1, 0, 8) (scaleByte (t.scales.getD p.2 0)))))
    else []
  mergeFields (vals ++ scs)

/-- Stores or adds the packed value tile `pk` that waits. -/
def storePackedValue (c : CtxId) (i : Nat) (m : Image) (t : TensorRec) (fmt : Nat) (add : Bool) (seen : List PackedTile)
    (pk : PackedTile) (s : State) : State :=
  match access c (reqStation i) false true (packedSpans fmt t.valueVa t.scaleVa pk) s with
  | (none, s) => s
  | (some tab, s) =>
    match takeScaled c m i 0 s with
    | (none, s) => s
    | (some (tl, slipped), s) =>
      if add then
        let es := (List.range 1024).filter (fun e => ((pk.elemIx.getD e none)).isSome)
        let ws := addInts (fun e => ((fieldAddr fmt t.valueVa ((pk.elemIx.getD e none).getD 0)).1, 4)) tab s tl es
        let s := (patchRuns c tab (joinRuns ws) s).modCtx c (markStored i pk.xy)
        checkResidue c (stackAt tab ((ws.head?.map (·.1)).getD 0)) opD1 tapD1 [tl] s
      else
        let fs := packedPuts fmt t.valueVa t.scaleVa seen pk (blockNanRows tl slipped)
        (writeRuns c tab (joinRuns (fs.map (fun f => (f.va, f.bytes tab s)))) s).modCtx c (markStored i pk.xy)

/-- Stores the packed tile (band, pass) that waits, at the rows that the view names (R218); the metadata in force places its
slots, and its malformed entries count for the station (R144). -/
def storePacked (c : CtxId) (i : Nat) (m : Image) (st : Station) (t : TensorRec) (k : MaskRec) (xy : TileXY) (s : State) : State :=
  let d := sparseDim t k
  let ixT := indexTensor (s.ctx c) m st
  let head := metaSpans (s.ctx c) d k t.mask ++ (ixT.map indexSpans).getD []
  match access c (reqStation i) false false head s with
  | (none, s) => s
  | (some tab0, s) =>
    let mb := readMeta (s.ctx c) tab0 s d k t.mask
    let v := sparseView d (st.o 2 1) (ixT.map (indexRead tab0 s))
    let bands := v.bands d mb.1
    let use := (v.metas d mb.1 mb.2)[xy.tr]?.toList
    let s := (chargeRead c tab0 head s).modCtx c (useBands i false use)
    if bands.length ≤ xy.tr ∨ passesOf (bands.getD xy.tr []) ≤ xy.tc ∨ !v.planes.contains (xy.x2, xy.x3) then
      violate c 0x0902 (takeScaled c m i 0 s).2
    else
      let fmt := if t.format = fRUNG then (s.ctx c).rungOf st.layer else t.format
      let add := st.o 1 1 == 1
      let tileOf (p : TileXY) : PackedTile := packedTile (bands.getD p.tr []) p
      if fmt = fACC128 then storeAcc c i m (v.accMap d mb.1 t.valueVa) add xy s
      else storePackedValue c i m t fmt add ((((s.ctx c).stn i).seen).map tileOf) (tileOf xy) s

/-! ## STORE_TILE -/

/-- The MX tile that waits has its scale tile beside it. -/
def scaleWaiting (x : Ctx) (m : Image) (i : Nat) (t : Tile) : Bool :=
  !(isMx t.fmt && m.fed i 1) || (x.peek m i 1).isSome

/-- STORE_TILE of station `i`: every page of the tile is translated before its first write (R367); a tile outside the view's
grid is discarded (0x0902). -/
def doStoreTile (c : CtxId) (i : Nat) (s : State) : State :=
  withStation c i kSTORE (fun m st s =>
    let s := takeMetas c m i false (waitingOn (s.ctx c) m i 2) s
    match (s.ctx c).peek m i 0, m.tensor st.tensor with
    | some tl, some t =>
      if !scaleWaiting (s.ctx c) m i tl then s
      else
        match (if t.sparse = 0 then none else m.masks[t.mask]?) with
        | some k =>
          let there := (stagedMetas ((s.ctx c).stn i)).any (fun b => b.band == tl.xy.tr)
          if there || portEnded (s.ctx c) m i 2 then storePacked c i m st t k tl.xy s else s
        | none =>
          if !inGrid (viewExtents m st t) tl.xy then violate c 0x0902 (takeScaled c m i 0 s).2
          else
            let ixT := indexTensor (s.ctx c) m st
            let ixSpans := (ixT.map indexSpans).getD []
            match access c (reqStation i) false false ixSpans s with
            | (none, s) => s
            | (some tab0, s) =>
              let v := viewOf (s.ctx c) m st t ((ixT.map (indexRead tab0 s)).getD [])
              let s := chargeRead c tab0 ixSpans s
              let add := st.o 1 1 == 1
              if t.format = fACC128 then storeAcc c i m (v.accMap t) add tl.xy s else storeValue c i m v add tl.xy s
    | _, _ => s) s

def execStoreTile (c : CtxId) (st : Nat) (s : State) : Host.Outcome State Fault Refusal := .next (doStoreTile c st s)

end Sys2Proof.Machine
end

