-- ==== Sys2Proof/Machine/Exchange.lean ====
section
/-! DEFINITION. The arithmetic of the exchange (R265 to R272), low-rank thinning (R273, R274), packets of the exchange (R262),
and the units of digest kinds 6 and 7 (R308, R309). -/

namespace Sys2Proof.Machine

open Sys2Proof

/-! ## Widths (R267) -/

def headroom (g : Nat) : Nat := if g ≤ 1 then 0 else bitLen (g - 1)

def widthBits (width : Nat) : Nat := if width = 0 then 16 else 32

/-- Pb = W − 1 − h. -/
def magBits (width g : Nat) : Int := (widthBits width : Int) - 1 - headroom g

/-! ## Scale records (R266) -/

def emptyRec : ScaleRec := ⟨0, 0, none⟩

/-- Bit `i` of the presence that a block has: under REC16 every element counts. -/
def recHas (rec64 : Bool) (r : ScaleRec) (i : Nat) : Bool := !rec64 || r.present.getLsbD i

/-- The record of a member's elements; `pres` are its gradient positions. -/
def recordOf (rec64 : Bool) (vals : List Val) (pres : List Bool) : ScaleRec :=
  let live := (vals.zip pres).filterMap (fun p => if p.2 || !rec64 then some p.1 else none)
  { present := if rec64 then BitVec.ofNat 32 (boolsToNat pres) else 0
    state := combAll (live.map Val.state)
    exp := live.foldl (fun a v => match v.term with
      | some t => maxOpt a (some ((bitLen t.2.1 : Int) + t.2.2))
      | none => a) none }

def mergeRec (a b : ScaleRec) : ScaleRec := ⟨a.present ||| b.present, comb a.state b.state, maxOpt a.exp b.exp⟩

/-- A record in REC64 form, as a number. -/
def recWord (r : ScaleRec) : Nat :=
  r.present.toNat * 2 ^ 32 + r.state.toNat * 2 ^ 14 + (match r.exp with
    | some k => lowBits 14 k
    | none => 0x2000)

/-! ## Quantisation (R268) -/

/-- The integer of an element, and whether it vanishes. -/
def quantElem (v : Val) (eb pb : Int) : Int × Bool :=
  match v.term with
  | none => (0, false)
  | some (neg, m, e) =>
    let sh := e + pb - eb
    if 0 ≤ sh then (Val.sgn neg (m <<< sh.toNat), false)
    else
      let d := (-sh).toNat
      let n0 := m >>> d
      let rem := m % 2 ^ d
      let half := 2 ^ (d - 1)
      let n1 := if half < rem ∨ (rem = half ∧ n0 % 2 = 1) then n0 + 1 else n0
      let n := if n1 = 2 ^ pb.toNat then n1 - 1 else n1
      (Val.sgn neg n, rem != 0 && n == 0)

/-- A member's integers for a block, and how many vanish; absent and non-finite elements contribute 0. -/
def quantBlock (rec64 : Bool) (vals : List Val) (own agreed : ScaleRec) (pb : Int) : List Int × Nat :=
  let qs := vals.zipIdx.map (fun p =>
    match agreed.exp with
    | some eb => if recHas rec64 own p.2 then quantElem p.1 eb pb else (0, false)
    | none => (0, false))
  (qs.map (·.1), qs.countP (·.2))

/-! ## Delivery (R269) -/

/-- The delivered element, `none` where it is absent. -/
def deliverVal (rec64 : Bool) (r : ScaleRec) (pb : Int) (i : Nat) (sum : Int) : Option Val :=
  if !recHas rec64 r i then none
  else if r.state ≠ 0 then some (accVal 127 0 r.state)
  else
    match r.exp with
    | some eb => some (.fin (sum < 0) sum.natAbs (eb - pb))
    | none => some (.fin false 0 0)

/-! ## Encoded bytes (R77, R272, R309) -/

/-- The bits of an element of a format. -/
def fmtBits (f : Nat) : Nat := (fmtParams f).bits

/-- Elements packed as R77 packs them. -/
def packElems (f : Nat) (raws : List Nat) : List Byte := leBytes (raws.length * fmtBits f / 8) (packBits (fmtBits f) raws)

/-- The elements of a packed run of `n`. -/
def unpackElems (f n : Nat) (bs : List Byte) : List Nat :=
  let v := leNat bs
  (List.range n).map (fun i => (v >>> (fmtBits f * i)) % 2 ^ fmtBits f)

/-- The bytes of a kind 6 unit (R309). -/
def tileBytes (t : Tile) : List Byte :=
  match t.payload with
  | .acc a _ v st => accToBytes a 1 v st
  | .val f es scs _ _ =>
    packElems f (es.zipIdx.map (fun p => if t.has p.2 then p.1 else 0)) ++
      (if isMx f then scs.map (fun n => BitVec.ofNat 8 (scaleByte n)) else [])
  | _ => []

/-- A unit CRC (R308). -/
def unitCrc (tensorId kind sub index : Nat) (bs : List Byte) : U64 :=
  crc64 (leBytes 4 tensorId ++ leBytes 1 kind ++ leBytes 1 sub ++ zeroBytes 2 ++ leBytes 8 index ++ bs)

def foldContrib (crc : U64) (x : Ctx) : Ctx :=
  { x with wit := { x.wit with folds := { x.wit.folds with contrib := x.wit.folds.contrib ^^^ crc } } }

def foldExchange (crc : U64) (x : Ctx) : Ctx :=
  { x with wit := { x.wit with folds := { x.wit.folds with exchange := x.wit.folds.exchange ^^^ crc } } }

/-! ## Exchange blocks (R265) -/

/-- The member that owns block `b` of `nb`. -/
def ownerOf (nb g b : Nat) : Nat := ((List.range g).find? (fun r => decide (r * nb / g ≤ b) && decide (b < (r + 1) * nb / g))).getD 0

def denseShape (w : TensorRec) : List ShapeTile :=
  (gridTiles w.extent 0).map (fun xy =>
    { xy := xy
      blocks := (List.range 32).map (fun b =>
        if 32 * xy.tr + b < w.ext 1 then some (xy.tc + w.nt0 * (32 * xy.tr + b + w.ext 1 * (xy.x2 + w.ext 2 * xy.x3))) else none)
      cols := [] })

def sparseShape (d : SparseDim) (b : List Byte) : List ShapeTile :=
  (List.range d.bands).flatMap (fun band =>
    let rows := (bandRows d b band).1
    (List.range (passesOf rows)).map (fun p =>
      { xy := ⟨band, p, 0, 0⟩
        blocks := rows.map (fun r => r.scaleIx.getD p none)
        cols := passCols (rows.map (·.slots)) p }))

/-- The position in W of element `e` of a tile position. -/
def ShapeTile.pos (w : TensorRec) (k : ShapeTile) (e : Nat) : Option (Nat × Nat) :=
  if w.sparse = 0 then
    if inExt w.extent k.xy e then some (32 * k.xy.tr + e / 32, 32 * k.xy.tc + e % 32) else none
  else
    match k.cols.getD e .none with
    | .col c => some (32 * k.xy.tr + e / 32, c)
    | .none => none

/-- REC64 is used under PRED, FRZR, FRZB or EMB (R266). -/
def usesRec64 (w : TensorRec) : Bool := w.mode mPRED || w.mode mFRZR || w.mode mFRZB || w.mode mEMB

/-- Whether each element of a tile position is a gradient position of the member, or within the extents under REC16. -/
def shapePresent (x : Ctx) (w : TensorRec) (ti : Nat) (frozen : List Byte) (k : ShapeTile) (t : Tile) : List Bool :=
  (List.range 1024).map (fun e =>
    match k.pos w e with
    | none => false
    | some (r, cc) =>
      if usesRec64 w then
        t.has e && gradPos x { prod := 2, w := w, sparse := w.sparse != 0, metas := [], tokens := 0, bExt := [] } ti frozen r cc
      else true)

/-! ## Packets (R262) -/

def tJOIN : Nat := 1
def tACCEPT : Nat := 2
def tSCALE : Nat := 3
def tDATA : Nat := 4
def tGATHER : Nat := 5
def tDIGEST : Nat := 6
def tPAUSE : Nat := 7
def tRESUME : Nat := 8

/-- The 64 bytes of a collective header. -/
def hdrBytes (type : Nat) (h : CollHdr) : List Byte :=
  leBytes 1 type ++ [h.coll, h.subject, h.format] ++ leBytes 2 h.srcRank.toNat ++ leBytes 2 h.size.toNat ++
    leBytes 8 h.step.toNat ++ leBytes 4 h.generation.toNat ++ leBytes 4 h.groupId.toNat ++ leBytes 4 h.tensorId.toNat ++
    leBytes 4 h.firstBlock.toNat ++ leBytes 2 h.blocks.toNat ++ [h.width, h.recForm] ++ leBytes 4 h.seq.toNat ++
    leBytes 8 h.hash64.toNat ++ leBytes 2 h.contrib.toNat ++ zeroBytes 14

/-- Bytes 0 to 7 of the carcass hash. -/
def hash64Of (m : Image) : U64 := BitVec.ofNat 64 (natAt m.hash 0 8)

/-- A collective packet of context `c` to rank `to`: numbered, and held while the partner has paused the group (R381). -/
def sendColl (c : CtxId) (toR type : Nat) (h : CollHdr) (body : List Byte) (s : State) : State :=
  let x := s.ctx c
  match formedSlot x h.groupId with
  | none => s
  | some g =>
    let seq := (assocGet h.groupId x.seqOut).getD 0
    let bytes := hdrBytes type { h with srcRank := g.rank.zeroExtend 16, size := g.sizeM1.zeroExtend 16, seq := seq } ++ body
    let s := s.setCtx c { x with seqOut := assocPut h.groupId (seq + 1) x.seqOut }
    let uid := g.members.getD toR 0
    if 3 ≤ type ∧ type ≤ 5 then
      if x.pausedBy.contains (h.groupId, toR) then
        s.modCtx c (fun x => { x with heldPackets := x.heldPackets ++ [(h.groupId, toR, uid, bytes)] })
      else sendPacket uid 1 bytes s
    else sendPacket uid 0 bytes s

/-- The header of a packet of an instance. -/
def instHdr (n : Inst) : CollHdr :=
  { coll := BitVec.ofNat 8 n.coll, subject := BitVec.ofNat 8 n.subject, format := 0, srcRank := 0, size := 0, step := n.step,
    generation := n.gen, groupId := n.groupId, tensorId := n.tensorId, firstBlock := 0, blocks := 0,
    width := BitVec.ofNat 8 n.width, recForm := if n.rec64 then 1 else 0, seq := 0, hash64 := n.hash64, contrib := 1 }

def Inst.partners (n : Inst) : List Nat := (List.range n.size).filter (fun r => r != n.rank)

/-- The header of a packet that carries one block. -/
def blockHdr (n : Inst) (b : Nat) : CollHdr := { instHdr n with firstBlock := BitVec.ofNat 32 b, blocks := 1 }

def sendScale (c : CtxId) (n : Inst) (b : BlockSum) (toR : Nat) (s : State) : State :=
  match b.own with
  | some r => sendColl c toR tSCALE (blockHdr n b.block) (if n.rec64 then leBytes 8 (recWord r) else leBytes 2 (recWord r)) s
  | none => s

/-- The integers of a block go to every partner under COLL 0, to the owner alone under COLL 1 (R270, R271). -/
def wantsData (n : Inst) (nb : Nat) (b : BlockSum) (toR : Nat) : Bool := n.coll == 0 || ownerOf nb n.size b.block == toR

def sendData (c : CtxId) (n : Inst) (nb : Nat) (b : BlockSum) (toR : Nat) (s : State) : State :=
  match b.q with
  | some q =>
    if wantsData n nb b toR then
      let w := widthBits n.width
      sendColl c toR tDATA (blockHdr n b.block) (q.flatMap (fun z => leBytes (w / 8) (lowBits w z))) s
    else s
  | none => s

/-- The bytes of an owned block go to every partner under COLL 2. -/
def sendGather (c : CtxId) (n : Inst) (nb fmt : Nat) (b : BlockSum) (toR : Nat) (s : State) : State :=
  match b.bytes with
  | some bs =>
    if ownerOf nb n.size b.block = n.rank then
      sendColl c toR tGATHER { blockHdr n b.block with format := BitVec.ofNat 8 fmt } bs s
    else s
  | none => s

/-! ## Thinning (R273, R274) -/

/-- A draw of R92 with one more bit of c[1] set. -/
def drawBit (bit : Nat) (seed step : U64) (tensorId i : Nat) : Nat :=
  let ix := i % 2 ^ 50
  let c : PhiloxCtr := ⟨BitVec.ofNat 32 (ix / 4), BitVec.ofNat 32 (2 ^ bit + (ix / 4) / 2 ^ 32 % 2 ^ 16), BitVec.ofNat 32 tensorId,
    step.truncate 32⟩
  ((philox c (seed.truncate 32) ((seed >>> 32).truncate 32 ^^^ (step >>> 32).truncate 32)).word ix).toNat

/-- The initial QP element of index `i`. -/
def thinDraw (seed step : U64) (tensorId i : Nat) : U32 :=
  let z : Int := (drawBit 19 seed step tensorId i / 256 : Nat) - (2 ^ 23 : Nat)
  fpRound (.fin (z < 0) z.natAbs (-23))

/-- An exact sum of exact products of FP32 values. -/
def exactDot (ps : List (U32 × U32)) : Val :=
  let prods := ps.map (fun p => (fpVal p.1).mul (fpVal p.2))
  let st := combAll (prods.map Val.state)
  let z := sumInt (prods.map (fun v => match v with
    | .fin s m e => Val.units s m e (-298)
    | _ => 0))
  accVal (-171) z st

def thinSpan (r k y : Nat) : Nat := align64 (0x40 + 4 * k * r) + 4 * y * k

def u32List (n : Nat) (bs : List Byte) : List U32 := (List.range n).map (fun i => BitVec.ofNat 32 (natAt bs (4 * i) 4))

/-- Column `j` of a row-major matrix of `r` columns and `n` rows. -/
def matCol (n r j : Nat) (l : List U32) : List U32 := (List.range n).map (fun i => l.getD (i * r + j) 0)

def matRow (k y : Nat) (l : List U32) : List U32 := (l.drop (y * k)).take k

/-- The columns Ph of R274 from the columns of P. -/
def orthoCols : List (List U32) → List (List U32) → List (List U32)
  | done, [] => done
  | done, p :: ps =>
    let q := done.foldl (fun q l =>
      let d := fpRound (exactDot (l.zip q))
      (l.zip q).map (fun z => ffma (fnegBits d) z.1 z.2)) p
    let n := fpRound (exactDot (q.zip q))
    let h := if (fpVal n).isZero then q.map (fun _ => 0) else q.map (fun v => fdiv v (fsqrt n))
    orthoCols (done ++ [h]) ps

/-- A row-major matrix from its columns. -/
def ofCols (n : Nat) (cols : List (List U32)) : List U32 := (List.range n).flatMap (fun i => cols.map (fun l => l.getD i 0))

end Sys2Proof.Machine
end

