-- ==== Sys2Proof/Machine/Collective.lean ====
section
/-! DEFINITION. REDUCE_INPUT_TILE, JOIN_REPEAT and the packets of the exchange (R260 to R275, R279, R315, R316, R320, R321,
R381). The schedule is all-to-all (placement class, log entry 25). -/

namespace Sys2Proof.Machine

open Sys2Proof

/-! ## Instances of a station -/

def Inst.isOf (i subj : Nat) (step : U64) (n : Inst) : Bool := n.st == i && n.subject == subj && n.step == step

/-- The instance of a station in the step that the context runs. -/
def Ctx.inst (x : Ctx) (i subj : Nat) : Option Inst := x.insts.find? (Inst.isOf i subj x.step)

def Ctx.modInst (x : Ctx) (i subj : Nat) (f : Inst → Inst) : Ctx :=
  { x with insts := x.insts.map (fun n => if n.isOf i subj x.step then f n else n) }

def Inst.modBlock (n : Inst) (b : Nat) (f : BlockSum → BlockSum) : Inst :=
  { n with blocks := n.blocks.map (fun k => if k.block = b then f k else k) }

def Inst.block (n : Inst) (b : Nat) : Option BlockSum := n.blocks.find? (fun k => k.block == b)

def newBlock (b : Nat) : BlockSum :=
  { block := b, vals := [], own := none, srec := emptyRec, recN := 0, q := none, sums := List.replicate 32 0, sumN := 0,
    bytes := none }

/-- The subject of a station's first instance. -/
def baseSubject (st : Station) : Nat := if st.o 1 1 = 1 then 1 else 0

/-- NB of an instance: the blocks of W, or the rows of a thinning factor. -/
def instNb (m : Image) (st : Station) (n : Inst) : Nat :=
  if n.subject ≠ 0 then n.blocks.length
  else
    match m.tensor st.tensor with
    | some w => blockCount w (m.masks[w.mask]?)
    | none => 0

/-! ## Handshake (R263) -/

def countRefuse (c : CtxId) (s : State) : State :=
  s.modCtx c (fun x => x.count (fun k => { k with gluRefuse := satAdd k.gluRefuse 1 }))

/-- The instance that a JOIN identifies. -/
def joinKey (h : CollHdr) (n : Inst) : Bool :=
  n.groupId == h.groupId && n.tensorId == h.tensorId && n.subject == h.subject.toNat && n.coll == h.coll.toNat && n.step == h.step

/-- The JOIN agrees with the instance that it identifies (R263 rules 2 and 3). -/
def joinAgrees (n : Inst) (h : CollHdr) : Bool := h.generation == n.gen && h.hash64 == n.hash64 && h.size.toNat + 1 == n.size

/-- Accepts a JOIN that agrees, refuses another. -/
def answerJoin (c : CtxId) (n : Inst) (h : CollHdr) (s : State) : State :=
  if joinAgrees n h then
    sendColl c h.srcRank.toNat tACCEPT (instHdr n) [] s
  else countRefuse c s

/-- The instance starts: a JOIN to each partner, and the JOINs held for it are compared. -/
def startInst (c : CtxId) (n : Inst) (s : State) : State :=
  let n := { n with begun := true }
  let held := (s.ctx c).heldJoins.filter (fun p => joinKey p.2 n)
  let s := s.modCtx c (fun x =>
    { x with insts := x.insts.filter (fun k => !k.isOf n.st n.subject n.step) ++ [n],
             heldJoins := x.heldJoins.filter (fun p => !joinKey p.2 n) })
  let s := s.each n.partners (fun r t => sendColl c r tJOIN (instHdr n) [] t)
  s.each held (fun p t => answerJoin c n p.2 t)

/-- An instance of a station as it starts. -/
def mkInst (x : Ctx) (m : Image) (i : Nat) (st : Station) (g : GroupRec) (subj : Nat) (shape : List ShapeTile) (ids : List Nat)
    (nan : Bool) : Inst :=
  let slot := formedSlot x (BitVec.ofNat 32 g.groupId)
  let w := (m.tensor st.tensor).getD emptyTensor
  { st := i, groupId := BitVec.ofNat 32 g.groupId, size := if nan then 1 else g.size, rank := ((slot.map (·.rank.toNat)).getD 0),
    tensorId := BitVec.ofNat 32 w.tensorId, subject := subj, coll := st.o 0 1, step := x.step, gen := m.generation,
    hash64 := hash64Of m, width := g.width, rec64 := usesRec64 w, accepted := [], shape := shape, tiles := [],
    blocks := ids.map newBlock, emitted := [], nan := nan, complete := false, mat := [], fac := [] }

/-! ## Records and sums -/

/-- Combines a record into a block; the complete combination enters the exchange digest (R266, R309). -/
def addRecord (c : CtxId) (i subj b : Nat) (r : ScaleRec) (n : Nat) (s : State) : State :=
  s.modCtx c (fun x =>
    match (x.inst i subj).bind (fun k => (k.block b).map (fun q => (k, q))) with
    | none => x
    | some (k, q) =>
      if k.size ≤ q.recN then x
      else
        let r' := mergeRec q.srec r
        let x := x.modInst i subj (fun k => k.modBlock b (fun q => { q with srec := r', recN := q.recN + n }))
        if k.size ≤ q.recN + n then
          foldExchange (unitCrc k.tensorId.toNat 7 subj b (leBytes 8 (recWord (if k.rec64 then r' else { r' with present := 0 })))) x
        else x)

/-- Adds integers to the sum of a block, W bits wide. -/
def addSums (c : CtxId) (i subj b : Nat) (qs : List Int) (n : Nat) (s : State) : State :=
  s.modCtx c (fun x => x.modInst i subj (fun k => k.modBlock b (fun q =>
    if k.size ≤ q.sumN then q
    else { q with sums := (q.sums.zip qs).map (fun p => wrapS (widthBits k.width) (p.1 + p.2)), sumN := q.sumN + n })))

/-- The member's own elements of a block: its record goes to the partners that have accepted. -/
def ownBlock (c : CtxId) (i subj b : Nat) (vals : List Val) (pres : List Bool) (s : State) : State :=
  match (s.ctx c).inst i subj with
  | none => s
  | some n =>
    let r := recordOf n.rec64 vals pres
    let s := s.modCtx c (fun x => x.modInst i subj (fun k => k.modBlock b (fun q => { q with vals := vals, own := some r })))
    let s := addRecord c i subj b r 1 s
    match n.block b with
    | none => s
    | some q => s.each n.accepted (fun toR t => sendScale c n { q with own := some r } toR t)

/-- The ordinal of an input tile in its grid: packed order for a sparse W (R309, R470). -/
def inputOrdinal (w : TensorRec) (shape : List ShapeTile) (xy : TileXY) : Nat :=
  if w.sparse = 0 then tileOrdinal w.extent xy else (shape.findIdx? (fun k => k.xy == xy)).getD 0

/-- The link of a member's exchange, for the G taps: that of the route to the first partner, else link 0. -/
def exchangeLink (s : State) (c : CtxId) (n : Inst) : LinkId :=
  match formedSlot (s.ctx c) n.groupId with
  | some g =>
    ((n.partners.findSome? (fun r => (routeTo s (g.members.getD r 0)).map (·.2))).getD 0)
  | none => 0

/-- What a G1 or G2 mismatch on block `b` of an instance names: the input tile that carries the block (R470). The blocks of a
thinning factor come from no input tile: the spec gives them no ordinal, and the value is open (log entry 43). -/
def blockOp (m : Image) (n : Inst) (b : Nat) : CheckOp :=
  checkOp m n.st (
    match n.subject, n.shape.find? (fun k => k.blocks.contains (some b)) with
    | 0, some k => inputOrdinal ((m.tensor (m.station n.st).tensor).getD emptyTensor) n.shape k.xy
    | j, _ => Config.openValue [3, n.tensorId.toNat, n.step.toNat, j, b] % 2 ^ 32)

/-- Adds integers to a block in the Glue-up adder of link `l`, whose taps check the sum (R269, R327). -/
def addChecked (c : CtxId) (l : LinkId) (m : Image) (n : Inst) (b : Nat) (qs : List Int) (k : Nat) (s : State) : State :=
  checkResidue c (.link l) (blockOp m n b) tapG2 [] (addSums c n.st n.subject b qs k s)

/-- Phase 2 of every block whose combined record is there (R268, R270). -/
def quantStage (c : CtxId) (i : Nat) (m : Image) (st : Station) (subj : Nat) (s : State) : State :=
  match (s.ctx c).inst i subj with
  | none => s
  | some n =>
    let nb := instNb m st n
    s.each (n.blocks.filter (fun b => decide (n.size ≤ b.recN) && b.q.isNone && b.own.isSome)) (fun b t =>
      let r := quantBlock n.rec64 b.vals (b.own.getD emptyRec) b.srec (magBits n.width n.size)
      let t := t.modCtx c (fun x =>
        (x.count (fun k => { k with gluVanish := satAdd k.gluVanish r.2 })).modInst i subj (fun k =>
          k.modBlock b.block (fun q => { q with q := some r.1 })))
      let t := checkResidue c (.link (exchangeLink t c n)) (blockOp m n b.block) tapG1 [] t
      let t := if wantsData n nb b n.rank then addChecked c (exchangeLink t c n) m n b.block r.1 1 t else t
      t.each n.accepted (fun toR u => sendData c n nb { b with q := some r.1 } toR u))

/-! ## Output -/

/-- The block is done on this member. -/
def blockFinal (n : Inst) (nb : Nat) (b : BlockSum) : Bool :=
  if n.coll = 2 then b.bytes.isSome
  else decide (n.size ≤ b.recN) && (decide (n.size ≤ b.sumN) || !wantsData n nb b n.rank)

/-- The elements of a row of an output tile, `none` where absent. -/
def outRow (n : Inst) (nb f : Nat) (b : Option Nat) : List (Option Nat) :=
  match b.bind n.block with
  | none => List.replicate 32 none
  | some q =>
    if !wantsData n nb q n.rank then List.replicate 32 none
    else (List.range 32).map (fun i =>
      (deliverVal n.rec64 q.srec (magBits n.width n.size) i (q.sums.getD i 0)).map (toFmt f 0 none))

/-- A delivered tile from its elements (R269). -/
def reducedTile (n : Inst) (w : TensorRec) (f : Nat) (k : ShapeTile) (es : List (Option Nat)) : Tile :=
  let els := es.zipIdx.map (fun p => if (k.pos w p.2).isSome then p.1 else none)
  { xy := k.xy, payload := .val f (els.map (fun e => e.getD 0)) [] [] [], present := els.map (·.isSome), step := n.step, cols := k.cols }

/-- The tile of 0x0C01: every element present as the canonical NaN, for an MX format in blocks of NaN (R279). -/
def nanTile (n : Inst) (w : TensorRec) (f : Nat) (k : ShapeTile) : Tile :=
  if isMx f then
    let tags := k.blocks.map (fun b => (b.getD 0) % 256)
    { xy := k.xy, payload := .val f (List.replicate 1024 0) (List.replicate 32 255) tags tags,
      present := (List.range 1024).map (fun e => (k.pos w e).isSome), step := n.step, cols := k.cols }
  else reducedTile n w f k (List.replicate 1024 (some (toFmt f 0 none .nan)))

/-- A gathered tile (R272). -/
def gatheredTile (n : Inst) (w : TensorRec) (f : Nat) (k : ShapeTile) : Tile :=
  let rows := k.blocks.map (fun b => ((b.bind n.block).bind (·.bytes)).getD [])
  let es := rows.flatMap (fun bs => unpackElems f 32 bs)
  let scs := if isMx f then rows.map (fun bs => natAt bs (4 * fmtBits f) 1) else []
  let tags := if isMx f then k.blocks.map (fun b => (b.getD 0) % 256) else []
  { xy := k.xy, payload := .val f es scs tags tags, present := (List.range 1024).map (fun e => (k.pos w e).isSome), step := n.step,
    cols := k.cols }

/-- The tile goes out on this member: under COLL 1 only tiles that hold an owned block. -/
def tileDue (n : Inst) (nb : Nat) (k : ShapeTile) : Bool :=
  n.coll != 1 || n.nan || k.blocks.any (fun b => match b with
    | some b => ownerOf nb n.size b == n.rank
    | none => false)

def tileReady (n : Inst) (nb : Nat) (k : ShapeTile) : Bool :=
  n.nan || k.blocks.all (fun b => match b.bind n.block with
    | some q => blockFinal n nb q
    | none => true)

/-- The format of a REDUCE output. -/
def reduceFmt (x : Ctx) (m : Image) (i : Nat) (st : Station) : Nat :=
  let f := m.outFmt i 0
  if f = fRUNG then x.rungOf st.layer else f

/-- An output tile of an instance. -/
def outputTile (n : Inst) (w : TensorRec) (nb f : Nat) (k : ShapeTile) : Tile :=
  if n.nan then nanTile n w f k
  else if n.coll = 2 then gatheredTile n w f k
  else reducedTile n w f k (k.blocks.flatMap (outRow n nb f))

/-- Emits one output tile where the streams have room, and notes it. -/
def emitReduced (i : Nat) (m : Image) (subj : Nat) (xy : TileXY) (t : Tile) (x : Ctx) : Ctx :=
  if x.room m i 0 then
    let x := x.push m i 0 t
    x.modInst i subj (fun n => { n with emitted := n.emitted ++ [xy] })
  else x

/-- Emits every output tile that is ready; when all that are due have gone the station has finished. -/
def emitStage (c : CtxId) (i : Nat) (m : Image) (st : Station) (s : State) : State :=
  match (s.ctx c).inst i 0, m.tensor st.tensor with
  | some n, some w =>
    let nb := instNb m st n
    let f := reduceFmt (s.ctx c) m i st
    let due := n.shape.filter (tileDue n nb)
    let s := s.each (due.filter (fun k => !n.emitted.contains k.xy && tileReady n nb k)) (fun k t =>
      t.modCtx c (emitReduced i m 0 k.xy (outputTile n w nb f k)))
    match (s.ctx c).inst i 0 with
    | some n' =>
      if due.all (fun k => n'.emitted.contains k.xy) then
        s.modCtx c (fun x => (x.modInst i 0 (fun k => { k with complete := true })).modStn i (fun t => { t with fin := true }))
      else s
    | none => s
  | _, _ => s

/-! ## Thinning (R273, R274) -/

/-- The thinning state that the step reads: VALID and bits [31:1], QP and ERR. -/
def thinRead (x : Ctx) (w : TensorRec) (r : Nat) (bs : List Byte) : U32 × List U32 × List U32 :=
  let kk := w.ext 0
  let v := natAt bs 0 4
  let ok := v == 1
  (BitVec.ofNat 32 v,
    if ok then u32List (kk * r) (bs.drop 0x40)
    else (List.range (kk * r)).map (thinDraw x.ag.runSeed x.step w.tensorId),
    if ok then u32List (w.ext 1 * kk) (bs.drop (align64 (0x40 + 4 * kk * r))) else List.replicate (w.ext 1 * kk) 0)

/-- The member's gradient as FP32, row-major. -/
def thinGrad (w : TensorRec) (ts : List Tile) : List U32 :=
  let kk := w.ext 0
  let tiles := ts.map (fun t => (t.xy, t.vals))
  (List.range (w.ext 1 * kk)).map (fun e =>
    let y := e / kk
    let k := e % kk
    match tiles.find? (fun p => p.1 == ⟨y / 32, k / 32, 0, 0⟩) with
    | some p => fpRound (p.2.getD (32 * (y % 32) + k % 32) (.fin false 0 0))
    | none => 0)

/-- A block of a factor: `r` elements, padded to 32. -/
def facBlock (vs : List Val) : List Val := vs ++ List.replicate (32 - vs.length) (.fin false 0 0)

def facPres (r : Nat) : List Bool := (List.range 32).map (fun j => decide (j < r))

/-- A delivered factor in FP32, row-major with `r` columns. -/
def facDelivered (n : Inst) (r : Nat) : List U32 :=
  n.blocks.flatMap (fun b => (List.range r).map (fun j =>
    BitVec.ofNat 32 (((deliverVal n.rec64 b.srec (magBits n.width n.size) j (b.sums.getD j 0)).map (toFmt fFP32 0 none)).getD 0)))

def allFinal (n : Inst) (nb : Nat) : Bool := n.blocks.all (blockFinal n nb)

/-- The arithmetic of R274 runs in update units, under tap G3 (R275, R327); it works on no record block, so the ordinal is open (log
entry 43). -/
def checkThin (c : CtxId) (m : Image) (n : Inst) (s : State) : State :=
  checkResidue c (.link (exchangeLink s c n))
    (checkOp m n.st (Config.openValue [5, n.tensorId.toNat, n.step.toNat, n.subject] % 2 ^ 32)) tapG3 [] s

/-- First part: with every input tile there, M and Pi, reduced as SUBJECT 1. -/
def thinStart (c : CtxId) (i : Nat) (m : Image) (st : Station) (w : TensorRec) (n : Inst) (s : State) : State :=
  let r := st.o 2 1
  let len := thinSpan r (w.ext 0) (w.ext 1)
  let sp : Span := ⟨st.o 8 8 + (s.ctx c).parity * align64 len, len⟩
  match access c (reqStation i) false false [sp] s with
  | (none, s) => s
  | (some tab, s) =>
    let got := thinRead (s.ctx c) w r (readSpan tab s sp)
    let s := checkThin c m n (chargeRead c tab [sp] s)
    let s := if got.1.toNat / 2 ≠ 0 then violate c 0x0C02 s else s
    let kk := w.ext 0
    let mat := ((thinGrad w n.tiles).zip got.2.2).map (fun p => fadd p.1 p.2)
    let s := s.modCtx c (fun x => x.modInst i 1 (fun k => { k with mat := mat, fac := got.2.1 }))
    s.each (List.range (w.ext 1)) (fun y t =>
      ownBlock c i 1 y (facBlock ((List.range r).map (fun j =>
        exactDot ((matRow kk y mat).zip (matCol kk r j got.2.1))))) (facPres r) t)

/-- Second part: P delivered: Ph and Qi, reduced as SUBJECT 2. -/
def thinMiddle (c : CtxId) (i : Nat) (m : Image) (st : Station) (w : TensorRec) (n : Inst) (s : State) : State :=
  let r := st.o 2 1
  let kk := w.ext 0
  let rr := w.ext 1
  let p := facDelivered n r
  let ph := orthoCols [] ((List.range r).map (fun j => matCol rr r j p))
  match m.groups[st.o 4 4]? with
  | none => s
  | some g =>
    let n2 := { mkInst (s.ctx c) m i st g 2 [] (List.range kk) false with mat := n.mat, fac := ofCols rr ph }
    let s := checkThin c m n2 (startInst c n2 s)
    s.each (List.range kk) (fun k t =>
      ownBlock c i 2 k (facBlock ((List.range r).map (fun j => exactDot ((matCol rr kk k n.mat).zip (ph.getD j []))))) (facPres r) t)

/-- The products of row `y` of Ph with row `k` of a factor. -/
def facProduct (r y k : Nat) (ph q : List U32) : List (U32 × U32) :=
  (List.range r).map (fun j => (ph.getD (y * r + j) 0, q.getD (k * r + j) 0))

/-- Last part: Q delivered: the new thinning state is written and the thinned gradient stands in `mat`. -/
def thinEnd (c : CtxId) (i : Nat) (m : Image) (st : Station) (w : TensorRec) (n : Inst) (s : State) : State :=
  let r := st.o 2 1
  let kk := w.ext 0
  let rr := w.ext 1
  let q := facDelivered n r
  let qi := n.blocks.flatMap (fun b => (List.range r).map (fun j => fpRound (b.vals.getD j (.fin false 0 0))))
  let err := (List.range (rr * kk)).map (fun e =>
    fpRound (exactDot ((n.mat.getD e 0, 0x3F800000) :: (facProduct r (e / kk) (e % kk) n.fac qi).map (fun p => (p.1 ^^^ 0x80000000, p.2)))))
  let len := thinSpan r kk rr
  let head := leBytes 4 1 ++ zeroBytes 60 ++ q.flatMap (fun v => leBytes 4 v.toNat)
  let body := head ++ zeroBytes (align64 (0x40 + 4 * kk * r) - head.length) ++ err.flatMap (fun v => leBytes 4 v.toNat)
  let copy := 1 - (s.ctx c).parity
  match putVa c (reqStation i) false (st.o 8 8 + copy * align64 len) body s with
  | (false, s) => s
  | (true, s) =>
    let s := checkThin c m n s
    let f := reduceFmt (s.ctx c) m i st
    let out := (List.range (rr * kk)).map (fun e =>
      BitVec.ofNat 32 (toFmt f 0 none (exactDot (facProduct r (e / kk) (e % kk) n.fac q))))
    s.modCtx c (fun x => x.modInst i 2 (fun k => { k with mat := out, complete := true }))

/-- Emits the thinned tiles: every position of W is present (R275). -/
def thinEmit (c : CtxId) (i : Nat) (m : Image) (st : Station) (w : TensorRec) (n1 n2 : Inst) (s : State) : State :=
  let f := reduceFmt (s.ctx c) m i st
  let kk := w.ext 0
  let s := s.each (n1.shape.filter (fun k => !n1.emitted.contains k.xy)) (fun k t =>
    let es := (List.range 1024).map (fun e =>
      some ((n2.mat.getD ((32 * k.xy.tr + e / 32) * kk + (32 * k.xy.tc + e % 32)) 0).toNat))
    t.modCtx c (emitReduced i m 1 k.xy (reducedTile n1 w f k es)))
  match (s.ctx c).inst i 1 with
  | some n =>
    if n.shape.all (fun k => n.emitted.contains k.xy) then
      s.modCtx c (fun x => (x.modInst i 1 (fun k => { k with complete := true })).modStn i (fun t => { t with fin := true }))
    else s
  | none => s

def thinStage (c : CtxId) (i : Nat) (m : Image) (st : Station) (s : State) : State :=
  match m.tensor st.tensor, (s.ctx c).inst i 1 with
  | some w, some n1 =>
    if n1.nan then
      -- 0x0C01: NaN tiles of the whole grid
      let f := reduceFmt (s.ctx c) m i st
      let s := s.each (n1.shape.filter (fun k => !n1.emitted.contains k.xy)) (fun k t =>
        t.modCtx c (emitReduced i m 1 k.xy (outputTile n1 w 0 f k)))
      match (s.ctx c).inst i 1 with
      | some n => if n.shape.all (fun k => n.emitted.contains k.xy) then s.modCtx c (fun x => x.modStn i (fun t => { t with fin := true })) else s
      | none => s
    else
      let s := if n1.mat.isEmpty && n1.shape.all (fun k => n1.tiles.any (fun t => t.xy == k.xy)) then thinStart c i m st w n1 s else s
      let s := quantStage c i m st 1 s
      let s := match (s.ctx c).inst i 1, (s.ctx c).inst i 2 with
        | some n1, none => if !n1.mat.isEmpty && allFinal n1 0 then thinMiddle c i m st w n1 s else s
        | _, _ => s
      let s := quantStage c i m st 2 s
      let s := match (s.ctx c).inst i 2 with
        | some n2 => if !n2.complete && allFinal n2 0 then thinEnd c i m st w n2 s else s
        | none => s
      match (s.ctx c).inst i 1, (s.ctx c).inst i 2 with
      | some n1, some n2 => if n2.complete then thinEmit c i m st w n1 n2 s else s
      | _, _ => s
  | _, _ => s

/-- Everything that the station can do now, once its exchange has begun. -/
def reduceProgress (c : CtxId) (i : Nat) (m : Image) (st : Station) (s : State) : State :=
  if ((s.ctx c).inst i (baseSubject st)).all (fun n => !n.begun) then s
  else if st.o 1 1 = 1 then thinStage c i m st s else emitStage c i m st (quantStage c i m st 0 s)

/-! ## REDUCE_INPUT_TILE -/

/-- What the station reads of memory before a tile: the metadata of a sparse W, and the frozen bitmaps under REC64. -/
def reduceSpans (x : Ctx) (m : Image) (st : Station) (w : TensorRec) : List Span × List Span :=
  let ms := if w.sparse = 0 then [] else
      (match m.masks[w.mask]? with
        | some k => metaSpans x (sparseDim w k) k w.mask
        | none => [])
  let fs := if w.mode mFRZR || w.mode mFRZB then
      (match updateFor m st.tensor with
        | some (_, u) => [⟨u.frozenVa, frozenSpan ⟨w.sparse, w.ext 1, w.ext 0, 0⟩⟩]
        | none => [])
    else []
  (ms, fs)

/-- The tile positions of W. -/
def shapeOf (x : Ctx) (m : Image) (w : TensorRec) (tab : List PageMap) (s : State) : List ShapeTile :=
  if w.sparse = 0 then denseShape w
  else
    match m.masks[w.mask]? with
    | some k => sparseShape (sparseDim w k) (readMeta x tab s (sparseDim w k) k w.mask).1
    | none => []

/-- Opens the instance of the station at its first input tile; 0x0C01 where its group is not formed. -/
def openStation (c : CtxId) (i : Nat) (m : Image) (st : Station) (w : TensorRec) (shape : List ShapeTile) (s : State) : State :=
  match m.groups[st.o 4 4]? with
  | none => s
  | some g =>
    let ok := match formedSlot (s.ctx c) (BitVec.ofNat 32 g.groupId) with
      | some k => k.sizeM1.toNat + 1 == g.size
      | none => false
    let subj := baseSubject st
    let ids := if subj = 1 then List.range (w.ext 1) else nubBy (shape.flatMap (fun k => k.blocks.filterMap id))
    let n := mkInst (s.ctx c) m i st g subj shape ids (!ok)
    (if ok then s else violate c 0x0C01 s).modCtx c (fun x => { x with insts := x.insts ++ [n] })

/-- Adds every station that feeds `g`. -/
def sourceMore (m : Image) (g : List Nat) : List Nat :=
  (List.range m.stations.length).filter (fun i => g.contains i || m.streams.any (fun r => r.src == i && g.contains r.dst))

def sourceFix (m : Image) : Nat → List Nat → List Nat
  | 0, g => g
  | n + 1, g =>
    let h := sourceMore m g
    if h.length = g.length then g else sourceFix m n h

/-- R21: the REDUCE of a gradient begins when every ACCUM station that produces it, directly or through others, has delivered its
last tile. An all-gather moves no gradient. -/
def gradientDone (x : Ctx) (m : Image) (i : Nat) : Bool :=
  (m.station i).o 0 1 == 2 ||
    (sourceFix m m.stations.length [i]).all (fun a =>
      (m.station a).kind != kACCUM || (idleSet x m).contains a ||
        (stnDone x m a && [0, 1, 2, 3].all (fun p => portEnded x m a p)))

/-- The instance begins: one of a formed group sends its JOINs; one under 0x0C01 sends nothing. -/
def beginInst (c : CtxId) (i subj : Nat) (s : State) : State :=
  match (s.ctx c).inst i subj with
  | none => s
  | some n =>
    if n.begun then s
    else if n.nan then s.modCtx c (fun x => x.modInst i subj (fun k => { k with begun := true }))
    else startInst c n s

/-- The member's contribution from an input tile: its records (COLL 0 and 1), its owned bytes (COLL 2), or its part of G
under thinning. -/
def takeInput (c : CtxId) (i : Nat) (m : Image) (st : Station) (w : TensorRec) (k : ShapeTile) (t : Tile) (pres : List Bool)
    (s : State) : State :=
  match (s.ctx c).inst i (baseSubject st) with
  | none => s
  | some n =>
    if n.nan then s
    else if st.o 1 1 = 1 then s.modCtx c (fun x => x.modInst i 1 (fun n => { n with tiles := n.tiles ++ [t] }))
    else if n.coll = 2 then
      let nb := instNb m st n
      s.each (k.blocks.zipIdx.filterMap (fun p => p.1.map (fun b => (b, p.2)))) (fun p u =>
        if ownerOf nb n.size p.1 = n.rank then
          let bs := packElems t.fmt ((t.raws.drop (32 * p.2)).take 32) ++
            (if isMx t.fmt then [BitVec.ofNat 8 (scaleByte (t.scales.getD p.2 0))] else [])
          let u := u.modCtx c (fun x => x.modInst i 0 (fun n => n.modBlock p.1 (fun q => { q with bytes := some bs })))
          u.each n.accepted (fun toR v => sendGather c n nb t.fmt { newBlock p.1 with bytes := some bs } toR v)
        else u)
    else
      let vals := t.vals
      s.each (k.blocks.zipIdx.filterMap (fun p => p.1.map (fun b => (b, p.2)))) (fun p u =>
        let vs := (List.range 32).map (fun e => if (k.pos w (32 * p.2 + e)).isSome then vals.getD (32 * p.2 + e) .nan else .fin false 0 0)
        let ps := (pres.drop (32 * p.2)).take 32
        ownBlock c i 0 p.1 vs ps u)

/-- The tile enters the exchange: its carried residues are compared at the quantiser, and it joins the instance. -/
def enterTile (c : CtxId) (i : Nat) (m : Image) (st : Station) (w : TensorRec) (shape : List ShapeTile) (frozen : List Byte) (t : Tile)
    (s : State) : State :=
  match shape.find? (fun k => k.xy == t.xy), (s.ctx c).inst i (baseSubject st) with
  | some k, some n =>
    takeInput c i m st w k t (shapePresent (s.ctx c) w st.tensor frozen k t)
      (checkSides c (.link (exchangeLink s c n)) (checkOp m i (inputOrdinal w shape t.xy)) 0x21 [t] s)
  | _, _ => s

/-- The exchange begins where R21 allows it, takes the tiles that the station holds, and goes on. -/
def runReduce (c : CtxId) (i : Nat) (m : Image) (st : Station) (w : TensorRec) (shape : List ShapeTile) (frozen : List Byte) (s : State) :
    State :=
  if !gradientDone (s.ctx c) m i then s
  else
    let s := beginInst c i (baseSubject st) s
    let held := ((s.ctx c).stn i).held
    let s := s.modCtx c (fun x => x.modStn i (fun n => { n with held := [] }))
    reduceProgress c i m st (s.each held (enterTile c i m st w shape frozen))

/-- A tile that the REDUCE has taken: 0x0C03 for a second one of its coordinates; the first enters the contribution digest and is held
for the exchange, or under contribution replay is discarded (R265, R309, R321). -/
def takeReduce (c : CtxId) (i : Nat) (st : Station) (w : TensorRec) (shape : List ShapeTile) (alone : Bool) (t : Tile) (s : State) : State :=
  if ((s.ctx c).stn i).seen.contains t.xy then violate c 0x0C03 s
  else
    let s := s.modCtx c (fun x => x.modStn i (fun n => { n with seen := n.seen ++ [t.xy] }))
    let s := if st.o 0 1 = 2 then s else s.modCtx c (foldContrib (unitCrc w.tensorId 6 0 (inputOrdinal w shape t.xy) (tileBytes t)))
    if alone then
      if shape.all (fun k => ((s.ctx c).stn i).seen.contains k.xy) then s.modCtx c (fun x => x.modStn i (fun n => { n with fin := true }))
      else s
    else s.modCtx c (fun x => x.modStn i (fun n => { n with held := n.held ++ [t] }))

/-- The metadata of a sparse W that the station uses (R144). -/
def reduceMetas (x : Ctx) (m : Image) (w : TensorRec) (tab : List PageMap) (s : State) : List BandMeta :=
  if w.sparse = 0 then []
  else
    match m.masks[w.mask]? with
    | some k =>
      let b := readMeta x tab s (sparseDim w k) k w.mask
      bandMetas (sparseDim w k) b.1 b.2
    | none => []

/-- REDUCE_INPUT_TILE of station `i`: a waiting tile is taken; the exchange goes on. -/
def doReduceInputTile (c : CtxId) (i : Nat) (s : State) : State :=
  withStation c i kREDUCE (fun m st s =>
    match m.tensor st.tensor with
    | none => s
    | some w =>
      let alone := (s.ctx c).wit.replaying && (s.ctx c).wit.mode == 2 && st.o 0 1 != 2
      if ((s.ctx c).peek m i 0).isNone && ((s.ctx c).stn i).held.isEmpty then reduceProgress c i m st s
      else
        let sp := reduceSpans (s.ctx c) m st w
        match access c (reqStation i) false false (sp.1 ++ sp.2) s with
        | (none, s) => s
        | (some tab, s) =>
          let shape := shapeOf (s.ctx c) m w tab s
          let metas := reduceMetas (s.ctx c) m w tab s
          let frozen := sp.2.flatMap (readSpan tab s)
          let s := (chargeRead c tab (sp.1 ++ sp.2) s).modCtx c (useBands i false metas)
          let s := if !alone && ((s.ctx c).inst i (baseSubject st)).isNone then openStation c i m st w shape s else s
          let s := match takeTile c m i 0 s with
            | (none, s) => s
            | (some t, s) => takeReduce c i st w shape alone t s
          if alone then s else runReduce c i m st w shape frozen s) s

def execReduceInputTile (c : CtxId) (st : Nat) (s : State) : Host.Outcome State Fault Refusal := .next (doReduceInputTile c st s)

/-- JOIN_REPEAT: the JOIN of the station's open instances again, to a partner that has not accepted. -/
def doJoinRepeat (c : CtxId) (i rank : Nat) (s : State) : State :=
  if ctxLive s c then
    s.each ((s.ctx c).insts.filter (fun n => n.st == i && n.step == (s.ctx c).step && n.begun && !n.nan && n.partners.contains rank &&
        !n.accepted.contains rank)) (fun n t => sendColl c rank tJOIN (instHdr n) [] t)
  else s

def execJoinRepeat (c : CtxId) (st : Nat) (rank : Nat) (s : State) : Host.Outcome State Fault Refusal :=
  .next (doJoinRepeat c st rank s)

/-! ## Received packets -/

/-- The context that formed rank `dst` of a group (R425). -/
def groupCtx (s : State) (gid : U32) (dst : Nat) : Option CtxId :=
  allCtx.find? (fun c => (s.ctx c).groups.toList.any (fun g => g.state == .formed && g.id == gid && g.rank.toNat == dst))

def countStray (s : State) : State := s.modGlb (fun g => { g with barStray := satAdd g.barStray 1 })

/-- A packet of VC0 for a local rank; one of a group that no context formed is counted and discarded (R263). -/
def withRank (gid : U32) (dst : U16) (act : CtxId → State → State) (s : State) : State :=
  if mayWork s then
    match groupCtx s gid dst.toNat with
    | none => countStray s
    | some c => act c s
  else s

/-- A collective packet for an instance; the instances of a context in reset are gone, so it is discarded there. -/
def withGroup (gid : U32) (dst : U16) (act : CtxId → State → State) (s : State) : State :=
  withRank gid dst (fun c s => if (s.ctx c).busy then s else act c s) s

/-- A context in reset is treated as a pre-empted one (R381, R391). -/
def Ctx.parked (x : Ctx) : Bool := x.phase == .preempted || x.saving || x.restoring || x.busy

/-- A packet for a pre-empted context goes to its collective area (R382). -/
def parkPacket (c : CtxId) (cmd : Instr) (type : Nat) (h : CollHdr) (body : List Byte) (s : State) : State :=
  let x := s.ctx c
  let used := x.areaUsed
  let bytes := hdrBytes type h ++ body
  let s := s.setCtx c { x with areaPackets := x.areaPackets ++ [cmd], areaUsed := used + bytes.length }
  if used + bytes.length ≤ x.collBytes.toNat then
    (putVa c (reqRemote h.srcRank.toNat) true (x.collVa.toNat * 64 + used) bytes s).2
  else s

/-- A held JOIN replaces an earlier one of the same partner and instance (R263 rule 4). -/
def holdJoin (l : LinkId) (h : CollHdr) (x : Ctx) : Ctx :=
  let same (p : LinkId × CollHdr) : Bool :=
    p.2.srcRank == h.srcRank && p.2.groupId == h.groupId && p.2.tensorId == h.tensorId && p.2.subject == h.subject &&
      p.2.coll == h.coll && p.2.step == h.step
  { x with heldJoins := x.heldJoins.filter (fun p => !same p) ++ [(l, h)] }

/-- The key by which R257 knows a collective packet: sender, group and SEQ. -/
def packetKey (h : CollHdr) : U32 × Nat × U32 := (h.groupId, h.srcRank.toNat, h.seq)

/-- A packet that its receiver has already accepted is discarded (R257, R264); another is accepted. -/
def withFresh (c : CtxId) (h : CollHdr) (act : State → State) (s : State) : State :=
  if (s.ctx c).seqIn.contains (packetKey h) then s
  else act (s.modCtx c (fun x => { x with seqIn := x.seqIn ++ [packetKey h] }))

/-- A JOIN that reaches a live context; one that is refused or stale is not accepted. -/
def joinIn (c : CtxId) (l : LinkId) (h : CollHdr) (s : State) : State :=
  match (s.ctx c).insts.find? (fun n => joinKey h n && n.begun && !n.nan) with
  | some n => if joinAgrees n h then withFresh c h (answerJoin c n h) s else answerJoin c n h s
  | none => if (s.ctx c).step ≤ h.step then withFresh c h (fun s => s.modCtx c (holdJoin l h)) s else s

def doJoin (l : LinkId) (dst : U16) (h : CollHdr) (s : State) : State :=
  withRank h.groupId dst (fun c s =>
    if (s.ctx c).seqIn.contains (packetKey h) then s
    else if (s.ctx c).parked then withFresh c h (fun s => s.modCtx c (holdJoin l h)) s
    else joinIn c l h s) s

def execJoin (l : LinkId) (dst : U16) (h : CollHdr) (s : State) : Host.Outcome State Fault Refusal := .next (doJoin l dst h s)

/-- The instance that a SCALE, DATA or GATHER packet belongs to, its STEP apart. -/
def packetInst (x : Ctx) (h : CollHdr) : Option Inst :=
  x.insts.find? (fun n => n.groupId == h.groupId && n.tensorId == h.tensorId && n.subject == h.subject.toNat &&
    n.coll == h.coll.toNat && n.step == x.step && !n.nan)

/-- ACCEPT: the partner's records, integers and bytes formed so far go out (R263 rule 5). -/
def acceptIn (c : CtxId) (h : CollHdr) (s : State) : State :=
  let x := s.ctx c
  match x.insts.find? (fun n => joinKey h n && !n.nan), x.active with
  | some n, some m =>
    let toR := h.srcRank.toNat
    if n.accepted.contains toR ∨ ¬ n.partners.contains toR then s
    else
      let st := m.station n.st
      let nb := instNb m st n
      let s := s.modCtx c (fun x => { x with insts := x.insts.map (fun k => if joinKey h k then { k with accepted := k.accepted ++ [toR] } else k) })
      let fmt := reduceFmt (s.ctx c) m n.st st
      s.each n.blocks (fun b t => sendGather c n nb fmt b toR (sendData c n nb b toR (sendScale c n b toR t)))
  | _, _ => s

def doAccept (l : LinkId) (dst : U16) (h : CollHdr) (s : State) : State :=
  withGroup h.groupId dst (fun c s =>
    if (s.ctx c).parked then parkPacket c (.accept l dst h) tACCEPT h [] s else withFresh c h (acceptIn c h) s) s

def execAccept (l : LinkId) (dst : U16) (h : CollHdr) (s : State) : Host.Outcome State Fault Refusal := .next (doAccept l dst h s)

/-- R264: a packet whose STEP, GENERATION or HASH64 differs from its instance. -/
def packetMismatch (c : CtxId) (l : LinkId) (h : CollHdr) (s : State) : State :=
  ctxEvent c 0x1505 true
    (payload [(0, 1, c.val), (1, 1, 1), (2, 2, l.val), (8, 8, h.step.toNat), (0x10, 4, h.tensorId.toNat), (0x14, 4, h.srcRank.toNat)])
    ((countRefuse c s).modCtx c (·.markDigest))

/-- The checks of R264 around the effect of a SCALE, DATA or GATHER packet on its instance. -/
def withPacket (c : CtxId) (l : LinkId) (h : CollHdr) (act : Image → Station → Inst → State → State) (s : State) : State :=
  let x := s.ctx c
  if x.seqIn.contains (packetKey h) then s
  else
    match packetInst x h, x.active with
    | some n, some m =>
      if h.step ≠ n.step ∨ h.generation ≠ n.gen ∨ h.hash64 ≠ n.hash64 then packetMismatch c l h s
      else
        let s := s.setCtx c { x with seqIn := x.seqIn ++ [packetKey h] }
        let st := m.station n.st
        reduceProgress c n.st m st (act m st n s)
    | _, _ => s

/-- The blocks that a packet names. -/
def packetBlocks (h : CollHdr) : List Nat := (List.range h.blocks.toNat).map (· + h.firstBlock.toNat)

def scaleIn (c : CtxId) (l : LinkId) (h : CollHdr) (recs : List ScaleRec) (s : State) : State :=
  withPacket c l h (fun _ _ n s =>
    s.each ((packetBlocks h).zip recs) (fun p t => addRecord c n.st n.subject p.1 p.2 h.contrib.toNat t)) s

def scaleBody (h : CollHdr) (recs : List ScaleRec) : List Byte :=
  recs.flatMap (fun r => if h.recForm = 1 then leBytes 8 (recWord r) else leBytes 2 (recWord r))

def doScale (l : LinkId) (dst : U16) (h : CollHdr) (recs : List ScaleRec) (s : State) : State :=
  withGroup h.groupId dst (fun c s =>
    if (s.ctx c).parked then parkPacket c (.scale l dst h recs) tSCALE h (scaleBody h recs) s else scaleIn c l h recs s) s

def execScale (l : LinkId) (dst : U16) (h : CollHdr) (recs : List ScaleRec) (s : State) : Host.Outcome State Fault Refusal :=
  .next (doScale l dst h recs s)

def dataIn (c : CtxId) (l : LinkId) (h : CollHdr) (sums : List Int) (s : State) : State :=
  withPacket c l h (fun m _ n s =>
    s.each (packetBlocks h).zipIdx (fun p t => addChecked c l m n p.1 ((sums.drop (32 * p.2)).take 32) h.contrib.toNat t)) s

def dataBody (h : CollHdr) (sums : List Int) : List Byte :=
  let w := widthBits h.width.toNat
  sums.flatMap (fun z => leBytes (w / 8) (lowBits w z))

def doData (l : LinkId) (dst : U16) (h : CollHdr) (sums : List Int) (s : State) : State :=
  withGroup h.groupId dst (fun c s =>
    if (s.ctx c).parked then parkPacket c (.data l dst h sums) tDATA h (dataBody h sums) s else dataIn c l h sums s) s

def execData (l : LinkId) (dst : U16) (h : CollHdr) (sums : List Int) (s : State) : Host.Outcome State Fault Refusal :=
  .next (doData l dst h sums s)

def gatherIn (c : CtxId) (l : LinkId) (h : CollHdr) (bytes : List Byte) (s : State) : State :=
  withPacket c l h (fun _ _ n s =>
    let len := 4 * fmtBits h.format.toNat + b2n (isMx h.format.toNat)
    s.each (packetBlocks h).zipIdx (fun p t =>
      t.modCtx c (fun x => x.modInst n.st n.subject (fun k => k.modBlock p.1 (fun q =>
        { q with bytes := some ((bytes.drop (len * p.2)).take len) }))))) s

def doGather (l : LinkId) (dst : U16) (h : CollHdr) (bytes : List Byte) (s : State) : State :=
  withGroup h.groupId dst (fun c s =>
    if (s.ctx c).parked then parkPacket c (.gather l dst h bytes) tGATHER h bytes s else gatherIn c l h bytes s) s

def execGather (l : LinkId) (dst : U16) (h : CollHdr) (bytes : List Byte) (s : State) : Host.Outcome State Fault Refusal :=
  .next (doGather l dst h bytes s)

/-! ## PAUSE and RESUME (R381) -/

def doPause (dst : U16) (h : CollHdr) (s : State) : State :=
  withRank h.groupId dst (fun c s => withFresh c h (fun s => s.modCtx c (fun x =>
    if x.pausedBy.contains (h.groupId, h.srcRank.toNat) then x
    else { x with pausedBy := x.pausedBy ++ [(h.groupId, h.srcRank.toNat)] })) s) s

def execPause (_l : LinkId) (dst : U16) (h : CollHdr) (s : State) : Host.Outcome State Fault Refusal := .next (doPause dst h s)

def doResume (dst : U16) (h : CollHdr) (s : State) : State :=
  withRank h.groupId dst (fun c s => withFresh c h (fun s =>
    let mine (p : U32 × Nat × U64 × List Byte) : Bool := p.1 == h.groupId && p.2.1 == h.srcRank.toNat
    let out := (s.ctx c).heldPackets.filter mine
    let s := s.modCtx c (fun x =>
      { x with pausedBy := x.pausedBy.filter (fun p => p != (h.groupId, h.srcRank.toNat)), heldPackets := x.heldPackets.filter (fun p => !mine p) })
    s.each out (fun p t => sendPacket p.2.2.1 1 p.2.2.2 t)) s) s

def execResume (_l : LinkId) (dst : U16) (h : CollHdr) (s : State) : Host.Outcome State Fault Refusal := .next (doResume dst h s)

/-! ## DIGEST (R315, R316) -/

/-- The ranks of the replica group other than the member's own; none where the step has no comparison. 0xFFFF_FFFF names no group
(R315 and its field map). -/
def digestPeers (x : Ctx) : List Nat :=
  match x.active, formedSlot x x.wit.replicaGroup with
  | some m, some g =>
    if x.wit.replicaGroup = 0xFFFFFFFF ∨ m.tensors.any (fun t => t.mode mOWN) = true ∨ (x.wit.replaying && x.wit.mode == 2) = true then []
    else (List.range (g.sizeM1.toNat + 1)).filter (fun r => r != g.rank.toNat)
  | _, _ => []

/-- Compares the held packets of the members that have delivered for the step and the attempt. -/
def compareDigests (x : Ctx) : Ctx :=
  if x.closing = .recorded then
    (digestPeers x).foldl (fun x r =>
      match x.wit.heldDigests.find? (fun d => d.1 == x.wit.replicaGroup && d.2.1 == r && d.2.2.1 == x.step) with
      | some d =>
        if d.2.2.2.2 = x.wit.attempt ∧ ¬ x.wit.compared.contains r then
          let x := { x with wit := { x.wit with compared := x.wit.compared ++ [r] } }
          if d.2.2.2.1 ≠ x.wit.shardDigest then x.markDigest else x
        else x
      | none => x) x
  else x

/-- Holds a DIGEST packet of a member of group `gid` by the table of R316. -/
def holdDigest (gid : U32) (rank : Nat) (step digest : U64) (attempt : U16) (x : Ctx) : Ctx :=
  let same (d : U32 × Nat × U64 × U64 × U16) : Bool := d.1 == gid && d.2.1 == rank && d.2.2.1 == step
  match x.wit.heldDigests.find? same with
  | some d =>
    if d.2.2.2.2 < attempt then
      { x with wit := { x.wit with heldDigests := x.wit.heldDigests.map (fun e =>
        if same e then (gid, rank, step, digest, attempt) else e) } }
    else x
  | none => { x with wit := { x.wit with heldDigests := x.wit.heldDigests ++ [(gid, rank, step, digest, attempt)] } }

def doDigest (dst : U16) (h : CollHdr) (d : U64) (attempt : U16) (s : State) : State :=
  withRank h.groupId dst (fun c s =>
    let x := s.ctx c
    let agree := match x.active with
      | some m => h.generation == m.generation && h.hash64 == hash64Of m
      | none => false
    if x.seqIn.contains (packetKey h) then s
    else if !agree then countRefuse c s
    else if h.step < x.step then s
    else
      withFresh c h (fun s => s.modCtx c (fun x =>
        let held := holdDigest h.groupId h.srcRank.toNat h.step d attempt x
        if x.parked then held else compareDigests held)) s) s

def execDigest (_l : LinkId) (dst : U16) (h : CollHdr) (shardDigest : U64) (attempt : U16) (s : State) :
    Host.Outcome State Fault Refusal := .next (doDigest dst h shardDigest attempt s)

end Sys2Proof.Machine
end

