-- ==== Sys2Proof/Machine/Sync.lean ====
section
/-! DEFINITION. Semaphores (R341 to R346), signals across devices and the numbers of received writes and signals (R347 to
R349) and barriers (R350 to R355, R359). -/

namespace Sys2Proof.Machine

open Sys2Proof

/-! ## Semaphores -/

def Ctx.modSem (x : Ctx) (q : SemId) (f : Sem → Sem) : Ctx := { x with sems := x.sems.set q (f x.sems[q]) }

/-- A waiter is released: a host wait writes event 0x1601 (R345), a descriptor may start (R374). -/
def releaseWaiter (c : CtxId) (q : SemId) (w : Waiter) (s : State) : State :=
  match w with
  | .host tag =>
    ctxEvent c 0x1601 false (payload [(0, 1, c.val), (2, 2, q.val), (4, 2, tag.toNat)])
      (s.modCtx c (fun x => { x with hostWaits := x.hostWaits - 1 }))
  | .desc i =>
    s.modCtx c (fun x => { x with dma := { x.dma with descs := x.dma.descs.map (fun d =>
      if d.index = i then { d with waiting := false } else d) } })

/-- Serves a wait queue from its head until a waiter is not covered (R343). -/
def serveQueue (c : CtxId) (q : SemId) : List (U16 × Waiter) → State → State
  | [], s => s
  | (v, w) :: rest, s =>
    if v ≤ ((s.ctx c).sems[q]).count then
      serveQueue c q rest
        (releaseWaiter c q w (s.modCtx c (fun x => x.modSem q (fun k => { k with count := k.count - v, queue := rest }))))
    else s

/-- Serves the queue of a semaphore; the waiters of a pre-empted context wait for its restore (R346). -/
def serveSem (c : CtxId) (q : SemId) (s : State) : State :=
  if (s.ctx c).parked then s else serveQueue c q ((s.ctx c).sems[q]).queue s

/-- SIGNAL(v) (R342, R344). -/
def signalSem (c : CtxId) (q : SemId) (v : U16) (s : State) : State :=
  let n := ((s.ctx c).sems[q]).count
  let s := if 0xFFFF < n.toNat + v.toNat then violate c 0x1003 s else s
  serveSem c q (s.modCtx c (fun x => x.modSem q (fun k => { k with count := satAdd k.count v.toNat })))

/-- DEC(v) (R342). -/
def decSem (c : CtxId) (q : SemId) (v : U16) (s : State) : State :=
  if v ≤ ((s.ctx c).sems[q]).count then
    serveSem c q (s.modCtx c (fun x => x.modSem q (fun k => { k with count := k.count - v })))
  else violate c 0x1002 s

/-- WAIT(v): joins the wait queue, which is then served (R342, R343). -/
def waitSem (c : CtxId) (q : SemId) (v : U16) (w : Waiter) (s : State) : State :=
  serveSem c q (s.modCtx c (fun x => x.modSem q (fun k => { k with queue := k.queue ++ [(v, w)] })))

/-- R410: an unassigned context ignores the operation. -/
def ifAssigned (c : CtxId) (act : State → State) (s : State) : State := if (s.ctx c).assigned then act s else s

/-- The function's earlier writes are done when SEM_OP is taken (R14), so REL changes nothing (R349). -/
def execSemSignal (fn : FnId) (c : CtxId) (sem : SemId) (v : U16) (rel : Bool) (s : State) : Host.Outcome State Fault Refusal :=
  .next (ctxPort fn c (.semSignal fn c sem v rel) (ifAssigned c (signalSem c sem v)) s)

def execSemDec (fn : FnId) (c : CtxId) (sem : SemId) (v : U16) (s : State) : Host.Outcome State Fault Refusal :=
  .next (ctxPort fn c (.semDec fn c sem v) (ifAssigned c (decSem c sem v)) s)

/-- SEM_WAIT_ARM (R345). -/
def doSemWaitArm (c : CtxId) (q : SemId) (v tag : U16) (s : State) : State :=
  if 16 ≤ (s.ctx c).hostWaits then violate c 0x1006 s
  else waitSem c q v (.host tag) (s.modCtx c (fun x => { x with hostWaits := x.hostWaits + 1 }))

def execSemWaitArm (fn : FnId) (c : CtxId) (sem : SemId) (v : U16) (tag : U16) (s : State) : Host.Outcome State Fault Refusal :=
  .next (ctxPort fn c (.semWaitArm fn c sem v tag) (ifAssigned c (doSemWaitArm c sem v tag)) s)

/-! ## Sync packets (R347, R348) -/

/-- Sequence number `a` is lower than `b`, both wrapping (R15). -/
def seqBefore (a b : U32) : Bool := a != b && decide ((b - a).toNat < 2 ^ 31)

/-- The module of a rank in a group formed on this device. -/
def sourceUid (s : State) (gid : U32) (rank : Nat) : Option U64 :=
  allCtx.findSome? (fun c => (formedSlot (s.ctx c) gid).bind (fun g => g.members[rank]?))

/-- The numbers of a module that are dealt with: the lowest that is not, and the higher ones that are (log entry 69). -/
def seqInOf (s : State) (uid : U64) : U32 × List U32 := (assocGet uid s.glb.wseqIn).getD (0, [])

/-- A write of the module `uid` with a lower number than `w` may still come, or has come and is not committed (R349). -/
def lowerOpen (s : State) (uid : U64) (w : U32) : Bool := seqBefore (seqInOf s uid).1 w

/-- The lowest number not dealt with, past those that are. -/
def advanceSeq : Nat → U32 → List U32 → U32 × List U32
  | 0, b, l => (b, l)
  | n + 1, b, l => if l.contains b then advanceSeq n (b + 1) (l.filter (· != b)) else (b, l)

/-- Number `w` of the module `uid` is dealt with: its write is committed, or its signal has come. -/
def settleSeq (uid : U64) (w : U32) (s : State) : State :=
  let p := seqInOf s uid
  if seqBefore w p.1 then s
  else
    s.modGlb (fun g => { g with wseqIn := assocPut uid (advanceSeq (p.2.length + 1) p.1 (w :: p.2.filter (· != w))) g.wseqIn })

/-- A packet of a rank of a group has come and is no write: its number is dealt with. -/
def noteSeq (gid : U32) (rank : U16) (w : U32) (s : State) : State :=
  if mayWork s then
    match sourceUid s gid rank.toNat with
    | some uid => settleSeq uid w s
    | none => s
  else s

/-- The next WSEQ of the context to a device (R348). -/
def nextWseq (c : CtxId) (uid : U64) (s : State) : U32 × State :=
  let n := (assocGet uid (s.ctx c).dma.wseq).getD 0
  (n, s.modCtx c (fun x => { x with dma := { x.dma with wseq := assocPut uid (n + 1) x.dma.wseq } }))

/-- The 32 bytes of a sync packet. -/
def syncBytes (type : Nat) (p : SyncPkt) : List Byte :=
  leBytes 1 type ++ leBytes 1 (b2n p.rel) ++ leBytes 2 p.srcRank.toNat ++ leBytes 2 p.dstRank.toNat ++ leBytes 2 p.sem.toNat ++
    leBytes 4 p.groupId.toNat ++ leBytes 2 p.value.toNat ++ leBytes 2 p.tag.toNat ++ leBytes 4 p.wseq.toNat ++
    leBytes 4 p.epoch.toNat ++ zeroBytes 8

/-- Sends a sync packet to rank `r` of a group on VC0, with its WSEQ. -/
def sendSync (c : CtxId) (g : GroupSlot) (r type : Nat) (p : SyncPkt) (s : State) : State :=
  let uid := g.members.getD r 0
  let w := nextWseq c uid s
  sendPacket uid 0 (syncBytes type { p with wseq := w.1 }) w.2

/-- A SIGNAL to rank `r` (R374). -/
def sendSignal (c : CtxId) (g : GroupSlot) (r : U16) (sem v : U16) (rel : Bool) (s : State) : State :=
  sendSync c g r.toNat 0x10
    { rel := rel, srcRank := g.rank.zeroExtend 16, dstRank := r, sem := sem, groupId := g.id, value := v, tag := 0, wseq := 0, epoch := 0 } s

/-- A received SIGNAL: applied, or held while it is release-ordered (R349); an unformed group or a SEM above 1023 is
counted. -/
def doSyncSignal (p : SyncPkt) (s : State) : State :=
  if h : p.sem.toNat < 1024 then
    withRank p.groupId p.dstRank (fun c s =>
      if p.rel then
        s.modCtx c (fun x => { x with signals := x.signals ++ [⟨p.srcRank, p.groupId, p.wseq, ⟨p.sem.toNat, h⟩, p.value⟩] })
      else signalSem c ⟨p.sem.toNat, h⟩ p.value s) s
  else if mayWork s then countStray s else s

/-- A held signal waits for a write of its source with a lower number (R349). -/
def signalWaits (s : State) (h : HeldSignal) : Bool :=
  match sourceUid s h.groupId h.source.toNat with
  | some uid => lowerOpen s uid h.wseq
  | none => false

/-- HELD_SIGNAL_APPLY: held signal `i` is applied once the lower-numbered writes are committed (R349). -/
def doHeldSignalApply (c : CtxId) (i : Nat) (s : State) : State :=
  match (s.ctx c).signals[i]? with
  | some h =>
    if mayWork s && !signalWaits s h then
      signalSem c h.sem h.value (s.modCtx c (fun x => { x with signals := x.signals.eraseIdx i }))
    else s
  | none => s

def execHeldSignalApply (c : CtxId) (i : Nat) (s : State) : Host.Outcome State Fault Refusal := .next (doHeldSignalApply c i s)

/-! ## Barriers -/

/-- Slot `i` is in the mask. -/
def Barrier.takes (b : Barrier) (i : Nat) : Bool := bitOf (b.mask.toList.getD (i / 32) 0).toNat (i % 32)

/-- Every slot of the mask has arrived. -/
def Barrier.full (b : Barrier) : Bool := (List.range 512).all (fun i => !b.takes i || b.arrived.any (fun a => a.1 == i))

/-- Completed epochs (R351): the notify semaphores, EPOCH + 1, and the arrivals held for the next epoch. -/
def completeBarrier (k : BarId) : Nat → State → State
  | 0, s => s
  | n + 1, s =>
    let b := s.barrier k
    if b.full then
      let s := s.each (b.arrived.filterMap (·.2)) (fun q t => signalSem b.owner q 1 t)
      completeBarrier k n (s.modBarrier k (fun b => { b with epoch := b.epoch + 1, arrived := b.heldNext, heldNext := [] }))
    else s

/-- Treats an arrival at an enabled barrier by its epoch (R352); `none` where it is violation 0x1005. -/
def Barrier.arrive (b : Barrier) (slot : Nat) (epoch : U32) (notify : Option SemId) : Option Barrier :=
  if epoch = b.epoch then
    if b.arrived.any (fun a => a.1 == slot) then none else some { b with arrived := b.arrived ++ [(slot, notify)] }
  else if epoch = b.epoch + 1 then
    if b.heldNext.any (fun a => a.1 == slot) then none else some { b with heldNext := b.heldNext ++ [(slot, notify)] }
  else none

/-- Stores the barrier after an arrival and completes its epoch, twice at most. -/
def putArrival (k : BarId) (b : Barrier) (s : State) : State := completeBarrier k 2 (s.setBarrier k b)

/-- The member's own rank in the group of a barrier. -/
def ownRank (s : State) (b : Barrier) : Option GroupSlot := formedSlot (s.ctx b.owner) b.group

/-- BAR_ARRIVE (R352, R353). -/
def doBarArrive (c : CtxId) (k : BarId) (slot : BenchId) (epoch : U32) (notify : Option SemId) (s : State) : State :=
  let b := s.barrier k
  let own := ownRank s b
  let rankOk := !b.scope || (match own with
    | some g => g.rank.toNat == slot.val
    | none => false)
  if !(b.enable && b.owner == c && b.takes slot.val && rankOk) then violate c 0x1004 s
  else
    match b.arrive slot.val epoch notify with
    | none => violate c 0x1005 s
    | some b' =>
      let s := putArrival k b' s
      match b.scope, own with
      | true, some g =>
        s.each ((List.range (g.sizeM1.toNat + 1)).filter (fun r => r != slot.val && b.takes r)) (fun r t =>
          sendSync c g r 0x11 { rel := false, srcRank := g.rank.zeroExtend 16, dstRank := 0, sem := 0, groupId := g.id, value := 0,
                                tag := b.tag, wseq := 0, epoch := epoch } t)
      | _, _ => s

def execBarArrive (fn : FnId) (c : CtxId) (k : BarId) (slot : BenchId) (epoch : U32) (notify : Option SemId) (s : State) :
    Host.Outcome State Fault Refusal :=
  .next (ctxPort fn c (.barArrive fn c k slot epoch notify) (ifAssigned c (doBarArrive c k slot epoch notify)) s)

/-- The barriers that an ARRIVE packet addresses: enabled, of the group and the tag, of another rank than the sender. -/
def arriveAt (s : State) (p : SyncPkt) : List BarId :=
  (List.finRange 64).filter (fun k =>
    let b := s.barrier k
    b.enable && b.scope && b.group == p.groupId && b.tag == p.tag && (match ownRank s b with
      | some g => g.rank.toNat != p.srcRank.toNat
      | none => false))

/-- ARRIVE: its violations are counted as stray (R353). -/
def doArrive (p : SyncPkt) (s : State) : State :=
  if !mayWork s then s
  else if p.sem.toNat ≥ 1024 then countStray s
  else
    match arriveAt s p with
    | [] => countStray s
    | ks => s.each ks (fun k t =>
        let b := t.barrier k
        if b.takes p.srcRank.toNat then
          match b.arrive p.srcRank.toNat p.epoch none with
          | some b' => putArrival k b' t
          | none => countStray t
        else countStray t)

/-- A write of BAR_CTRL[k] (R350, R353, R355). -/
def writeBarrier (k : BarId) (enable scope : Bool) (owner : CtxId) (tag : U16) (s : State) : State :=
  let b := s.barrier k
  if b.enable then
    if b.scope = scope ∧ b.owner = owner ∧ b.tag = tag then
      if enable then s else s.setBarrier k { b with enable := false, arrived := [], heldNext := [] }
    else violate b.owner 0x1007 s
  else
    let b := { b with scope := scope, owner := owner, tag := tag }
    if !enable then s.setBarrier k b
    else
      let formed := match formedSlot (s.ctx owner) b.group with
        | some g => decide (g.sizeM1.toNat < 512)
        | none => false
      if scope && !formed then violate owner 0x1008 (s.setBarrier k b)
      else s.setBarrier k { b with enable := true, epoch := 0, arrived := [], heldNext := [] }

def execBarrierEnable (fn : FnId) (k : BarId) (scope : Bool) (owner : CtxId) (tag : U16) (s : State) : Host.Outcome State Fault Refusal :=
  .next (glbPort fn (.barrierEnable fn k scope owner tag) (writeBarrier k true scope owner tag) s)

/-- ENABLE written 0 with the other fields as they stand. -/
def execBarrierDisable (fn : FnId) (k : BarId) (s : State) : Host.Outcome State Fault Refusal :=
  .next (glbPort fn (.barrierDisable fn k) (fun s => writeBarrier k false (s.barrier k).scope (s.barrier k).owner (s.barrier k).tag s) s)

/-- A write of BAR_GROUP or BAR_MASK (R350). -/
def configBarrier (k : BarId) (f : Barrier → Barrier) (s : State) : State :=
  let b := s.barrier k
  if b.enable then violate b.owner 0x1007 s else s.setBarrier k (f b)

end Sys2Proof.Machine
end

