-- ==== Sys2Proof/Machine/Forming.lean ====
section
/-! DEFINITION. Forming and dissolving a group (R425 to R431). -/

namespace Sys2Proof.Machine

open Sys2Proof

def Ctx.group (x : Ctx) (g : SlotId) : GroupSlot := x.groups[g]

def Ctx.modGroup (x : Ctx) (g : SlotId) (f : GroupSlot → GroupSlot) : Ctx := { x with groups := x.groups.set g (f x.groups[g]) }

def allSlots : List SlotId := List.finRange 16

def GroupSlot.size (k : GroupSlot) : Nat := k.sizeM1.toNat + 1

/-- STATE as GLU_GROUP_STATUS reports it. -/
def groupStateCode : GroupState → Nat
  | .empty => 0
  | .forming => 1
  | .formed => 2
  | .refused => 3

/-- The slot is FORMING or FORMED. -/
def GroupSlot.held (k : GroupSlot) : Bool := k.state == .forming || k.state == .formed

/-- CTX_COLL_NEED, from the sizes of the groups formed (R382). -/
def Ctx.setNeed (x : Ctx) : Ctx :=
  { x with collNeed := Config.collNeed ((x.groups.toList.filter (fun k => k.state == .formed)).map (·.size)) }

/-- The hop count to a module; none without a route. -/
def hopsTo (s : State) (uid : U64) : Option Nat := if uid = s.glb.uid then some 0 else (routeTo s uid).map (·.1)

/-- HMAX: in FORMED the largest hop count to any member, which follows the routes (R424, R428; log entry 38). -/
def hmaxOf (s : State) (k : GroupSlot) : Nat :=
  if k.state = .formed then (k.members.map (fun u => (hopsTo s u).getD 0)).foldl max 0 else 0

/-- Event 0x1904 (R416). -/
def formEvent (c : CtxId) (g : SlotId) (s : State) : State :=
  let k := (s.ctx c).group g
  ctxEvent c 0x1904 false
    (payload [(0, 1, c.val), (1, 1, g.val), (2, 1, groupStateCode k.state), (3, 1, k.reason.toNat), (4, 4, k.id.toNat),
      (8, 2, k.who.toNat), (0xA, 1, hmaxOf s k)]) s

/-- REFUSED (R428). -/
def refuseSlot (c : CtxId) (g : SlotId) (reason who : Nat) (s : State) : State :=
  formEvent c g (s.modCtx c (fun x =>
    (x.modGroup g (fun k => { k with state := .refused, reason := BitVec.ofNat 4 reason, who := BitVec.ofNat 12 who })).count (fun n =>
      { n with formRefuse := satAdd n.formRefuse 1 })))

/-- FORMED. -/
def formSlot (c : CtxId) (g : SlotId) (s : State) : State :=
  formEvent c g (s.modCtx c (fun x => (x.modGroup g (fun k => { k with state := .formed })).setNeed))

/-- A forming slot with a member to which no route exists any more. -/
def lostRoute (s : State) (k : GroupSlot) : Bool :=
  k.state == .forming && !k.members.isEmpty && !k.members.all (fun u => (hopsTo s u).isSome)

/-- Routes have changed: every forming slot that has lost one is refused with reason 8 (R428). -/
def refuseLost (s : State) : State :=
  s.each allCtx (fun c t =>
    t.each (allSlots.filter (fun g => lostRoute t ((t.ctx c).group g))) (fun g u => refuseSlot c g 8 0 u))

/-! ## Tokens (R426) -/

/-- The token of a slot to rank `r`. -/
def ownToken (s : State) (x : Ctx) (k : GroupSlot) (r : Nat) : Token :=
  let m := x.active.getD {}
  { srcRank := k.rank.zeroExtend 16, dstRank := BitVec.ofNat 16 r, size := k.sizeM1.zeroExtend 16, groupId := k.id, arithRev := 1,
    fwVersion := s.sec.fwVersion, generation := m.generation, memberDigest := k.memberDigest, carcassHash := m.hash,
    deviceUid := s.glb.uid }

def tokenBytes (t : Token) : List Byte :=
  leBytes 1 0x30 ++ zeroBytes 1 ++ leBytes 2 t.srcRank.toNat ++ leBytes 2 t.dstRank.toNat ++ leBytes 2 t.size.toNat ++
    leBytes 4 t.groupId.toNat ++ leBytes 2 t.arithRev.toNat ++ zeroBytes 2 ++ leBytes 4 t.fwVersion.toNat ++
    leBytes 4 t.generation.toNat ++ leBytes 8 t.memberDigest.toNat ++ t.carcassHash.take 32 ++
    zeroBytes (32 - t.carcassHash.length) ++ leBytes 8 t.deviceUid.toNat ++ zeroBytes 8

def sendToken (c : CtxId) (g : SlotId) (r : Nat) (s : State) : State :=
  let k := (s.ctx c).group g
  sendPacket (k.members.getD r 0) 0 (tokenBytes (ownToken s (s.ctx c) k r)) s

def GroupSlot.others (k : GroupSlot) : List Nat := (List.range k.size).filter (fun r => r != k.rank.toNat)

/-! ## The member table (R425, R428) -/

/-- The requester of a member table that lies in a host page; a failure refuses the formation and is no page fault. -/
def reqForm (g : SlotId) : FaultReq := ⟨7, g.val⟩

/-- What the translation of the table came to. -/
inductive TableWay where
  | ready (tab : List PageMap)
  | waits
  | fails
  deriving DecidableEq, Repr

/-- Translates the pages of the table; a host page waits for its translation. -/
def tablePages (c : CtxId) (g : SlotId) : List Nat → List PageMap → State → TableWay × State
  | [], acc, s => (.ready acc, s)
  | va :: vas, acc, s =>
    match lookupPage c va s with
    | (.error _, s) => (.fails, s)
    | (.ok t, s) =>
      if !t.host then tablePages c g vas (⟨va / 65536, t.frame * 65536, false⟩ :: acc) s
      else
        match (s.ctx c).mmu.atc.find? (fun a => a.hostPage.toNat == t.frame) with
        | some a => if a.canRead then tablePages c g vas (⟨va / 65536, a.target.toNat * 65536, true⟩ :: acc) s else (.fails, s)
        | none => (.waits, hostWait c ⟨(s.ctx c).mmu.pasid, t.frame, va, false, .translation, reqForm g⟩ s)

/-- The table is there: its own entry, the routes, then tokens to every other rank; a group of one is formed. -/
def takeMembers (c : CtxId) (g : SlotId) (us : List U64) (digest : U64) (s : State) : State :=
  let s := s.modCtx c (fun x => x.modGroup g (fun k => { k with members := us, memberDigest := digest, agreed := [] }))
  let k := (s.ctx c).group g
  if us[k.rank.toNat]? ≠ some s.glb.uid then refuseSlot c g 9 0 s
  else if !us.all (fun u => (hopsTo s u).isSome) then refuseSlot c g 8 0 s
  else if k.others.isEmpty then formSlot c g s
  else s.each k.others (fun r t => sendToken c g r t)

/-- Reads the member table of a forming slot. -/
def readMembers (c : CtxId) (g : SlotId) (s : State) : State :=
  let k := (s.ctx c).group g
  let sp : Span := ⟨k.membersVa.toNat * 8, 8 * k.size⟩
  if (s.ctx c).mmu.ats.any (fun w => w.req == reqForm g) then s
  else
    match tablePages c g (spanPages [sp]) [] s with
    | (.waits, s) => s
    | (.fails, s) => refuseSlot c g 9 0 s
    | (.ready tab, s) =>
      let bs := readSpan tab s sp
      let bad := spanBad tab s sp
      let s := chargeRead c tab [sp] s
      if bad then refuseSlot c g 9 0 s
      else takeMembers c g ((List.range k.size).map (fun r => BitVec.ofNat 64 (natAt bs (8 * r) 8))) (crc64 bs) s

/-- The forming slots whose table has not been read. -/
def retryForms (c : CtxId) (s : State) : State :=
  s.each (allSlots.filter (fun g => ((s.ctx c).group g).state == .forming && ((s.ctx c).group g).members.isEmpty)) (fun g t =>
    readMembers c g t)

/-! ## FORM and DISSOLVE (R426, R429) -/

/-- The group's identifier and rank are formed or forming in a slot of the device. -/
def rankTaken (s : State) (id : U32) (rank : BitVec 12) : Bool :=
  allCtx.any (fun c => (s.ctx c).groups.toList.any (fun k => k.held && k.id == id && k.rank == rank))

/-- FORM; while a power-cycle request stands no formation starts (R401). -/
def doForm (c : CtxId) (g : SlotId) (s : State) : State :=
  let x := s.ctx c
  let k := x.group g
  if !mayWork s then s
  else if x.phase != .idle || x.active.isNone || !x.assigned || k.held || rankTaken s k.id k.rank then violate c 0x1303 s
  else
    readMembers c g (s.setCtx c (x.modGroup g (fun k =>
      { k with state := .forming, reason := 0, who := 0, members := [], memberDigest := 0, agreed := [] })))

def execForm (fn : FnId) (c : CtxId) (g : SlotId) (s : State) : Host.Outcome State Fault Refusal :=
  .next (ctxPort fn c (.form fn c g) (doForm c g) s)

def GroupSlot.dissolved (k : GroupSlot) : GroupSlot :=
  { k with state := .empty, reason := 0, who := 0, members := [], memberDigest := 0, agreed := [] }

/-- The member tables that a context waits for are waited for no more. -/
def Ctx.dropForms (x : Ctx) : Ctx := allSlots.foldl (fun y g => y.forgetReq (reqForm g)) x

def doDissolve (c : CtxId) (g : SlotId) (s : State) : State :=
  if (s.ctx c).phase ≠ .idle then violate c 0x1304 s
  else s.modCtx c (fun x => ((x.forgetReq (reqForm g)).modGroup g (·.dissolved)).setNeed)

def execDissolve (fn : FnId) (c : CtxId) (g : SlotId) (s : State) : Host.Outcome State Fault Refusal :=
  .next (ctxPort fn c (.dissolve fn c g) (doDissolve c g) s)

/-! ## Tokens that are repeated and received (R426 to R428) -/

def doTokenRepeat (c : CtxId) (g : SlotId) (rank : Nat) (s : State) : State :=
  let k := (s.ctx c).group g
  if mayWork s && k.state == .forming && !k.members.isEmpty && k.others.contains rank && !k.agreed.contains rank then
    if lostRoute s k then refuseSlot c g 8 0 s else sendToken c g rank s
  else s

def execTokenRepeat (c : CtxId) (g : SlotId) (rank : Nat) (s : State) : Host.Outcome State Fault Refusal :=
  .next (doTokenRepeat c g rank s)

/-- The lowest reason for which a token disagrees with a slot's own (R428). -/
def tokenReason (own t : Token) (k : GroupSlot) : Option Nat :=
  if t.arithRev ≠ own.arithRev then some 1
  else if t.fwVersion ≠ own.fwVersion then some 2
  else if t.carcassHash ≠ own.carcassHash then some 3
  else if t.generation ≠ own.generation then some 4
  else if t.size ≠ own.size then some 5
  else if t.memberDigest ≠ own.memberDigest then some 6
  else if k.members[t.srcRank.toNat]? ≠ some t.deviceUid then some 7
  else none

/-- The slot that a token addresses (R427). -/
def tokenSlot (s : State) (t : Token) : Option (CtxId × SlotId) :=
  allCtx.findSome? (fun c => (allSlots.find? (fun g =>
    let k := (s.ctx c).group g
    k.held && k.id == t.groupId && k.rank.toNat == t.dstRank.toNat)).map (fun g => (c, g)))

/-- A token that reaches a slot whose member table is known. -/
def takeToken (c : CtxId) (g : SlotId) (t : Token) (s : State) : State :=
  let k := (s.ctx c).group g
  let r := t.srcRank.toNat
  match tokenReason (ownToken s (s.ctx c) k r) t k, k.state with
  | none, .forming =>
    let s := s.modCtx c (fun x => x.modGroup g (fun k => { k with agreed := if k.agreed.contains r then k.agreed else k.agreed ++ [r] }))
    if k.others.all (fun q => ((s.ctx c).group g).agreed.contains q) then formSlot c g s else s
  | none, .formed => sendToken c g r s
  | none, _ => s
  | some e, .forming => refuseSlot c g e r s
  | some _, _ => countStray s

def doCompatibilityToken (t : Token) (s : State) : State :=
  if !mayWork s then s
  else
    match tokenSlot s t with
    | none => countStray s
    | some (c, g) => if ((s.ctx c).group g).members.isEmpty then s else takeToken c g t s

def execCompatibilityToken (_l : LinkId) (t : Token) (s : State) : Host.Outcome State Fault Refusal := .next (doCompatibilityToken t s)

end Sys2Proof.Machine
end

