-- ==== Sys2Proof/Machine/Links.lean ====
section
/-! DEFINITION. Dovetail links: flits, lanes, CRC and replay (R252 to R256), forwarding (R424), training (R257, R469),
credits (R258, R259), and what the links learn of their peers (R423, R424). -/

namespace Sys2Proof.Machine

open Sys2Proof

/-! ## Received flits -/

/-- The flit's CRC and KIND are good (R253, R255). -/
def flitIntact (bs : List Byte) : Bool :=
  (natAt bs 0 1 == 0x5A || natAt bs 0 1 == 0xA5) && natAt bs 0x110 8 == (crc64 (bs.take 0x110)).toNat

/-- ACK: every flit up to it leaves the replay buffer (R256 rule 1). -/
def Link.acked (k : Link) (ack : U16) : Link :=
  match k.replay.findIdx? (fun p => p.1 == ack) with
  | some i => { k with replay := k.replay.drop (i + 1), replayPos := k.replayPos.map (fun p => p - (i + 1)) }
  | none => k

/-- CR_VC and CR_COUNT: credits returned to date (R259); those of VC0 tell of the oldest flits sent on it (R349). -/
def Link.credited (k : Link) (vc : Nat) (n : U16) : Link :=
  let more := (n - k.crSeen.getD vc 0).toNat
  { k with credits := k.credits.set vc (k.credits.getD vc 0 + more), crSeen := k.crSeen.set vc n
           vc0Out := if vc = 0 then k.vc0Out.drop more else k.vc0Out }

/-- NAK of `seq`: a replay starts; a request for the SEQ that is being replayed adds nothing. Eight requests in a row for one
SEQ retrain the link (R256 rule 3, R257). -/
def Link.nakked (k : Link) (seq : U16) : Link :=
  if k.replay.isEmpty then k
  else if k.replayPos.isSome && k.nakSeq == seq then k
  else
    let n := if k.nakSeq = seq then k.nakRepeat + 1 else 1
    let k := { k with nakRepeat := n, nakSeq := seq, replayPos := some 0, replayCount := satAdd k.replayCount 1 }
    if 8 ≤ n then { k with state := .training, nakRepeat := 0 } else k

/-- The fields that every intact flit carries. -/
def Link.control (k : Link) (bs : List Byte) : Link :=
  let ack : U16 := BitVec.ofNat 16 (natAt bs 6 2)
  let ctrl := natAt bs 8 1
  let k := (k.acked ack).credited (fieldOf ctrl 2 1) (BitVec.ofNat 16 (natAt bs 10 2))
  if bitOf ctrl 0 then k.nakked (ack + 1) else k

/-- An accepted data flit: its packet grows, and a credit returns; a whole packet is passed on. -/
def Link.take (k : Link) (bs : List Byte) : Link :=
  let vs := natAt bs 1 1
  let vc : Fin 4 := Fin.ofNat 4 (vs % 4)
  let data := (bs.drop 16).take (natAt bs 4 2)
  let so := if bitOf vs 2 then data else k.reasm.getD vc.val [] ++ data
  let k := { k with rxSeq := k.rxSeq + 1, rxNak := false, crBack := k.crBack.set vc.val (k.crBack.getD vc.val 0 + 1) }
  if bitOf vs 3 then { k with reasm := k.reasm.set vc.val [], delivered := k.delivered ++ [(vc, so)] }
  else { k with reasm := k.reasm.set vc.val so }

/-- A flit that fails its CRC or its KIND. -/
def Link.failCrc (k : Link) : Link := { k with crcCount := satAdd k.crcCount 1 }

/-- A received data flit (R256 rule 2). -/
def Link.dataIn (k : Link) (bs : List Byte) : Link :=
  if !flitIntact bs || natAt bs 0 1 != 0x5A then { k.failCrc with rxNak := true }
  else
    let k := k.control bs
    if BitVec.ofNat 16 (natAt bs 2 2) = k.rxSeq + 1 then k.take bs else { k with rxNak := true }

/-- A received idle flit: its SEQ shows a data flit that was lost. -/
def Link.idleIn (k : Link) (bs : List Byte) : Link :=
  if !flitIntact bs || natAt bs 0 1 != 0xA5 then k.failCrc
  else
    let k := k.control bs
    if BitVec.ofNat 16 (natAt bs 2 2) = k.rxSeq + 1 then k else { k with rxNak := true }

/-- The links run from boot event 6 on, outside a chip reset (R469). -/
def linksRun (s : State) : Bool := s.pwr.mainOn && decide (6 ≤ s.pwr.bootEvent) && !s.glb.chipBusy

def onUpLink (l : LinkId) (f : Link → Link) (s : State) : State :=
  if linksRun s && (s.link l).state == .up then s.modLink l f else s

/-- The packets that a link has just received whole go on: those for this module to it, others over the route to theirs, on the
same VC (R424). `n` counts the packets that it had before. -/
def passOn (l : LinkId) (n : Nat) (s : State) : State :=
  let k := s.link l
  let new := k.delivered.drop n
  let mine (p : Fin 4 × List Byte) : Bool := Config.packetDst p.2 == s.glb.uid
  s.setLink l { k with delivered := k.delivered.take n ++ new.filter mine } |>.each (new.filter (fun p => !mine p))
    (fun p t => sendPacket (Config.packetDst p.2) p.1 p.2 t)

/-- A received data flit; a link that goes to training takes its routes with it. -/
def doDataFlit (l : LinkId) (bytes : List Byte) (s : State) : State :=
  refuseLost (passOn l (s.link l).delivered.length (onUpLink l (fun k => k.dataIn bytes) s))

def execDataFlit (l : LinkId) (bytes : List Byte) (s : State) : Host.Outcome State Fault Refusal :=
  if bytes.length = 280 then .next (doDataFlit l bytes s) else .refused (.illFormed "DATA_FLIT")

def execIdleFlit (l : LinkId) (bytes : List Byte) (s : State) : Host.Outcome State Fault Refusal :=
  if bytes.length = 280 then .next (refuseLost (onUpLink l (fun k => k.idleIn bytes) s)) else .refused (.illFormed "IDLE_FLIT")

/-! ## The lanes of a direction (R252) -/

/-- The bytes of a slot that lane `n` carries: byte b travels on lane b mod 8. -/
def laneBytes (slot : List Byte) (n : Nat) : List Byte := (List.range 35).map (fun i => slot.getD (8 * i + n) 0)

/-- The bit that the polynomial x^58 + x^39 + 1 adds, from the last 58 bits on the lane, the latest at bit 0. -/
def scramTap (r : BitVec 58) : Bool := xor (r.getLsbD 57) (r.getLsbD 38)

def scramPush (r : BitVec 58) (b : Bool) : BitVec 58 := r <<< 1 ||| BitVec.ofNat 58 (b2n b)

/-- The self-synchronising scrambler: bits in, bits on the lane, and the register after them. -/
def scramble : List Bool → BitVec 58 → List Bool × BitVec 58
  | [], r => ([], r)
  | b :: bs, r =>
    let o := xor b (scramTap r)
    let t := scramble bs (scramPush r o)
    (o :: t.1, t.2)

/-- The receiver's inverse. -/
def descramble : List Bool → BitVec 58 → List Bool × BitVec 58
  | [], r => ([], r)
  | o :: os, r =>
    let t := descramble os (scramPush r o)
    (xor o (scramTap r) :: t.1, t.2)

/-- The bits of bytes as a lane takes them, the lowest of a byte first (log entry 70), and back. -/
def wireBits (bs : List Byte) : List Bool := bs.flatMap (fun b => (List.range 8).map b.getLsbD)

def bitsByte (bs : List Bool) : Byte := BitVec.ofNat 8 (leNatBits bs)

def bytesOfBits : Nat → List Bool → List Byte
  | 0, _ => []
  | n + 1, bs => bitsByte (bs.take 8) :: bytesOfBits n (bs.drop 8)

/-- What the lanes carry of a slot, and their registers after it. -/
def scrambleSlot (slot : List Byte) (regs : List (BitVec 58)) : List (List Byte × BitVec 58) :=
  (List.range 8).map (fun n =>
    let t := scramble (wireBits (laneBytes slot n)) (regs.getD n 0)
    (bytesOfBits 35 t.1, t.2))

/-! ## The flit slot (R253, R254, R259) -/

/-- The repeating order of CR_VC. -/
def crOrder : List Nat := [0, 1, 0, 2, 0, 3]

/-- The bytes of a flit: `none` is an idle flit. -/
def flitBytes (k : Link) (seq : U16) (f : Option TxFlit) : List Byte :=
  let vc := crOrder.getD k.crTurn 0
  let kind : Nat := if f.isSome then 0x5A else 0xA5
  let vcsop := (f.map (fun f => f.vc.val + 4 * b2n f.sop + 8 * b2n f.eop)).getD 0
  let data := (f.map (·.payload)).getD []
  let head := leBytes 1 kind ++ leBytes 1 vcsop ++ leBytes 2 seq.toNat ++ leBytes 2 data.length ++ leBytes 2 k.rxSeq.toNat ++
    leBytes 1 (b2n k.rxNak + 2 * vc) ++ zeroBytes 1 ++ leBytes 2 (k.crBack.getD vc 0).toNat ++ zeroBytes 4 ++ data ++
    zeroBytes (256 - data.length)
  head ++ leBytes 8 (crc64 head).toNat

/-- Emits a flit in the slot. -/
def Link.emit (k : Link) (seq : U16) (f : Option TxFlit) : Link :=
  let bytes := flitBytes k seq f
  let lanes := scrambleSlot bytes k.scram
  { k with sent := bytes, wire := lanes.map (·.1), scram := lanes.map (·.2), crTurn := (k.crTurn + 1) % 6, slot := (k.slot + 1) % 128 }

/-- A VC may send: it holds a flit and a credit. -/
def Link.ready (k : Link) (vc : Fin 4) : Bool := !(k.queue vc).isEmpty && decide (0 < k.credits.getD vc.val 0)

/-- A new data flit of a VC: numbered and kept for replay. -/
def Link.sendNew (k : Link) (vc : Fin 4) : Link :=
  match k.queue vc with
  | [] => k
  | f :: fs =>
    let k' := (k.emit k.txSeq (some f)).setQueue vc fs
    { k' with txSeq := k.txSeq + 1, replay := k.replay ++ [(k.txSeq, f)], credits := k.credits.set vc.val (k.credits.getD vc.val 0 - 1),
              lastVc := if vc.val = 0 then k.lastVc else vc.val
              vc0Out := if vc.val = 0 then k.vc0Out ++ [if f.eop then relTarget f.dst f.packet else none] else k.vc0Out }

/-- The VC of VC1 to VC3 that sends: the one chosen where it may, else the next in turn. -/
def Link.pickVc (k : Link) (vc : Fin 4) : Option (Fin 4) :=
  let order : List (Fin 4) := if k.lastVc = 1 then [2, 3, 1] else if k.lastVc = 2 then [3, 1, 2] else [1, 2, 3]
  if vc ≠ 0 ∧ k.ready vc = true then some vc else order.find? k.ready

def reservedSlot (n : Nat) : Bool := n == 0 || n == 43 || n == 86

/-- What the sender puts into the slot. -/
def Link.sendSlot (k : Link) (vc : Fin 4) : Link :=
  match k.replayPos.bind (fun p => (k.replay[p]?).map (fun f => (p, f))) with
  | some (p, f) =>
    if reservedSlot k.slot && f.2.vc != 0 then k.emit k.txSeq none
    else { k.emit f.1 (some f.2) with replayPos := if p + 1 < k.replay.length then some (p + 1) else none }
  | none =>
    let k := { k with replayPos := none }
    if 1024 ≤ k.replay.length then k.emit k.txSeq none
    else if k.ready 0 then k.sendNew 0
    else if reservedSlot k.slot then k.emit k.txSeq none
    else
      match k.pickVc vc with
      | some v => k.sendNew v
      | none => k.emit k.txSeq none

/-- The flit that the link is about to send again from its replay buffer. -/
def Link.resends (k : Link) : Option (U16 × TxFlit) :=
  match k.replayPos.bind (fun p => k.replay[p]?) with
  | some f => if reservedSlot k.slot && f.2.vc != 0 then none else some f
  | none => none

/-- The 64-bit words `ws` of the payload of the flit being sent again are lost: open bytes go in their place (log entry 43). -/
def Link.spoil (k : Link) (ws : List Nat) : Link :=
  { k with replay := k.replay.zipIdx.map (fun f =>
      if some f.2 = k.replayPos then
        (f.1.1, { f.1.2 with payload := f.1.2.payload.zipIdx.map (fun b =>
          if ws.contains (b.2 / 8) then BitVec.ofNat 8 (Config.openValue [f.1.1.toNat, b.2]) else b.1) })
      else f.1) }

/-- FLIT_SLOT: a flit sent again is read from the replay buffer under its code (R329, R331). -/
def doFlitSlot (l : LinkId) (vc : Fin 4) (s : State) : State :=
  if linksRun s && (s.link l).state == .up then
    let r := if (s.link l).resends.isSome then readStores none (· == .replayBuffer l) s else ([], s)
    r.2.modLink l (fun k => (if r.1.isEmpty then k else k.spoil r.1).sendSlot vc)
  else s

def execFlitSlot (l : LinkId) (vc : Fin 4) (s : State) : Host.Outcome State Fault Refusal := .next (doFlitSlot l vc s)

/-! ## Training (R257, R469) -/

def linkRetired (s : State) (l : LinkId) : Bool := s.glb.linkRetire.getLsbD l.val

def execLinkNoFlitTimeout (l : LinkId) (s : State) : Host.Outcome State Fault Refusal :=
  .next (refuseLost (onUpLink l (fun k => { k with state := .training, nakRepeat := 0 }) s))

/-- RETRAIN: a disabled or retired link, or one without a far end, does not train; one that was returned from retirement may
from now on (R336). -/
def retrainLink (l : LinkId) (s : State) : State :=
  let k := s.link l
  if !linksRun s || linkRetired s l then s
  else
    refuseLost (s.setLink l
      (if k.disable || (k.state == .down && !k.farEnd) then { k with stayDown := false }
       else { k with stayDown := false, state := .training, nakRepeat := 0 }))

def execLnkRetrain (fn : FnId) (l : LinkId) (s : State) : Host.Outcome State Fault Refusal :=
  .next (glbPort fn (.lnkRetrain fn l) (retrainLink l) s)

/-- DISABLE = 1. -/
def disableLink (l : LinkId) (s : State) : State := refuseLost (stopLink l .down (s.modLink l (fun k => { k with disable := true })))

def execLnkDisable (fn : FnId) (l : LinkId) (s : State) : Host.Outcome State Fault Refusal :=
  .next (glbPort fn (.lnkDisable fn l) (disableLink l) s)

/-- A link that may not train by itself: retired, or returned from retirement and not yet retrained (R336). -/
def linkHeld (s : State) (l : LinkId) : Bool := linkRetired s l || (s.link l).stayDown

/-- DISABLE = 0: a link with a far end trains. -/
def enableLink (l : LinkId) (s : State) : State :=
  let k := { s.link l with disable := false }
  s.setLink l (if (s.link l).disable && k.state == .down && k.farEnd && !linkHeld s l && linksRun s then { k with state := .training } else k)

def doFarEndDetect (l : LinkId) (s : State) : State :=
  let k := s.link l
  if linksRun s && k.state == .down then
    s.setLink l { k with farEnd := true, state := if k.disable || linkHeld s l then .down else .training }
  else s

def execFarEndDetect (l : LinkId) (s : State) : Host.Outcome State Fault Refusal := .next (doFarEndDetect l s)

/-- A packet of this link's own, whose layout is open (R423, R424). -/
def linkPacket (l : LinkId) (key : List Nat) (s : State) : State :=
  let bs := (List.range 32).map (Config.packetByte key)
  s.modLink l (fun k => k.setQueue 0 (k.queue 0 ++ flitsOf k.peerUid 0 bs))

/-- TRAINING_COMPLETE: the link is UP, replay resumes from ACK + 1, and IDENT goes out. -/
def doTrainingComplete (l : LinkId) (s : State) : State :=
  let k := s.link l
  if linksRun s && k.state == .training then
    let s := s.setLink l { k with state := .up, trainFails := 0, nakRepeat := 0, replayPos := if k.replay.isEmpty then none else some 0 }
    retryWaiting (linkPacket l [1, s.glb.uid.toNat, s.glb.slot.toNat, l.val] s)
  else s

def execTrainingComplete (l : LinkId) (s : State) : Host.Outcome State Fault Refusal := .next (doTrainingComplete l s)

/-- TRAINING_FAILED: the third in a row, and each one after it, puts the link in FAILED with fault 0x1506. -/
def doTrainingFailed (l : LinkId) (s : State) : State :=
  let k := s.link l
  if linksRun s && k.state == .training then
    let n := satAdd k.trainFails 1
    let s := s.setLink l { k with trainFails := n }
    if n = 3 then
      refuseLost (raise fn0 0x1506 true (payload [(0, 1, 0xFF), (1, 1, 1), (2, 2, l.val), (0x20, 4, n.toNat)]) (stopLink l .failed s))
    else s
  else s

def execTrainingFailed (l : LinkId) (s : State) : Host.Outcome State Fault Refusal := .next (doTrainingFailed l s)

/-! ## Peers and distances (R423, R424) -/

/-- The devices a route is known to. -/
def knownUids (s : State) : List U64 := (s.routes.map (·.1)).eraseDups

/-- Puts the route to a device over a link; at most 4096 devices. -/
def putRoute (uid : U64) (d : Nat) (l : LinkId) (s : State) : State :=
  if uid = s.glb.uid ∨ 16 < d ∨ (¬ (knownUids s).contains uid ∧ 4096 ≤ (knownUids s).length) then s
  else { s with routes := (s.routes.filter (fun r => !(r.1 == uid && r.2.2 == l))) ++ [(uid, d, l)] }

def doIdent (l : LinkId) (uid : U64) (slot : BitVec 3) (peerLink : BitVec 4) (s : State) : State :=
  if linksRun s && (s.link l).state == .up then
    let s := s.modLink l (fun k => { k with peerUid := uid, peerSlot := slot, peerLink := peerLink })
    retryWaiting (putRoute uid 1 l s)
  else s

def execIdent (l : LinkId) (uid : U64) (slot : BitVec 3) (peerLink : BitVec 4) (s : State) : Host.Outcome State Fault Refusal :=
  .next (doIdent l uid slot peerLink s)

/-- The distance to every device known: this one at 0, the others over the shortest route. -/
def distances (s : State) : List (U64 × Nat) :=
  (s.glb.uid, 0) :: (knownUids s).filterMap (fun u => (routeTo s u).map (fun r => (u, r.1)))

def doDistanceAdvert (s : State) : State :=
  if linksRun s then
    s.each (allLinks.filter (fun l => (s.link l).state == .up)) (fun l t =>
      linkPacket l (2 :: (distances s).flatMap (fun p => [p.1.toNat, p.2])) t)
  else s

def execDistanceAdvert (s : State) : Host.Outcome State Fault Refusal := .next (doDistanceAdvert s)

/-- A received distance packet replaces what the link told before. -/
def doDistancePacket (l : LinkId) (entries : List (U64 × Nat)) (s : State) : State :=
  if linksRun s && (s.link l).state == .up then
    let peer := (s.link l).peerUid
    let s := { s with routes := s.routes.filter (fun r => r.2.2 != l || r.1 == peer) }
    refuseLost (retryWaiting (s.each entries (fun e t => if e.1 = peer then t else putRoute e.1 (e.2 + 1) l t)))
  else s

def execDistancePacket (l : LinkId) (entries : List (U64 × Nat)) (s : State) : Host.Outcome State Fault Refusal :=
  .next (doDistancePacket l entries s)

end Sys2Proof.Machine
end

