-- ==== Sys2Proof/Machine/Groups.lean ====
section
/-! DEFINITION. Agreement groups (R61 to R63), live fields (R64, R65, R313), POLICY values (R51, R466), and their commands
AG_COMMIT, AG_VISIBLE and LIVE_FIELD_WRITE. -/

namespace Sys2Proof.Machine

open Sys2Proof

/-! ## Fields by identifier (R466) -/

/-- Identifiers that the model gives the words of CTX_RUN_SEED, which has none in R466. -/
def idSeedLo : Nat := 0x02
def idSeedHi : Nat := 0x03

def setLo (v : U64) (w : U32) : U64 := (v.extractLsb' 32 32) ++ w
def setHi (v : U64) (w : U32) : U64 := w ++ (v.extractLsb' 0 32)

/-- The bits of a CUT_PIN entry that are fields. -/
def pinMask : U64 := 0x8003FFFF0000FFFF

/-- The word `w` in the member that `id` names. -/
def AgVals.put (a : AgVals) (id : Nat) (w : U32) : AgVals :=
  if id = 0x01 then { a with srEnable := w.getLsbD 0 }
  else if id = idSeedLo then { a with runSeed := setLo a.runSeed w }
  else if id = idSeedHi then { a with runSeed := setHi a.runSeed w }
  else if id = 0x10 then { a with prunePeriod := w }
  else if id = 0x11 then { a with pruneK := w.truncate 16 }
  else if id = 0x12 then { a with regrowK := w.truncate 16 }
  else if id = 0x13 then { a with pruneStart := setLo a.pruneStart w }
  else if id = 0x14 then { a with pruneStart := setHi a.pruneStart w }
  else if id = 0x20 then { a with ovfMode := w.truncate 2 }
  else if id = 0x21 then { a with scaleDelay := w.truncate 5 }
  else if id = 0x22 then { a with policyEnable := w.getLsbD 0 }
  else if 0x30 ≤ id ∧ id < 0x40 then
    let i : Fin 8 := Fin.ofNat 8 ((id - 0x30) / 2)
    let p := a.cutPin[i]
    { a with cutPin := a.cutPin.set i ((if id % 2 = 0 then setLo p w else setHi p w) &&& pinMask) }
  else if 0x40 ≤ id ∧ id < 0x50 then { a with cutExclude := a.cutExclude.set (Fin.ofNat 16 (id - 0x40)) w }
  else if id = 0x50 then { a with spillLog2 := w.truncate 5 }
  else if 0x100 ≤ id ∧ id < 0x140 then { a with lr := a.lr.set (Fin.ofNat 64 (id - 0x100)) w }
  else if 0x140 ≤ id ∧ id < 0x180 then { a with beta1 := a.beta1.set (Fin.ofNat 64 (id - 0x140)) w }
  else if 0x180 ≤ id ∧ id < 0x1C0 then { a with beta2 := a.beta2.set (Fin.ofNat 64 (id - 0x180)) w }
  else if 0x1C0 ≤ id ∧ id < 0x200 then { a with eps := a.eps.set (Fin.ofNat 64 (id - 0x1C0)) w }
  else if 0x200 ≤ id ∧ id < 0x240 then { a with decay := a.decay.set (Fin.ofNat 64 (id - 0x200)) w }
  else a

/-- Notes which word of a 64-bit member is written (R63). -/
def AgWords.note (k : AgWords) (id : Nat) : AgWords :=
  if id = idSeedLo then { k with seedLo := true }
  else if id = idSeedHi then { k with seedHi := true }
  else if id = 0x13 then { k with startLo := true }
  else if id = 0x14 then { k with startHi := true }
  else if 0x30 ≤ id ∧ id < 0x40 then
    let i : Fin 8 := Fin.ofNat 8 ((id - 0x30) / 2)
    if id % 2 = 0 then { k with pinLo := k.pinLo.set i true } else { k with pinHi := k.pinHi.set i true }
  else k

/-- A shadow write of one word (R61). -/
def Ctx.shadowWrite (x : Ctx) (id : Nat) (w : U32) : Ctx :=
  { x with shadow := x.shadow.put id w, words := x.words.note id }

/-! ## Groups as wholes -/

/-- The members of group `g` of `src` in place of those of `dst`. -/
def copyGroup (g : Nat) (src dst : AgVals) : AgVals :=
  match g with
  | 0 => { dst with srEnable := src.srEnable, runSeed := src.runSeed }
  | 1 => { dst with prunePeriod := src.prunePeriod, pruneK := src.pruneK, regrowK := src.regrowK, pruneStart := src.pruneStart }
  | 2 => { dst with ovfMode := src.ovfMode, scaleDelay := src.scaleDelay, policyEnable := src.policyEnable }
  | 3 => { dst with lr := src.lr, beta1 := src.beta1, beta2 := src.beta2, eps := src.eps, decay := src.decay }
  | 4 => { dst with cutPin := src.cutPin, cutExclude := src.cutExclude }
  | _ => { dst with spillLog2 := src.spillLog2 }

/-- Exactly one word of a 64-bit member of the group has been written since its last commit. -/
def AgWords.half (k : AgWords) (g : Nat) : Bool :=
  match g with
  | 0 => k.seedLo != k.seedHi
  | 1 => k.startLo != k.startHi
  | 4 => (List.finRange 8).any (fun i => k.pinLo[i] != k.pinHi[i])
  | _ => false

def AgWords.forget (k : AgWords) (g : Nat) : AgWords :=
  match g with
  | 0 => { k with seedLo := false, seedHi := false }
  | 1 => { k with startLo := false, startHi := false }
  | 4 => { k with pinLo := Vector.replicate 8 false, pinHi := Vector.replicate 8 false }
  | _ => k

/-! ## The values that a commit refuses -/

/-- R305: a BETA that is NaN, negative or at least 1; −0 is not negative. -/
def badBeta (w : U32) : Bool :=
  match decodeElem fFP32 w.toNat with
  | .nan => true
  | .inf _ => true
  | .fin s m e => m != 0 && (s || !magGt 1 0 m e)

/-- R305: an LR, EPS or DECAY that is NaN, infinite or negative. -/
def badRate (w : U32) : Bool :=
  match decodeElem fFP32 w.toNat with
  | .fin s m _ => s && m != 0
  | _ => true

def zeroIf (bad : U32 → Bool) (v : Vector U32 64) : Vector U32 64 := v.map (fun w => if bad w then 0 else w)

def clampSpill (v : BitVec 5) : BitVec 5 := if v.toNat < 8 then 8 else if 23 < v.toNat then 23 else v

def capK (k : U16) : U16 := if 256 < k.toNat then 256 else k

/-- A group as its violation's fallback commits it, and the code of the violation where it changes anything. PLACE is
checked against `stations` (0x0B02); 0x0B01 apart. -/
def fixGroup (stations : Option Nat) (g : Nat) (v : AgVals) : AgVals × Option U16 :=
  let out (w : AgVals) (code : U16) : AgVals × Option U16 := (w, if w = v then none else some code)
  match g with
  | 1 => out { v with pruneK := capK v.pruneK, regrowK := capK v.regrowK } 0x0701
  | 2 => out { v with scaleDelay := if 16 < v.scaleDelay.toNat then 16 else v.scaleDelay, ovfMode := if v.ovfMode = 3 then 0 else v.ovfMode } 0x0A02
  | 3 =>
    let w := { v with lr := zeroIf badRate v.lr, beta1 := zeroIf badBeta v.beta1, beta2 := zeroIf badBeta v.beta2,
                      eps := zeroIf badRate v.eps, decay := zeroIf badRate v.decay }
    out w 0x0D01
  | 4 => out (fixPins stations v) 0x0B02
  | 5 => out { v with spillLog2 := clampSpill v.spillLog2 } 0x0401
  | _ => (v, none)

/-! ## AG_COMMIT (R61, R63, R11) -/

/-- The codes of the commit of group `g`. -/
def groupCodes (s : State) (x : Ctx) (g : Nat) : List U16 :=
  let n := x.active.map (fun m => m.stations.length)
  let fix := fixGroup n g x.shadow
  let strand : Bool :=
    match x.active with
    | some m => g == 4 && !(strandedBy s.glb x.qmask fix.1 m).isEmpty
    | none => false
  (if x.words.half g then [0x0213] else []) ++ (if strand then [0x0B01] else []) ++ fix.2.toList

/-- Group `g` becomes pending: as written, or as the fallback of the code charged commits it. -/
def commitGroup (s : State) (code : Option U16) (x : Ctx) (g : Nat) : Ctx :=
  let n := x.active.map (fun m => m.stations.length)
  let fix := fixGroup n g x.shadow
  let v := if fix.2.isSome && fix.2 == code then fix.1 else x.shadow
  let keep : List Nat :=
    match x.active with
    | some m => if code = some 0x0B01 then strandedBy s.glb x.qmask v m else []
    | none => []
  { x with pend := copyGroup g v x.pend, agPending := x.agPending ||| BitVec.ofNat 6 (2 ^ g), words := x.words.forget g,
           keepNext := if g = 4 then keep else x.keepNext }

def doAgCommit (c : CtxId) (bits : BitVec 6) (s : State) : State :=
  let x := s.ctx c
  let gs := (List.range 6).filter (fun g => bits.getLsbD g)
  let codes := gs.flatMap (groupCodes s x)
  s.setCtx c ((gs.foldl (commitGroup s (lowestCode codes)) x).charge codes)

def execAgCommit (fn : FnId) (c : CtxId) (groups : BitVec 6) (s : State) : Host.Outcome State Fault Refusal :=
  .next (ctxPort fn c (.agCommit fn c groups) (doAgCommit c groups) s)

/-! ## AG_VISIBLE (R61, R62) -/

/-- The pending copy of group `g` becomes visible. -/
def Ctx.showGroup (x : Ctx) (g : Nat) : Ctx :=
  if x.agPending.getLsbD g then
    let kept :=
      match x.active with
      | some m => keptBounds x m x.keepNext
      | none => []
    let x := { x with visible := copyGroup g x.pend x.visible, agPending := x.agPending &&& ~~~BitVec.ofNat 6 (2 ^ g) }
    if g = 4 then { x with keptPlace := kept, keepNext := [] } else x
  else x

/-- The numeric groups that are pending (R62: at step 6, or in IDLE). -/
def Ctx.showNumeric (x : Ctx) : Ctx := [0, 1, 2, 3].foldl Ctx.showGroup x

/-- Every pending group (R59 step 4). -/
def Ctx.showAll (x : Ctx) : Ctx := [0, 1, 2, 3, 4, 5].foldl Ctx.showGroup x

/-- A pending copy becomes visible: a numeric group in IDLE, a placement group at the stations' tile boundaries. -/
def doAgVisible (c : CtxId) (g : Fin 6) (s : State) : State :=
  let x := s.ctx c
  if !mayWork s || x.busy || !x.agPending.getLsbD g.val || x.phase == .preempted || (decide (g.val < 4) && x.phase != .idle) then s
  else
    let s := s.setCtx c (x.showGroup g.val)
    match x.active with
    | some m => if g.val = 4 && x.phase.working then compelMoves c m s else s
    | none => s

def execAgVisible (c : CtxId) (group : Fin 6) (s : State) : Host.Outcome State Fault Refusal := .next (doAgVisible c group s)

/-! ## Live fields (R64, R65) -/

/-- R64: a step is in progress. -/
def Ctx.inProgress (x : Ctx) : Bool :=
  let run (p : Phase) : Bool := p == .running || p == .closing
  run x.phase || (x.phase == .preempted && run x.saved)

def numericLive : LiveField → Bool
  | .cutWeights => false
  | _ => true

/-- The identifier of a live field (R466). -/
def liveId : LiveField → Nat
  | .predThresh => 0x60
  | .shadowShare => 0x61
  | .satThresh => 0x62
  | .policyW i => 0x63 + i.val
  | .cutWeights => 0x67

def putLive (f : LiveField) (w : U32) (v : LiveVals) : LiveVals :=
  match f with
  | .predThresh => { v with predThresh := w }
  | .shadowShare => { v with shadowShare := w.truncate 17 }
  | .satThresh => { v with satThresh := w }
  | .policyW 0 => { v with w0 := w }
  | .policyW 1 => { v with w1 := w }
  | .policyW 2 => { v with patience := w.truncate 8 }
  | .policyW _ => { v with lo := w.truncate 4, hi := (w >>> 4).truncate 4 }
  | .cutWeights => { v with cutWeights := w }

/-- The value of a live field as its register reads. -/
def getLive (f : LiveField) (v : LiveVals) : U32 :=
  match f with
  | .predThresh => v.predThresh
  | .shadowShare => v.shadowShare.zeroExtend 32
  | .satThresh => v.satThresh
  | .policyW 0 => v.w0
  | .policyW 1 => v.w1
  | .policyW 2 => v.patience.zeroExtend 32
  | .policyW _ => BitVec.ofNat 32 (v.hi.toNat * 16 + v.lo.toNat)
  | .cutWeights => v.cutWeights

/-- The stations of the active image that read a live field: predictors, and sites (R307, R313). -/
def liveReaders (m : Image) (f : LiveField) : List Nat :=
  (List.range m.stations.length).filter (fun i =>
    match f with
    | .predThresh => (m.station i).kind == kSCRIBE && (m.station i).o 0 1 == 0
    | .shadowShare => (m.station i).kind == kSCRIBE && (m.station i).o 0 1 == 0
    | .satThresh => isSite (m.station i)
    | _ => false)

/-- A GAU_POLICY_W3 value that is refused (0x0A01). -/
def badW3 (w : U32) : Bool :=
  let lo := fieldOf w.toNat 3 0
  let hi := fieldOf w.toNat 7 4
  decide (hi < lo) || decide (4 < lo) || decide (4 < hi)

/-- What a live write stores, and the violation of its value, outside any limit of the step. -/
def liveFix (f : LiveField) (w : U32) : Option U32 × Option U16 :=
  match f with
  | .shadowShare => if 0x10000 < w.toNat % 2 ^ 17 then (some 0x10000, some 0x0702) else (some w, none)
  | .policyW 3 => if badW3 w then (none, some 0x0A01) else (some w, none)
  | _ => (some w, none)

def poolUsed (w : Witness) : Nat := sumNat (w.log.map (fun e => e.pool.length))

/-- A live write (R64, R65, R313, R319). -/
def Ctx.liveWrite (x : Ctx) (f : LiveField) (w : U32) : Ctx :=
  let step := numericLive f && x.inProgress
  let readers := (x.active.map (fun m => liveReaders m f)).getD []
  let fix := liveFix f w
  let codes : List U16 := fix.2.toList ++
    (if step then
      (if x.wit.replaying then [0x0E02] else []) ++ (if 8 ≤ x.liveCount then [0x0214] else []) ++
        (if 96 < poolUsed x.wit + readers.length then [0x0E03] else [])
     else [])
  let code := lowestCode codes
  let y := x.charge codes
  let y := if step && code != some 0x0E02 && code != some 0x0214 then { y with liveCount := y.liveCount + 1 } else y
  let take : Option U32 := if code = none then some w else if code = fix.2 then fix.1 else none
  match take with
  | none => y
  | some v =>
    let y := { y with live := putLive f v y.live }
    if step then
      { y with wit := { y.wit with log := y.wit.log ++ [⟨liveId f, getLive f y.live, readers.map (fun i => (i, none))⟩] } }
    else y

def execLiveFieldWrite (fn : FnId) (c : CtxId) (field : LiveField) (value : U32) (s : State) : Host.Outcome State Fault Refusal :=
  .next (ctxPort fn c (.liveFieldWrite fn c field value) (fun s => s.modCtx c (fun x => x.liveWrite field value)) s)

/-! ## POLICY values (R51, R59, R93, R466) -/

def groupOfId (id : Nat) : Option Nat :=
  if id = 1 then some 0
  else if 0x10 ≤ id ∧ id ≤ 0x14 then some 1
  else if 0x20 ≤ id ∧ id ≤ 0x22 then some 2
  else if 0x100 ≤ id ∧ id < 0x240 then some 3
  else if 0x30 ≤ id ∧ id < 0x50 then some 4
  else if id = 0x50 then some 5
  else none

def liveOfId (id : Nat) : Option LiveField :=
  match id with
  | 0x60 => some .predThresh
  | 0x61 => some .shadowShare
  | 0x62 => some .satThresh
  | 0x63 => some (.policyW 0)
  | 0x64 => some (.policyW 1)
  | 0x65 => some (.policyW 2)
  | 0x66 => some (.policyW 3)
  | 0x67 => some .cutWeights
  | _ => none

/-- The member of each named field of `src` in place of that of `dst`. -/
def copyNamed (m : Image) (src dst : AgVals) : AgVals :=
  let has (id : Nat) : Bool := m.policy.any (fun p => p.fieldId == id)
  let pick (base : Nat) (a b : Vector U32 64) : Vector U32 64 := Vector.ofFn (fun i : Fin 64 => if has (base + i.val) then a[i] else b[i])
  { dst with
    srEnable := if has 1 then src.srEnable else dst.srEnable
    runSeed := src.runSeed
    prunePeriod := if has 0x10 then src.prunePeriod else dst.prunePeriod
    pruneK := if has 0x11 then src.pruneK else dst.pruneK
    regrowK := if has 0x12 then src.regrowK else dst.regrowK
    pruneStart := if has 0x13 || has 0x14 then src.pruneStart else dst.pruneStart
    ovfMode := if has 0x20 then src.ovfMode else dst.ovfMode
    scaleDelay := if has 0x21 then src.scaleDelay else dst.scaleDelay
    policyEnable := if has 0x22 then src.policyEnable else dst.policyEnable
    lr := pick 0x100 src.lr dst.lr
    beta1 := pick 0x140 src.beta1 dst.beta1
    beta2 := pick 0x180 src.beta2 dst.beta2
    eps := pick 0x1C0 src.eps dst.eps
    decay := pick 0x200 src.decay dst.decay
    cutPin := Vector.ofFn (fun i : Fin 8 => if has (0x30 + 2 * i.val) || has (0x31 + 2 * i.val) then src.cutPin[i] else dst.cutPin[i])
    cutExclude := Vector.ofFn (fun i : Fin 16 => if has (0x40 + i.val) then src.cutExclude[i] else dst.cutExclude[i])
    spillLog2 := if has 0x50 then src.spillLog2 else dst.spillLog2 }

/-- The POLICY values and RUN_SEED of an image in both copies, over the values `base` and `old` of the fields that no record
names (R51: their reset values at ACTIVATE; R59: their present ones at a switch); a value that a commit would refuse is taken
as its fallback commits it, and the lowest code is charged. -/
def Ctx.loadPolicy (x : Ctx) (g : Glb) (m : Image) (base : AgVals) (old : LiveVals) : Ctx :=
  let put := m.policy.foldl (fun a p => a.put p.fieldId p.value) { base with runSeed := m.runSeed }
  let named := (List.range 6).filter (fun k => m.policy.any (fun p => groupOfId p.fieldId == some k))
  let fixed := named.foldl (fun (a : AgVals × List U16) k =>
    let r := fixGroup (some m.stations.length) k a.1
    let w := copyNamed m r.1 a.1
    (w, if w = a.1 then a.2 else a.2 ++ r.2.toList)) (put, [])
  let strand := if named.contains 4 then strandedBy g x.qmask fixed.1 m else []
  let live := m.policy.foldl (fun (a : LiveVals × List U16) p =>
    match liveOfId p.fieldId with
    | none => a
    | some f =>
      let r := liveFix f p.value
      ((match r.1 with
        | some v => putLive f v a.1
        | none => a.1), a.2 ++ r.2.toList)) (old, [])
  let codes := fixed.2 ++ live.2 ++ (if strand.isEmpty then [] else [0x0B01])
  let kept := keptBounds { x with keptPlace := [] } m strand
  { (x.charge codes) with
    visible := fixed.1, shadow := fixed.1, live := live.1, keptPlace := kept }

end Sys2Proof.Machine
end

