-- ==== Sys2Proof/Machine/Update.lean ====
section
/-! DEFINITION. UPDATE_BLOCK (R280 to R303): records and copies, the rules of R291, FACT statistics, EMB row counts, vector
programs, the encoding of R294, and the divergence bitmaps of R297 and R298. -/

namespace Sys2Proof.Machine

open Sys2Proof

/-! ## Geometry (R284, R285) -/

/-- An UPDATE record with its tensor and what places its records. -/
structure UpdInfo where
  ix : Nat
  stn : Nat
  u : UpdateRec
  wi : Nat
  w : TensorRec
  mask : Option MaskRec
  nb : Nat
  size : Nat
  rank : Nat
  deriving DecidableEq, Repr

def UpdInfo.own (q : UpdInfo) : Bool := q.w.mode mOWN
def UpdInfo.rb (q : UpdInfo) : Nat := 128 * (1 + q.u.stateWords)
def UpdInfo.nr (q : UpdInfo) : Nat := if q.own then ceilDiv q.nb q.size else q.nb
def UpdInfo.rspan (q : UpdInfo) : Nat := align64 (q.nr * q.rb)
def UpdInfo.b0 (q : UpdInfo) : Nat := if q.own then q.rank * q.nb / q.size else 0
def UpdInfo.b1 (q : UpdInfo) : Nat := if q.own then (q.rank + 1) * q.nb / q.size else q.nb
def UpdInfo.owns (q : UpdInfo) (b : Nat) : Bool := decide (q.b0 ≤ b) && decide (b < q.b1)
def UpdInfo.rows (q : UpdInfo) : Nat := q.w.ext 1
def UpdInfo.colOff (q : UpdInfo) : Nat := align64 (0x40 + 4 * q.rows)
def UpdInfo.tspan (q : UpdInfo) : Nat := q.colOff + (if q.u.rule = 2 then align64 (4 * q.w.ext 0) else 0)
def UpdInfo.emb (q : UpdInfo) : Bool := q.w.mode mEMB
/-- U: the record blocks, and under EMB the groups of 16 row counts. -/
def UpdInfo.units (q : UpdInfo) : Nat := q.nr + (if q.emb then ceilDiv q.rows 16 else 0)
def UpdInfo.dspan (q : UpdInfo) : Nat := align64 (ceilDiv q.units 8)
def UpdInfo.recVa (q : UpdInfo) (copy b : Nat) : Nat := q.u.recordVa + copy * q.rspan + (b - q.b0) * q.rb
def UpdInfo.statVa (q : UpdInfo) (copy : Nat) : Nat := q.u.statsVa + copy * q.tspan
def UpdInfo.divVa (q : UpdInfo) (copy : Nat) : Nat := q.u.divergeVa + copy * q.dspan
def UpdInfo.valueVa (q : UpdInfo) (copy : Nat) : Nat := q.w.valueVa + copy * 64 * q.u.vspan64
def UpdInfo.scaleVa (q : UpdInfo) (copy : Nat) : Nat := q.w.scaleVa + copy * 64 * q.u.sspan64

/-- The UPDATE record that station `i` names. -/
def updInfo (x : Ctx) (m : Image) (i : Nat) : Option UpdInfo :=
  let st := m.station i
  match m.updates[st.o 0 4]?, m.tensor st.tensor with
  | some u, some w =>
    let g := feedingGroup x m i
    let mask := if w.sparse = 0 then none else m.masks[w.mask]?
    some { ix := st.o 0 4, stn := i, u := u, wi := st.tensor, w := w, mask := mask, nb := blockCount w mask,
           size := g.1, rank := g.2 }
  | _, _ => none

/-- Every UPDATE record of the image in order of its index. -/
def allUpdates (x : Ctx) (m : Image) : List UpdInfo :=
  (List.range m.updates.length).filterMap (fun k =>
    ((List.range m.stations.length).find? (fun i => (m.station i).kind == kUPDATE && (m.station i).o 0 4 == k)).bind (updInfo x m))

/-- A record block: its number, the tile position and row that hold it. -/
structure RecBlock where
  b : Nat
  k : ShapeTile
  row : Nat
  deriving DecidableEq, Repr

def findBlock (shape : List ShapeTile) (b : Nat) : Option RecBlock :=
  (shape.find? (fun k => k.blocks.contains (some b))).map (fun k => ⟨b, k, (k.blocks.findIdx? (· == some b)).getD 0⟩)

/-- The position in W of element `i` of the block. -/
def RecBlock.pos (g : RecBlock) (w : TensorRec) (i : Nat) : Option (Nat × Nat) := g.k.pos w (32 * g.row + i)

/-- The element offset of element `i` in the value array; `none` for padding that has no field. -/
def RecBlock.offset (g : RecBlock) (w : TensorRec) (i : Nat) : Option Int :=
  if w.sparse = 0 then
    (g.pos w i).map (fun p => wrapS 64 ((p.2 : Int) * w.str 0 + (p.1 : Int) * w.str 1 + (g.k.xy.x2 : Int) * w.str 2 + (g.k.xy.x3 : Int) * w.str 3))
  else if w.sparse = 3 then
    (g.pos w i).map (fun _ => ((256 * (g.b / 16 + i / 16) + 16 * (g.b % 16) + i % 16 : Nat) : Int))
  else some ((32 * g.b + i : Nat) : Int)

/-- The address of the scale byte of the block. -/
def RecBlock.scaleVa (g : RecBlock) (w : TensorRec) (base : Nat) : Nat :=
  if w.sparse = 0 then
    wrap64 ((base : Int) + g.k.xy.tc + ((32 * g.k.xy.tr + g.row : Nat) : Int) * (w.str 1 / 32) + (g.k.xy.x2 : Int) * (w.str 2 / 32) +
      (g.k.xy.x3 : Int) * (w.str 3 / 32))
  else wrap64 (base + g.b : Nat)

/-- The logical index of element `i` (R92). -/
def RecBlock.logical (g : RecBlock) (w : TensorRec) (i : Nat) : Nat :=
  match g.pos w i with
  | some p => p.2 + w.ext 0 * (p.1 + w.ext 1 * (g.k.xy.x2 + w.ext 2 * g.k.xy.x3))
  | none => 0

/-- The value fields of the block in a copy, by element. -/
def UpdInfo.fields (q : UpdInfo) (g : RecBlock) (copy : Nat) : List (Option (Nat × Nat × Nat × Nat)) :=
  (List.range 32).map (fun i => (g.offset q.w i).map (fieldAddr q.w.format (q.valueVa copy)))

/-- The spans of the block's record, value fields and scale byte in a copy. -/
def UpdInfo.blockSpans (q : UpdInfo) (g : RecBlock) (copy : Nat) : List Span :=
  ⟨q.recVa copy g.b, q.rb⟩ ::
    (((q.fields g copy).foldl (fun acc f => match f with
      | some f => addSpan acc f.1 f.2.1
      | none => acc) []).reverse ++
    (if isMx q.w.format then [⟨g.scaleVa q.w (q.scaleVa copy), 1⟩] else []))

/-- An FP32 word of memory; poisoned bytes read as NaN (R331). -/
def f32At (tab : List PageMap) (s : State) (va : Nat) : U32 :=
  if spanBad tab s ⟨va, 4⟩ then fpNan else BitVec.ofNat 32 (leNat (readSpan tab s ⟨va, 4⟩))

/-- A u32 word of memory; poisoned bytes read as 0. -/
def u32AtVa (tab : List PageMap) (s : State) (va : Nat) : U32 :=
  if spanBad tab s ⟨va, 4⟩ then 0 else BitVec.ofNat 32 (leNat (readSpan tab s ⟨va, 4⟩))

/-- The words of a record: MASTER, then the state words, 32 each. -/
def readRecord (q : UpdInfo) (tab : List PageMap) (s : State) (copy b : Nat) : List U32 :=
  (List.range (32 * (1 + q.u.stateWords))).map (fun k => f32At tab s (q.recVa copy b + 4 * k))

/-! ## Encoding (R294) -/

/-- The encoded block of 32 MASTER values, and the outcome classes of its elements. -/
def encodeBlock (x : Ctx) (q : UpdInfo) (g : RecBlock) (master : List U32) : ConvBlock :=
  convertBlock q.w.format (fieldOf q.u.flags 3 2) none ((List.range 32).map (fun i =>
    if (g.pos q.w i).isNone then (Val.fin false 0 0, false, none)
    else
      let a := (master.getD i 0).toNat
      (decodeElem fFP32 a, isSubnormal fFP32 a,
        if bitOf q.u.flags 1 && x.ag.srEnable then
          some (roundDraw x.ag.runSeed x.step q.w.tensorId 2 (g.logical q.w i)) else none)))

/-- The fields that hold an encoded block in a copy. -/
def UpdInfo.blockPuts (q : UpdInfo) (g : RecBlock) (copy : Nat) (r : ConvBlock) : List FieldPut :=
  mergeFields ((q.fields g copy).zipIdx.filterMap (fun p => p.1.map (fun f => fieldPut f (r.elems.getD p.2 0))) ++
    (if isMx q.w.format then [fieldPut (g.scaleVa q.w (q.scaleVa copy), 1, 0, 8) r.scale] else []))

/-- The classes that Gauge counts for a written block: every element that has a field (R294). -/
def blockClasses (q : UpdInfo) (g : RecBlock) (r : ConvBlock) : List (Option Nat) :=
  (List.range 32).map (fun i => if (g.offset q.w i).isSome then r.classes[i]? else none)

/-! ## Divergence bits (R297) -/

/-- The bytes of both divergence bitmaps that hold the bits of the units. -/
def UpdInfo.divSpans (q : UpdInfo) (us : List Nat) : List Span :=
  us.flatMap (fun u => [⟨q.divVa 0 + u / 8, 1⟩, ⟨q.divVa 1 + u / 8, 1⟩])

/-- The fields that set the bits of the units in both bitmaps. -/
def UpdInfo.divPuts (q : UpdInfo) (us : List Nat) : List FieldPut :=
  us.flatMap (fun u => [fieldPut (q.divVa 0 + u / 8, 1, u % 8, 1) 1, fieldPut (q.divVa 1 + u / 8, 1, u % 8, 1) 1])

/-- Clears divergence bitmap (N + 1) mod 2 of UPDATE record `k` (R297 rule 1); answers whether it is done. -/
def clearDiverge (c : CtxId) (req : FaultReq) (q : UpdInfo) (s : State) : Bool × State :=
  putVa c req false (q.divVa (1 - (s.ctx c).parity)) (zeroBytes (ceilDiv q.units 8)) s

/-- All bits of a bitmap of `n` units as bytes, over the bits that stand above them. -/
def markPuts (va n : Nat) : List FieldPut :=
  (List.range (n / 8)).map (fun k => fieldPut (va + k, 1, 0, 8) 255) ++
    (if n % 8 = 0 then [] else [fieldPut (va + n / 8, 1, 0, n % 8) (2 ^ (n % 8) - 1)])

/-- R298 for one UPDATE record: every bit of divergence copy N mod 2 becomes 1. -/
def markDiverge (c : CtxId) (q : UpdInfo) (s : State) : Bool × State :=
  let va := q.divVa (s.ctx c).parity
  match access c (reqMarking q.ix) false true [⟨va, ceilDiv q.units 8⟩] s with
  | (none, s) => (false, s)
  | (some tab, s) =>
    (true, writeRuns c tab (joinRuns ((markPuts va q.units).map (fun f => (f.va, f.bytes tab s)))) s)

/-! ## The rules (R289 to R293) -/

/-- The hyperparameters of a group. -/
structure Hyper where
  lr : U32
  b1 : U32
  b2 : U32
  eps : U32
  wd : U32
  deriving DecidableEq, Repr

def hyperOf (a : AgVals) (p : Nat) : Hyper :=
  let i : Fin 64 := Fin.ofNat 64 p
  ⟨a.lr[i], a.beta1[i], a.beta2[i], a.eps[i], a.decay[i]⟩

def fpOne : U32 := 0x3F800000

/-- rnd of a natural number. -/
def fpNat (n : Nat) : U32 := fpRound (.fin false n 0)

/-- b to the power t. -/
def fpPow (b : U32) (t : Nat) : U32 := fexp2 (fmul (fpNat t) (flog2 b))

/-- sgn of R290. -/
def fpSgn (a : U32) : U32 :=
  match fpVal a with
  | .nan => fpNan
  | .inf s => if s then 0xBF800000 else fpOne
  | .fin s m _ => if m = 0 then 0 else if s then 0xBF800000 else fpOne

/-- t of R289 for an element that EMB does not count. -/
def biasStep (s bcBase : Nat) : Nat := if bcBase ≤ s then (s - bcBase + 1) % 2 ^ 64 else 1

/-- t − 1 as a u64. -/
def prevStep (t : Nat) : Nat := (t + 2 ^ 64 - 1) % 2 ^ 64

/-- What FACT reads for an element: lagged or exact, VALID, its row and column statistics, and RSUM. -/
structure FactIn where
  lagged : Bool
  valid : Bool
  row : U32
  col : U32
  rsum : U32
  deriving DecidableEq, Repr

/-- Decoupled decay from the old p. -/
def decayed (h : Hyper) (p : U32) : U32 := ffma (fnegBits (fmul h.lr h.wd)) p p

/-- R291: (p', m', v') of an updated element. -/
def ruleStep (rule : Nat) (h : Hyper) (t : Nat) (fa : FactIn) (p m v g : U32) : U32 × U32 × U32 :=
  let pd := decayed h p
  let ema := ffma h.b1 m (fmul (fsub fpOne h.b1) g)
  match rule with
  | 0 =>
    let m' := ffma h.b1 m g
    (ffma (fnegBits h.lr) m' pd, m', v)
  | 1 =>
    let v' := ffma h.b2 v (fmul (fsub fpOne h.b2) (fmul g g))
    let mh := fdiv ema (fsub fpOne (fpPow h.b1 t))
    let vh := fdiv v' (fsub fpOne (fpPow h.b2 t))
    (ffma (fnegBits h.lr) (fdiv mh (fadd (fsqrt vh) h.eps)) pd, ema, v')
  | 2 =>
    if fa.lagged && (!fa.valid || t == 1) then (p, ema, v)
    else
      let vr := if (fpVal fa.rsum).isZero then 0 else fdiv (fmul fa.row fa.col) fa.rsum
      let c2 := fsub fpOne (fpPow h.b2 (if fa.lagged then prevStep t else t))
      let mh := fdiv ema (fsub fpOne (fpPow h.b1 t))
      (ffma (fnegBits h.lr) (fdiv mh (fadd (fsqrt (fdiv vr c2)) h.eps)) pd, ema, v)
  | _ => (ffma (fnegBits h.lr) (fpSgn ema) pd, ema, v)

/-! ## Gradients -/

/-- The FP32 bits of element `e` of a gradient tile (R290). -/
def gradBits (t : Tile) (e : Nat) : U32 := (laneBits t e).1

/-- Element `i` of the block is eligible (R287). -/
def eligible (q : UpdInfo) (frozen : List Byte) (k : ShapeTile) (t : Tile) (e : Nat) : Bool :=
  match k.pos q.w e with
  | some p => t.has e && !q.w.mode mFRZA && !frozenAt q.w ⟨q.w.sparse, q.w.ext 1, q.w.ext 0, 0⟩ frozen p.1 p.2
  | none => false

/-- Takes the gradient tiles that wait; a tile of another STEP is counted once (R289). -/
def takeGrads (c : CtxId) (m : Image) (i : Nat) (keep : Bool) : Nat → State → State
  | 0, s => s
  | n + 1, s =>
    match takeTile c m i 0 s with
    | (none, s) => s
    | (some t, s) =>
      takeGrads c m i keep n (s.modCtx c (fun x =>
        let x := if t.step = x.step then x else x.count (fun k => { k with stepDiff := satAdd k.stepDiff 1 })
        if keep then x.modStn i (fun k => { k with held := k.held ++ [t] }) else x))

/-- The eligible gradient elements that the station holds: row, column and FP32 bits. -/
def heldGrads (q : UpdInfo) (frozen : List Byte) (shape : List ShapeTile) (held : List Tile) : List (Nat × Nat × U32) :=
  held.flatMap (fun t =>
    match shape.find? (fun k => k.xy == t.xy) with
    | none => []
    | some k => (List.range 1024).filterMap (fun e =>
        if eligible q frozen k t e then (k.pos q.w e).map (fun p => (p.1, p.2, gradBits t e)) else none))

/-! ## Statistics (R286, R292, R293) -/

/-- ROW, COL, RSUM and VALID. -/
structure FactStats where
  valid : Bool
  rsum : U32
  row : List U32
  col : List U32
  deriving DecidableEq, Repr

def UpdInfo.statSpans (q : UpdInfo) (copy : Nat) : List Span :=
  if q.u.statsVa = 0 then []
  else if q.u.rule = 2 then [⟨q.statVa copy, q.colOff + 4 * q.w.ext 0⟩] else [⟨q.statVa copy, q.colOff⟩]

/-- The rows of the record blocks that the step has updated. -/
def rowsDone (q : UpdInfo) (x : Ctx) (shape : List ShapeTile) : List Nat :=
  (x.updates.filter (fun e => e.1 == q.ix && e.2.2)).filterMap (fun e => (findBlock shape e.2.1).map (fun g => 32 * g.k.xy.tr + g.row))

/-- The 64-byte unit that holds the row statistic or the row count of a row. -/
def UpdInfo.rowSpan (q : UpdInfo) (copy row : Nat) : Span := ⟨q.statVa copy + 0x40 + 64 * (row / 16), 64⟩

/-- VALID and RSUM, and COL. -/
def UpdInfo.statHead (q : UpdInfo) (copy : Nat) : List Span :=
  ⟨q.statVa copy, 64⟩ :: (if q.u.rule = 2 then [⟨q.statVa copy + q.colOff, 4 * q.w.ext 0⟩] else [])

/-- What the update of a block of `row` reaches in the statistics: all of them in their exact form, else the head and the row's
unit. -/
def UpdInfo.statAccess (q : UpdInfo) (copy row : Nat) : List Span :=
  if q.u.statsVa = 0 then []
  else if q.u.rule = 2 && bitOf q.u.flags 0 then q.statSpans copy
  else q.statHead copy ++ [q.rowSpan copy row]

/-- Read 2 of R295: the unit of a row is read once for the blocks of the row, the head once in the step. The engines of a tensor count
as one (log entry 65). -/
def statReads (q : UpdInfo) (x : Ctx) (shape : List ShapeTile) (row : Nat) : List Span :=
  let rows := rowsDone q x shape
  if q.u.statsVa = 0 then []
  else if q.u.rule = 2 && bitOf q.u.flags 0 then (if rows.isEmpty then q.statSpans x.parity else [])
  else (if rows.isEmpty then q.statHead x.parity else []) ++ (if rows.contains row then [] else [q.rowSpan x.parity row])

/-- What forming the statistics of the step reads beyond the reads of the blocks (R292). -/
def finalReads (q : UpdInfo) (x : Ctx) (shape : List ShapeTile) : List Span :=
  let rows := rowsDone q x shape
  if rows.isEmpty then q.statSpans x.parity
  else if bitOf q.u.flags 0 then []
  else (List.range (ceilDiv q.rows 16)).filterMap (fun u => if rows.any (fun r => r / 16 == u) then none else some (q.rowSpan x.parity (16 * u)))

/-- The statistics of a copy; with VALID = 0 every other field reads as zero. -/
def readStats (q : UpdInfo) (tab : List PageMap) (s : State) (copy : Nat) : FactStats :=
  let va := q.statVa copy
  if (u32AtVa tab s va).getLsbD 0 then
    { valid := true, rsum := f32At tab s (va + 4), row := (List.range q.rows).map (fun y => f32At tab s (va + 0x40 + 4 * y)),
      col := (List.range (q.w.ext 0)).map (fun k => f32At tab s (va + q.colOff + 4 * k)) }
  else { valid := false, rsum := 0, row := List.replicate q.rows 0, col := List.replicate (q.w.ext 0) 0 }

/-- One new statistic from the gradients of its row or column over `n` elements. -/
def statNext (b2 old : U32) (gs : List U32) (n : Nat) : U32 :=
  if gs.isEmpty then old
  else ffma b2 old (fmul (fsub fpOne b2) (fdiv (fpRound (exactDot (gs.map (fun g => (g, g))))) (fpNat n)))

/-- R292: the statistics of the step. -/
def nextStats (q : UpdInfo) (b2 : U32) (old : FactStats) (gs : List (Nat × Nat × U32)) : FactStats :=
  let row := old.row.zipIdx.map (fun p => statNext b2 p.1 ((gs.filter (fun g => g.1 == p.2)).map (·.2.2)) (q.w.ext 0))
  let col := old.col.zipIdx.map (fun p => statNext b2 p.1 ((gs.filter (fun g => g.2.1 == p.2)).map (·.2.2)) (q.w.ext 1))
  { valid := true, rsum := fpRound (exactDot (row.map (fun r => (r, fpOne)))), row := row, col := col }

/-- The runs that write FACT statistics to a copy. -/
def statRuns (q : UpdInfo) (copy : Nat) (f : FactStats) : List (Nat × List Byte) :=
  let va := q.statVa copy
  [(va, leBytes 4 1), (va + 4, leBytes 4 f.rsum.toNat), (va + 0x40, f.row.flatMap (fun r => leBytes 4 r.toNat)),
    (va + q.colOff, f.col.flatMap (fun r => leBytes 4 r.toNat))]

/-- The committed row counts of the 16 rows of a group, padding and all (R286, R288). -/
def rowCounts (q : UpdInfo) (tab : List PageMap) (s : State) (copy grp : Nat) : List U32 :=
  let va := q.statVa copy
  let ok := (u32AtVa tab s va).getLsbD 0
  (List.range 16).map (fun y => if ok then u32AtVa tab s (va + 0x40 + 4 * (16 * grp + y)) else 0)

/-- The run that writes the group of row counts of `row`, every row looked up so far one higher, with VALID. -/
def rowCountRuns (q : UpdInfo) (x : Ctx) (shape : List ShapeTile) (tab : List PageMap) (s : State) (row : Nat) : List (Nat × List Byte) :=
  let grp := row / 16
  let hit := rowsDone q x shape
  let toR := 1 - x.parity
  let new := (rowCounts q tab s x.parity grp).zipIdx.map (fun p =>
    let y := 16 * grp + p.2
    if y = row ∨ hit.contains y then satAdd p.1 1 else p.1)
  [(q.statVa toR, leBytes 4 1), (q.statVa toR + 0x40 + 64 * grp, new.flatMap (fun r => leBytes 4 r.toNat))]

/-! ## Vector-code rules (R302) -/

/-- The tile of a field of the records of a tile position: zero where the member holds no record. -/
def recordTile (recs : List (Option (List U32))) (xy : TileXY) (word : Nat) : Tile :=
  { xy := xy
    payload := .val fFP32 (recs.flatMap (fun r => (List.range 32).map (fun i => ((r.getD []).getD (32 * word + i) 0).toNat)))
      [] [] [] }

/-- V16 to V22 at the start of an iteration. -/
def presetRegs (h : Hyper) (ts : List Nat) (u : VecUnit) : VecUnit :=
  let all (a : U32) : List U32 := List.replicate 64 a
  let u := u.fresh
  { u with v := (((((((u.v.set 16 (all h.lr)).set 17 (all h.b1)).set 18 (all h.b2)).set 19 (all h.eps)).set 20 (all h.wd)).set 21
      (ts.map (fun t => BitVec.ofNat 32 (min t 0x7FFFFFFF)))).set 22 (ts.map fpNat)) }

/-- Runs the program on vector row `j` of a tile; `recs` are the records of the 32 rows, `ts` the t of each lane, `q0` the
updated lanes. Answers the lanes stored to ports 0 and 1, and the classes of conversions by VLD. -/
def runUpdateRow (m : Image) (q : UpdInfo) (h : Hyper) (grad : Tile) (recs : List (Option (List U32))) (ts : List Nat)
    (q0 : List Bool) (j : Nat) : List U32 × List U32 × List Nat :=
  let p := recordTile recs grad.xy 0
  let w := recordTile recs grad.xy 1
  let u : VecUnit := { xy := grad.xy, q0 := (List.replicate 16 (List.replicate 64 false)).set j q0 }
  let env : LaneEnv :=
    { zero := false, j := j, coord := tileCoord grad.xy,
      seq := fun e => 32 * grad.xy.tr + e / 32 + 2 ^ 20 * q.w.seqShard,
      load := fun port e =>
        if port = 0 then (if grad.has e then laneBits grad e else (0, none))
        else if port = 1 then laneBits p e else laneBits w e }
  let r := runRecords env ((m.program q.u.program q.u.length).getD []) (presetRegs h ts u) []
  (r.1.out0.getD j [], r.1.out1.getD j [], r.2)

/-! ## One record block -/

/-- What the update of a block reads, in pages: the records of the rows of its vector row. -/
structure BlockIn where
  grad : Tile
  g : RecBlock
  frozen : List Byte
  shape : List ShapeTile
  tab : List PageMap

/-- t of the elements of a row (R289). -/
def rowT (q : UpdInfo) (s : State) (x : Ctx) (b : BlockIn) (row : Nat) : Nat :=
  if q.emb then ((rowCounts q b.tab s x.parity (row / 16)).getD (row % 16) 0).toNat + 1
  else biasStep b.grad.step.toNat q.u.bcBase

/-- Element `i` of tile row `y` is updated: eligible and owned. -/
def updatedAt (q : UpdInfo) (b : BlockIn) (y i : Nat) : Bool :=
  eligible q b.frozen b.g.k b.grad (32 * y + i) &&
    (match b.g.k.blocks.getD y none with
      | some n => q.owns n
      | none => false)

/-- The new words of the record by a hard-wired rule. -/
def ruleRecord (q : UpdInfo) (s : State) (x : Ctx) (b : BlockIn) (st : FactStats) (old : List U32) : List U32 :=
  let h := hyperOf x.ag q.u.hpSet
  let new := (List.range 32).map (fun i =>
    let p := old.getD i 0
    let m := old.getD (32 + i) 0
    let v := old.getD (64 + i) 0
    if updatedAt q b b.g.row i then
      let at' := ((b.g.pos q.w i).getD (0, 0))
      ruleStep q.u.rule h (rowT q s x b at'.1) ⟨!bitOf q.u.flags 0, st.valid, st.row.getD at'.1 0, st.col.getD at'.2 0, st.rsum⟩ p m v
        (gradBits b.grad (32 * b.g.row + i))
    else (p, m, v))
  (new.map (·.1) ++ new.map (·.2.1) ++ new.map (·.2.2)).take (32 * (1 + q.u.stateWords))

/-- The new words of the record by a vector program, and the classes of its loads; the two rows of the vector row are
loaded, and the lanes of this block are kept. -/
def programRecord (q : UpdInfo) (m : Image) (s : State) (x : Ctx) (b : BlockIn) (old : List U32) : List U32 × List Nat :=
  let h := hyperOf x.ag q.u.hpSet
  let j := b.g.row / 2
  let rows := [2 * j, 2 * j + 1]
  let recs := (List.range 32).map (fun y =>
    if rows.contains y then
      (b.g.k.blocks.getD y none).bind (fun n => if q.owns n then some (readRecord q b.tab s x.parity n) else none)
    else none)
  let ts := rows.flatMap (fun y => List.replicate 32 (rowT q s x b (32 * b.g.k.xy.tr + y)))
  let q0 := rows.flatMap (fun y => (List.range 32).map (updatedAt q b y))
  let r := runUpdateRow m q h b.grad recs ts q0 j
  let half := 32 * (b.g.row % 2)
  let pick (l : List U32) (word i : Nat) : U32 :=
    if q0.getD (half + i) false then l.getD (half + i) 0 else old.getD (32 * word + i) 0
  let p := (List.range 32).map (pick r.1 0)
  let w := if q.u.stateWords = 0 then [] else (List.range 32).map (pick r.2.1 1)
  (p ++ w, r.2.2)

/-- The station updates on a bench (R280). -/
def UpdInfo.onBench (q : UpdInfo) : Bool := q.own || q.size ≤ 1

/-- Where the update of a block runs (R280), and its residue taps. -/
def updateSite (s : State) (c : CtxId) (m : Image) (q : UpdInfo) : CheckSite × List Nat :=
  let x := s.ctx c
  let prog := if q.u.rule = 4 then ((m.program q.u.program q.u.length).getD []).flatMap (fun w => laneTaps (vecOpc w)) else tapsV
  if q.onBench then (benchSite x q.stn, prog)
  else
    match (m.inStream q.stn 0).bind (fun p => x.inst p.2.src 0) with
    | some n => (.link (exchangeLink s c n), tapG3)
    | none => (.link 0, tapG3)

/-- The ordinal that a mismatch of the update of block `b` names: the gradient tile for a V tap, the record block for G3 (R470). -/
def UpdInfo.ordinal (q : UpdInfo) (shape : List ShapeTile) (xy : TileXY) (b : Nat) : Nat :=
  if q.onBench then inputOrdinal q.w shape xy else b

/-- The statistics of R292 are checked as the rule's other operations; they belong to no one tile or record block, so the ordinal is
open (log entry 43). -/
def checkStats (c : CtxId) (m : Image) (q : UpdInfo) (s : State) : State :=
  let site := updateSite s c m q
  checkResidue c site.1 ⟨q.stn, q.w.tensorId, Config.openValue [4, q.w.tensorId, (s.ctx c).step.toNat] % 2 ^ 32⟩ site.2 [] s

/-- The unit of a row count, by row. -/
def UpdInfo.rowUnit (q : UpdInfo) (row : Nat) : Nat := q.nr + row / 16

/-- Updates record block `b.g`: reads copy N mod 2, writes copy (N + 1) mod 2 and both divergence bitmaps. Every page is
translated before the first write (R367). -/
def writeBlock (c : CtxId) (m : Image) (q : UpdInfo) (b : BlockIn) (reads : List Span) (stats : FactStats) (s : State) : State :=
  let x := s.ctx c
  let toR := 1 - x.parity
  let row := 32 * b.g.k.xy.tr + b.g.row
  let us := (b.g.b - q.b0) :: (if q.emb then [q.rowUnit row] else [])
  let wr := q.blockSpans b.g toR ++ q.divSpans us ++
    (if q.emb then [⟨q.statVa toR, 4⟩, ⟨q.statVa toR + 0x40 + 64 * (row / 16), 64⟩] else [])
  match access c (reqStation q.stn) false true wr s with
  | (none, s) => s
  | (some tabW, s) =>
    let old := readRecord q b.tab s x.parity b.g.b
    let r := if q.u.rule = 4 then programRecord q m s x b old else (ruleRecord q s x b stats old, [])
    let enc := encodeBlock x q b.g r.1
    let counts := if q.emb then rowCountRuns q x b.shape b.tab s row else []
    let s := chargeRead c b.tab reads s
    let puts := q.blockPuts b.g toR enc ++ mergeFields (q.divPuts us)
    let runs := (q.recVa toR b.g.b, r.1.flatMap (fun a => leBytes 4 a.toNat)) :: (puts.map (fun f => (f.va, f.bytes tabW s)) ++ counts)
    let s := writeRuns c tabW (joinRuns runs) s
    let s := s.modCtx c (fun x =>
      let x := x.count (gaugeClasses q.w.format (blockClasses q b.g enc))
      { (x.count (gaugeClasses fFP32 (r.2.map some))) with updates := x.updates ++ [(q.ix, b.g.b, true)] })
    let site := updateSite s c m q
    checkResidue c site.1 ⟨q.stn, q.w.tensorId, q.ordinal b.shape b.grad.xy b.g.b⟩ site.2 [b.grad] s

/-- The block is done for the step. -/
def Ctx.updated (x : Ctx) (k b : Nat) : Bool := x.updates.any (fun e => e.1 == k && e.2.1 == b)

/-- The blocks of the tiles that the station holds in which an element is updated. -/
def dueBlocks (q : UpdInfo) (frozen : List Byte) (shape : List ShapeTile) (held : List Tile) : List Nat :=
  held.flatMap (fun t =>
    match shape.find? (fun k => k.xy == t.xy) with
    | none => []
    | some k => k.blocks.zipIdx.filterMap (fun p =>
        match p.1 with
        | some b => if q.owns b && (List.range 32).any (fun i => eligible q frozen k t (32 * p.2 + i)) then some b else none
        | none => none))

/-- When the gradient has come whole and every due block is done, the FACT statistics are written (R292) and the station
holds nothing more. -/
def finishUpdate (c : CtxId) (m : Image) (q : UpdInfo) (frozen : List Byte) (shape : List ShapeTile) (s : State) : State :=
  let x := s.ctx c
  let held := (x.stn q.stn).held
  let done := portEnded x m q.stn 0 && (dueBlocks q frozen shape held).all (x.updated q.ix)
  if !done then s
  else if q.u.rule ≠ 2 ∨ held.isEmpty then s.modCtx c (fun x => x.modStn q.stn (fun n => { n with held := [] }))
  else
    let from' := q.statSpans x.parity
    match access c (reqStation q.stn) false false from' s with
    | (none, s) => s
    | (some tab, s) =>
      match access c (reqStation q.stn) false true (q.statSpans (1 - x.parity)) s with
      | (none, s) => s
      | (some tabW, s) =>
        let new := nextStats q (hyperOf x.ag q.u.hpSet).b2 (readStats q tab s x.parity) (heldGrads q frozen shape held)
        let s := if bitOf q.u.flags 0 then s else checkStats c m q s
        let s := writeRuns c tabW (statRuns q (1 - x.parity) new) (chargeRead c tab (finalReads q x shape) s)
        s.modCtx c (fun x => { x.modStn q.stn (fun n => { n with held := [] }) with statsDone := x.statsDone ++ [q.ix] })

/-- The update of block `b` where its gradient tile is there. -/
def updateOne (c : CtxId) (m : Image) (q : UpdInfo) (frozen : List Byte) (shape : List ShapeTile) (b : Nat) (s : State) : State :=
  let x := s.ctx c
  let held := (x.stn q.stn).held
  let exact := q.u.rule == 2 && bitOf q.u.flags 0
  match findBlock shape b with
  | none => s
  | some g =>
    match held.find? (fun t => t.xy == g.k.xy) with
    | none => s
    | some t =>
      let due := q.owns b && (List.range 32).any (fun i => eligible q frozen g.k t (32 * g.row + i))
      if x.updated q.ix b || (exact && !portEnded x m q.stn 0) then s
      else if !due then s.modCtx c (fun x => { x with updates := x.updates ++ [(q.ix, b, false)] })
      else
        let near := if q.u.rule = 4 then
            ([2 * (g.row / 2), 2 * (g.row / 2) + 1]).filterMap (fun y => g.k.blocks.getD y none) else [b]
        let row := 32 * g.k.xy.tr + g.row
        let recs := (near.filter q.owns).map (fun n => (⟨q.recVa x.parity n, q.rb⟩ : Span))
        let reads := recs ++ statReads q x shape row
        match access c (reqStation q.stn) false false (recs ++ q.statAccess x.parity row) s with
        | (none, s) => s
        | (some tab, s) =>
          let old := if q.u.rule = 2 then readStats q tab s x.parity else ⟨false, 0, [], []⟩
          let stats := if exact then nextStats q (hyperOf x.ag q.u.hpSet).b2 old (heldGrads q frozen shape held) else old
          let s := if exact && (rowsDone q x shape).isEmpty then checkStats c m q s else s
          writeBlock c m q ⟨t, g, frozen, shape, tab⟩ reads stats s

/-- Of the record blocks due in a tile that the station holds, some are done and some not: the station stands amid a tile (R40). -/
def amidTile (q : UpdInfo) (frozen : List Byte) (shape : List ShapeTile) (x : Ctx) : Bool :=
  (x.stn q.stn).held.any (fun t =>
    let due := dueBlocks q frozen shape [t]
    due.any (x.updated q.ix) && !due.all (x.updated q.ix))

def noteAmid (q : UpdInfo) (frozen : List Byte) (shape : List ShapeTile) (x : Ctx) : Ctx :=
  x.modStn q.stn (fun n => { n with amid := amidTile q frozen shape x })

/-- UPDATE_BLOCK of station `i`: record block `b`. -/
def doUpdateBlock (c : CtxId) (i b : Nat) (s : State) : State :=
  withStation c i kUPDATE (fun m st s =>
    match updInfo (s.ctx c) m i with
    | none => s
    | some q =>
      let s := takeGrads c m i (!q.w.mode mFRZA) (waitingOn (s.ctx c) m i 0) s
      if q.w.mode mFRZA then s
      else
        let sp := reduceSpans (s.ctx c) m st q.w
        match access c (reqStation i) false false (sp.1 ++ sp.2) s with
        | (none, s) => s
        | (some tab, s) =>
          let shape := shapeOf (s.ctx c) m q.w tab s
          let frozen := sp.2.flatMap (readSpan tab s)
          let metas := reduceMetas (s.ctx c) m q.w tab s
          let s := (chargeRead c tab (sp.1 ++ sp.2) s).modCtx c (useBands i false metas)
          let s := finishUpdate c m q frozen shape (updateOne c m q frozen shape b s)
          s.modCtx c (noteAmid q frozen shape)) s

def execUpdateBlock (c : CtxId) (st : Nat) (b : Nat) (s : State) : Host.Outcome State Fault Refusal := .next (doUpdateBlock c st b s)

/-! ## The first FETCH of a step (R297 rule 1) -/

/-- Clears the next divergence bitmaps that the step has not cleared yet, up to the first that waits. -/
def clearRest (c : CtxId) (i : Nat) : List UpdInfo → State → State
  | [], s => s
  | q :: qs, s =>
    match clearDiverge c (reqStation i) q s with
    | (true, s) => clearRest c i qs (s.modCtx c (fun x => { x with cleared := x.cleared + 1 }))
    | (false, s) => s

/-- FETCH_TILE of station `i` (R209). -/
def doFetchTile (c : CtxId) (i : Nat) (s : State) : State :=
  withStation c i kFETCH (fun m _ s =>
    let all := allUpdates (s.ctx c) m
    let s := clearRest c i (all.drop (s.ctx c).cleared) s
    if all.length ≤ (s.ctx c).cleared then fetchNext c i s else s) s

def execFetchTile (c : CtxId) (st : Nat) (s : State) : Host.Outcome State Fault Refusal := .next (doFetchTile c st s)

/-! ## Copies at the close of the step (R297 rule 3) -/

/-- The place of unit `b`; a unit that the mask in force leaves unused has no positions. -/
def unitBlock (shape : List ShapeTile) (b : Nat) : RecBlock :=
  (findBlock shape b).getD ⟨b, ⟨⟨0, 0, 0, 0⟩, [], []⟩, 0⟩

/-- A unit as it moves to the second copy: poisoned words decode as R331 says. -/
def unitRuns (q : UpdInfo) (tab : List PageMap) (s : State) (g : RecBlock) (from' : Nat) : List FieldPut :=
  let fs := q.fields g from'
  let bad := fs.any (fun f => match f with
    | some f => spanBad tab s ⟨f.1, f.2.1⟩
    | none => false)
  let mx := isMx q.w.format
  let sva := g.scaleVa q.w (q.scaleVa from')
  let blockBad := mx && (bad || spanBad tab s ⟨sva, 1⟩)
  let raw (f : Nat × Nat × Nat × Nat) : Nat :=
    if blockBad then 0
    else poisoned q.w.format ((leNat (readSpan tab s ⟨f.1, f.2.1⟩) >>> f.2.2.1) % 2 ^ f.2.2.2) (spanBad tab s ⟨f.1, f.2.1⟩)
  q.blockPuts g (1 - from')
    { elems := fs.map (fun f => (f.map raw).getD 0), scale := if blockBad then 255 else leNat (readSpan tab s ⟨sva, 1⟩), classes := [] }

/-- The bits of a bitmap. -/
def bitsOf (n : Nat) (bs : List Byte) : List Bool := (List.range n).map (fun k => bitOf (natAt bs (k / 8) 1) (k % 8))

/-- R297 rule 3 for one UPDATE record: the units of the member's own blocks (R300). -/
def copyUnits (c : CtxId) (m : Image) (q : UpdInfo) (s : State) : Bool × State :=
  let req := reqStation q.stn
  let x := s.ctx c
  let from' := x.parity
  let toR := 1 - from'
  let n := ceilDiv q.units 8
  let sp := reduceSpans x m (m.station q.stn) q.w
  let head := sp.1 ++ [⟨q.divVa from' , n⟩, ⟨q.divVa toR, n⟩]
  match access c req false false head s with
  | (none, s) => (false, s)
  | (some tab0, s) =>
    let shape := shapeOf x m q.w tab0 s
    let old := bitsOf q.units (readSpan tab0 s ⟨q.divVa from', n⟩)
    let new := bitsOf q.units (readSpan tab0 s ⟨q.divVa toR, n⟩)
    let us := (List.range q.units).filter (fun u => old.getD u false && !new.getD u false && (decide (q.nr ≤ u) || decide (q.b0 + u < q.b1)))
    let blocks := (us.filter (fun u => decide (u < q.nr))).map (fun u => unitBlock shape (q.b0 + u))
    let grps := (us.filter (fun u => decide (q.nr ≤ u))).map (fun u => u - q.nr)
    let stat (k : Nat) : List Span := if grps.isEmpty then [] else [⟨q.statVa k, q.colOff⟩]
    let reads := blocks.flatMap (fun g => q.blockSpans g from') ++ stat from'
    match access c req false false reads s with
    | (none, s) => (false, s)
    | (some tab, s) =>
      match access c req false true (blocks.flatMap (fun g => q.blockSpans g toR) ++ stat toR) s with
      | (none, s) => (false, s)
      | (some tabW, s) =>
        let recs := blocks.map (fun g => (q.recVa toR g.b, (readRecord q tab s from' g.b).flatMap (fun a => leBytes 4 a.toNat)))
        let puts := blocks.flatMap (fun g => (unitRuns q tab s g from').map (fun f => (f.va, f.bytes tabW s)))
        let cnts := grps.map (fun k =>
          (q.statVa toR + 0x40 + 64 * k, (rowCounts q tab s from' k).flatMap (fun r => leBytes 4 r.toNat)))
        let val := if grps.isEmpty then [] else [(q.statVa toR, leBytes 4 1)]
        let s := chargeRead c (tab0 ++ tab) (head ++ reads) s
        (true, writeRuns c tabW (joinRuns (recs ++ puts ++ val ++ cnts)) s)

/-- The copies of every UPDATE record of the list; answers whether all are done. -/
def copyAll (c : CtxId) (m : Image) : List UpdInfo → State → Bool × State
  | [], s => (true, s)
  | q :: qs, s =>
    match copyUnits c m q s with
    | (true, s) => copyAll c m qs s
    | (false, s) => (false, s)

end Sys2Proof.Machine
end

