-- ==== Sys2Proof/Machine/Predict.lean ====
section
/-! DEFINITION. SCRIBE_PREDICT (R172 to R178, R307): the active-neuron predictor and its shadow check. -/

namespace Sys2Proof.Machine

open Sys2Proof

/-! ## Operands from memory -/

/-- The view of a dense tensor as the step reads it: the copy in force, no exchange, origin or index. -/
def plainView (x : Ctx) (m : Image) (layer ti : Nat) (t : TensorRec) : View :=
  let b := basesOf m ti x.parity t
  { fmt := if t.format = fRUNG then x.rungOf layer else t.format, ext := t.extent, vext := t.extent,
    stride := (List.range 4).map t.str, origin := [0, 0, 0, 0], idxDim := 0, idx := [], swap := false, base := b.1, scale := b.2,
    own := ownedRange x m ti }

/-- The tile positions of tile rows `trs` of a rank 2 tensor. -/
def rowTiles (t : TensorRec) (trs : List Nat) : List TileXY :=
  trs.flatMap (fun tr => (List.range t.nt0).map (fun tc => ⟨tr, tc, 0, 0⟩))

def viewSpans (v : View) (xs : List TileXY) : List Span := xs.flatMap v.spans

/-! ## Re-encoding to E2M1 (R172, R175) -/

/-- A tile as E2M1 under the immediate rule, RNE and OVF 0. -/
def asE2m1 (t : Tile) : Tile :=
  let r := convertTile fE2M1 0 none t.vals t.subs t.has (fun _ => none)
  { xy := t.xy, payload := .val fE2M1 r.elems r.scales [] [], present := t.present }

/-- An output tile of a product: 32 rows of A against 32 rows of B over the blocks of the reduction. -/
structure RowProduct where
  vals : List Val
  van : Nat
  trn : Nat
  deriving DecidableEq, Repr

/-- Sums the blocks of one element under the anchor: V, state, and the losses. -/
def sumBlocks (A : Int) (blocks : List (List Val)) : Int × BitVec 2 × List Loss :=
  blocks.foldl (fun (a : Int × BitVec 2 × List Loss) ps =>
    let r := blockSum ps A
    (a.1 + r.1, comb a.2.1 r.2.1, a.2.2 ++ [r.2.2])) (0, 0, [])

/-- The values of elements (u, v), u a row of A and v of B, by R99 and R102; `pairs u v` are the products of each block. -/
def rowProduct (A : Int) (pairs : Nat → Nat → List (List Val)) : RowProduct :=
  let rs := (List.range 1024).map (fun e => sumBlocks A (pairs (e / 32) (e % 32)))
  { vals := rs.map (fun r => accVal A r.1 r.2.1), van := sumNat (rs.map (fun r => countVanish r.2.2)),
    trn := sumNat (rs.map (fun r => countTrunc r.2.2)) }

/-- The product of tiles of A and tiles of B that meet along their columns. -/
def denseProduct (as bs : List Tile) : RowProduct :=
  let all : Tile → Nat → Bool := fun _ _ => true
  let ar := as.map (fun t => rows32 t.vals)
  let br := bs.map (fun t => rows32 t.vals)
  rowProduct (anchorOf (tilesCeiling fE2M1 as all all) (tilesCeiling ((bs.head?.map Tile.fmt).getD fE2M1) bs all all))
    (fun u v => (ar.zip br).map (fun p => mulZip (p.1.getD u []) (p.2.getD v [])))

/-- h of one j tile as E2M1; positions j at or beyond k are zero, tokens outside the tensor are absent. -/
def hTile (xs us : List Tile) (k j : Nat) : Tile × RowProduct :=
  let r := denseProduct xs us
  let used (v : Nat) : Bool := xs.any (fun t => t.rowUsed v)
  let has (e : Nat) : Bool := used (e / 32) && decide (32 * j + e % 32 < k)
  let q := convertTile fE2M1 0 none r.vals [] has (fun _ => none)
  ({ xy := ⟨0, j, 0, 0⟩, payload := .val fE2M1 q.elems q.scales [] [], present := (List.range 1024).map has }, r)

/-! ## Decisions -/

/-- v ≤ w for values that are not NaN. -/
def Val.le (v w : Val) : Bool :=
  match v, w with
  | .inf s, .inf t => s || !t
  | .inf s, _ => s
  | _, .inf t => !t
  | .fin s a e, .fin t b f => decide (Val.units s a e (min e f) ≤ Val.units t b f (min e f))
  | _, _ => false

/-- The scores of a row over the tokens skip it (R173). -/
def skipsRow (thresh : Val) (scores : List Val) : Bool :=
  scores.all (fun v =>
    match v with
    | .nan => false
    | .inf s => s && thresh != .nan
    | _ => v.le thresh)

/-- The largest of the shadow values, NaN above +Inf. -/
def maxVal (l : List Val) : Val :=
  if l.contains .nan then .nan else l.foldl (fun a v => if v.le a then a else v) (.inf true)

/-- The outcome of a sampled pair (R175). -/
inductive ShadowOut where
  | madeUp | lost | confirmed
  deriving DecidableEq, Repr

def shadowOutcome (thresh m : Val) : ShadowOut :=
  if m == .nan || thresh == .nan || !m.le thresh then .madeUp
  else if m.le (.fin false 0 0) then .confirmed else .lost

/-- The pair (τ, r) is sampled (R174). -/
def isSampled (x : Ctx) (w : TensorRec) (share : Nat) (tau r : Nat) : Bool :=
  decide (drawBit 18 x.ag.runSeed x.step w.tensorId (tau * w.ext 1 + r) / 65536 < share)

/-! ## The shadow pre-activation -/

/-- The stored rows of a band. -/
def bandRowIx (w : TensorRec) (band : Nat) : List (Option Nat) :=
  (List.range 32).map (fun v => if 32 * band + v < w.ext 1 then some (32 * band + v) else none)

/-- What the shadow check of a band reads of W. -/
def bandSpans (x : Ctx) (v : View) (w : TensorRec) (mask : Option MaskRec) (ti band : Nat) (rows : List SparseRow) : List Span :=
  match mask with
  | none => viewSpans v (rowTiles w [band])
  | some k =>
    metaSpans x (sparseDim w k) k ti ++ bandBookSpans w v.scale (bandRowIx w band) ++
      (List.range (passesOf rows)).flatMap (fun p => packedSpans v.fmt v.base v.scale (packedTile rows ⟨band, p, 0, 0⟩))

/-- The columns of the slots of a pass. -/
def slotCols (rows : List SparseRow) (p : Nat) : List (Option Nat) :=
  (passCols (rows.map (·.slots)) p).map (fun sl => match sl with
    | .col c => some c
    | .none => none)

/-- Sparse rows with their decoded values re-encoded in blocks of 32 columns, as a CODEBOOK row is (R175). -/
def columnTiles (band : Nat) (ps : List (List Val × List (Option Nat))) : List (Tile × List (Option Nat)) :=
  let at' := ps.flatMap (fun p => (p.1.zip p.2).zipIdx.filterMap (fun z => z.1.2.map (fun c => (z.2 / 32, c, z.1.1))))
  (nubBy (at'.map (fun a => a.2.1 / 32))).map (fun tc =>
    let cell (e : Nat) : Option (Nat × Nat × Val) := at'.find? (fun a => a.1 == e / 32 && a.2.1 == 32 * tc + e % 32)
    let has (e : Nat) : Bool := (cell e).isSome
    let r := convertTile fE2M1 0 none ((List.range 1024).map (fun e => ((cell e).map (·.2.2)).getD (.fin false 0 0))) [] has (fun _ => none)
    ({ xy := ⟨band, tc, 0, 0⟩, payload := .val fE2M1 r.elems r.scales [] [], present := (List.range 1024).map has },
      (List.range 1024).map (fun e => (cell e).map (fun a => a.2.1))))

/-- W̃ of a band as tiles with the columns of their slots; a sparse row lists its stored blocks. -/
def shadowTiles (tab : List PageMap) (s : State) (v : View) (w : TensorRec) (sparse : Bool) (band : Nat) (rows : List SparseRow) :
    List (Tile × List (Option Nat)) :=
  if sparse then
    let ps := (List.range (passesOf rows)).map (fun p =>
      (readPacked v.fmt v.base v.scale tab s ((packedTile rows ⟨band, p, 0, 0⟩).owned v.own) (bandBooks v.scale (bandRowIx w band) tab s),
        slotCols rows p))
    if v.fmt = fCODEBOOK then columnTiles band (ps.map (fun p => (p.1.vals, p.2))) else ps.map (fun p => (asE2m1 p.1, p.2))
  else
    (rowTiles w [band]).map (fun xy =>
      (asE2m1 (v.readTile tab s xy), (List.range 1024).map (fun e => if inExt w.extent xy e then some (32 * xy.tc + e % 32) else none)))

/-- The shadow values of the tile (τ, band): x̃ gathered at the columns of the slots. -/
def shadowProduct (xs : List Tile) (ws : List (Tile × List (Option Nat))) : RowProduct :=
  let all : Tile → Nat → Bool := fun _ _ => true
  let met := nubBy (ws.flatMap (fun p => p.2.filterMap (fun c => c.map (· / 32))))
  let a := xs.filter (fun t => met.contains t.xy.tc)
  let xr := xs.map (fun t => (t.xy.tc, rows32 t.vals))
  let wr := ws.map (fun p => (rows32 p.1.vals, p.2))
  rowProduct (anchorOf (tilesCeiling fE2M1 a all all) (tilesCeiling fE2M1 (ws.map (·.1)) all all))
    (fun u v => wr.map (fun p =>
      ((p.1.getD v []).zip ((p.2.drop (32 * v)).take 32)).filterMap (fun z =>
        z.2.map (fun c => (((((xr.find? (fun q => q.1 == c / 32)).map (·.2)).getD []).getD u []).getD (c % 32) (.fin false 0 0)).mul z.1))))

/-! ## One row-set tile -/

/-- What SCRIBE_PREDICT of a station works with: W, its index, U, V and k. -/
structure PredInfo where
  w : TensorRec
  wi : Nat
  u : TensorRec
  ui : Nat
  v : TensorRec
  vi : Nat
  layer : Nat
  deriving DecidableEq, Repr

def predInfo (m : Image) (st : Station) : Option PredInfo :=
  match m.tensor st.tensor, m.tensor st.tensor2, m.tensor (st.o 4 4) with
  | some w, some u, some v => some ⟨w, st.tensor, u, st.tensor2, v, st.o 4 4, st.layer⟩
  | _, _, _ => none

def PredInfo.k (q : PredInfo) : Nat := q.u.ext 1
def PredInfo.bands (q : PredInfo) : Nat := ceilDiv (q.w.ext 1) 32

/-- The row-set tiles whose token tile is whole and that are not issued: ordinal and position. -/
def predDue (q : PredInfo) (n : StnState) : List (Nat × TileXY) :=
  let groups := nubBy (n.held.map (fun t => (t.xy.tr, t.xy.x2, t.xy.x3)))
  let whole := groups.filter (fun g =>
    (List.range (ceilDiv (q.w.ext 0) 32)).all (fun tc => n.held.any (fun t => t.xy == ⟨g.1, tc, g.2.1, g.2.2⟩)))
  (whole.flatMap (fun g => (List.range q.bands).map (fun b => (g.1 * q.bands + b, (⟨g.1, b, g.2.1, g.2.2⟩ : TileXY))))).filter
    (fun p => !n.emitted.contains p.2)

def lowestDue (l : List (Nat × TileXY)) : Option (Nat × TileXY) :=
  l.foldl (fun a p => match a with
    | none => some p
    | some b => if p.1 < b.1 then some p else a) none

/-- What a row-set tile gives: the active rows, the skipped, sampled, made-up and lost pairs, and the losses of its sums. -/
structure RowSet where
  word : U32
  skip : Nat
  sample : Nat
  miss : Nat
  lost : Nat
  van : Nat
  trn : Nat
  deriving DecidableEq, Repr

/-- The scores of the tile (τ, band) for its 32 tokens and 32 rows; the losses of h count with band 0. -/
def scoreTile (x : Ctx) (m : Image) (q : PredInfo) (xs : List Tile) (band : Nat) (tab : List PageMap) (s : State) : RowProduct :=
  let uv := plainView x m q.layer q.ui q.u
  let vv := plainView x m q.layer q.vi q.v
  let hs := (List.range (ceilDiv q.k 32)).map (fun j =>
    hTile xs ((rowTiles q.u [j]).map (uv.readTile tab s)) q.k j)
  let r := denseProduct (hs.map (·.1)) ((rowTiles q.v [band]).map (vv.readTile tab s))
  if band = 0 then
    { r with van := r.van + sumNat (hs.map (·.2.van)), trn := r.trn + sumNat (hs.map (·.2.trn)) }
  else r

/-- The tokens of the tile. -/
def tokensOf (xs : List Tile) : List Nat := (List.range 32).filter (fun v => xs.any (fun t => t.rowUsed v))

/-- Rows of the band that the scores skip. -/
def skippedRows (q : PredInfo) (thresh : Val) (xs : List Tile) (band : Nat) (scores : List Val) : List Nat :=
  (List.range 32).filter (fun v => decide (32 * band + v < q.w.ext 1) &&
    skipsRow thresh ((tokensOf xs).map (fun t => scores.getD (32 * t + v) .nan)))

/-- The row set from the skipped rows, the sampled ones and their shadow values. -/
def rowSetOf (q : PredInfo) (thresh : Val) (xs : List Tile) (band : Nat) (skipped sampled : List Nat) (r : RowProduct)
    (shadow : Option RowProduct) : RowSet :=
  let out (v : Nat) : ShadowOut :=
    match shadow with
    | some p => shadowOutcome thresh (maxVal ((tokensOf xs).map (fun t => p.vals.getD (32 * t + v) .nan)))
    | none => .confirmed
  let up := sampled.filter (fun v => out v == .madeUp)
  let on := (List.range 32).filter (fun v => decide (32 * band + v < q.w.ext 1) && (!skipped.contains v || up.contains v))
  { word := BitVec.ofNat 32 (sumNat (on.map (fun v => 2 ^ v))), skip := skipped.length, sample := sampled.length,
    miss := up.length, lost := sampled.countP (fun v => out v == .lost),
    van := r.van + (shadow.map (·.van)).getD 0, trn := r.trn + (shadow.map (·.trn)).getD 0 }

/-- Counts and emits the row-set tile; the row set is kept until the step closes (R176). -/
def emitRowSet (i : Nat) (m : Image) (q : PredInfo) (ord : Nat) (xy : TileXY) (r : RowSet) (x : Ctx) : Ctx :=
  let x := x.count (fun k =>
    countLosses r.van r.trn { k with scribe := (((k.scribe.set 4 (satAdd k.scribe[4] r.skip)).set 5 (satAdd k.scribe[5] r.sample)).set 6
      (satAdd k.scribe[6] r.miss)).set 7 (satAdd k.scribe[7] r.lost) })
  let n := x.wit.counts
  let x := { x with
    wit := { x.wit with counts := { n with skip := n.skip + r.skip, sample := n.sample + r.sample, miss := n.miss + r.miss, lost := n.lost + r.lost } }
    rowSets := x.rowSets ++ [(q.wi, xy, r.word)] }
  let x := (x.issue idPredThresh i ord).issue idShadowShare i ord
  let x := x.push m i 0 { xy := xy, payload := .rows r.word }
  x.modStn i (fun t =>
    let done := t.emitted ++ [xy]
    let whole := (List.range q.bands).all (fun b => done.contains { xy with tc := b })
    { t with emitted := done, next := max t.next (ord + 1),
             held := if whole then t.held.filter (fun k => !(k.xy.tr == xy.tr && k.xy.x2 == xy.x2 && k.xy.x3 == xy.x3)) else t.held })

/-- Reads the metadata of a sparse W for its rows of a band. -/
def bandOf (x : Ctx) (q : PredInfo) (mask : Option MaskRec) (tab : List PageMap) (s : State) (band : Nat) : List SparseRow × Nat × Nat :=
  match mask with
  | none => ([], 0, 0)
  | some k => bandRows (sparseDim q.w k) (readMeta x tab s (sparseDim q.w k) k q.w.mask).1 band

/-- The passes of R177 run on the matrix arrays, under the M taps; their stationary tiles are of U and V, or of the re-encoded W, for
which R470 gives no ordinal: the value is open (log entry 43). -/
def checkPredict (c : CtxId) (i : Nat) (m : Image) (xy : TileXY) (s : State) : State :=
  checkResidue c (benchSite (s.ctx c) i)
    (checkOp m i (Config.openValue [6, i, (s.ctx c).step.toNat, xy.tr, xy.tc] % 2 ^ 32)) tapsM [] s

/-- Issues the row-set tile `xy` of ordinal `ord`. -/
def issueRowSet (c : CtxId) (i : Nat) (m : Image) (q : PredInfo) (ord : Nat) (xy : TileXY) (s : State) : State :=
  let x := s.ctx c
  let req := reqStation i
  let uv := plainView x m q.layer q.ui q.u
  let vv := plainView x m q.layer q.vi q.v
  let fsp := viewSpans uv (rowTiles q.u (List.range q.u.nt1)) ++ viewSpans vv (rowTiles q.v [xy.tc])
  match access c req false false fsp s with
  | (none, s) => s
  | (some tab, s) =>
    let n := (s.ctx c).stn i
    let xs := ((List.range (ceilDiv (q.w.ext 0) 32)).filterMap (fun tc =>
      n.held.find? (fun t => t.xy == ⟨xy.tr, tc, xy.x2, xy.x3⟩))).map asE2m1
    let s := checkPredict c i m xy s
    let r := scoreTile x m q xs xy.tc tab s
    let thresh := fpVal (x.liveAt idPredThresh i ord)
    let share := (x.liveAt idShadowShare i ord).toNat
    let skipped := skippedRows q thresh xs xy.tc r.vals
    let sampled := skipped.filter (fun v => isSampled x q.w share xy.tr (32 * xy.tc + v))
    if sampled.isEmpty then
      (chargeRead c tab fsp s).modCtx c (emitRowSet i m q ord xy (rowSetOf q thresh xs xy.tc skipped [] r none))
    else
      let mask := if q.w.sparse = 0 then none else m.masks[q.w.mask]?
      let wv := plainView x m q.layer q.wi q.w
      let msp := match mask with
        | some k => metaSpans x (sparseDim q.w k) k q.w.mask
        | none => []
      match access c req false false msp s with
      | (none, s) => s
      | (some tabM, s) =>
        let rows := bandOf x q mask tabM s xy.tc
        let wsp := bandSpans x wv q.w mask q.w.mask xy.tc rows.1
        match access c req false false wsp s with
        | (none, s) => s
        | (some tabW, s) =>
          let sh := shadowProduct xs (shadowTiles tabW s wv q.w mask.isSome xy.tc rows.1)
          let seen := ((s.ctx c).stn i).bands.contains xy.tc
          let s := (checkPredict c i m xy (chargeRead c (tab ++ tabW) (fsp ++ wsp) s)).modCtx c (fun x =>
            if seen then x
            else (countMeta rows.2.1 rows.2.2 x).modStn i (fun n => { n with bands := n.bands ++ [xy.tc] }))
          s.modCtx c (emitRowSet i m q ord xy (rowSetOf q thresh xs xy.tc skipped sampled r (some sh)))

/-- SCRIBE_PREDICT of station `i`: the next row-set tile in ascending ordinal. -/
def doScribePredict (c : CtxId) (i : Nat) (s : State) : State :=
  withStation c i kSCRIBE (fun m st s =>
    if st.o 0 1 ≠ 0 ∨ !(s.ctx c).room m i 0 then s
    else
      match predInfo m st with
      | none => s
      | some q =>
        let s := stageHeld c m i s
        let x := s.ctx c
        let n := x.stn i
        match lowestDue (predDue q n) with
        | none => s
        | some p => if decide (p.1 ≤ n.next) || portEnded x m i 0 then issueRowSet c i m q p.1 p.2 s else s) s

def execScribePredict (c : CtxId) (st : Nat) (s : State) : Host.Outcome State Fault Refusal := .next (doScribePredict c st s)

end Sys2Proof.Machine
end

