-- ==== Sys2Proof/Machine/Prune.lean ====
section
/-! DEFINITION. Scribe's mask edits: REGROWTH_SCAN (R164, R165), PRUNE_UNIT (R166 to R171) and TRANSPOSE_META (R161). -/

namespace Sys2Proof.Machine

open Sys2Proof

/-! ## Keys and their order (R164) -/

def keyOf : Val → Key
  | .nan => .nan
  | .inf _ => .inf
  | .fin _ m e => .fin m e

/-- The exact sum of keys; infinite or NaN where one is. -/
def sumKeys (l : List Key) : Key :=
  if l.contains .nan then .nan
  else if l.contains .inf then .inf
  else
    l.foldl (fun a k =>
      match a, k with
      | .fin m e, .fin n f => .fin (m <<< (e - min e f).toNat + n <<< (f - min e f).toNat) (min e f)
      | _, _ => a) (.fin 0 0)

/-- a < b among finite keys and infinity. -/
def Key.lt (a b : Key) : Bool :=
  match a, b with
  | .fin m e, .fin n f => magGt n f m e
  | .fin _ _, .inf => true
  | _, _ => false

def Key.isZero : Key → Bool
  | .fin m _ => m == 0
  | _ => false

/-- `a` is pruned before `b`: the lower key, NaN last; among equal keys the lower index. -/
def pruneBefore (a b : Nat × Key) : Bool :=
  let lt (p q : Key) : Bool := if p == .nan then false else if q == .nan then true else p.lt q
  lt a.2 b.2 || (!lt b.2 a.2 && decide (a.1 < b.1))

/-- `a` is regrown before `b`: the higher key, NaN last; among equal keys the lower index. -/
def regrowBefore (a b : Nat × Key) : Bool :=
  let lt (p q : Key) : Bool := if q == .nan then false else if p == .nan then true else p.lt q
  lt b.2 a.2 || (!lt a.2 b.2 && decide (a.1 < b.1))

def insertBy {α : Type} (before : α → α → Bool) (x : α) : List α → List α
  | [] => [x]
  | y :: l => if before x y then x :: y :: l else y :: insertBy before x l

def sortBy {α : Type} (before : α → α → Bool) (l : List α) : List α := l.foldr (insertBy before) []

/-! ## Units -/

/-- Units of a mask: rows, groups of four rows (T24), or block-rows (B16). -/
def unitRows (kind u : Nat) : List Nat :=
  match kind with
  | 2 => (List.range 4).map (· + 4 * u)
  | 3 => (List.range 16).map (· + 16 * u)
  | _ => [u]

def unitCount (w : TensorRec) : Nat :=
  match w.sparse with
  | 2 => w.ext 1 / 4
  | 3 => w.ext 1 / 16
  | _ => w.ext 1

/-- The unit of the candidate sets: as `unitRows`, but a row under T24 (R165). -/
def scanRows (kind u : Nat) : List Nat := if kind = 3 then unitRows 3 u else [u]

def scanUnits (w : TensorRec) : Nat := if w.sparse = 3 then w.ext 1 / 16 else w.ext 1

/-- The stored columns of row `r` by the decoded metadata of its band. -/
def storedCols (rows : List SparseRow) (r : Nat) : List Nat :=
  (rows.getD (r % 32) ⟨[], [], [], 0, 0⟩).slots.filterMap (fun sl => match sl with
    | .col c => some c
    | .none => none)

/-! ## REGROWTH_SCAN (R165) -/

/-- The candidate positions of row `r` in a gradient tile, with their keys. -/
def rowCands (w : TensorRec) (frozen : List Byte) (rows : List SparseRow) (t : Tile) (vals : List Val) (r : Nat) : List (Nat × Key) :=
  let stored := storedCols rows r
  (List.range 32).filterMap (fun k =>
    let cc := 32 * t.xy.tc + k
    let e := 32 * (r % 32) + k
    if cc < w.ext 0 && t.has e && !stored.contains cc && !frozenAt w ⟨w.sparse, w.ext 1, w.ext 0, 0⟩ frozen r cc then
      some (cc, keyOf (vals.getD e .nan))
    else none)

/-- The candidate blocks of block-row `u` in a gradient tile: all 256 positions must be candidates. -/
def blockCands (w : TensorRec) (frozen : List Byte) (rows : List SparseRow) (t : Tile) (vals : List Val) (u : Nat) : List (Nat × Key) :=
  let cs := (List.range 16).map (fun y => rowCands w frozen rows t vals (16 * u + y))
  (List.range 2).filterMap (fun h =>
    let j := 2 * t.xy.tc + h
    let ks := cs.flatMap (fun l => (l.filter (fun p => p.1 / 16 == j)).map (·.2))
    if ks.length = 256 then some (j, sumKeys ks) else none)

/-- The candidates kept: all of them under S24 and T24, else the REGROW_K of highest key, none of key 0 or NaN. -/
def keepCands (kind k : Nat) (l : List (Nat × Key)) : List (Nat × Key) :=
  if kind = 1 ∨ kind = 2 then l
  else (sortBy regrowBefore (l.filter (fun p => !(p.2 == .nan) && !p.2.isZero))).take k

/-- Adds a tile's candidates to the sets of its units. -/
def addCands (w : TensorRec) (k : Nat) (frozen : List Byte) (rows : List SparseRow) (t : Tile) (sets : List CandSet) : List CandSet :=
  let vals := t.vals
  let us := (List.range (scanUnits w)).filter (fun u => ((scanRows w.sparse u).headD 0) / 32 == t.xy.tr)
  us.foldl (fun acc u =>
    let new := if w.sparse = 3 then blockCands w frozen rows t vals u else rowCands w frozen rows t vals u
    match acc.find? (fun q => q.unit == u) with
    | some q => acc.map (fun p => if p.unit = u then { q with tiles := q.tiles + 1, cs := keepCands w.sparse k (q.cs ++ new) } else p)
    | none => acc ++ [⟨u, 1, keepCands w.sparse k new, false⟩]) sets

/-- Sends the candidate lists that are whole, where the output has room. -/
def sendCands (i : Nat) (m : Image) (w : TensorRec) : List Nat → Ctx → Ctx
  | [], x => x
  | u :: us, x =>
    match (x.stn i).cands.find? (fun q => q.unit == u && !q.sent && decide (w.nt0 ≤ q.tiles)) with
    | none => sendCands i m w us x
    | some q =>
      if x.room m i 0 then
        let x := x.push m i 0 { xy := ⟨u, 0, 0, 0⟩, payload := .cands u q.cs }
        sendCands i m w us (x.modStn i (fun n => { n with cands := n.cands.map (fun p => if p.unit = u then { p with sent := true, cs := [] } else p) }))
      else x

/-- Counts the metadata of a band once for a station that uses it (R144). -/
def countBand (i band errs drops : Nat) (x : Ctx) : Ctx :=
  if (x.stn i).bands.contains band then x
  else (countMeta errs drops x).modStn i (fun n => { n with bands := n.bands ++ [band] })

/-- REGROWTH_SCAN of station `i`: takes the next tile of G, then sends what is whole. -/
def doRegrowthScan (c : CtxId) (i : Nat) (s : State) : State :=
  withStation c i kSCRIBE (fun m st s =>
    match (if st.o 0 1 = 2 then m.tensor st.tensor else none) with
    | none => s
    | some w =>
      match m.masks[w.mask]? with
      | none => s
      | some k =>
        let sp := reduceSpans (s.ctx c) m st w
        match access c (reqStation i) false false (sp.1 ++ sp.2) s with
        | (none, s) => s
        | (some tab, s) =>
          let d := sparseDim w k
          let b := (readMeta (s.ctx c) tab s d k w.mask).1
          let frozen := sp.2.flatMap (readSpan tab s)
          let s :=
            match takeTile c m i 0 (chargeRead c tab (sp.1 ++ sp.2) s) with
            | (none, s) => s
            | (some t, s) =>
              let rows := bandRows d b t.xy.tr
              s.modCtx c (fun x => (countBand i t.xy.tr rows.2.1 rows.2.2 x).modStn i (fun n =>
                { n with cands := addCands w x.ag.regrowK.toNat frozen rows.1 t n.cands }))
          s.modCtx c (fun x =>
            let x := sendCands i m w (List.range (scanUnits w)) x
            x.modStn i (fun n => { n with fin := (List.range (scanUnits w)).all (fun u => n.cands.any (fun q => q.unit == u && q.sent)) }))) s

def execRegrowthScan (c : CtxId) (st : Nat) (s : State) : Host.Outcome State Fault Refusal := .next (doRegrowthScan c st s)

/-! ## Stored blocks before and after an edit -/

/-- Where a record stands: the block and the element in it. -/
abbrev RecAt := Nat × Nat

/-- 32 slots of one row: exchange block, row, columns, and where the records of the slots stand before the edit; `none` for a
position that the edit adds and for a slot without one. -/
structure SlotBlock where
  b : Nat
  row : Nat
  slots : List SlotPos
  src : List (Option RecAt)
  deriving DecidableEq, Repr

/-- The place of a block of slots. -/
def SlotBlock.place (k : SlotBlock) : RecBlock :=
  ⟨k.b, ⟨⟨k.row / 32, 0, 0, 0⟩, [], List.replicate (32 * (k.row % 32)) .none ++ k.slots⟩, k.row % 32⟩

/-- The places of the records of block `b`, by slot. -/
def ownSrc (b : Nat) (slots : List SlotPos) : List (Option RecAt) :=
  slots.zipIdx.map (fun p => match p.1 with
    | .col _ => some (b, p.2)
    | .none => none)

/-- The blocks of slots of row `r`. -/
def rowSlotBlocks (rows : List SparseRow) (r : Nat) : List SlotBlock :=
  let q := rows.getD (r % 32) emptyRow
  q.scaleIx.zipIdx.filterMap (fun p => p.1.map (fun b =>
    let cut := (q.slots.drop (32 * p.2)).take 32
    let slots := cut ++ List.replicate (32 - cut.length) SlotPos.none
    ⟨b, r, slots, ownSrc b slots⟩))

/-- A block was written to the second copy in this step. -/
def Ctx.written (x : Ctx) (k b : Nat) : Bool := x.updates.any (fun e => e.1 == k && e.2.1 == b && e.2.2)

/-- The copy that holds the block as the step leaves it: the second copy where UPDATE wrote it. -/
def blockCopy (x : Ctx) (q : UpdInfo) (b : Nat) : Nat := if x.written q.ix b then 1 - x.parity else x.parity

/-- The encoded elements and the scale of a block, as they stand. -/
def readEncoded (q : UpdInfo) (tab : List PageMap) (s : State) (g : RecBlock) (copy : Nat) : List Nat × Nat :=
  let fs := q.fields g copy
  let sva := g.scaleVa q.w (q.scaleVa copy)
  let bad := isMx q.w.format && (spanBad tab s ⟨sva, 1⟩ || fs.any (fun f => match f with
    | some f => spanBad tab s ⟨f.1, f.2.1⟩
    | none => false))
  (fs.map (fun f => match f with
    | some f =>
      if bad then 0
      else poisoned q.w.format ((leNat (readSpan tab s ⟨f.1, f.2.1⟩) >>> f.2.2.1) % 2 ^ f.2.2.2) (spanBad tab s ⟨f.1, f.2.1⟩)
    | none => 0),
    if bad then 255 else if isMx q.w.format then leNat (readSpan tab s ⟨sva, 1⟩) else 0)

/-- A stored position of a row: its column, where its record stands, and its value. -/
structure StoredPos where
  col : Nat
  src : RecAt
  val : Val
  deriving DecidableEq, Repr

/-- The stored positions of a block with their values in the updated second buffer. -/
def blockVals (x : Ctx) (q : UpdInfo) (tab : List PageMap) (s : State) (k : SlotBlock) : List StoredPos :=
  let r := readEncoded q tab s k.place (blockCopy x q k.b)
  (k.slots.zip r.1).zipIdx.filterMap (fun p => match p.1.1 with
    | .col c => some ⟨c, (k.b, p.2), decodeVal q.w.format p.1.2 r.2⟩
    | .none => none)

/-- The words of a record as the step leaves it. -/
def recordWords (x : Ctx) (q : UpdInfo) (tab : List PageMap) (s : State) (at' : RecAt) : List U32 :=
  let rec' := readRecord q tab s (blockCopy x q at'.1) at'.1
  (List.range (1 + q.u.stateWords)).map (fun wd => rec'.getD (32 * wd + at'.2) 0)

/-- What one block of the new layout is written with: its record, elements and scale, and the classes of a conversion. -/
structure BlockOut where
  g : RecBlock
  words : List U32
  enc : ConvBlock
  counted : Bool

/-- R169: a block of the new layout: `none` where it stands unchanged, its record and encoding as they were where its members moved
together, else its records collected and encoded anew. -/
def newBlockOut (x : Ctx) (q : UpdInfo) (tab : List PageMap) (s : State) (old : List SlotBlock) (k : SlotBlock) : Option BlockOut :=
  if old.contains k then none
  else
    match old.find? (fun o => o.row == k.row && o.slots == k.slots && o.src == k.src) with
    | some o =>
      let e := readEncoded q tab s o.place (blockCopy x q o.b)
      some ⟨k.place, readRecord q tab s (blockCopy x q o.b) o.b, ⟨e.1, e.2, []⟩, false⟩
    | none =>
      let ws := k.src.map (fun a => match a with
        | some a => recordWords x q tab s a
        | none => List.replicate (1 + q.u.stateWords) 0)
      let words := (List.range (1 + q.u.stateWords)).flatMap (fun wd => ws.map (fun l => l.getD wd 0))
      some ⟨k.place, words, encodeBlock x q k.place (words.take 32), true⟩

/-! ## Layout of the staged metadata -/

/-- The byte runs of one 2:4 row from its slots (R138). A malformed group keeps its form. -/
def groupedRow (slots : List SlotPos) : List Byte :=
  let nib (g : Nat) : Nat :=
    match slots.getD (2 * g) .none, slots.getD (2 * g + 1) .none with
    | .col a, .col b => a % 4 + 4 * (b % 4)
    | .col a, .none => 5 * (a % 4)
    | .none, .col b => 5 * (b % 4)
    | .none, .none => 0
  (List.range (slots.length / 4)).map (fun k => BitVec.ofNat 8 (nib (2 * k) + 16 * nib (2 * k + 1)))

/-- BPTR from the number of blocks of each row or block-row. -/
def bptrBytes (ns : List Nat) : List Byte :=
  (ns.foldl (fun (a : Nat × List Byte) n => (a.1 + n, a.2 ++ leBytes 4 (a.1 + n))) (0, leBytes 4 0)).2

/-- The staged row metadata of a UN tensor from the columns of its rows (R168), over the bytes `base` of the committed copy
for what the layout does not use (log entry 27). -/
def unMeta (d : SparseDim) (base : List Byte) (rows : List (List Nat)) : List Byte :=
  let bytes := rows.flatMap (fun cs =>
    cs.flatMap (leBytes 4) ++ (List.replicate (32 * ceilDiv cs.length 32 - cs.length) (leBytes 4 0xFFFFFFFF)).flatten)
  spliceBytes (spliceBytes base 0 (bptrBytes (rows.map (fun cs => ceilDiv cs.length 32)))) (align64 (4 * (d.rows + 1))) bytes

/-- The staged row metadata of a B16 tensor from the block-columns of its block-rows (R140). -/
def b16Meta (d : SparseDim) (base : List Byte) (rows : List (List Nat)) : List Byte :=
  let w := ceilDiv d.blockCols 64
  let bits := rows.flatMap (fun js => leBytes (8 * w) (sumNat (js.map (fun j => 2 ^ j))))
  spliceBytes (spliceBytes base 0 (bptrBytes (rows.map List.length))) (align64 (4 * (d.blockRows + 1))) bits

/-- The bytes of a derived column schedule (R142, R161). -/
def schedBytes (d : SparseDim) (bands : List (List SparseRow)) : List Byte :=
  let ls := (List.range d.dxTiles).map (deriveSched d bands)
  let head := bptrBytes (ls.map List.length)
  head ++ zeroBytes (align64 (4 * (d.dxTiles + 1)) - head.length) ++
    ls.flatten.flatMap (fun e => leBytes 4 e.1 ++ leBytes 3 e.2 ++ [0])

/-- The transposed metadata of a T24 tensor from its rows (R139): for column `c`, the nibble of each group of four rows. -/
def transposedGrouped (d : SparseDim) (bands : List (List SparseRow)) : List Byte :=
  (List.range d.cols).flatMap (fun cc =>
    let nib (a : Nat) : Nat :=
      match storedIn (bands.getD (a / 8) []) (a % 8) cc with
      | y0 :: y1 :: _ => y0 + 4 * y1
      | [y0] => 5 * y0
      | [] => 0
    (List.range (d.rows / 8)).map (fun k => BitVec.ofNat 8 (nib (2 * k) + 16 * nib (2 * k + 1))))

/-- The transposed metadata that Scribe derives from row metadata; empty for S24 and B16. -/
def derivedMeta (d : SparseDim) (b : List Byte) : List Byte :=
  let bands := (List.range d.bands).map (fun k => (bandRows d b k).1)
  match d.kind with
  | 2 => transposedGrouped d bands
  | 4 => schedBytes d bands
  | _ => []

/-- Derives the transposed metadata of copy `copy` of a mask from its row metadata, in memory (R161). -/
def deriveCopy (c : CtxId) (req : FaultReq) (d : SparseDim) (k : MaskRec) (copy : Nat) (s : State) : Bool × State :=
  if d.spanT = 0 then (true, s)
  else
    let sp : Span := ⟨metaVaOf d k copy, d.span⟩
    match access c req false false [sp] s with
    | (none, s) => (false, s)
    | (some tab, s) =>
      let bytes := derivedMeta d (readSpan tab s sp)
      putVa c req false (metaTVaOf d k copy) bytes (chargeRead c tab [sp] s)

/-! ## The edit of a 2:4 row (R166) -/

/-- The `k` positions of lowest key that a unit loses, in the order of selection, as (row within the unit, position): among equal keys
the lower column first (R164), and in one column the lower row and then the lower slot (log entry 66). -/
def pruneOrder (k : Nat) (l : List (Nat × StoredPos)) : List (Nat × StoredPos) :=
  ((sortBy pruneBefore (l.zipIdx.map (fun p => (p.1.2.col * 2 ^ 32 + p.2, keyOf p.1.2.val)))).take k).filterMap
    (fun r => l[r.1 % 2 ^ 32]?)

/-- The new columns of column group `g`: the survivors, the chosen candidates, and the pruned positions that come back. -/
def groupAfter (old pruned : List Nat) (cands : List (Nat × Key)) (g : Nat) : List Nat :=
  let inG (c : Nat) : Bool := c / 4 == g
  let was := old.filter inG
  let out := pruned.filter (fun c => inG c && was.contains c)
  let cs := sortBy regrowBefore (cands.filter (fun p => inG p.1))
  let back := (out.reverse).take (out.length - cs.length)
  let keep := was.filter (fun c => !out.contains c || back.contains c)
  keep ++ (cs.take (was.length - keep.length)).map (·.1)

/-- New slots of a 2:4 row for its new columns: kept positions keep their slot, the others fill the free slots, the empty slot of a
malformed group among them, in ascending order. -/
def refill (slots : List SlotPos) (new : List Nat) (g : Nat) : List SlotPos :=
  let pair := [slots.getD (2 * g) .none, slots.getD (2 * g + 1) .none]
  let old := pair.filterMap (fun sl => match sl with
    | .col c => some c
    | .none => none)
  let add := sortBy (fun a b => decide (a < b)) (new.filter (fun c => !old.contains c))
  (pair.foldl (fun (a : List SlotPos × List Nat) sl =>
    match sl with
    | .none =>
      (match a.2 with
        | [] => (a.1 ++ [.none], [])
        | n :: r => (a.1 ++ [.col n], r))
    | .col c =>
      if new.contains c then (a.1 ++ [.col c], a.2)
      else
        match a.2 with
        | [] => (a.1 ++ [.none], [])
        | n :: r => (a.1 ++ [.col n], r)) ([], add)).1

def colsOf (slots : List SlotPos) : List Nat :=
  slots.filterMap (fun sl => match sl with
    | .col c => some c
    | .none => none)

/-! ## Transposability (R167) -/

/-- The 16-bit word of a 4×4 block from the columns of its four rows. -/
def patternOf (rows : List (List Nat)) (g : Nat) : Nat :=
  sumNat (rows.zipIdx.map (fun p => sumNat ((p.1.filter (fun c => c / 4 == g)).map (fun c => 2 ^ (4 * p.2 + c % 4)))))

def patRow (p y : Nat) : List Nat := (List.range 4).filter (fun x => bitOf p (4 * y + x))

def patCol (p x : Nat) : List Nat := (List.range 4).filter (fun y => bitOf p (4 * y + x))

def isTransposable (p : Nat) : Bool :=
  (List.range 4).all (fun y => (patRow p y).length == 2) && (List.range 4).all (fun x => (patCol p x).length == 2)

/-- The rows of two bits. -/
def pairRows : List Nat := [3, 5, 6, 9, 10, 12]

/-- The 90 transposable patterns in ascending order. -/
def allPatterns : List Nat :=
  (pairRows.flatMap (fun d => pairRows.flatMap (fun c => pairRows.flatMap (fun b => pairRows.map (fun a =>
    a + 16 * b + 256 * c + 4096 * d))))).filter isTransposable

def bitCount (n : Nat) : Nat := (List.range 16).countP (bitOf n)

/-- The replacement of a block: the best pattern that keeps every frozen stored position and adds no frozen one. -/
def replacePattern (s24 old frozen : Nat) : Option Nat :=
  let ok := allPatterns.filter (fun p => (old &&& frozen) &&& p == old &&& frozen && (p &&& frozen) &&& old == p &&& frozen)
  ok.foldl (fun best p =>
    match best with
    | none => some p
    | some b =>
      let a := bitCount (p &&& s24)
      let a' := bitCount (b &&& s24)
      if a' < a ∨ (a = a' ∧ bitCount (b &&& old) < bitCount (p &&& old)) then some p else some b) none

/-! ## PRUNE_UNIT -/

/-- What an edit reads: the station's tensor as UPDATE places it, its mask, the decoded committed rows, the
committed row and transposed metadata, the frozen bitmaps. -/
structure EditIn where
  q : UpdInfo
  k : MaskRec
  d : SparseDim
  bands : List (List SparseRow)
  base : List Byte
  baseT : List Byte
  frozen : List Byte

def EditIn.row (e : EditIn) (r : Nat) : SparseRow := (e.bands.getD (r / 32) []).getD (r % 32) emptyRow

def EditIn.blocks (e : EditIn) (r : Nat) : List SlotBlock := rowSlotBlocks (e.bands.getD (r / 32) []) r

def EditIn.fixed (e : EditIn) (r c : Nat) : Bool := frozenAt e.q.w e.d e.frozen r c

/-- The record blocks that a unit holds. -/
def EditIn.unitBlocks (e : EditIn) (u : Nat) : List Nat := (unitRows e.d.kind u).flatMap (fun r => (e.blocks r).map (·.b))

/-- UPDATE has written every parameter of the unit: each block is done, or UPDATE has finished with its gradient. -/
def EditIn.updated (e : EditIn) (x : Ctx) (m : Image) (u : Nat) : Bool :=
  (e.unitBlocks u).all (fun b => e.q.owns b) &&
    ((e.unitBlocks u).all (x.updated e.q.ix) || (portEnded x m e.q.stn 0 && (x.stn e.q.stn).held.isEmpty))

/-- The values of a row in the updated second buffer. -/
def EditIn.rowVals (e : EditIn) (x : Ctx) (tab : List PageMap) (s : State) (r : Nat) : List StoredPos :=
  (e.blocks r).flatMap (blockVals x e.q tab s)

/-- The candidates of a scan unit that the station has received. -/
def candsOf (n : StnState) (u : Nat) : List (Nat × Key) := ((n.cands.find? (fun q => q.unit == u)).map (·.cs)).getD []

/-- The eligible stored positions of a unit, each with its row within the unit. -/
def EditIn.unitVals (e : EditIn) (x : Ctx) (tab : List PageMap) (s : State) (u : Nat) : List (Nat × StoredPos) :=
  (unitRows e.d.kind u).zipIdx.flatMap (fun r =>
    ((e.rowVals x tab s r.1).filter (fun p => !e.fixed r.1 p.col)).map (fun p => (r.2, p)))

/-- The columns of the rows of a 2:4 unit after the rule of R166: the unit, under T24 four rows, loses its positions of lowest key, and
each row takes candidates of its own. -/
def EditIn.groupedCols (e : EditIn) (x : Ctx) (n : StnState) (tab : List PageMap) (s : State) (u : Nat) : List (List Nat) :=
  let out := pruneOrder x.ag.pruneK.toNat (e.unitVals x tab s u)
  (unitRows e.d.kind u).zipIdx.map (fun r =>
    let pruned := (out.filter (fun p => p.1 == r.2)).map (·.2.col)
    (List.range (e.d.cols / 4)).flatMap (groupAfter (colsOf (e.row r.1).slots) pruned (candsOf n r.1)))

/-- The new columns of each row of a 2:4 unit, and the number of replaced blocks (R167). -/
def EditIn.unitCols (e : EditIn) (x : Ctx) (n : StnState) (tab : List PageMap) (s : State) (u : Nat) : List (List Nat) × Nat :=
  let rs := unitRows e.d.kind u
  let old := rs.map (fun r => colsOf (e.row r).slots)
  let new := e.groupedCols x n tab s u
  if e.d.kind = 1 then (new, 0)
  else
    let fix (g : Nat) : Nat × Bool :=
      let p := patternOf new g
      if isTransposable p then (p, false)
      else
        let was := patternOf old g
        let fz := sumNat (rs.zipIdx.map (fun r => sumNat ((List.range 4).map (fun c => if e.fixed r.1 (4 * g + c) then 2 ^ (4 * r.2 + c) else 0))))
        match replacePattern p was fz with
        | some k => (k, true)
        | none => (was, false)
    let ps := (List.range (e.d.cols / 4)).map fix
    ((List.range 4).map (fun y => ps.zipIdx.flatMap (fun p => (patRow p.1.1 y).map (· + 4 * p.2))), ps.countP (·.2))

/-- The positions of one list that another lacks. -/
def lessCount (a b : List Nat) : Nat := a.countP (fun c => !b.contains c)

/-- The counts of an edit: pruned, regrown, replaced blocks, withdrawn for capacity. -/
structure EditCounts where
  pruned : Nat
  regrown : Nat
  fixes : Nat
  caps : Nat
  deriving DecidableEq, Repr

def countEdit (r : EditCounts) (x : Ctx) : Ctx :=
  x.count (fun k => { k with scribe := (((k.scribe.set 0 (satAdd k.scribe[0] r.pruned)).set 1 (satAdd k.scribe[1] r.regrown)).set 2
    (satAdd k.scribe[2] r.fixes)).set 3 (satAdd k.scribe[3] r.caps) })

/-- The B16 or UN items of a unit before the edit: columns, or block-columns. -/
def EditIn.items (e : EditIn) (u : Nat) : List Nat :=
  if e.d.kind = 3 then nubBy ((colsOf (e.row (16 * u)).slots).map (· / 16)) else colsOf (e.row u).slots

/-- An item of a B16 or UN unit in the new layout: its block-column or column, and for a UN position that stays where its record
stands. -/
abbrev Item := Nat × Option RecAt

/-- What stays of a B16 or UN unit when it has lost its items of lowest key (R166). -/
def EditIn.survivors (e : EditIn) (x : Ctx) (tab : List PageMap) (s : State) (u : Nat) : List Item :=
  if e.d.kind = 3 then
    let vals := (unitRows 3 u).map (e.rowVals x tab s)
    let keys := (e.items u).filterMap (fun j =>
      if (unitRows 3 u).any (fun r => (List.range 16).any (fun c => e.fixed r (16 * j + c))) then none
      else some (j, sumKeys (vals.flatMap (fun l => (l.filter (fun p => p.col / 16 == j)).map (fun p => keyOf p.val)))))
    let out := ((sortBy pruneBefore keys).take x.ag.pruneK.toNat).map (·.1)
    ((e.items u).filter (fun j => !out.contains j)).map (fun j => (j, none))
  else
    let out := (pruneOrder x.ag.pruneK.toNat (e.unitVals x tab s u)).map (·.2.src)
    (e.blocks u).flatMap (fun k => (k.slots.zip k.src).filterMap (fun p => match p.1, p.2 with
      | .col c, some a => if out.contains a then none else some (c, some a)
      | _, _ => none))

/-- Survivors and regrown items (in rank order) of a B16 or UN unit. -/
def EditIn.unitItems (e : EditIn) (x : Ctx) (n : StnState) (tab : List PageMap) (s : State) (u : Nat) : List Item × List Nat :=
  (e.survivors x tab s u, ((sortBy regrowBefore (candsOf n u)).take x.ag.regrowK.toNat).map (·.1))

/-- Blocks that a unit takes. -/
def itemBlocks (kind : Nat) (p : List Item × List Nat) : Nat :=
  let n := p.1.length + p.2.length
  if kind = 3 then n else ceilDiv n 32

/-- Withdraws the lowest-ranked regrown item of a unit until `over` blocks are freed or none is left: the item lists, what is
still over, and how many were withdrawn. -/
def withdrawUnit (kind : Nat) : Nat → List Item × List Nat → Nat → Nat → (List Item × List Nat) × Nat × Nat
  | 0, p, excess, w => (p, excess, w)
  | n + 1, p, excess, w =>
    if excess = 0 ∨ p.2.isEmpty then (p, excess, w)
    else
      let q := (p.1, p.2.dropLast)
      withdrawUnit kind n q (excess - (itemBlocks kind p - itemBlocks kind q)) (w + 1)

/-- R168: from the highest unit down. -/
def withdrawAll (kind cap : Nat) (l : List (List Item × List Nat)) : List (List Item × List Nat) × Nat :=
  let total := sumNat (l.map (itemBlocks kind))
  let r := l.foldr (fun p (a : List (List Item × List Nat) × Nat × Nat) =>
    let t := withdrawUnit kind (p.2.length + 1) p a.2.1 a.2.2
    (t.1 :: a.1, t.2.1, t.2.2)) ([], total - cap, 0)
  (r.1, r.2.2)

/-- The items of a unit in ascending order. -/
def inOrder (p : List Item × List Nat) : List Item := sortBy (fun a b => decide (a.1 < b.1)) (p.1 ++ p.2.map (fun c => (c, none)))

/-- Reads and pages of an edit, then its writes: blocks of the second copy with divergence bits, staged metadata runs, and
the transposed metadata. Answers whether it is done. -/
def applyEdit (c : CtxId) (i : Nat) (e : EditIn) (old new : List SlotBlock) (tabR : List PageMap) (reads : List Span)
    (metas : List (Nat × List Byte)) (nibs : List FieldPut) (counts : EditCounts) (s : State) : Bool × State :=
  let x := s.ctx c
  let toR := 1 - x.parity
  let outs := new.filterMap (newBlockOut x e.q tabR s old)
  let wr := outs.flatMap (fun o => e.q.blockSpans o.g toR ++ e.q.divSpans [o.g.b - e.q.b0]) ++
    metas.map (fun r => (⟨r.1, r.2.length⟩ : Span)) ++ nibs.map (fun f => ⟨f.va, f.n⟩)
  match access c (reqStation i) false true wr s with
  | (none, s) => (false, s)
  | (some tab, s) =>
    let puts := outs.flatMap (fun o => e.q.blockPuts o.g toR o.enc) ++
      mergeFields (outs.flatMap (fun o => e.q.divPuts [o.g.b - e.q.b0]) ++ nibs)
    let runs := outs.map (fun o => (e.q.recVa toR o.g.b, o.words.flatMap (fun a => leBytes 4 a.toNat))) ++
      puts.map (fun f => (f.va, f.bytes tab s)) ++ metas
    let s := writeRuns c tab (joinRuns runs) (chargeRead c tabR reads s)
    (true, s.modCtx c (fun x =>
      let x := outs.foldl (fun y o =>
        let y := if o.counted then y.count (gaugeClasses e.q.w.format (blockClasses e.q o.g o.enc)) else y
        { y with updates := y.updates ++ [(e.q.ix, o.g.b, true)] }) x
      countEdit counts x))

/-- The spans of the blocks as the step leaves them. -/
def blockReads (x : Ctx) (q : UpdInfo) (l : List SlotBlock) : List Span :=
  l.flatMap (fun k => q.blockSpans k.place (blockCopy x q k.b))

/-- A block with other slots: a slot of the same column as before keeps its record. -/
def SlotBlock.refilled (k : SlotBlock) (slots : List SlotPos) : SlotBlock :=
  { k with slots := slots, src := (slots.zip (k.slots.zip k.src)).map (fun p => if p.1 = p.2.1 then p.2.2 else none) }

/-- The edit of one 2:4 unit, written at once. -/
def editGrouped (c : CtxId) (i : Nat) (e : EditIn) (u : Nat) (s : State) : Bool × State :=
  let x := s.ctx c
  let n := x.stn i
  let rs := unitRows e.d.kind u
  let old := rs.flatMap e.blocks
  let reads := blockReads x e.q old
  match access c (reqStation i) false false reads s with
  | (none, s) => (false, s)
  | (some tab, s) =>
    let r := e.unitCols x n tab s u
    let slots := (rs.zip r.1).map (fun p =>
      (p.1, (List.range (e.d.cols / 4)).flatMap (refill (e.row p.1).slots p.2)))
    let new := slots.flatMap (fun p => (e.blocks p.1).zipIdx.map (fun b => b.1.refilled ((p.2.drop (32 * b.2)).take 32)))
    let copy := 1 - x.maskGen e.q.w.mask % 2
    let metas := slots.map (fun p => (metaVaOf e.d e.k copy + p.1 * (e.d.cols / 8), groupedRow p.2))
    let nibs := if e.d.kind = 2 then
        (List.range e.d.cols).map (fun cc =>
          let ys := (slots.zipIdx.filter (fun p => p.1.2.contains (.col cc))).map (·.2)
          let v := match ys with
            | a :: b :: _ => a + 4 * b
            | [a] => 5 * a
            | [] => 0
          fieldPut (metaTVaOf e.d e.k copy + cc * (e.d.rows / 8) + u / 2, 1, 4 * (u % 2), 4) v)
      else []
    let was := rs.map (fun r => colsOf (e.row r).slots)
    let pairs := was.zip (slots.map (fun p => colsOf p.2))
    applyEdit c i e old new tab reads metas nibs
      ⟨sumNat (pairs.map (fun p => lessCount p.1 p.2)), sumNat (pairs.map (fun p => lessCount p.2 p.1)), r.2, 0⟩ s

/-- The slots of the new layout of a B16 tensor as blocks; a position that was stored keeps its record. -/
def blockLayout (e : EditIn) (items : List (List Item)) : List SlotBlock :=
  let was (r c : Nat) : Option RecAt :=
    ((e.blocks r).find? (fun k => k.slots.contains (.col c))).map (fun k => (k.b, (k.slots.findIdx? (· == .col c)).getD 0))
  (items.foldl (fun (a : Nat × Nat × List SlotBlock) js =>
    let bs := (List.range (ceilDiv js.length 2)).flatMap (fun p => (List.range 16).map (fun y =>
      let cols := (List.range 32).map (fun k => (js[2 * p + k / 16]?).map (fun j => 16 * j.1 + k % 16))
      ({ b := 16 * (a.1 + 2 * p) + y, row := 16 * a.2.1 + y,
         slots := cols.map (fun c => match c with
           | some c => .col c
           | none => .none)
         src := cols.map (fun c => c.bind (was (16 * a.2.1 + y))) } : SlotBlock)))
    (a.1 + js.length, a.2.1 + 1, a.2.2 ++ bs)) (0, 0, [])).2.2

/-- The slots of the new layout of a UN tensor as blocks. -/
def rowLayout (items : List (List Item)) : List SlotBlock :=
  (items.foldl (fun (a : Nat × Nat × List SlotBlock) cs =>
    let bs := (List.range (ceilDiv cs.length 32)).map (fun p =>
      let cut := (cs.drop (32 * p)).take 32
      let pad := 32 - cut.length
      ({ b := a.1 + p, row := a.2.1, slots := cut.map (fun c => SlotPos.col c.1) ++ List.replicate pad .none,
         src := cut.map (·.2) ++ List.replicate pad none } : SlotBlock))
    (a.1 + bs.length, a.2.1 + 1, a.2.2 ++ bs)) (0, 0, [])).2.2

/-- The edit of a whole UN or B16 tensor, when its last unit is there (R168). -/
def editPacked (c : CtxId) (i : Nat) (e : EditIn) (s : State) : Bool × State :=
  let x := s.ctx c
  let n := x.stn i
  let us := List.range (unitCount e.q.w)
  let old := (List.range e.d.rows).flatMap e.blocks
  let reads := blockReads x e.q old
  match access c (reqStation i) false false reads s with
  | (none, s) => (false, s)
  | (some tab, s) =>
    let w := withdrawAll e.d.kind e.d.capacity (us.map (e.unitItems x n tab s))
    let items := w.1.map inOrder
    let cols := items.map (fun l => l.map (·.1))
    let bytes := if e.d.kind = 3 then b16Meta e.d e.base cols else unMeta e.d e.base cols
    let copy := 1 - x.maskGen e.q.w.mask % 2
    let tm := derivedMeta e.d bytes
    let metas := (metaVaOf e.d e.k copy, bytes) :: (if tm.isEmpty then [] else [(metaTVaOf e.d e.k copy, tm)])
    let pairs := (us.map e.items).zip items
    applyEdit c i e old (if e.d.kind = 3 then blockLayout e items else rowLayout items) tab reads metas []
      ⟨sumNat (pairs.map (fun p => p.1.length)) - sumNat (w.1.map (fun p => p.1.length)), sumNat (w.1.map (fun p => p.2.length)), 0, w.2⟩ s

/-- A tensor with FRZA: the staged copy, transposed metadata included, is written as the committed one (R171). -/
def copyMeta (c : CtxId) (i : Nat) (e : EditIn) (s : State) : Bool × State :=
  let copy := 1 - (s.ctx c).maskGen e.q.w.mask % 2
  putMany c (reqStation i) false
    ((metaVaOf e.d e.k copy, e.base) :: (if e.baseT.isEmpty then [] else [(metaTVaOf e.d e.k copy, e.baseT)])) s

/-- Takes the tiles that wait: the gradient tiles are for pacing, the candidate lists are kept. -/
def takePruneInputs (c : CtxId) (m : Image) (i : Nat) (s : State) : State :=
  let s := s.each (List.range (waitingOn (s.ctx c) m i 0)) (fun _ t => (takeTile c m i 0 t).2)
  s.each (List.range (waitingOn (s.ctx c) m i 1)) (fun _ t =>
    match takeTile c m i 1 t with
    | (some tl, t) =>
      (match tl.payload with
      | .cands u cs => t.modCtx c (fun x => x.modStn i (fun n => { n with cands := n.cands ++ [⟨u, 0, cs, false⟩] }))
      | _ => t)
    | (none, t) => t)

/-- The tile of the new metadata of unit `u`, from the staged copy. -/
def unitMetaTile (e : EditIn) (staged : List Byte) (u : Nat) : Tile :=
  let r0 := (unitRows e.d.kind u).headD 0
  let band := r0 / 32
  let rows := (bandRows e.d staged band).1
  { xy := ⟨u, 0, 0, 0⟩
    payload := .band
      { band := band, bands := e.d.bands, errs := 0, drops := 0, sched := none, tErrs := 0, tDrops := 0,
        rows := rows.zipIdx.map (fun p => if (unitRows e.d.kind u).contains (32 * band + p.2) then p.1.slots else []) } }

/-- Emits the new metadata of edited units, as far as the output has room. -/
def emitUnits (i : Nat) (m : Image) (e : EditIn) (staged : List Byte) : List Nat → Ctx → Ctx
  | [], x => x
  | u :: us, x =>
    if (x.stn i).emitted.contains ⟨u, 0, 0, 0⟩ then emitUnits i m e staged us x
    else if x.room m i 0 then
      emitUnits i m e staged us ((x.push m i 0 (unitMetaTile e staged u)).modStn i (fun n => { n with emitted := n.emitted ++ [⟨u, 0, 0, 0⟩] }))
    else x

/-- After every unit: the mask is edited, its next digest fixed (R160), and the metadata of edited units goes out. -/
def finishPrune (c : CtxId) (i : Nat) (m : Image) (e : EditIn) (s : State) : State :=
  let n := (s.ctx c).stn i
  let all := unitCount e.q.w
  let whole := decide (all ≤ n.units.length)
  if !whole && (!e.d.grouped || e.q.w.mode mFRZA || n.units.isEmpty) then s
  else
    let sp : Span := ⟨metaVaOf e.d e.k (1 - (s.ctx c).maskGen e.q.w.mask % 2), e.d.span⟩
    match access c (reqStation i) false false [sp] s with
    | (none, s) => s
    | (some tab, s) =>
      let staged := readSpan tab s sp
      let s := s.modCtx c (emitUnits i m e staged (if e.d.grouped then n.units else List.range all))
      if whole then
        s.modCtx c (fun x =>
          let x := { x with masks := x.masks.set e.q.w.mask { x.masks.getD e.q.w.mask {} with edited := true, nextDigest := crc64 staged } }
          x.modStn i (fun n => { n with fin := decide (all ≤ n.emitted.length) }))
      else s

/-- The unit's edit, or its mark where the whole tensor is edited at the last unit. -/
def editUnit (c : CtxId) (i : Nat) (m : Image) (e : EditIn) (u : Nat) (s : State) : State :=
  let x := s.ctx c
  let n := x.stn i
  let all := unitCount e.q.w
  let mark (s : State) : State := s.modCtx c (fun x => x.modStn i (fun n => { n with units := n.units ++ [u] }))
  if n.units.contains u || decide (all ≤ u) then s
  else if e.q.w.mode mFRZA then
    if n.units.length + 1 < all then mark s
    else
      match copyMeta c i e s with
      | (true, s) => mark s
      | (false, s) => s
  else
    let lists := if m.fed i 1 then
        (if e.d.kind = 3 then [u] else unitRows e.d.kind u).all (fun k => n.cands.any (fun q => q.unit == k))
      else true
    if !(lists && e.updated x m u) then s
    else if e.d.grouped then
      match editGrouped c i e u s with
      | (true, s) => mark s
      | (false, s) => s
    else if n.units.length + 1 < all then mark s
    else
      match editPacked c i e s with
      | (true, s) => mark s
      | (false, s) => s

/-- W as its UPDATE places it; a tensor with FRZA needs no UPDATE, and nothing of its values is read or written. -/
def pruneInfo (x : Ctx) (m : Image) (ti : Nat) (w : TensorRec) : Option UpdInfo :=
  match (updateFor m ti).bind (fun p => updInfo x m p.1) with
  | some q => some q
  | none =>
    if w.mode mFRZA then some ⟨0, 0, ⟨0, 0, 0, 1, 0, 0, 0, 0, 0, 0, 0, 0, 0⟩, ti, w, none, 0, 1, 0⟩ else none

/-- PRUNE_UNIT of station `i`: unit `u` of its mask. -/
def doPruneUnit (c : CtxId) (i u : Nat) (s : State) : State :=
  withStation c i kSCRIBE (fun m st s =>
    match (if st.o 0 1 = 1 then m.tensor st.tensor else none) with
    | none => s
    | some w =>
      match m.masks[w.mask]?, pruneInfo (s.ctx c) m st.tensor w with
      | some k, some q =>
        let s := takePruneInputs c m i s
        let sp := reduceSpans (s.ctx c) m st w
        match access c (reqStation i) false false (sp.1 ++ sp.2) s with
        | (none, s) => s
        | (some tab, s) =>
          let d := sparseDim w k
          let base := readMeta (s.ctx c) tab s d k w.mask
          let all := (List.range d.bands).map (bandRows d base.1)
          let e : EditIn := ⟨q, k, d, all.map (·.1), base.1, base.2, sp.2.flatMap (readSpan tab s)⟩
          let s := (chargeRead c tab (sp.1 ++ sp.2) s).modCtx c (fun x =>
            all.zipIdx.foldl (fun y b => countBand i b.2 b.1.2.1 b.1.2.2 y) x)
          finishPrune c i m e (editUnit c i m e u s)
      | _, _ => s) s

def execPruneUnit (c : CtxId) (st : Nat) (u : Nat) (s : State) : Host.Outcome State Fault Refusal := .next (doPruneUnit c st u s)

/-! ## TRANSPOSE_META (R154, R161) -/

/-- The 4×4 blocks of a T24 band that are not transposable. -/
def brokenBlocks (d : SparseDim) (rows : List SparseRow) : Nat :=
  ((List.range 8).flatMap (fun a => (List.range (d.cols / 4)).map (fun g =>
    (List.range 4).all (fun k => (storedIn rows a (4 * g + k)).length == 2)))).countP (!·)

/-- The band with the transposed metadata that Scribe derives. -/
def derivedBand (d : SparseDim) (b : BandMeta) : BandMeta :=
  let asRow (l : List SlotPos) : SparseRow := ⟨l, [], [], 0, 0⟩
  let rows := b.rows.map asRow
  { b with
    sched := if d.kind = 4 then
        some ((List.range d.dxTiles).flatMap (fun j => (deriveSched d [rows] j).map (fun e => (j, e.2))))
      else none,
    tErrs := if d.kind = 2 then brokenBlocks d rows else 0, tDrops := 0 }

/-- Emits the transposed metadata of a band and counts its row metadata once. -/
def emitDerived (i : Nat) (m : Image) (d : SparseDim) (b : BandMeta) (x : Ctx) : Ctx :=
  let x := countBand i b.band b.errs b.drops x
  let x := x.push m i 0 { xy := ⟨b.band, 0, 0, 0⟩, payload := .band (derivedBand d b) }
  x.modStn i (fun n => { n with next := n.next + 1, fin := decide (d.bands ≤ n.next + 1) })

/-- TRANSPOSE_META of station `i`: the next band, from its META port or the committed copy. -/
def doTransposeMeta (c : CtxId) (i : Nat) (s : State) : State :=
  withStation c i kSCRIBE (fun m st s =>
    match (if st.o 0 1 = 3 then m.tensor st.tensor else none) with
    | none => s
    | some w =>
      match m.masks[w.mask]? with
      | none => s
      | some k =>
        let d := sparseDim w k
        let s := s.each (List.range (waitingOn (s.ctx c) m i 0)) (fun _ t => (takeTile c m i 0 t).2)
        if ((s.ctx c).stn i).fin || !(s.ctx c).room m i 0 then s
        else if m.fed i 1 then
          match takeTile c m i 1 s with
          | (none, s) => s
          | (some t, s) =>
            match t.payload with
            | .band b => s.modCtx c (emitDerived i m d b)
            | _ => s
        else
          let sp : Span := ⟨metaVaOf d k ((s.ctx c).maskGen w.mask % 2), d.span⟩
          match access c (reqStation i) false false [sp] s with
          | (none, s) => s
          | (some tab, s) =>
            match (bandMetas d (readSpan tab s sp) [])[((s.ctx c).stn i).next]? with
            | none => s
            | some b => (chargeRead c tab [sp] s).modCtx c (emitDerived i m d b)) s

def execTransposeMeta (c : CtxId) (st : Nat) (s : State) : Host.Outcome State Fault Refusal := .next (doTransposeMeta c st s)

end Sys2Proof.Machine
end

