-- ==== Sys2Proof/Machine/Witness.lean ====
section
/-! DEFINITION. The digests of a step (R308 to R310) and the Witness record (R311 to R313). -/

namespace Sys2Proof.Machine

open Sys2Proof

/-- Gauge and Witness tables (REQ_KIND 5). -/
def reqGauge : FaultReq := reqTable 0

/-! ## Units in memory (R309) -/

/-- What the layer digest of one UPDATE record reads: the metadata that place its blocks, and the divergence bits. -/
def digestHead (x : Ctx) (m : Image) (q : UpdInfo) : List Span × Span :=
  ((reduceSpans x m (m.station q.stn) q.w).1, ⟨q.divVa (1 - x.parity), ceilDiv q.units 8⟩)

/-- The kind 1 bytes of a block: its record, its encoded value field, and its scale byte for an MX format. -/
def blockUnit (q : UpdInfo) (tab : List PageMap) (s : State) (g : RecBlock) (copy : Nat) : List Byte :=
  let raw (f : Nat × Nat × Nat × Nat) : Nat := (leNat (readSpan tab s ⟨f.1, f.2.1⟩) >>> f.2.2.1) % 2 ^ f.2.2.2
  readSpan tab s ⟨q.recVa copy g.b, q.rb⟩ ++
    packElems q.w.format ((q.fields g copy).map (fun f => (f.map raw).getD 0)) ++
    (if isMx q.w.format then readSpan tab s ⟨g.scaleVa q.w (q.scaleVa copy), 1⟩ else [])

def foldXor (l : List U64) : U64 := l.foldl (fun a b => a ^^^ b) 0

/-- The fold of the units of kinds 1 to 3 of one UPDATE record; `none` where a page fault stops the reading. -/
def recordFold (c : CtxId) (m : Image) (q : UpdInfo) (s : State) : Option U64 × State :=
  let x := s.ctx c
  let toR := 1 - x.parity
  let h := digestHead x m q
  match access c reqGauge false false (h.1 ++ [h.2]) s with
  | (none, s) => (none, s)
  | (some tab0, s) =>
    let shape := shapeOf x m q.w tab0 s
    let bits := bitsOf q.units (readSpan tab0 s h.2)
    let us := (List.range q.units).filter (fun u => bits.getD u false)
    let blocks := (us.filter (fun u => decide (u < q.nr))).map (fun u => unitBlock shape (q.b0 + u))
    let grps := (us.filter (fun u => decide (q.nr ≤ u))).map (fun u => u - q.nr)
    let grpSpan (k : Nat) : Span := ⟨q.statVa toR + 0x40 + 64 * k, 64⟩
    let stat : List Span := if x.statsDone.contains q.ix then [⟨q.statVa toR, q.tspan⟩] else []
    let spans := blocks.flatMap (fun g => q.blockSpans g toR) ++ grps.map grpSpan ++ stat
    match access c reqGauge false false spans s with
    | (none, s) => (none, s)
    | (some tab, s) =>
      let k1 := blocks.map (fun g => unitCrc q.w.tensorId 1 0 g.b (blockUnit q tab s g toR))
      let k2 := grps.map (fun k => unitCrc q.w.tensorId 2 0 k (readSpan tab s (grpSpan k)))
      let k3 := stat.map (fun sp => unitCrc q.w.tensorId 3 0 0 (readSpan tab s sp))
      (some (foldXor (k1 ++ k2 ++ k3)), chargeRead c (tab0 ++ tab) (h.1 ++ [h.2] ++ spans) s)

/-- The layer digests, from each UPDATE record's fold in its station's layer. -/
def layerFolds (c : CtxId) (m : Image) : List UpdInfo → List U64 → State → Option (List U64) × State
  | [], acc, s => (some acc, s)
  | q :: qs, acc, s =>
    match recordFold c m q s with
    | (none, s) => (none, s)
    | (some d, s) =>
      let l := (m.station q.stn).layer
      layerFolds c m qs (acc.set l (acc.getD l 0 ^^^ d)) s

/-- The thinning stations whose state copy the step has written: station, address and length (R273). -/
def thinCopies (x : Ctx) (m : Image) : List (Nat × Span) :=
  (List.range m.stations.length).filterMap (fun i =>
    let st := m.station i
    match m.tensor st.tensor, x.inst i 2 with
    | some w, some n =>
      if st.kind = kREDUCE ∧ st.o 1 1 = 1 ∧ n.complete = true then
        let len := thinSpan (st.o 2 1) (w.ext 0) (w.ext 1)
        some (w.tensorId, ⟨st.o 8 8 + (1 - x.parity) * align64 len, len⟩)
      else none
    | _, _ => none)

/-- The local digest. -/
def localFold (c : CtxId) (m : Image) (s : State) : Option U64 × State :=
  let cs := thinCopies (s.ctx c) m
  match access c reqGauge false false (cs.map (·.2)) s with
  | (none, s) => (none, s)
  | (some tab, s) =>
    (some (foldXor (cs.map (fun p => unitCrc p.1 4 0 0 (readSpan tab s p.2)))), chargeRead c tab (cs.map (·.2)) s)

/-! ## Mask digests (R160) -/

/-- The first tensor of the image that names mask `k` in its structure. -/
def maskTensor (m : Image) (k : Nat) : Option TensorRec := m.tensors.find? (fun t => t.sparse != 0 && t.mask == k)

/-- The committed row metadata copy of mask `k`. -/
def maskSpan (x : Ctx) (m : Image) (k : Nat) : Span :=
  match maskTensor m k, m.masks[k]? with
  | some w, some r =>
    let d := sparseDim w r
    ⟨metaVaOf d r (x.maskGen k % 2), d.span⟩
  | _, _ => ⟨0, 0⟩

/-- The digest of each mask as it will stand after the commit: fixed by its edit, or that of its committed copy. -/
def maskDigests (c : CtxId) (m : Image) : List Nat → List U64 → State → Option (List U64) × State
  | [], acc, s => (some acc, s)
  | k :: ks, acc, s =>
    let x := s.ctx c
    let r := x.masks.getD k {}
    if r.edited then maskDigests c m ks (acc ++ [r.nextDigest]) s
    else
      match fetchVa c reqGauge false (maskSpan x m k) s with
      | (none, s) => (none, s)
      | (some b, s) => maskDigests c m ks (acc ++ [crc64 b.1]) s

/-- The 16-byte entry of a mask as it will stand after the commit. -/
def maskEntry (x : Ctx) (m : Image) (k : Nat) (d : U64) : List Byte :=
  let r := x.masks.getD k {}
  leBytes 4 (((m.masks[k]?).map (·.maskId)).getD 0) ++ leBytes 4 ((if r.edited then r.gen + 1 else r.gen).toNat) ++ leBytes 8 d.toNat

/-! ## The record (R312, R313) -/

/-- The live log as LIVE and POOL entries. -/
def liveEntries (log : List LiveEntry) : List Byte × List Byte :=
  (log.foldl (fun (a : (List Byte × List Byte) × Nat) e =>
    ((a.1.1 ++ leBytes 2 e.fieldId ++ leBytes 1 e.pool.length ++ leBytes 1 a.2 ++ leBytes 4 e.value.toNat ++ zeroBytes 8,
      a.1.2 ++ e.pool.flatMap (fun p => leBytes 2 p.1 ++ zeroBytes 2 ++ leBytes 4 (p.2.getD 0xFFFFFFFF))), a.2 + e.pool.length))
    (([], []), 0)).1

/-- The OPTIM table. -/
def optimBytes (a : AgVals) : List Byte :=
  (List.finRange 64).flatMap (fun p =>
    [a.lr[p], a.beta1[p], a.beta2[p], a.eps[p], a.decay[p]].flatMap (fun w => leBytes 4 w.toNat))

/-- Puts fields at their offsets into a string of bytes. -/
def putFields (base : List Byte) (fs : List (Nat × List Byte)) : List Byte := fs.foldl (fun b f => spliceBytes b f.1 f.2) base

/-- The digests that a record carries. -/
structure Digests where
  layers : List U64
  shard : U64
  localD : U64
  masks : List Byte
  deriving DecidableEq, Repr

def shardDigest (layers : List U64) (masks : List Byte) : U64 := crc64 (layers.flatMap (fun d => leBytes 8 d.toNat) ++ masks)

/-- LIVE_COUNT, POOL_COUNT, LIVE and POOL (R313). -/
def liveFields (w : Witness) : List (Nat × List Byte) :=
  let live := liveEntries w.log
  [(0x102, leBytes 1 w.log.length), (0x103, leBytes 1 (live.2.length / 8)), (0x110, live.1), (0x190, live.2)]

/-- The values that a numeric policy read: from the reference in a replay (R319), else as they stood. -/
def policyFields (x : Ctx) : List (Nat × List Byte) :=
  if x.wit.replaying then
    let r := x.wit.refRecord
    [(0x60, (r.drop 0x60).take 0x40), (0x102, (r.drop 0x102).take 2), (0x110, (r.drop 0x110).take 0x380), (0x500, (r.drop 0x500).take 0x500)]
  else
    let a := x.visible
    let w := x.wit
    [(0x60, leBytes 8 a.runSeed.toNat), (0x68, leBytes 1 (b2n a.srEnable)), (0x69, leBytes 1 a.ovfMode.toNat),
      (0x6A, leBytes 1 a.scaleDelay.toNat), (0x6B, leBytes 1 (b2n a.policyEnable)), (0x6C, leBytes 4 a.prunePeriod.toNat),
      (0x70, leBytes 2 a.pruneK.toNat), (0x72, leBytes 2 a.regrowK.toNat), (0x78, leBytes 8 a.pruneStart.toNat),
      (0x80, leBytes 4 w.first.predThresh.toNat), (0x84, leBytes 4 w.first.shadowShare.toNat), (0x88, leBytes 4 w.first.satThresh.toNat),
      (0x90, leBytes 4 w.closing.w0.toNat ++ leBytes 4 w.closing.w1.toNat ++ leBytes 4 w.closing.patience.toNat ++
        leBytes 4 (w.closing.hi.toNat * 16 + w.closing.lo.toNat)),
      (0x500, optimBytes a)] ++ liveFields w

/-- Bytes 0x000 to 0xFDF of the record, STATUS 0. -/
def recordBytes (c : CtxId) (x : Ctx) (m : Image) (fw : U32) (time : U64) (d : Digests) : List Byte :=
  let w := x.wit
  putFields (zeroBytes 0xFE0)
    ([(0x00, leBytes 4 0x4E544957), (0x04, leBytes 2 1), (0x06, leBytes 2 1), (0x08, leBytes 8 x.step.toNat),
      (0x10, leBytes 4 m.generation.toNat), (0x14, leBytes 1 c.val), (0x16, leBytes 2 w.attempt.toNat), (0x18, leBytes 4 fw.toNat),
      (0x20, m.hash), (0x40, w.chain)] ++ policyFields x ++
     [(0xA0, leBytes 8 d.shard.toNat), (0xA8, leBytes 8 d.localD.toNat), (0xB0, leBytes 8 (gaugeDigest x m).toNat),
      (0xB8, leBytes 8 w.folds.exchange.toNat), (0xC0, leBytes 8 w.folds.contrib.toNat), (0xC8, leBytes 8 w.counts.metaDrop),
      (0xD0, leBytes 8 w.counts.metaErr), (0xD8, leBytes 8 w.counts.skip), (0xE0, leBytes 8 w.counts.sample),
      (0xE8, leBytes 8 w.counts.miss), (0xF0, leBytes 8 w.counts.lost), (0xF8, leBytes 8 time.toNat),
      (0x100, leBytes 2 m.layerCount), (0xA00, leBytes 4 m.masks.length),
      (0xA08, leBytes 8 (if m.masks.length ≤ 93 then 0 else (crc64 (d.masks.drop (16 * 93))).toNat)), (0xA10, d.masks.take (16 * 93))])

/-- The address of the ring slot and of the digest slot of the next record, where there are any (R311). -/
def logSlot (x : Ctx) (m : Image) : Option (Nat × Option Nat) :=
  let w := x.wit
  if w.logDepth = 0 then none
  else
    let slot := w.logHead.toNat % w.logDepth.toNat
    some (w.logVa.toNat * 4096 + 4096 * slot,
      if w.ldigVa = 0 then none else some (w.ldigVa.toNat * 64 + slot * align64 (8 * m.layerCount + 16 * m.masks.length)))

/-- R23 step 2: every digest, then the record (except STATUS and RECORD_HASH) and the digest slot; answers whether it is
done. -/
def writeRecord (c : CtxId) (m : Image) (s : State) : Bool × State :=
  match layerFolds c m (allUpdates (s.ctx c) m) (List.replicate m.layerCount 0) s with
  | (none, s) => (false, s)
  | (some layers, s) =>
    match localFold c m s with
    | (none, s) => (false, s)
    | (some loc, s) =>
      match maskDigests c m (List.range m.masks.length) [] s with
      | (none, s) => (false, s)
      | (some ds, s) =>
        let x := s.ctx c
        let masks := ds.zipIdx.flatMap (fun p => maskEntry x m p.2 p.1)
        let d : Digests := ⟨layers, shardDigest layers masks, loc, masks⟩
        let bs := recordBytes c x m s.sec.fwVersion s.pwr.time d
        let runs : List (Nat × List Byte) :=
          match logSlot x m with
          | none => []
          | some a => [(a.1, bs.take 0x15), (a.1 + 0x16, bs.drop 0x16)] ++
              (match a.2 with
                | some l => [(l, layers.flatMap (fun d => leBytes 8 d.toNat) ++ masks)]
                | none => [])
        match putMany c reqGauge false runs s with
        | (false, s) => (false, s)
        | (true, s) =>
          (true, s.modCtx c (fun x =>
            { x with masks := x.masks.zipIdx.map (fun p => if p.1.edited then p.1 else { p.1 with digest := ds.getD p.2 0 }),
                     wit := { x.wit with record := bs, shardDigest := d.shard, layerDigests := layers, compared := [] } }))

/-! ## Completing a record (R311 step 4, R392) -/

/-- STATUS of R312. -/
def statusByte (x : Ctx) (unsealed : Bool) : Nat :=
  b2n x.suspResidue + 2 * b2n x.suspEcc + 4 * b2n x.suspDigest + 8 * b2n x.wit.replaying + 16 * b2n unsealed

/-- The record as step 2 fixed it, with the numeric live writes that came after it while the step was in progress (R64,
log entry 76). -/
def lateRecord (x : Ctx) : List Byte :=
  if x.wit.replaying then x.wit.record else putFields x.wit.record (liveFields x.wit)

/-- The whole record with its hash. -/
def completeRecord (x : Ctx) (unsealed : Bool) : List Byte :=
  let b := spliceBytes (lateRecord x) 0x15 (leBytes 1 (statusByte x unsealed))
  b ++ sha256 b

/-- The bytes of the live log in a record, from LIVE_COUNT to the last pool entry. -/
def liveArea (r : List Byte) : List Byte := (r.drop 0x102).take 0x38E

/-- Writes STATUS and RECORD_HASH, and the live log where a write has come since step 2; answers whether it is done. -/
def sealRecord (c : CtxId) (m : Image) (unsealed : Bool) (s : State) : Bool × State :=
  let x := s.ctx c
  let r := completeRecord x unsealed
  let runs : List (Nat × List Byte) :=
    match logSlot x m with
    | none => []
    | some a => [(a.1 + 0x15, (r.drop 0x15).take 1), (a.1 + 0xFE0, r.drop 0xFE0)] ++
        (if liveArea r = liveArea x.wit.record then [] else [(a.1 + 0x102, liveArea r)])
  match putMany c reqGauge false runs s with
  | (false, s) => (false, s)
  | (true, s) =>
    (true, s.modCtx c (fun x => { x with wit := { x.wit with record := r, logHead := x.wit.logHead + 1 } }))

end Sys2Proof.Machine
end

