-- ==== Sys2Proof/Machine/StepFlow.lean ====
section
/-! DEFINITION. The life of a step (R22 to R33): work on tables, the start of a run and of a step, closing, sealing, commit,
the generation switch, held steps (R317), and replay (R318 to R322). -/

namespace Sys2Proof.Machine

open Sys2Proof

/-! ## Work on tables: Gauge (R232, R234), markings (R298), derived metadata (R161) -/

def layerAddr (x : Ctx) (l : Nat) : Nat := x.layerVa.toNat * 64 + 64 * l
def siteAddr (x : Ctx) (i : Nat) : Nat := x.siteVa.toNat * 64 + 64 * i

/-- One piece of work; answers whether it is done. -/
def runChore (c : CtxId) (m : Image) (k : Chore) (s : State) : Bool × State :=
  let x := s.ctx c
  match k with
  | .gaugeInit =>
    putMany c reqGauge false
      ((List.range m.layerCount).map (fun l => (layerAddr x l, leBytes 1 x.live.hi.toNat ++ leBytes 1 0)) ++
        (List.range m.stations.length).flatMap (fun i =>
          [(siteAddr x i, leBytes 1 0), (siteAddr x i + 8, histBytes {})])) s
  | .gaugeBack =>
    putMany c reqGauge false
      [(layerAddr x 0, x.layers.flatMap layerBytes), (siteAddr x 0, x.sites.flatMap siteBytes)] s
  | .mark k =>
    match (allUpdates x m).find? (fun q => q.ix == k) with
    | none => (true, s)
    | some q => markDiverge c q s
  | .derive k =>
    match maskTensor m k, m.masks[k]? with
    | some w, some r => deriveCopy c (reqTable k) (sparseDim w r) r (x.maskGen k % 2) s
    | _, _ => (true, s)

/-- The work in order, up to the first piece that waits. -/
def runChores (c : CtxId) (m : Image) : List Chore → State → State
  | [], s => s
  | k :: ks, s =>
    match runChore c m k s with
    | (true, s) => runChores c m ks (s.modCtx c (fun x => { x with chores := ks }))
    | (false, s) => s

def doChores (c : CtxId) (s : State) : State :=
  match (s.ctx c).active with
  | some m => runChores c m (s.ctx c).chores s
  | none => s.modCtx c (fun x => { x with chores := [] })

/-- The masks whose transposed metadata Scribe derives (T_SOURCE = 1). -/
def derivedMasks (m : Image) : List Nat := (List.range m.masks.length).filter (fun k => ((m.masks[k]?).map (·.tSource)).getD 0 == 1)

def markChores (m : Image) : List Chore := (List.range m.updates.length).map Chore.mark

def isMark : Chore → Bool
  | .mark _ => true
  | _ => false

/-! ## The start of a step -/

/-- The live values at the first FETCH: those of the reference in a replay (R319). -/
def Ctx.firstLive (x : Ctx) : LiveVals :=
  if x.wit.replaying then
    { x.live with predThresh := u32At x.wit.refRecord 0x80, shadowShare := (u32At x.wit.refRecord 0x84).truncate 17,
                  satThresh := u32At x.wit.refRecord 0x88 }
  else x.live

/-- Everything of a step at its beginning; each station keeps its bench. -/
def Ctx.freshStep (x : Ctx) (m : Image) : Ctx :=
  { x with
    phase := .running, closing := .no, suspResidue := false, suspEcc := false, suspDigest := false, liveCount := 0
    stns := (List.range m.stations.length).map (fun i => { bench := if i < x.stns.length then (x.stn i).bench else noBench })
    streams := m.streams.map (fun _ => [])
    rowSets := [], updates := [], cleared := 0, statsDone := []
    layerStats := List.replicate m.layerCount {}, siteStats := List.replicate m.stations.length {}
    insts := x.insts.filter (fun n => decide (x.step.toNat ≤ n.step.toNat + 1))
    wit := { x.wit with log := [], counts := {}, folds := {}, compared := [], first := x.firstLive, closing := {} } }

/-- The first FETCH of the step that CTX_STEP names may issue; a station that had a bench and may not keep it moves
(R245). -/
def beginStep (c : CtxId) (m : Image) (s : State) : State :=
  let s := s.modCtx c (fun x => x.freshStep m)
  s.each (List.range m.stations.length) (fun i t => resettle c m i t)

/-- The translations of the pages of the collective area (R382); `none` where one is not a valid, writable leaf in context
memory. -/
def collTable (c : CtxId) : List Nat → List Tlb → State → Option (List Tlb) × State
  | [], acc, s => (some acc, s)
  | va :: vas, acc, s =>
    match lookupPage c va s with
    | (.ok t, s) => if t.writable && !t.host then collTable c vas (t :: acc) s else (none, s)
    | (.error _, s) => (none, s)

/-- R382, then R234: Gauge reads both tables and the run starts (R31), every marking done (R298). A numeric commit received in
IDLE is visible by then (R62). -/
def startRun (c : CtxId) (m : Image) (steps : BitVec 24) (s : State) : State :=
  match collTable c (spanPages [⟨(s.ctx c).collVa.toNat * 64, (s.ctx c).collBytes.toNat⟩]) [] s with
  | (none, s) => violate c 0x1101 (s.modCtx c (fun x => { x with startWait := none }))
  | (some pages, s) =>
  let x := s.ctx c
  let spans : List Span := [⟨layerAddr x 0, 64 * m.layerCount⟩, ⟨siteAddr x 0, 64 * m.stations.length⟩]
  match access c reqGauge false false spans s with
  | (none, s) => s
  | (some tab, s) =>
    let ls := records64 m.layerCount (readSpan tab s ⟨layerAddr x 0, 64 * m.layerCount⟩)
    let ss := records64 m.stations.length (readSpan tab s ⟨siteAddr x 0, 64 * m.stations.length⟩)
    let s := chargeRead c tab spans s
    let s := s.modCtx c (fun x =>
      { x.showNumeric with
        layers := ls.map layerRecOf, sites := ss.map siteRecOf, left := steps, startWait := none, stns := []
        mmu := { x.mmu with collPages := pages }
        wit := { x.wit with replaying := x.wit.result == .armed && (x.wit.mode == 1 || x.wit.mode == 2) } })
    beginStep c m s

/-! ## Arming a replay (R318) -/

/-- The arming checks, in order; the number of the first that fails. -/
def armCheck (x : Ctx) (r : List Byte) : Option Nat :=
  let m := x.active.getD {}
  let lives := recordLive r
  let pool := natAt r 0x103 1
  let stations := (List.range pool).all (fun j => decide (natAt r (0x190 + 8 * j) 2 < m.stations.length))
  let coll2 := m.stations.any (fun st => st.kind == kREDUCE && st.o 0 1 == 2)
  if !(natAt r 0 4 == 0x4E544957 && natAt r 4 2 == 1 && sha256 (r.take 0xFE0) == r.drop 0xFE0) then some 1
  else if natAt r 6 2 ≠ 1 then some 2
  else if !(x.active.isSome && (r.drop 0x20).take 32 == m.hash && natAt r 0x10 4 == m.generation.toNat) then some 3
  else if natAt r 8 8 ≠ x.step.toNat then some 4
  else if (r.drop 0x40).take 32 ≠ x.wit.chain then some 5
  else if !(natAt r 0x100 2 == m.layerCount && natAt r 0xA00 4 == m.masks.length) then some 6
  else if !(decide (natAt r 0x102 1 ≤ 8) && decide (pool ≤ 96) && lives.all (fun e => decide (e.2.2.1 + e.2.2.2 ≤ pool)) && stations) then some 7
  else if x.wit.mode = 3 ∨ (x.wit.mode = 2 ∧ coll2 = true) then some 8
  else none

/-- Reads the reference record and runs the checks; a page fault leaves RESULT at CHECKING. -/
def armReplay (c : CtxId) (s : State) : State :=
  match fetchVa c reqGauge false ⟨(s.ctx c).wit.refAddr.toNat * 4096, 4096⟩ s with
  | (none, s) => s
  | (some b, s) =>
    s.modCtx c (fun x =>
      match armCheck x b.1 with
      | none => { x with wit := { x.wit with result := .armed, refRecord := b.1 } }
      | some k => ({ x with wit := { x.wit with result := .refused, check := BitVec.ofNat 4 k, mode := 0 } }).violate 0x0E01)

/-- WIT_REPLAY: while a power-cycle request stands no check runs (R401). -/
def doWitReplay (c : CtxId) (v : U64) (s : State) : State :=
  let x := s.ctx c
  if x.phase ≠ .idle then violate c 0x0E05 s
  else
    let mode : BitVec 2 := v.truncate 2
    let w := { x.wit with refAddr := v.extractLsb' 12 52, commit := v.getLsbD 2, mode := mode, check := 0, mismatch := 0,
                          layerValid := false, layer := 0, result := if mode = 0 then .idle else .checking }
    let s := s.setCtx c { x.forgetReq reqGauge with wit := w }
    if mode = 0 ∨ mayWork s = false then s else armReplay c s

def execWitReplay (fn : FnId) (c : CtxId) (value : U64) (s : State) : Host.Outcome State Fault Refusal :=
  .next (ctxPort fn c (.witReplay fn c value) (doWitReplay c value) s)

/-! ## Step 7, and what waits for work on tables -/

/-- R23 step 7. -/
def finishBoundary (c : CtxId) (m : Image) (s : State) : State :=
  if (s.ctx c).left = 0 then
    s.modCtx c (fun x => { x with phase := .idle, closing := .no, stns := [], streams := [], mmu := { x.mmu with collPages := [] } })
  else beginStep c m s

/-- With no work on tables outstanding: the boundary after a switch, the arming of a replay, or the start of a run. -/
def kickOn (c : CtxId) (s : State) : State :=
  let x := s.ctx c
  match x.active with
  | none => s
  | some m =>
    if !x.chores.isEmpty then s
    else if x.phase == .committing && x.closing == .no then finishBoundary c m s
    else if x.phase != .idle then s
    else if x.wit.result == .checking then armReplay c s
    else
      match x.startWait with
      | some n => startRun c m n s
      | none => s

/-- Continues what stood waiting: work on tables, then what follows it. -/
def kick (c : CtxId) (s : State) : State := if ctxLive s c then kickOn c (doChores c s) else s

/-! ## Runs (R31) -/

/-- STOP: the step in progress is the last. -/
def Ctx.stopRun (x : Ctx) : Ctx :=
  { x with left := if x.left = 0 then 0 else 1, startWait := x.startWait.map (fun _ => 1) }

/-- STEPS, then STOP. DESIGN CHOICE (log entry 8): R31 gives the fallback of 0x0102 for the STEPS part alone, so the STOP of
the same write still acts. -/
def doRunSteps (c : CtxId) (steps : BitVec 24) (stop : Bool) (s : State) : State :=
  let x := s.ctx c
  let bad := x.phase != .idle || steps == 0 || x.active.isNone || x.startWait.isSome
  let s := if bad then violate c 0x0102 s else s.setCtx c { x with startWait := some steps }
  let s := if stop then s.modCtx c (·.stopRun) else s
  if bad then s else kick c s

def execRunSteps (fn : FnId) (c : CtxId) (steps : BitVec 24) (stop : Bool) (s : State) : Host.Outcome State Fault Refusal :=
  .next (ctxPort fn c (.runSteps fn c steps stop) (doRunSteps c steps stop) s)

def execRunStop (fn : FnId) (c : CtxId) (s : State) : Host.Outcome State Fault Refusal :=
  .next (ctxPort fn c (.runStop fn c) (fun s => s.modCtx c (·.stopRun)) s)

/-- The words of a 64-bit register that an access covers, replaced. -/
def mergeWords (sel : WordSel) (old v : U64) : U64 :=
  match sel with
  | .lo => setLo old (v.truncate 32)
  | .hi => setHi old (v.extractLsb' 32 32)
  | .both => v

/-- A write of CTX_STEP: every unit becomes divergent for the new value (R298, R463). -/
def doCtxStepWrite (c : CtxId) (sel : WordSel) (v : U64) (s : State) : State :=
  let x := s.ctx c
  if x.phase ≠ .idle then violate c 0x0101 s
  else
    let marks := (x.active.map markChores).getD []
    kick c (s.setCtx c { x with step := mergeWords sel x.step v, wit := { x.wit with attempt := 0 },
                                chores := x.chores.filter (fun k => !isMark k) ++ marks })

def execCtxStepWrite (fn : FnId) (c : CtxId) (sel : WordSel) (value : U64) (s : State) : Host.Outcome State Fault Refusal :=
  .next (ctxPort fn c (.ctxStepWrite fn c sel value) (doCtxStepWrite c sel value) s)

/-! ## The slots (R54 to R57) -/

def Staged.image? : Staged → Option Image
  | .valid m => some m
  | _ => none

/-- LOAD abandons what is staged and starts a load at CTX_CARCASS_ADDR. -/
def doLoad (c : CtxId) (s : State) : State :=
  s.modCtx c (fun x => { x.forgetReq reqLoad with staged := .loading (x.carcassAddr.toNat * 64), err := 0 })

def execLoad (fn : FnId) (c : CtxId) (s : State) : Host.Outcome State Fault Refusal :=
  .next (ctxPort fn c (.load fn c) (doLoad c) s)

def doCarcassDiscard (c : CtxId) (s : State) : State :=
  s.modCtx c (fun x => { x.forgetReq reqLoad with staged := .empty, err := 0 })

def execCarcassDiscard (fn : FnId) (c : CtxId) (s : State) : Host.Outcome State Fault Refusal :=
  .next (ctxPort fn c (.carcassDiscard fn c) (doCarcassDiscard c) s)

/-- The bytes of the image at `va`: the header's 256 bytes, then IMAGE_BYTES where check 0x0203 passes. -/
def readImage (c : CtxId) (va : Nat) (s : State) : Option (List Byte) × State :=
  match fetchVa c reqLoad false ⟨va, 0x100⟩ s with
  | (none, s) => (none, s)
  | (some h, s) =>
    if check0201 h.1 && check0202 h.1 && check0203 h.1 then
      match fetchVa c reqLoad false ⟨va, natAt h.1 8 4⟩ s with
      | (none, s) => (none, s)
      | (some b, s) => (some b.1, s)
    else (some h.1, s)

/-- A check of R52 fails: a violation with its code, and the staged slot INVALID. -/
def Ctx.refuseImage (x : Ctx) (code : U16) : Ctx := { x with staged := .invalid, err := code }.violate code

/-- LOAD_DONE: the checks of R52, and the staged slot VALID or INVALID. -/
def doLoadDone (c : CtxId) (s : State) : State :=
  match (s.ctx c).staged with
  | .loading va =>
    if !ctxLive s c then s
    else if !(s.ctx c).assigned then s.modCtx c (fun x => x.refuseImage 0x0206)
    else
      match readImage c va s with
      | (none, s) => s
      | (some b, s) =>
        s.modCtx c (fun x =>
          match imageErr (x.active.map (·.generation)) x.quarters b with
          | none => { x with staged := .valid (imageOf b), err := 0 }
          | some e => x.refuseImage e)
  | _ => s

def execLoadDone (c : CtxId) (s : State) : Host.Outcome State Fault Refusal := .next (doLoadDone c s)

/-- The state that an image brings: POLICY values over the values `base` and `live` of the fields that no record names,
RUN_SEED, fresh Gauge tables. -/
def Ctx.takeImage (x : Ctx) (g : Glb) (m : Image) (base : AgVals) (live : LiveVals) : Ctx :=
  let x := { x with active := some m, staged := .empty, err := 0 }.loadPolicy g m base live
  { x with layers := freshLayers m x.live.hi.toNat, sites := freshSites m,
           layerStats := [], siteStats := [], stns := [], streams := [] }

/-- ACTIVATE: the VALID image becomes active, a field that no POLICY record names starts at its reset value (R51; log
entry 30), every mask GEN 0, the Gauge tables initial, every unit divergent and every
semaphore count 0 (R57, R158, R232, R298, R341). -/
def doActivate (c : CtxId) (s : State) : State :=
  let x := s.ctx c
  match x.phase, x.staged with
  | .idle, .valid m =>
    let y := x.takeImage s.glb m {} {}
    kick c (s.setCtx c
      { y with masks := m.masks.map (fun _ => {}), sems := y.sems.map (fun q => { q with count := 0 })
               chores := [.gaugeInit] ++ (derivedMasks m).map Chore.derive ++ markChores m })
  | _, _ => violate c 0x0212 s

def execActivate (fn : FnId) (c : CtxId) (s : State) : Host.Outcome State Fault Refusal :=
  .next (ctxPort fn c (.activate fn c) (doActivate c) s)

/-! ## Closing (R23 steps 1 to 3) -/

/-- Every station has finished and every stream is empty. -/
def stepDrained (x : Ctx) (m : Image) : Bool :=
  x.streams.all (·.isEmpty) &&
    (List.range m.stations.length).all (fun i => (idleSet x m).contains i || stnDone x m i)

/-- POLICY_W of the step: as the context enters CLOSING, or of the reference (R232, R319). -/
def Ctx.closingLive (x : Ctx) : LiveVals :=
  if x.wit.replaying then
    let r := x.wit.refRecord
    { x.live with w0 := u32At r 0x90, w1 := u32At r 0x94, patience := (u32At r 0x98).truncate 8, lo := (u32At r 0x9C).truncate 4,
                  hi := (u32At r 0x9C >>> 4).truncate 4 }
  else x.live

/-- The header of a DIGEST packet (R315). -/
def digestHdr (x : Ctx) (m : Image) : CollHdr :=
  { coll := 0, subject := 0, format := 0, srcRank := 0, size := 0, step := x.step, generation := m.generation,
    groupId := x.wit.replicaGroup, tensorId := 0, firstBlock := 0, blocks := 0, width := 0, recForm := 0, seq := 0,
    hash64 := hash64Of m, contrib := 0 }

/-- R23 step 3: the digest goes to every other member, and those that have come are compared. -/
def sendDigests (c : CtxId) (m : Image) (s : State) : State :=
  let x := s.ctx c
  let s := s.each (digestPeers x) (fun r t =>
    sendColl c r tDIGEST (digestHdr x m) (leBytes 8 x.wit.shardDigest.toNat ++ leBytes 2 x.wit.attempt.toNat ++ zeroBytes 6) t)
  s.modCtx c compareDigests

/-- Steps 1 and 2, then step 3 begins. Contribution replay copies nothing (R321). -/
def closeOn (c : CtxId) (m : Image) (s : State) : State :=
  let alone := (s.ctx c).wit.replaying && (s.ctx c).wit.mode == 2
  let done := if alone then (true, s) else copyAll c m (allUpdates (s.ctx c) m) s
  match done with
  | (false, s) => s
  | (true, s) =>
    match writeRecord c m s with
    | (false, s) => s
    | (true, s) => sendDigests c m (s.modCtx c (fun x => { x with closing := .recorded }))

/-- CLOSE_STEP. -/
def doCloseStep (c : CtxId) (s : State) : State :=
  let x := s.ctx c
  match x.active with
  | none => s
  | some m =>
    if !ctxLive s c then s
    else if x.phase == .running && stepDrained x m then
      closeOn c m (s.setCtx c { x with phase := .closing, closing := .open, wit := { x.wit with closing := x.closingLive } })
    else if x.phase == .closing && x.closing == .open then closeOn c m s
    else s

def execCloseStep (c : CtxId) (s : State) : Host.Outcome State Fault Refusal := .next (doCloseStep c s)

/-! ## Commit and discard (R23 step 5, R33, R317) -/

/-- LEFT after a commit (R31). -/
def leftAfter (l : BitVec 24) : BitVec 24 := if l = 0xFFFFFF ∨ l = 0 then l else l - 1

/-- The commit: step number, mask generations, Gauge state, WIT_CHAIN and LEFT in one operation. -/
def Ctx.commit (x : Ctx) (m : Image) : Ctx :=
  { x with
    phase := .committing, closing := .sealed, releasing := false, step := x.step + 1, left := leftAfter x.left
    masks := x.masks.map (fun k => if k.edited then { gen := k.gen + 1, digest := k.nextDigest, nextDigest := 0, edited := false } else k)
    layers := layersAfter x m, sites := sitesAfter x m
    chores := x.chores ++ [.gaugeBack]
    wit := { x.wit with chain := x.wit.record.drop 0xFE0, attempt := 0, replaying := false } }

/-- Ends an attempt without a commit: the second buffer and every uncommitted result are discarded (R33). -/
def Ctx.dropStep (x : Ctx) : Ctx :=
  { x with
    phase := .idle, saved := .idle, savedClosing := .no, closing := .no, left := 0, startWait := none, releasing := false
    suspResidue := false, suspEcc := false, suspDigest := false
    masks := x.masks.map (fun k => { k with nextDigest := 0, edited := false })
    stns := [], streams := [], rowSets := [], updates := [], cleared := 0, statsDone := [], layerStats := [], siteStats := []
    insts := x.insts.filter (fun n => n.step != x.step), mmu := { x.mmu with collPages := [] }
    wit := { x.wit with replaying := false } }

/-- DISCARD of a sealed step: one more attempt. -/
def Ctx.discardSealed (x : Ctx) : Ctx :=
  { x.dropStep with wit := { x.dropStep.wit with attempt := satAdd x.wit.attempt 1 } }

/-- A CHECKPOINT of the step still reads its regions: the closing waits before R23 step 5 (R384). -/
def Ctx.checkpointed (x : Ctx) : Bool := x.dma.descs.any (fun d => d.reading && d.step == x.step)

/-- The commit and the work on tables that follows. -/
def commitStep (c : CtxId) (m : Image) (s : State) : State := doChores c (s.modCtx c (fun x => x.commit m))

/-! ## Sealing (R23 step 4, R229, R322) -/

/-- Event 0x1903 of a saturated site, counted. -/
def saturationEvent (c : CtxId) (m : Image) (i : Nat) (s : State) : State :=
  let x := s.ctx c
  let g := x.siteStats.getD i {}
  ctxEvent c 0x1903 false
    (payload [(0, 1, c.val), (2, 2, (m.station i).layer), (4, 4, i), (8, 8, x.step.toNat), (0x10, 8, g.s), (0x18, 8, g.n)])
    (s.modCtx c (fun x => x.count (fun k => { k with gauSat := satAdd k.gauSat 1 })))

/-- The groups of fields of R322 that differ between two records. -/
def recordDiffs (full : Bool) (a b : List Byte) : List Nat :=
  let dif (off n : Nat) : Bool := (a.drop off).take n != (b.drop off).take n
  let when' (p : Bool) (k : Nat) : List Nat := if p then [k] else []
  (if full then
    when' (dif 0xA0 8) 0 ++ when' (dif 0xA00 4 || dif 0xA08 8 || dif 0xA10 1488) 1 ++ when' (dif 0xB0 8) 2 ++ when' (dif 0xB8 8) 3 ++
      when' (dif 0xA8 8) 4
   else []) ++ when' (dif 0xC8 48) 5 ++ when' (dif 0xC0 8) 6

/-- The reference's layer digests; none where they are not given or not needed. -/
def readRefLayers (c : CtxId) (m : Image) (s : State) : Option (List U64) × State :=
  let x := s.ctx c
  let w := x.wit
  if w.replaying && w.mode == 1 && w.refLdigVa != 0 && (w.record.drop 0xA0).take 8 != (w.refRecord.drop 0xA0).take 8 then
    match fetchVa c reqGauge false ⟨w.refLdigVa.toNat * 64, 8 * m.layerCount⟩ s with
    | (none, s) => (none, s)
    | (some b, s) => (some ((List.range m.layerCount).map (fun l => BitVec.ofNat 64 (natAt b.1 (8 * l) 8))), s)
  else (some [], s)

/-- R322: RESULT, MISMATCH and WIT_REPLAY_LAYER; MODE returns to 0. -/
def Ctx.replayResult (x : Ctx) (ref : List U64) : Ctx :=
  let w := x.wit
  let ds := recordDiffs (w.mode == 1) w.record w.refRecord
  let layer := (List.range ref.length).find? (fun l => ref.getD l 0 != w.layerDigests.getD l 0)
  { x with wit := { w with
      result := if ds.isEmpty then .matched else .mismatch
      mismatch := BitVec.ofNat 7 (sumNat (ds.map (fun k => 2 ^ k)))
      layerValid := layer.isSome, layer := BitVec.ofNat 16 (layer.getD 0), mode := 0 } }

/-- Event 0x1902. -/
def heldEvent (c : CtxId) (s : State) : State :=
  let x := s.ctx c
  ctxEvent c 0x1902 false
    (payload [(0, 1, c.val), (1, 1, b2n x.suspResidue + 2 * b2n x.suspEcc + 4 * b2n x.suspDigest), (8, 8, x.step.toNat)]) s

/-- R384: the commit of step 5 waits, between steps 4 and 5 of R23, while a CHECKPOINT of the step reads its regions (log
entry 76). -/
def commitOrWait (c : CtxId) (m : Image) (s : State) : State :=
  if (s.ctx c).checkpointed then s.modCtx c (fun x => { x with closing := .sealed, releasing := true }) else commitStep c m s

/-- What a sealed step becomes. -/
def afterSeal (c : CtxId) (m : Image) (drop : Bool) (s : State) : State :=
  if drop then s.modCtx c (·.discardSealed)
  else if (s.ctx c).suspect then
    heldEvent c (s.modCtx c (fun x => { x with phase := .held, closing := .sealed }))
  else commitOrWait c m s

/-- A commit that waited (R384, R317) goes on once no CHECKPOINT of the step reads any more and the device works (R401). -/
def resumeCommit (c : CtxId) (s : State) : State :=
  let x := s.ctx c
  match x.active with
  | some m =>
    if mayWork s && (x.phase == .held || x.phase == .closing) && x.releasing && x.closing == .sealed && !x.checkpointed then
      commitStep c m s
    else s
  | none => s

/-- SEAL: every member's digest has been compared. -/
def doSealStep (c : CtxId) (s : State) : State :=
  let x := s.ctx c
  match x.active with
  | none => s
  | some m =>
    if !ctxLive s c || x.phase != .closing || x.closing != .recorded || !(digestPeers x).all (fun r => x.wit.compared.contains r) then s
    else
      match readRefLayers c m s with
      | (none, s) => s
      | (some ref, s) =>
        match sealRecord c m false s with
        | (false, s) => s
        | (true, s) =>
          let x := s.ctx c
          let drop := x.wit.replaying && (x.wit.mode == 2 || !x.wit.commit)
          let s := s.each (satSites x m) (fun i t => saturationEvent c m i t)
          let s := if x.wit.replaying then s.modCtx c (fun x => x.replayResult ref) else s
          afterSeal c m drop s

def execSealStep (c : CtxId) (s : State) : Host.Outcome State Fault Refusal := .next (doSealStep c s)

/-! ## The generation switch (R58, R59) -/

/-- The masks of the new image: a MASK_ID of both images keeps its GEN (R158). -/
def masksAcross (old : Option Image) (masks : List MaskState) (m : Image) : List MaskState :=
  m.masks.map (fun k =>
    match old.bind (fun o => (o.masks.findIdx? (fun q => q.maskId == k.maskId))) with
    | some j => masks.getD j {}
    | none => {})

/-- Steps 2 to 5 of R59: every pending group becomes visible over the POLICY values (step 4), the placement groups too. -/
def Ctx.switchTo (x : Ctx) (g : Glb) (m : Image) : Ctx :=
  let masks := masksAcross x.active x.masks m
  let y := (x.takeImage g m x.visible x.live).showAll
  { y with masks := masks, shadow := y.visible, words := {}, chores := y.chores ++ markChores m }

/-- GENERATION_SWITCH: R23 step 6, with or without a switch, then step 7 once the work on tables is done. -/
def doGenerationSwitch (c : CtxId) (s : State) : State :=
  if !ctxLive s c || (s.ctx c).phase != .committing then s
  else
    let s := doChores c s
    let x := s.ctx c
    if x.closing == .sealed && x.chores.isEmpty then
      let y :=
        match x.staged with
        | .valid m => x.switchTo s.glb m
        | _ => x.showNumeric
      kick c (s.setCtx c { y with closing := .no })
    else kick c s

def execGenerationSwitch (c : CtxId) (s : State) : Host.Outcome State Fault Refusal := .next (doGenerationSwitch c s)

/-! ## Held steps (R317) -/

/-- RELEASE: the commit, which waits for a CHECKPOINT (R384) and starts nothing while a power-cycle request stands (R401). -/
def doRelease (c : CtxId) (s : State) : State :=
  let x := s.ctx c
  match x.phase, x.active with
  | .held, some m =>
    if mayWork s then commitOrWait c m s else s.modCtx c (fun x => { x with releasing := true })
  | _, _ => violate c 0x0E04 s

def execRelease (fn : FnId) (c : CtxId) (s : State) : Host.Outcome State Fault Refusal :=
  .next (ctxPort fn c (.release fn c) (doRelease c) s)

def doDiscard (c : CtxId) (s : State) : State :=
  if (s.ctx c).phase = .held then s.modCtx c (·.discardSealed) else violate c 0x0E04 s

def execDiscard (fn : FnId) (c : CtxId) (s : State) : Host.Outcome State Fault Refusal :=
  .next (ctxPort fn c (.discard fn c) (doDiscard c) s)

end Sys2Proof.Machine
end

