-- ==== Sys2Proof/Machine/Dma.lean ====
section
/-! DEFINITION. Copy engines: the descriptor ring and its descriptors (R372 to R375), remote writes (R376), buddy checkpoints
(R384 to R386). -/

namespace Sys2Proof.Machine

open Sys2Proof

/-! ## Reading bytes that are moved as they stand -/

/-- The bytes of a span, `none` where the word is poisoned. -/
def spanBytes (tab : List PageMap) (s : State) (sp : Span) : List (Option Byte) :=
  (spanRuns tab sp).flatMap (fun r =>
    (memRead (if r.1 then s.hostMem else s.mem) r.2.1 r.2.2).zipIdx.map (fun p =>
      if !r.1 && badWord s ((r.2.1 + p.2) / 32) then none else some p.1))

/-- Free bytes in the places of poisoned ones: R331 gives no value for a byte that is moved undecoded. -/
def fillFree : List (Option Byte) → State → List Byte × State
  | [], s => ([], s)
  | some b :: bs, s =>
    let r := fillFree bs s
    (b :: r.1, r.2)
  | none :: bs, s =>
    let d := drawNat s
    let r := fillFree bs d.2
    (BitVec.ofNat 8 d.1 :: r.1, r.2)

/-- Writes runs of a patterned copy: every word touched is read, so a poisoned one keeps its poison and is reported, were the
runs to cover it whole (R332). DEDUCED (log entry 71): COPY, an operation of its own, writes whole words as they are. -/
def putPattern (c : CtxId) (req : FaultReq) (ws : List (Nat × List Byte)) (s : State) : Bool × State :=
  match access c req false true (ws.map (fun w => ⟨w.1, w.2.length⟩)) s with
  | (none, s) => (false, s)
  | (some tab, s) => (true, keepMark c req s (patchRuns c tab ws s))

/-- Reads spans through translation for a copy engine. -/
def readMoved (c : CtxId) (req : FaultReq) (sps : List Span) (s : State) : Option (List Byte) × State :=
  match access c req false false sps s with
  | (none, s) => (none, s)
  | (some tab, s) =>
    let r := fillFree (sps.flatMap (spanBytes tab s)) (keepMark c req s (chargeRead c tab sps s))
    (some r.1, r.2)

/-- Runs of consecutive addresses, in order (R373: the bytes keep their order). -/
def mergeRuns : List (Nat × Byte) → List (Nat × List Byte)
  | [] => []
  | (a, b) :: t =>
    match mergeRuns t with
    | (a', bs) :: r => if a' = a + 1 then (a, b :: bs) :: r else (a, [b]) :: (a', bs) :: r
    | [] => [(a, [b])]

def mergeSpans (l : List Nat) : List Span := (mergeRuns (l.map (fun a => (a, 0)))).map (fun r => ⟨r.1, r.2.length⟩)

/-! ## The fields of a descriptor (R372) -/

def descOp (b : List Byte) : Nat := natAt b 0 1
def descFlag (b : List Byte) (i : Nat) : Bool := bitOf (natAt b 1 1) i
def descLen (b : List Byte) : Nat := natAt b 0x20 8
def descSrc (b : List Byte) : Nat := natAt b 0x10 8
def descDst (b : List Byte) : Nat := natAt b 0x18 8
def descGroup (b : List Byte) : U32 := BitVec.ofNat 32 (natAt b 0x0C 4)
def descRank (b : List Byte) : U16 := BitVec.ofNat 16 (natAt b 0x0A 2)
/-- N0, N1 and N2: COPY is a PATTERN with one run (R373). -/
def descN (b : List Byte) : Nat × Nat × Nat :=
  if descOp b = 2 then (natAt b 0x20 4, natAt b 0x24 2, natAt b 0x26 2) else (descLen b, 1, 1)
def descStride (b : List Byte) (i : Nat) : Int := if descOp b = 2 then signedOf 32 (natAt b (0x28 + 4 * i) 4) else 0

/-- The virtual address of logical byte `k` (R373) from a base and two strides. -/
def logicalVa (base : Nat) (n0 n1 : Nat) (s1 s2 : Int) (k : Nat) : Nat :=
  lowBits 64 ((base : Int) + (k % n0 : Nat) + (k / n0 % n1 : Nat) * s1 + (k / (n0 * n1) : Nat) * s2)

def srcVa (b : List Byte) (k : Nat) : Nat :=
  logicalVa (descSrc b) (descN b).1 (descN b).2.1 (descStride b 0) (descStride b 1) k

def dstVa (b : List Byte) (k : Nat) : Nat :=
  logicalVa (descDst b) (descN b).1 (descN b).2.1 (descStride b 2) (descStride b 3) k

/-- The descriptors that violation 0x1105 refuses. -/
def descInvalid (x : Ctx) (b : List Byte) : Bool :=
  let op := descOp b
  op == 0 || decide (6 < op) ||
    (op == 2 && ((descN b).1 == 0 || (descN b).2.1 == 0 || (descN b).2.2 == 0)) ||
    ((op == 1 || op == 3 || op == 5 || op == 6) && descLen b == 0) || (op == 5 && decide (4096 < descLen b)) ||
    ((op == 3 || descFlag b 5) && (formedSlot x (descGroup b)).isNone) || (op == 6 && x.func != 0)

/-! ## The ring -/

def ringSize (x : Ctx) : Nat := 2 ^ x.dma.log2.toNat
def ringSlot (x : Ctx) (index : Nat) : Nat := index % ringSize x
/-- How far behind DMA_HEAD the descriptor of slot `i` stands. -/
def ringPos (x : Ctx) (i : Nat) : Nat := (i + ringSize x - ringSlot x x.dma.head.toNat) % ringSize x
def inRing (x : Ctx) (i : Nat) : Bool := decide (i < ringSize x) && decide (ringPos x i < (x.dma.tail - x.dma.head).toNat)
/-- The slots of the descriptors before that of slot `i`. -/
def earlier (x : Ctx) (i : Nat) : List Nat := (List.range (ringPos x i)).map (fun k => ringSlot x (x.dma.head.toNat + k))
def descVa (x : Ctx) (i : Nat) : Nat := x.dma.ringVa.toNat * 64 + 64 * i

def Ctx.desc (x : Ctx) (i : Nat) : Option DescState := x.dma.descs.find? (fun d => d.index == i)

def Ctx.modDesc (x : Ctx) (i : Nat) (f : DescState → DescState) : Ctx :=
  { x with dma := { x.dma with descs := x.dma.descs.map (fun d => if d.index = i then f d else d) } }

def descStarted (x : Ctx) (i : Nat) : Bool := ((x.desc i).map (·.started)).getD false
def descEnded (x : Ctx) (i : Nat) : Bool := ((x.desc i).map (·.ended)).getD false

/-- DMA_HEAD passes every descriptor that has ended with all before it (R372). -/
def advanceHead : Nat → Ctx → Ctx
  | 0, x => x
  | n + 1, x =>
    let i := ringSlot x x.dma.head.toNat
    if x.dma.head ≠ x.dma.tail ∧ descEnded x i = true then
      advanceHead n { x with dma := { x.dma with head := x.dma.head + 1, descs := x.dma.descs.filter (fun d => d.index != i) } }
    else x

/-! ## The end of a descriptor (R372, R374, R375) -/

/-- The signal of a descriptor that is done. -/
def descSignal (c : CtxId) (b : List Byte) (s : State) : State :=
  let sem := natAt b 6 2 % 1024
  let v : U16 := BitVec.ofNat 16 (natAt b 8 2)
  if !descFlag b 2 then s
  else if descFlag b 5 then
    match formedSlot (s.ctx c) (descGroup b) with
    | some g => sendSignal c g (descRank b) (BitVec.ofNat 16 sem) v (descFlag b 3) s
    | none => s
  else signalSem c (Fin.ofNat 1024 sem) v s

/-- The end of a descriptor would issue a seventeenth release-ordered signal that is not applied (R349). -/
def relFull (s : State) (c : CtxId) (d : DescState) : Bool :=
  let b := d.bytes
  d.result == 1 && descFlag b 2 && descFlag b 5 && descFlag b 3 && (match formedSlot (s.ctx c) (descGroup b) with
    | some g =>
      let uid := g.members.getD (descRank b).toNat 0
      uid != s.glb.uid && decide (relLimit ≤ relUnapplied s uid)
    | none => false)

/-- STATUS is written, the signal applied, event 0x1702 written and DMA_HEAD advanced; a page fault at STATUS, or a signal that
may not be issued yet, leaves the end outstanding. -/
def finishDesc (c : CtxId) (i : Nat) (s : State) : State :=
  match (s.ctx c).desc i with
  | none => s
  | some d =>
    if relFull s c d then s
    else
    match putVa c (reqCopy i) false (descVa (s.ctx c) i + 0x38) [BitVec.ofNat 8 d.result] s with
    | (false, s) => s
    | (true, s) =>
      let s := if d.result = 1 then descSignal c d.bytes s else s
      let s := if d.result = 1 ∧ descOp d.bytes = 5 then s.modCtx c (fun x => { x with buddySlot := !x.buddySlot }) else s
      let s := if descFlag d.bytes 4 then ctxEvent c 0x1702 false (payload [(0, 1, c.val), (1, 1, d.result), (2, 2, i)]) s else s
      s.modCtx c (fun x => advanceHead (ringSize x) (x.modDesc i (fun d => { d with ended := true })))

/-- A descriptor ends with a STATUS; a commit that waited for a CHECKPOINT to read its regions goes on (R384). -/
def endDesc (c : CtxId) (i result : Nat) (s : State) : State :=
  finishDesc c i (resumeCommit c (s.modCtx c (fun x => x.modDesc i (fun d =>
    { d with result := result, started := true, waiting := false, unacked := [], reading := false }))))

/-- ABORT of an access of the copy engine: its descriptor ends ABORTED, one that was still being read too (R366, R375). -/
def abortDesc (c : CtxId) (i : Nat) (s : State) : State :=
  endDesc c i 2 (s.modCtx c (fun x =>
    if (x.desc i).isSome then x else { x with dma := { x.dma with descs := x.dma.descs ++ [{ index := i }] } }))

/-! ## COPY, PATTERN and BUDDY_READ -/

/-- The logical bytes of granule `g`. -/
def granuleBytes (total g : Nat) : List Nat := (List.range (min 64 (total - 64 * g))).map (· + 64 * g)

/-- Moves granules from the one that the descriptor has reached; `read` reads the logical bytes of a granule (R373). -/
def moveGranules (c : CtxId) (i total : Nat) (b : List Byte) (read : List Nat → State → Option (List Byte) × State) :
    Nat → State → State
  | 0, s => endDesc c i 1 s
  | n + 1, s =>
    let ks := granuleBytes total ((((s.ctx c).desc i).map (·.granule)).getD 0)
    match read ks s with
    | (none, s) => s
    | (some bs, s) =>
      let ws := mergeRuns ((ks.map (dstVa b)).zip bs)
      match if descOp b = 2 then putPattern c (reqCopy i) ws s else putMany c (reqCopy i) false ws s with
      | (false, s) => s
      | (true, s) => moveGranules c i total b read n (s.modCtx c (fun x => x.modDesc i (fun d => { d with granule := d.granule + 1 })))

def runCopy (c : CtxId) (i : Nat) (d : DescState) (s : State) : State :=
  let n := descN d.bytes
  let total := n.1 * n.2.1 * n.2.2
  moveGranules c i total d.bytes (fun ks s => readMoved c (reqCopy i) (mergeSpans (ks.map (srcVa d.bytes))) s)
    (ceilDiv total 64 - d.granule) s

/-- The device physical address of a byte offset of the buddy region: the regions of the stacks in ascending order (log entry
34). -/
def buddyAddr (s : State) (off : Nat) : Nat :=
  let r := buddyBytes s
  (off / r) * 2 ^ 36 + (2 ^ 36 - r) + off % r

def buddyTotal (s : State) : Nat := 8 * buddyBytes s

/-- Bytes of the buddy region; those beyond its end are free (log entry 34). -/
def readBuddy (c : CtxId) (offs : List Nat) (s : State) : Option (List Byte) × State :=
  let inside := offs.filter (fun o => decide (o < buddyTotal s))
  let bs := offs.map (fun o =>
    if buddyTotal s ≤ o || badWord s (buddyAddr s o / 32) then none else some (memGet s.mem (buddyAddr s o)))
  let r := fillFree bs (keepMark c (reqCopy 0) s (eccRead (some c) ((inside.map (fun o => buddyAddr s o / 32)).eraseDups) s))
  (some r.1, r.2)

def runBuddyRead (c : CtxId) (i : Nat) (d : DescState) (s : State) : State :=
  moveGranules c i (descLen d.bytes) d.bytes (fun ks s => readBuddy c (ks.map (fun k => descSrc d.bytes + k)) s)
    (ceilDiv (descLen d.bytes) 64 - d.granule) s

/-! ## REMOTE (R376) -/

/-- The remote-write header and its data. -/
def remoteBytes (type : Nat) (h : RemoteHdr) (bs : List Byte) : List Byte :=
  leBytes 1 type ++ leBytes 1 (b2n h.relHdr) ++ leBytes 2 h.srcRank.toNat ++ leBytes 2 h.dstRank.toNat ++ leBytes 2 bs.length ++
    leBytes 4 h.groupId.toNat ++ leBytes 4 h.wseq.toNat ++ leBytes 8 h.dstAddr.toNat ++ zeroBytes 8 ++ bs

/-- The data bytes that a packet of 16 flits carries. -/
def packetData : Nat := 4064

/-- Notes a write sent to device `uid` with number `w`. -/
def noteSent (c : CtxId) (i : Nat) (uid : U64) (w : U32) (s : State) : State :=
  s.modCtx c (fun x => x.modDesc i (fun d => { d with granule := d.granule + 1, unacked := d.unacked ++ [(uid, w)] }))

def sendRemote (c : CtxId) (i : Nat) (g : GroupSlot) (b : List Byte) (off : Nat) (bs : List Byte) (s : State) : State :=
  let uid := g.members.getD (descRank b).toNat 0
  let w := nextWseq c uid s
  let h : RemoteHdr := ⟨false, g.rank.zeroExtend 16, descRank b, g.id, w.1, BitVec.ofNat 64 (descDst b + off)⟩
  noteSent c i uid w.1 (sendPacket uid 2 (remoteBytes 0x20 h bs) w.2)

/-- Sends packets from the one that the descriptor has reached. -/
def sendPackets (c : CtxId) (i : Nat) (g : GroupSlot) (b : List Byte) : Nat → State → State
  | 0, s => s
  | n + 1, s =>
    let off := packetData * ((((s.ctx c).desc i).map (·.granule)).getD 0)
    match readMoved c (reqCopy i) [⟨descSrc b + off, min packetData (descLen b - off)⟩] s with
    | (none, s) => s
    | (some bs, s) => sendPackets c i g b n (sendRemote c i g b off bs s)

def runRemote (c : CtxId) (i : Nat) (d : DescState) (s : State) : State :=
  match formedSlot (s.ctx c) (descGroup d.bytes) with
  | none => s
  | some g =>
    let n := ceilDiv (descLen d.bytes) packetData
    let s := sendPackets c i g d.bytes (n - d.granule) s
    match (s.ctx c).desc i with
    | some d => if n ≤ d.granule ∧ d.unacked.isEmpty = true then endDesc c i 1 s else s
    | none => s

/-! ## CHECKPOINT (R384, R385) -/

/-- The spans of `len` bytes of the listed regions from byte `o` of their concatenation. -/
def regionSpans : List (Nat × Nat) → Nat → Nat → List Span
  | [], _, _ => []
  | (va, n) :: r, o, len =>
    if len = 0 then []
    else if n ≤ o then regionSpans r (o - n) len
    else
      let k := min len (n - o)
      ⟨va + o, k⟩ :: regionSpans r 0 (len - k)

/-- The slot header. -/
def slotHeader (x : Ctx) (total : Nat) : List Byte :=
  leBytes 4 0x59444442 ++ zeroBytes 4 ++ leBytes 8 x.step.toNat ++ x.wit.chain ++
    leBytes 8 ((x.active.map hash64Of).getD 0).toNat ++ leBytes 8 total

/-- The link that carries BUDDY_WRITE: the lowest of GLB_BUDDY_LINKS that is UP, else the lowest. -/
def buddyLink (s : State) : Option LinkId :=
  let ls := allLinks.filter (fun l => s.glb.buddyLinks.getLsbD l.val)
  match ls.find? (fun l => (s.link l).state == .up) with
  | some l => some l
  | none => ls.head?

/-- Sends one BUDDY_WRITE at slot offset `off`. -/
def sendBuddy (c : CtxId) (i : Nat) (l : LinkId) (rel : Bool) (off : Nat) (bs : List Byte) (s : State) : State :=
  let uid := (s.link l).peerUid
  let w := nextWseq c uid s
  let at' := off + (if (s.ctx c).buddySlot then buddyTotal s / 2 else 0)
  let h : RemoteHdr := ⟨rel, 0, 0, 0, w.1, BitVec.ofNat 64 at'⟩
  noteSent c i uid w.1 (w.2.modLink l (fun k => k.setQueue 2 (k.queue 2 ++ flitsOf uid 2 (remoteBytes 0x21 h bs))))

/-- Streams the data packets, number 0 the 64 zero bytes. -/
def streamRegions (c : CtxId) (i : Nat) (regions : List (Nat × Nat)) (total : Nat) : Nat → State → State
  | 0, s => resumeCommit c (s.modCtx c (fun x => x.modDesc i (fun d => { d with reading := false })))
  | n + 1, s =>
    match buddyLink s with
    | none => s
    | some l =>
      let g := (((s.ctx c).desc i).map (·.granule)).getD 0
      if g = 0 then streamRegions c i regions total n (sendBuddy c i l false 0 (zeroBytes 64) s)
      else
        let off := packetData * (g - 1)
        match readMoved c (reqCopy i) (regionSpans regions off (min packetData (total - off))) s with
        | (none, s) => s
        | (some bs, s) => streamRegions c i regions total n (sendBuddy c i l false (64 + off) bs s)

/-- Goes on with the packets, then the slot header after the last acknowledgement, then the end. -/
def streamOn (c : CtxId) (i : Nat) (s : State) : State :=
  match (s.ctx c).desc i with
  | none => s
  | some d =>
    let total := sumNat (d.regions.map (·.2))
    let n := 1 + ceilDiv total packetData
    let s := if d.granule ≤ n ∧ d.reading = true then streamRegions c i d.regions total (n - d.granule) s else s
    match (s.ctx c).desc i, buddyLink s with
    | some d, some l =>
      if !d.reading && d.granule == n && d.unacked.isEmpty then sendBuddy c i l true 0 d.header s
      else if decide (n < d.granule) && d.unacked.isEmpty then endDesc c i 1 s
      else s
    | _, _ => s

/-- Reads the region list first (R384). -/
def runCheckpoint (c : CtxId) (i : Nat) (d : DescState) (s : State) : State :=
  if !d.regions.isEmpty then streamOn c i s
  else
    let n := descLen d.bytes
    match readMoved c (reqCopy i) [⟨descSrc d.bytes, 16 * n⟩] s with
    | (none, s) => s
    | (some bs, s) =>
      let rs := (List.range n).map (fun k => (natAt bs (16 * k) 8, natAt bs (16 * k + 8) 8))
      streamOn c i (s.modCtx c (fun x => x.modDesc i (fun d =>
        { d with regions := rs, header := spliceBytes d.header 56 (leBytes 8 (sumNat (rs.map (·.2)))) })))

/-! ## Running a descriptor -/

def runDesc (c : CtxId) (i : Nat) (s : State) : State :=
  match (s.ctx c).desc i with
  | none => s
  | some d =>
    match descOp d.bytes with
    | 1 => runCopy c i d s
    | 2 => runCopy c i d s
    | 3 => runRemote c i d s
    | 4 => endDesc c i 1 s
    | 5 => runCheckpoint c i d s
    | _ => runBuddyRead c i d s

/-- The descriptor starts: a CHECKPOINT takes the context's step (R384). -/
def startDesc (c : CtxId) (i : Nat) (s : State) : State :=
  runDesc c i (s.modCtx c (fun x => x.modDesc i (fun d =>
    if descOp d.bytes = 5 then { d with started := true, step := x.step, reading := true, header := slotHeader x 0 }
    else { d with started := true })))

/-- A descriptor that has been read and not started: FENCE, the checks of 0x1105, then WAIT. -/
def openDesc (c : CtxId) (i : Nat) (d : DescState) (s : State) : State :=
  let x := s.ctx c
  if descFlag d.bytes 0 && !(earlier x i).all (descEnded x) then s
  else if descInvalid x d.bytes then endDesc c i 3 (violate c 0x1105 s)
  else if descFlag d.bytes 1 && !d.waited then
    let s := waitSem c (Fin.ofNat 1024 (natAt d.bytes 2 2 % 1024)) (BitVec.ofNat 16 (natAt d.bytes 4 2)) (.desc i)
      (s.modCtx c (fun x => x.modDesc i (fun d => { d with waited := true, waiting := true })))
    if (((s.ctx c).desc i).map (·.waiting)).getD true then s else startDesc c i s
  else startDesc c i s

def goOn (c : CtxId) (i : Nat) (s : State) : State :=
  match (s.ctx c).desc i with
  | none => s
  | some d =>
    if d.ended || d.waiting then s
    else if d.result ≠ 0 then finishDesc c i s
    else if d.started then runDesc c i s
    else openDesc c i d s

/-- The copy engines serve the ring: not of an unassigned (R410), pre-empted or stopped context, nor by a fenced engine. -/
def ringRuns (s : State) (c : CtxId) (i : Nat) : Bool :=
  let x := s.ctx c
  ctxLive s c && !x.saving && x.phase != .preempted && x.assigned && inRing x i &&
    !bitOf s.glb.engineFenced.toNat (16 + copyEngineOf x i)

/-- Runs the descriptor of slot `i` as far as it goes now, where its OP is one that the command accepts. -/
def doDesc (accepts : Nat → Bool) (c : CtxId) (i : Nat) (s : State) : State :=
  let x := s.ctx c
  if !ringRuns s c i then s
  else
    match x.desc i with
    | some d => if accepts (descOp d.bytes) then goOn c i s else s
    | none =>
      if !(earlier x i).all (descStarted x) then s
      else
        match readMoved c (reqCopy i) [⟨descVa x i, 64⟩] s with
        | (none, t) => t
        | (some b, t) =>
          if accepts (descOp b) then
            goOn c i (t.modCtx c (fun x => { x with dma := { x.dma with descs := x.dma.descs ++ [{ index := i, bytes := b }] } }))
          else s

/-- A COPY command also ends a descriptor of an unassigned OP. -/
def execCopy (c : CtxId) (i : Nat) (s : State) : Host.Outcome State Fault Refusal :=
  .next (doDesc (fun op => op == 1 || op == 0 || decide (6 < op)) c i s)

def execPatternCopy (c : CtxId) (i : Nat) (s : State) : Host.Outcome State Fault Refusal := .next (doDesc (· == 2) c i s)

def execRemote (c : CtxId) (i : Nat) (s : State) : Host.Outcome State Fault Refusal := .next (doDesc (· == 3) c i s)

def execSyncDesc (c : CtxId) (i : Nat) (s : State) : Host.Outcome State Fault Refusal := .next (doDesc (· == 4) c i s)

def execCheckpoint (c : CtxId) (i : Nat) (s : State) : Host.Outcome State Fault Refusal := .next (doDesc (· == 5) c i s)

def execBuddyRead (c : CtxId) (i : Nat) (s : State) : Host.Outcome State Fault Refusal := .next (doDesc (· == 6) c i s)

/-- DMA_TAIL (R372). -/
def doDmaTail (c : CtxId) (index : U16) (s : State) : State :=
  let x := s.ctx c
  if ringSize x - 1 < (index - x.dma.head).toNat then violate c 0x1107 s
  else s.setCtx c { x with dma := { x.dma with tail := index } }

def execDmaTail (fn : FnId) (c : CtxId) (index : U16) (s : State) : Host.Outcome State Fault Refusal :=
  .next (ctxPort fn c (.dmaTail fn c index) (doDmaTail c index) s)

/-! ## Received writes and acknowledgements -/

def countDmaStray (s : State) : State := s.modGlb (fun g => { g with dmaStray := satAdd g.dmaStray 1 })

/-- The acknowledgement of a write (its layout is open): on link VC3 to the module that sent it (R376). -/
def sendAck (uid : U64) (h : RemoteHdr) (s : State) : State :=
  sendPacket uid 3 ((List.range 32).map (Config.packetByte [s.glb.uid.toNat, h.groupId.toNat, h.srcRank.toNat, h.wseq.toNat])) s

/-- A write with REL_HDR of the module `uid` waits for one with a lower number (R376, R385). -/
def relWaits (s : State) (uid : U64) (h : RemoteHdr) : Bool := h.relHdr && lowerOpen s uid h.wseq

/-- The module that sent a write to the context. -/
def writerOf (x : Ctx) (h : RemoteHdr) : U64 := (((formedSlot x h.groupId).bind (fun g => g.members[h.srcRank.toNat]?))).getD 0

def holdRemote (c : CtxId) (i : Instr) (s : State) : State := s.modCtx c (fun x => { x with heldRemote := x.heldRemote ++ [i] })

/-- A write of the same source waits before this one at a page fault (R366). -/
def sourceHeld (s : State) (x : Ctx) (h : RemoteHdr) : Bool :=
  x.heldRemote.any (fun i =>
    match i with
    | .remoteWrite _ k _ => k.srcRank == h.srcRank && k.groupId == h.groupId && !relWaits s (writerOf x k) k
    | _ => false)

/-- Commits a remote write and acknowledges it; holds it at a page fault, behind a write of its source that is held there, and
with REL_HDR while a lower number is open (R366, R376). -/
def commitRemote (c : CtxId) (l : LinkId) (h : RemoteHdr) (bs : List Byte) (s : State) : State :=
  let x := s.ctx c
  if relWaits s (writerOf x h) h || sourceHeld s x h then holdRemote c (.remoteWrite l h bs) s
  else
    match putVa c (reqRemote h.srcRank.toNat) false h.dstAddr.toNat bs s with
    | (false, s) => holdRemote c (.remoteWrite l h bs) s
    | (true, s) =>
      if (formedSlot (s.ctx c) h.groupId).isSome then
        sendAck (writerOf (s.ctx c) h) h (settleSeq (writerOf (s.ctx c) h) h.wseq s)
      else s

/-- Writes a run of buddy-region offsets. -/
def putBuddy : Nat → Nat → List Byte → State → State
  | 0, _, _, s => s
  | n + 1, off, bs, s =>
    if bs.isEmpty then s
    else
      let k := buddyBytes s - off % buddyBytes s
      putBuddy n (off + k) (bs.drop k) (devWrite none (buddyAddr s off) (bs.take k) s)

/-- Commits a BUDDY_WRITE: REL_HDR data waits for every write of the source with a lower number (R385). -/
def commitBuddy (l : LinkId) (h : RemoteHdr) (bs : List Byte) (s : State) : State :=
  let uid := (s.link l).peerUid
  if relWaits s uid h then { s with heldBuddy := s.heldBuddy ++ [(l, h, bs)] }
  else sendAck uid h (settleSeq uid h.wseq (putBuddy 9 h.dstAddr.toNat bs s))

/-- The held buddy writes are tried again. -/
def retryBuddy (s : State) : State :=
  s.heldBuddy.foldl (fun t p => commitBuddy p.1 p.2.1 p.2.2 t) { s with heldBuddy := [] }

/-- The held remote writes of a context are tried again, in order; those of a context in reset stay held. -/
def retryWrites (c : CtxId) (s : State) : State :=
  let held := (s.ctx c).heldRemote
  if held.isEmpty || (s.ctx c).busy then s
  else
    held.foldl (fun t i =>
      match i with
      | .remoteWrite l h bs => commitRemote c l h bs t
      | _ => t) (s.modCtx c (fun x => { x with heldRemote := [] }))

/-- How many writes are held. -/
def heldCount (s : State) : Nat := s.heldBuddy.length + (allCtx.map (fun c => (s.ctx c).heldRemote.length)).foldl (· + ·) 0

/-- A number has been dealt with: the writes that waited for it are committed, `n` rounds at most. -/
def retryHeld : Nat → State → State
  | 0, s => s
  | n + 1, s =>
    let t := retryBuddy (s.each allCtx (fun c u => retryWrites c u))
    if heldCount t < heldCount s then retryHeld n t else t

/-- What a packet of a source does, then the writes that waited for its number. -/
def thenHeld (s : State) : State := retryHeld (heldCount s) s

/-- REMOTE_WRITE (R376, R391): one to a context in reset is held. -/
def doRemoteWrite (l : LinkId) (h : RemoteHdr) (bs : List Byte) (s : State) : State :=
  if !mayWork s then s
  else
    match groupCtx s h.groupId h.dstRank.toNat with
    | none => countDmaStray s
    | some c => if (s.ctx c).busy then holdRemote c (.remoteWrite l h bs) s else thenHeld (commitRemote c l h bs s)

def execRemoteWrite (l : LinkId) (h : RemoteHdr) (bytes : List Byte) (s : State) : Host.Outcome State Fault Refusal :=
  .next (doRemoteWrite l h bytes s)

/-- BUDDY_WRITE: accepted on the links of GLB_BUDDY_LINKS, within the region. -/
def doBuddyWrite (l : LinkId) (h : RemoteHdr) (bs : List Byte) (s : State) : State :=
  if !mayWork s then s
  else if !s.glb.buddyLinks.getLsbD l.val || decide (buddyTotal s < h.dstAddr.toNat + bs.length) then countDmaStray s
  else thenHeld (commitBuddy l h bs s)

def execBuddyWrite (l : LinkId) (h : RemoteHdr) (bytes : List Byte) (s : State) : Host.Outcome State Fault Refusal :=
  .next (doBuddyWrite l h bytes s)

/-- The held remote writes of a context are tried again, and the writes that waited for them. -/
def retryRemote (c : CtxId) (s : State) : State := if (s.ctx c).heldRemote.isEmpty then s else thenHeld (retryWrites c s)

/-- SIGNAL and ARRIVE: each carries a number of its source's sequence (R348), and a write may wait for it. -/
def execSyncSignal (_l : LinkId) (p : SyncPkt) (s : State) : Host.Outcome State Fault Refusal :=
  .next (thenHeld (doSyncSignal p (noteSeq p.groupId p.srcRank p.wseq s)))

def execArrive (_l : LinkId) (p : SyncPkt) (s : State) : Host.Outcome State Fault Refusal :=
  .next (thenHeld (doArrive p (noteSeq p.groupId p.srcRank p.wseq s)))

/-- Takes the first entry of a list that equals `a` out of it. -/
def dropOne {α : Type} [DecidableEq α] (a : α) : List α → List α
  | [] => []
  | b :: l => if b = a then l else b :: dropOne a l

/-- REMOTE_ACK: the write is acknowledged; a descriptor whose writes all are goes on (R374). -/
def doRemoteAck (uid : U64) (c : CtxId) (wseq : U32) (s : State) : State :=
  match (s.ctx c).dma.descs.find? (fun d => d.unacked.contains (uid, wseq)) with
  | none => s
  | some d =>
    if !mayWork s then s
    else
      let s := s.modCtx c (fun x => x.modDesc d.index (fun d => { d with unacked := dropOne (uid, wseq) d.unacked }))
      if ringRuns s c d.index then goOn c d.index s else s

def execRemoteAck (_l : LinkId) (uid : U64) (c : CtxId) (wseq : U32) (s : State) : Host.Outcome State Fault Refusal :=
  .next (doRemoteAck uid c wseq s)

end Sys2Proof.Machine
end

