-- ==== Sys2Proof/Machine/Preempt.lean ====
section
/-! DEFINITION. Pre-emption: SAVE, PREEMPT_COMPLETE and RESTORE (R32, R377 to R383), and the end of page faults (R366), of
translations (R363) and of host-page requests (R369, R370). -/

namespace Sys2Proof.Machine

open Sys2Proof

/-- PHASE as CTX_STEP_STATE reports it (R29). -/
def phaseCode : Phase → Nat
  | .idle => 0
  | .running => 1
  | .closing => 2
  | .held => 3
  | .committing => 4
  | .preempted => 5

/-! ## SAVE (R377, R380, R381) -/

/-- The header of PAUSE and RESUME for a group: that of an instance of the group. -/
def groupHdr (x : Ctx) (gid : U32) : CollHdr :=
  match x.insts.find? (fun n => n.groupId == gid && n.step == x.step && !n.complete) with
  | some n => instHdr n
  | none => { digestHdr x (x.active.getD {}) with groupId := gid }

/-- The partners of the open instances, by group. -/
def pauseList (x : Ctx) : List (U32 × Nat) :=
  ((x.insts.filter (fun n => !n.complete && !n.nan && n.step == x.step)).flatMap (fun n =>
    n.partners.map (fun r => (n.groupId, r)))).eraseDups

/-- SAVE; while a power-cycle request stands no save starts (R401). -/
def doSave (c : CtxId) (s : State) : State :=
  let x := s.ctx c
  if x.phase = .preempted then violate c 0x1104 s
  else if x.saving || !mayWork s then s
  else
    let ps := pauseList x
    let s := s.setCtx c { x with saving := true, pausing := ps }
    s.each ps (fun p t => sendColl c p.2 tPAUSE (groupHdr x p.1) [] t)

def execSave (fn : FnId) (c : CtxId) (s : State) : Host.Outcome State Fault Refusal :=
  .next (ctxPort fn c (.save fn c) (doSave c) s)

/-- The quarters of a partition. -/
def quarterCount (q : BitVec 4) : Nat := (List.range 4).countP (fun i => q.getLsbD i)

/-- CTX_SAVE_NEED (R378). -/
def saveNeed (x : Ctx) : Nat := 0x40000 * (128 * quarterCount x.quarters) + 0x40000

/-- The header of the area (R379): MAGIC, then the context, QUARTER_MASK, the generation, the byte count and the CRC-64 of the
area. DESIGN CHOICE (log entry 72): the places of the fields behind MAGIC; the last 32 bytes are the device's own. -/
def saveHead (c : CtxId) (x : Ctx) (body : List Byte) : List Byte :=
  leBytes 4 0x45564153 ++ leBytes 1 c.val ++ leBytes 1 x.qmask.toNat ++ zeroBytes 2 ++
    leBytes 4 ((x.active.map (·.generation.toNat)).getD 0) ++ zeroBytes 4 ++ leBytes 8 body.length ++ leBytes 8 (crc64 body).toNat ++
    (List.range 32).map (Config.saveHeaderByte [c.val, body.length])

/-- Step 3 of R377: Gauge's tables go home, and the area is written. Where the tables' own requester stands at a page fault it
is saved at that point, with the tables still to be written (R380). -/
def writeSave (c : CtxId) (s : State) : Bool × State :=
  let x := s.ctx c
  let gauge :=
    match x.active with
    | some m =>
      if x.phase = .idle || stopped x reqGauge then (true, s)
      else putMany c reqPreempt false [(layerAddr x 0, (x.layers.take m.layerCount).flatMap layerBytes), (siteAddr x 0, x.sites.flatMap siteBytes)] s
    | none => (true, s)
  match gauge with
  | (false, s) => (false, s)
  | (true, s) =>
    let d := drawNat s
    let body := (List.range (d.1 % (saveNeed x - 63))).map (Config.saveBodyByte s.draws)
    let head := saveHead c x body
    match putVa c reqPreempt true (x.saveVa.toNat * 64) (head ++ body) d.2 with
    | (false, s) => (false, s)
    | (true, s) => (true, s.modCtx c (fun x => { x with saveHeader := head, saveLen := body.length }))

/-- PREEMPT_COMPLETE: every station stands at a pre-emption point between two commands. A request that arrives in COMMITTING takes
effect after step 6 of R23 (R32). DESIGN CHOICE (log entry 75): steps 6 and 7 are one command, so it takes effect after step 7, and
the saved phase is RUNNING or IDLE. -/
def doPreemptComplete (c : CtxId) (s : State) : State :=
  let x := s.ctx c
  if !mayWork s || x.busy || inPartReset s x || !x.saving || x.phase == .committing then s
  else
    match writeSave c s with
    | (false, s) => s
    | (true, s) =>
      let s := s.modCtx c (fun x =>
        { x with phase := .preempted, saved := x.phase, savedClosing := x.closing, saving := false,
                 mmu := { x.mmu with tlb := [], atc := [], ats := [] } })
      let s := askQueued s
      ctxEvent c 0x1703 false (payload [(0, 1, c.val), (1, 1, phaseCode x.phase), (8, 8, x.step.toNat)]) s

def execPreemptComplete (c : CtxId) (s : State) : Host.Outcome State Fault Refusal := .next (doPreemptComplete c s)

/-! ## The end of page faults (R365, R366) -/

/-- Accesses that met the limit take the freed identifiers, oldest first (R365). -/
def takeWaiting (c : CtxId) : Nat → State → State
  | 0, s => s
  | n + 1, s =>
    match (s.ctx c).mmu.waiting with
    | [] => s
    | w :: ws =>
      if 64 ≤ (s.ctx c).mmu.faults.length then s
      else takeWaiting c n
        (pageFault c w.req w.cause w.va w.write (s.modCtx c (fun x => { x with mmu := { x.mmu with waiting := ws } })))

/-- ABORT of the requesters of a fault: a copy-engine access ends its descriptor, any other resets the context. -/
def abortReqs (c : CtxId) (rs : List FaultReq) (s : State) : State :=
  let s := s.each (rs.filter (fun r => r.kind == 1)) (fun r t => abortDesc c r.source t)
  if rs.any (fun r => r.kind != 1) then requestCtxReset c 6 s else s

/-- The end of one fault; what the device itself had stopped goes on. -/
def endFault (c : CtxId) (id : U16) (retry : Bool) (s : State) : State :=
  match (s.ctx c).mmu.faults.find? (fun f => f.id == id) with
  | none => violate c 0x1106 s
  | some f =>
    let s := s.modCtx c (fun x => { x with mmu := { x.mmu with faults := x.mmu.faults.filter (fun k => k.id != id) } })
    let s := if retry then s else abortReqs c f.reqs s
    takeWaiting c (s.ctx c).mmu.waiting.length s

/-! ## RESTORE (R383) -/

/-- A packet of the collective area reaches the Glue-up engines. -/
def feedPacket (c : CtxId) (i : Instr) (s : State) : State :=
  match i with
  | .accept _ _ h => acceptIn c h s
  | .scale l _ h recs => scaleIn c l h recs s
  | .data l _ h sums => dataIn c l h sums s
  | .gather l _ h bytes => gatherIn c l h bytes s
  | _ => s

/-- Packets of the area, then the JOINs held meanwhile, then the digests. -/
def feedArea (c : CtxId) (s : State) : State :=
  let x := s.ctx c
  let s := s.setCtx c { x with areaPackets := [], areaUsed := 0, heldJoins := [] }
  let s := s.each x.areaPackets (fun i t => feedPacket c i t)
  let s := s.each x.heldJoins (fun p t => joinIn c p.1 p.2 t)
  s.modCtx c compareDigests

/-- What follows the check of the header. -/
def placeRestored (c : CtxId) (s : State) : State :=
  let x := s.ctx c
  let hdrs := x.pausing.map (fun p => (p.2, groupHdr x p.1))
  let s := s.setCtx c { x with phase := x.saved, closing := x.savedClosing, saved := .idle, savedClosing := .no, restoring := false,
                               pausing := [], mmu := { x.mmu with kept := [] } }
  let s := match x.active with
    | some m => compelMoves c m s
    | none => s
  let s := feedArea c s
  let s := s.each hdrs (fun p t => sendColl c p.1 tRESUME p.2 [] t)
  let s := s.each x.mmu.kept (fun k t => endFault c k.1 k.2 t)
  let s := s.each (List.finRange 1024) (fun q t => if ((t.ctx c).sems[q]).queue.isEmpty then t else serveSem c q t)
  kick c (retryForms c (retryRemote c s))

/-- Reads the area and checks its header; a page fault stops the restore. -/
def readSave (c : CtxId) (s : State) : State :=
  let x := s.ctx c
  match fetchVa c reqPreempt true ⟨x.saveVa.toNat * 64, 64 + x.saveLen⟩ s with
  | (none, s) => s.modCtx c (fun x => { x with restoring := true })
  | (some b, s) =>
    if !b.2 && b.1.take 64 == x.saveHeader && saveHead c x (b.1.drop 64) == x.saveHeader then placeRestored c s
    else (violate c 0x1103 s).modCtx c (fun x => { x with restoring := false })

def doRestore (c : CtxId) (s : State) : State :=
  let x := s.ctx c
  if x.phase ≠ .preempted then violate c 0x1104 s
  else if x.restoring || !mayWork s || inPartReset s x then s
  else readSave c s

def execRestore (fn : FnId) (c : CtxId) (s : State) : Host.Outcome State Fault Refusal :=
  .next (ctxPort fn c (.restore fn c) (doRestore c) s)

/-! ## MMU_FAULT_RESUME and MMU_INVAL -/

/-- What stopped and needs no command of its own goes on: a restore, remote writes, member tables, work on tables. -/
def resumeStopped (c : CtxId) (s : State) : State :=
  if (s.ctx c).busy then s
  else
    let s := if (s.ctx c).restoring then readSave c s else s
    kick c (retryForms c (retryRemote c s))

/-- MMU_FAULT_RESUME: kept while the context is PREEMPTED, a restore in progress apart (R366). -/
def faultResume (c : CtxId) (id : U16) (retry : Bool) (s : State) : State :=
  let x := s.ctx c
  if !x.mmu.faults.any (fun f => f.id == id) then violate c 0x1106 s
  else if x.phase == .preempted && !x.restoring then
    s.setCtx c { x with mmu := { x.mmu with kept := x.mmu.kept ++ [(id, retry)] } }
  else resumeStopped c (endFault c id retry s)

def execFaultRetry (fn : FnId) (c : CtxId) (id : U16) (s : State) : Host.Outcome State Fault Refusal :=
  .next (ctxPort fn c (.faultRetry fn c id) (faultResume c id true) s)

def execFaultAbort (fn : FnId) (c : CtxId) (id : U16) (s : State) : Host.Outcome State Fault Refusal :=
  .next (ctxPort fn c (.faultAbort fn c id) (faultResume c id false) s)

/-- The pages that MMU_INVAL covers. -/
def invalCovers (page scope p : Nat) : Bool :=
  match scope with
  | 0 => p == page
  | 1 => p / 32 == page / 32
  | 2 => p / 16384 == page / 16384
  | _ => true

/-- MMU_INVAL (R363): the covered translations go, and those of host pages with them; the collective area's stay (R382). -/
def doMmuInval (c : CtxId) (page : BitVec 48) (scope : BitVec 2) (s : State) : State :=
  let x := s.ctx c
  let hit (t : Tlb) : Bool := invalCovers page.toNat scope.toNat t.page
  let gone := x.mmu.tlb.filter hit
  let s := if x.phase != .idle && x.mmu.collPages.any hit then violate c 0x1102 s else s
  s.modCtx c (fun x => { x with mmu := { x.mmu with
    tlb := x.mmu.tlb.filter (fun t => !hit t)
    atc := x.mmu.atc.filter (fun a => scope != 3 && !gone.any (fun t => t.host && t.frame == a.hostPage.toNat)) } })

def execMmuInval (fn : FnId) (c : CtxId) (page : BitVec 48) (scope : BitVec 2) (s : State) : Host.Outcome State Fault Refusal :=
  .next (ctxPort fn c (.mmuInval fn c page scope) (doMmuInval c page scope) s)

/-! ## Host pages (R369, R370) -/

def ofPage (hostPage : U64) (w : HostWait) : Bool := w.hostPage == hostPage.toNat

/-- The host refuses the page of a waiting access: cause HOSTDENY, or the formation whose table it is ends (R428). -/
def failWait (c : CtxId) (w : HostWait) (s : State) : State :=
  let g : SlotId := Fin.ofNat 16 w.req.source
  if w.req.kind = 7 then (if ((s.ctx c).group g).state == .forming then refuseSlot c g 9 0 s else s)
  else pageFault c w.req cHostDeny w.va w.write s

/-- An access waits for the answer to a page request for the page. -/
def asksFor (hostPage : U64) (w : HostWait) : Bool := ofPage hostPage w && w.stage == .asked

/-- A completion is cached; an access that lacks its permission starts a page request, or HOSTDENY where PRI has stopped. -/
def doAtsCompletion (c : CtxId) (t : AtsCompletion) (s : State) : State :=
  let x := s.ctx c
  let mine (w : HostWait) : Bool := ofPage t.hostPage w && w.stage == .translation
  let waits := x.mmu.ats.filter mine
  if !mayWork s || waits.isEmpty then s
  else
    let ok (w : HostWait) : Bool := if w.write then t.canWrite else t.canRead
    let deny := if (s.func (ctxFn s c)).priStopped then waits.filter (fun w => !ok w) else []
    let next (w : HostWait) : Option HostWait :=
      if !mine w then some w
      else if ok w || deny.contains w then none
      else some { w with stage := priStage s c }
    let s := s.setCtx c { x with mmu := { x.mmu with
      atc := t :: x.mmu.atc.filter (fun a => a.hostPage != t.hostPage), ats := x.mmu.ats.filterMap next } }
    let s := s.each deny (fun w t => failWait c w t)
    resumeStopped c s

def execAtsTranslationCompletion (c : CtxId) (t : AtsCompletion) (s : State) : Host.Outcome State Fault Refusal :=
  .next (doAtsCompletion c t s)

/-- Success: the translation is requested again. -/
def doPriSuccess (c : CtxId) (hostPage : U64) (s : State) : State :=
  let x := s.ctx c
  if x.mmu.ats.any (asksFor hostPage) then
    askQueued (s.setCtx c { x with mmu := { x.mmu with
      atc := x.mmu.atc.filter (fun a => a.hostPage != hostPage)
      ats := x.mmu.ats.map (fun w => if ofPage hostPage w then { w with stage := .translation } else w) } })
  else s

def execPriSuccess (c : CtxId) (hostPage : U64) (s : State) : Host.Outcome State Fault Refusal := .next (doPriSuccess c hostPage s)

/-- Ends host-page waits with cause HOSTDENY; a page request that waited for room may go. -/
def denyWaits (c : CtxId) (hit : HostWait → Bool) (s : State) : State :=
  let x := s.ctx c
  let ws := x.mmu.ats.filter hit
  askQueued ((s.setCtx c { x with mmu := { x.mmu with ats := x.mmu.ats.filter (fun w => !hit w) } }).each ws (fun w t =>
    failWait c w t))

def execPriInvalidRequest (c : CtxId) (hostPage : U64) (s : State) : Host.Outcome State Fault Refusal :=
  .next (denyWaits c (asksFor hostPage) s)

/-- Response Failure: PRI stops on the function (R370). -/
def doPriResponseFailure (fn : FnId) (pasid : BitVec 20) (s : State) : State :=
  let s := s.modFunc fn (fun f => { f with priStopped := true })
  let s := raise fn0 0x1705 false (payload [(0, 1, 0xFF), (4, 4, pasid.toNat)]) s
  s.each (allCtx.filter (fun c => ctxFn s c == fn)) (fun c t => denyWaits c (fun _ => true) t)

def execPriResponseFailure (fn : FnId) (pasid : BitVec 20) (s : State) : Host.Outcome State Fault Refusal :=
  .next (doPriResponseFailure fn pasid s)

/-- An invalidation request of the host (R369). -/
def doAtsInvalidate (fn : FnId) (hostPage : U64) (s : State) : State :=
  s.each (allCtx.filter (fun c => ctxFn s c == fn)) (fun c t =>
    t.modCtx c (fun x => { x with mmu := { x.mmu with atc := x.mmu.atc.filter (fun a => a.hostPage != hostPage) } }))

def execAtsInvalidate (fn : FnId) (hostPage : U64) (s : State) : Host.Outcome State Fault Refusal :=
  .next (doAtsInvalidate fn hostPage s)

end Sys2Proof.Machine
end

