-- ==== Sys2Proof/Machine/Security.lean ====
section
/-! DEFINITION. The security unit: image checks and boot (R432, R433), the security version (R434), the certificate (R435),
attestation reports (R436, R437) and the debug lock (R438, R439). -/

namespace Sys2Proof.Machine

open Sys2Proof

/-! ## Signatures: RSASSA-PKCS1-v1_5 of RFC 8017 with SHA-256, a 3072-bit modulus and exponent 65537 -/

def beNat (bs : List Byte) : Nat := leNat bs.reverse

def squareMod (n : Nat) : Nat → Nat → Nat
  | 0, v => v
  | k + 1, v => squareMod n k (v * v % n)

/-- v to the power 65537, modulo n. -/
def rsaPublic (n v : Nat) : Nat := squareMod n 16 (v % n) * v % n

/-- The encoded message of a SHA-256 digest. -/
def pkcsMessage (digest : List Byte) : List Byte :=
  [0x00, 0x01] ++ List.replicate 330 0xFF ++ [0x00] ++
    [0x30, 0x31, 0x30, 0x0d, 0x06, 0x09, 0x60, 0x86, 0x48, 0x01, 0x65, 0x03, 0x04, 0x02, 0x01, 0x05, 0x00, 0x04, 0x20] ++ digest

def rsaVerify (modulus signature message : List Byte) : Bool :=
  let n := beNat modulus
  let v := beNat signature
  decide (v < n) && rsaPublic n v == beNat (pkcsMessage (sha256 message))

/-! ## Image checks (R432) -/

def imgKeySlot (b : List Byte) : Nat := natAt b 4 1
def imgSvn (b : List Byte) : Nat := natAt b 5 1
def imgVersion (b : List Byte) : U32 := BitVec.ofNat 32 (natAt b 8 4)
def imgLength (b : List Byte) : Nat := natAt b 0xC 4
def imgBody (b : List Byte) : List Byte := (b.drop 0x340).take (imgLength b)

/-- The code of the first check that fails, against the fuses as they stood at the last boot (R434). -/
def imageCheck (k : Sec) (b : List Byte) : Option Nat :=
  if ¬ (natAt b 0 4 = 0x4D494843 ∧ imgLength b ≤ 2 ^ 24) then some 1
  else if ¬ (imgKeySlot b ≤ 3 ∧ k.revokeBound.getLsbD (imgKeySlot b) = false) then some 2
  else if sha256 ((b.drop 0x40).take 0x180) ≠ k.rootKeys.toList.getD (imgKeySlot b) [] then some 3
  else if ¬ rsaVerify ((b.drop 0x40).take 0x180) ((b.drop 0x1C0).take 0x180) (b.take 0x1C0 ++ imgBody b) then some 4
  else if imgSvn b < k.svnBound.toNat then some 5
  else none

/-- The firmware that boots: the management image of a slot, then the engine image. -/
def Sec.run (k : Sec) (slot : Nat) (b : List Byte) : Sec :=
  { k with bootSlot := BitVec.ofNat 4 slot, keySlot := BitVec.ofNat 2 (imgKeySlot b), fwVersion := imgVersion b, fwSvn := BitVec.ofNat 8 (imgSvn b),
           fwHash := sha256 (imgBody b ++ imgBody k.flashEngine),
           err := BitVec.ofNat 4 ((imageCheck k k.flashEngine).getD 0) }

/-- The private key that the fused secret gives; none under RMA (R435, R438). -/
def Sec.deriveIdentity (k : Sec) : Option (List Byte) := if k.debugState = 2 then none else some (Config.deriveKey Config.fusedSecret)

/-- The boot ROM: slot A, then slot B; ERR stays 0 where the boot goes on. The fuses bind as they stand now, the identity key is
derived, and a new nonce is drawn. -/
def Sec.boot (k : Sec) : Sec :=
  let k := { k with errA := 0, errB := 0, err := 0, nonce := Config.debugNonce k.nonceDraws, nonceDraws := k.nonceDraws + 1,
                    lastNonce := none, svnBound := k.svn, revokeBound := k.keyRevoke, identityKey := k.deriveIdentity }
  match imageCheck k k.flashA with
  | none => k.run 0 k.flashA
  | some a =>
    let k := { k with errA := BitVec.ofNat 4 a }
    match imageCheck k k.flashB with
    | none => k.run 1 k.flashB
    | some b => { k with errB := BitVec.ofNat 4 b, err := BitVec.ofNat 4 b }

/-! ## The security version and the certificate (R434, R435) -/

/-- The key slots that the revocation image in flash revokes: none unless it passes the checks of R432, and never the running
one. DESIGN CHOICE (log entry 73): the mask is the low nibble of the first byte of its body. -/
def Sec.revoked (k : Sec) : BitVec 4 :=
  if (imageCheck k k.flashRevoke).isSome then 0
  else BitVec.ofNat 4 (natAt (imgBody k.flashRevoke) 0 1) &&& ~~~(BitVec.ofNat 4 (2 ^ k.keySlot.toNat))

/-- SEC_SVN_COMMIT: FUSED rises to the SVN of the running firmware, and the revocation image is fused in the same way; both bind
from the next boot (R434). -/
def doSvnCommit (s : State) : State :=
  let n := s.sec.fwSvn.toNat
  if n < s.sec.svn.toNat ∨ 63 < n then violateGlb 0x1402 s
  else s.modSec (fun k => { k with svn := BitVec.ofNat 6 n, keyRevoke := k.keyRevoke ||| k.revoked })

def execSecSvnCommit (fn : FnId) (s : State) : Host.Outcome State Fault Refusal := 
  .next (glbPort fn (.secSvnCommit fn) doSvnCommit s)

/-- The content bytes of a DER INTEGER: the least number of bytes, the highest first, with the sign bit clear. -/
def derContent : Nat → Nat → List Byte
  | 0, _ => [0]
  | n + 1, v => if v < 128 then [BitVec.ofNat 8 v] else derContent n (v / 256) ++ [BitVec.ofNat 8 v]

def derInteger (v : Nat) : List Byte :=
  let bs := derContent 9 v
  [0x02, BitVec.ofNat 8 bs.length] ++ bs

/-- The X.509 v3 certificate in flash: its serial number is GLB_DEVICE_UID (R435; log entry 73). -/
def certificate (uid : U64) : List Byte := Config.certHead uid ++ derInteger uid.toNat ++ Config.certTail uid

/-- SEC_CERT_VA: the certificate goes to the bus address given (log entry 35). -/
def doCertVa (v : U64) (s : State) : State :=
  let a := v.extractLsb' 6 58
  { s.modSec (fun k => { k with certVa := a }) with hostMem := memWrite s.hostMem (a.toNat * 64) (certificate s.glb.uid) }

def execSecCertVa (fn : FnId) (value : U64) (s : State) : Host.Outcome State Fault Refusal :=
  .next (glbPort fn (.secCertVa fn value) (doCertVa value) s)

/-! ## Attestation (R436, R437) -/

/-- SEC_ATTEST_CTRL. -/
def doAttest (c : CtxId) (kind : BitVec 2) (s : State) : State :=
  let x := s.ctx c
  if x.attestStatus = .pending ∨ kind = 0 ∨ kind = 3 then violate c 0x1401 s
  else
    (s.setCtx c { x with attestStatus := .pending, attestKind := kind }).modSec (fun k => { k with queue := k.queue ++ [c] })

def execAttestFirmware (fn : FnId) (c : CtxId) (s : State) : Host.Outcome State Fault Refusal :=
  .next (ctxPort fn c (.attestFirmware fn c) (doAttest c 1) s)

def execAttestSeal (fn : FnId) (c : CtxId) (s : State) : Host.Outcome State Fault Refusal :=
  .next (ctxPort fn c (.attestSeal fn c) (doAttest c 2) s)

/-- The requester of a report's nonce and destination (log entry 36). -/
def reqAttest : FaultReq := reqTable 0x8000

/-- The first 192 bytes of the report. -/
def reportBody (c : CtxId) (x : Ctx) (k : Sec) (uid : U64) (nonce : List Byte) : List Byte :=
  leBytes 4 0x54545441 ++ leBytes 2 1 ++ leBytes 1 x.attestKind.toNat ++ leBytes 1 c.val ++ leBytes 2 1 ++
    leBytes 1 k.debugState.toNat ++ leBytes 1 k.fwSvn.toNat ++ leBytes 4 k.fwVersion.toNat ++ leBytes 8 uid.toNat ++
    leBytes 8 x.step.toNat ++ nonce ++ k.fwHash ++ ((x.active.map (·.hash)).getD (zeroBytes 32)) ++
    (if x.attestKind = 2 then x.wit.chain else zeroBytes 32) ++ leBytes 4 ((x.active.map (·.generation.toNat)).getD 0) ++ zeroBytes 28

/-- The last 384 bytes of the report: an RSA-3072 signature by the identity key (R435, R436). -/
def identitySignature (k : Sec) (body : List Byte) : List Byte :=
  (List.range 384).map (Config.identitySignatureByte (k.identityKey.getD []) body)

/-- The request of the context ends with a status and event 0x1A01. -/
def endReport (c : CtxId) (status : AttestStatus) (code : Nat) (s : State) : State :=
  let s := (s.modCtx c (fun x => { x with attestStatus := status })).modSec (fun k => { k with queue := k.queue.filter (· != c) })
  let x := s.ctx c
  ctxEvent c 0x1A01 false (payload [(0, 1, c.val), (1, 1, code), (2, 1, x.attestKind.toNat), (8, 8, x.step.toNat)]) s

/-- REPORT_DONE: the request at the head of the queue. -/
def doReportDone (c : CtxId) (s : State) : State :=
  if !mayWork s || s.sec.queue.head? != some c || (s.ctx c).busy then s
  else if s.sec.debugState = 2 then endReport c .refused 3 s
  else
    match fetchVa c reqAttest false ⟨(s.ctx c).attestVa.toNat * 64, 32⟩ s with
    | (none, s) => s
    | (some n, s) =>
      let body := reportBody c (s.ctx c) s.sec s.glb.uid n.1
      match putVa c reqAttest false ((s.ctx c).attestVa.toNat * 64) (body ++ identitySignature s.sec body) s with
      | (false, s) => s
      | (true, s) => endReport c .done 2 s

def execReportDone (c : CtxId) (s : State) : Host.Outcome State Fault Refusal := .next (doReportDone c s)

/-! ## The debug lock (R438) -/

/-- A read of SEC_DEBUG_NONCE: the value read stands for a token, and the next is drawn. -/
def readNonce (s : State) : State :=
  s.modSec (fun k => { k with lastNonce := some k.nonce, nonce := Config.debugNonce k.nonceDraws, nonceDraws := k.nonceDraws + 1 })

/-- The registers of the security unit can be read: by PF0 over PCIe, or over the bus, which the always-on domain answers in
every state in which it has power (R388, R445). -/
def canReadGlb (s : State) (r : Requester) : Bool :=
  match r with
  | .fn f => hostUp s && f == 0
  | .bus => s.pwr.aoOn && s.mgt.daValid

def execDebugNonceRead (req : Requester) (s : State) : Host.Outcome State Fault Refusal :=
  .next (if canReadGlb s req then readNonce s else s)

/-- The test port and the internal bench registers can be read (R438); what they show is not given (log entry 73). -/
def Sec.debugOpen (k : Sec) : Bool := k.debugState != 0

/-- A token that passes every check: the state it names. Its body: DEVICE_UID at 0, STATE at 8, NONCE at 16 (log entry 37). -/
def tokenTarget (k : Sec) (uid : U64) (b : List Byte) : Option Nat :=
  let body := imgBody b
  let target := natAt body 8 1
  if (imageCheck k b).isSome || natAt body 0 8 != uid.toNat || k.lastNonce != some (BitVec.ofNat 64 (natAt body 16 8)) then none
  else if target = 2 ∨ (target = 1 ∧ k.debugState ≠ 2) then some target
  else none

/-- SEC_DEBUG_TOKEN_VA: DEBUG takes effect at the next chip reset, RMA at once. -/
def doDebugToken (v : U64) (s : State) : State :=
  let a := (v.extractLsb' 6 58).toNat * 64
  let b := memRead s.hostMem a (0x340 + natAt (memRead s.hostMem a 16) 0xC 4 % 2 ^ 25)
  match tokenTarget s.sec s.glb.uid b with
  | none => violateGlb 0x1403 s
  | some 2 => s.modSec (fun k => { k with debugState := 2, debugNext := none, identityKey := none })
  | some _ => s.modSec (fun k => { k with debugNext := some 1 })

def execDebugToken (fn : FnId) (value : U64) (s : State) : Host.Outcome State Fault Refusal :=
  .next (glbPort fn (.debugToken fn value) (doDebugToken value) s)

end Sys2Proof.Machine
end

