-- ==== Sys2Proof/Machine/Reset.lean ====
section
/-! DEFINITION. Reset domains (R388 to R393), engine resets (R397), escalation (R398, R399), watchdogs (R394 to R396), FLR and
the fundamental reset (R400), power-cycle requests (R401) and the effects of each completed reset (R390, R402). -/

namespace Sys2Proof.Machine

open Sys2Proof

/-! ## Events (R403) -/

/-- KIND and INDEX of a unit. -/
def unitKind : UnitRef → Nat
  | .bench _ => 0
  | .glueUp _ => 1
  | .copyEngine _ => 2

def unitIndex : UnitRef → Nat
  | .bench b => b.val
  | .glueUp e => e.val
  | .copyEngine e => e.val

/-- The fields of an event that names a domain; LOCAL_TIME closes it. -/
def domainPayload (s : State) (ctx domain kind index cause : Nat) (step : Nat) : List Byte :=
  payload [(0, 1, ctx), (1, 1, domain), (2, 1, kind), (4, 2, index), (6, 1, cause), (8, 8, step), (0x18, 8, s.pwr.time.toNat)]

/-- Event 0x1802 to PF0 and to every function touched (R402). -/
def completionEvents (fns : List FnId) (pl : List Byte) (s : State) : State :=
  s.each ((fn0 :: fns).eraseDups.filter (fnExists s)) (fun f t => raise f 0x1802 false pl t)

/-! ## The power-cycle request (R401) -/

/-- REQ and REASON, the alert, and event 0x1804 while PF0's ring is in service. -/
def requestPowerCycle (reason : Nat) (s : State) : State :=
  let s := raiseAlert alertRecovery (s.modMgt (fun m => { m with recReq := true, recReason := BitVec.ofNat 8 reason }))
  if (s.func fn0).en then
    raise fn0 0x1804 false (payload [(0, 1, 0xFF), (1, 1, 5), (6, 1, reason), (0x18, 8, s.pwr.time.toNat)]) s
  else s

def execPowerCycleRequest (fn : FnId) (s : State) : Host.Outcome State Fault Refusal := .next (rstPort fn (requestPowerCycle 1) s)

/-! ## Requests -/

/-- The quarters of the partition that holds quarter `q`, if any. -/
def partitionOf (s : State) (q : Nat) : Option (BitVec 4) :=
  (allCtx.find? (fun c => (s.ctx c).assigned && (s.ctx c).qmask.getLsbD q)).map (fun c => (s.ctx c).qmask)

/-- The contexts of a partition. -/
def ctxsOf (s : State) (q : BitVec 4) : List CtxId := allCtx.filter (fun c => (s.ctx c).assigned && (s.ctx c).qmask == q)

/-- A partition reset: every context of it resets; a request inside a reset joins it (R399). -/
def requestPartReset (q : BitVec 4) (cause : Nat) (s : State) : State :=
  if s.glb.chipBusy || (s.glb.partBusy &&& q) != 0 then s
  else
    let cs := ctxsOf s q
    let s := s.modGlb (fun g => { g with partBusy := g.partBusy ||| q, partRst := g.partRst ++ [(q, cause, cs.map (ctxFn s))] })
    (updatePlls s).each cs (fun c t => requestCtxReset c cause t)

/-- A chip reset starts; the PLLs of stopped quarters start first (R448). -/
def requestChipReset (cause : Nat) (s : State) : State :=
  if s.glb.chipBusy then s else updatePlls (s.modGlb (fun g => { g with chipBusy := true, chipCause := cause }))

def execCtxReset (fn : FnId) (c : CtxId) (s : State) : Host.Outcome State Fault Refusal :=
  .next (if hostUp s && fnReaches s fn c then requestCtxReset c 1 s else s)

/-- R404: an index outside the range has no effect. -/
def rstContext (index : Nat) (s : State) : State := if h : index < 32 then requestCtxReset ⟨index, h⟩ 1 s else s

def execRstContext (fn : FnId) (index : U16) (s : State) : Host.Outcome State Fault Refusal := .next (rstPort fn (rstContext index.toNat) s)

/-- The unit that KIND and INDEX name. -/
def unitOf (kind index : Nat) : Option UnitRef :=
  match kind with
  | 0 => if h : index < 512 then some (.bench ⟨index, h⟩) else none
  | 1 => if h : index < 16 then some (.glueUp ⟨index, h⟩) else none
  | 2 => if h : index < 16 then some (.copyEngine ⟨index, h⟩) else none
  | _ => none

def rstEngine (kind index : Nat) (s : State) : State :=
  match unitOf kind index with
  | some u => requestEngineReset u 1 s
  | none => s

def execRstEngine (fn : FnId) (kind : BitVec 2) (index : U16) (s : State) : Host.Outcome State Fault Refusal :=
  .next (rstPort fn (rstEngine kind.toNat index.toNat) s)

def rstPartition (index : Nat) (s : State) : State :=
  match if index < 4 then partitionOf s index else none with
  | some q => requestPartReset q 1 s
  | none => s

def execRstPartition (fn : FnId) (index : U16) (s : State) : Host.Outcome State Fault Refusal :=
  .next (rstPort fn (rstPartition index.toNat) s)

def execRstChip (fn : FnId) (s : State) : Host.Outcome State Fault Refusal := .next (rstPort fn (requestChipReset 1) s)

/-- A GLB_RST_CTRL write; KIND 3 has no effect under any DOMAIN, as R404 says. -/
def rstCtrl (v : Nat) (s : State) : State :=
  let index := fieldOf v 15 0
  if fieldOf v 27 26 = 3 then s
  else match fieldOf v 31 28 with
  | 1 => rstContext index s
  | 2 => rstEngine (fieldOf v 27 26) index s
  | 3 => rstPartition index s
  | 4 => requestChipReset 1 s
  | 5 => requestPowerCycle 1 s
  | _ => s

/-! ## A completed context reset (R390, R392) -/

/-- The attempt ends by the phase in which the reset found the context; an attempt that has its record and is not sealed gets
it completed UNSEALED (R311). -/
def endAttempt (c : CtxId) (s : State) : State :=
  let x := s.ctx c
  let ph := if x.phase = .preempted then x.saved else x.phase
  let cl := if x.phase = .preempted then x.savedClosing else x.closing
  match ph, cl, x.active with
  | .closing, .recorded, some m => (sealRecord c m true s).2.modCtx c (·.discardSealed)
  | .closing, .sealed, _ => s.modCtx c (·.discardSealed)
  | .held, _, _ => s.modCtx c (·.discardSealed)
  | _, _, _ => s.modCtx c (·.dropStep)

/-- Everything of the context that its reset returns to the reset state. -/
def Ctx.afterReset (x : Ctx) : Ctx :=
  { x with
    sems := Vector.replicate 1024 {}, hostWaits := 0
    dma := { x.dma with descs := [], tail := x.dma.head }
    mmu := { x.mmu with faults := [], waiting := [], ats := [], kept := [] }
    heldPackets := [], areaPackets := [], areaUsed := 0, pausing := [], saving := false, restoring := false
    wit := { x.wit with mode := 0, result := .idle }
    attestStatus := .idle }

/-- Barriers of the context are disabled (R354). -/
def dropBarriers (c : CtxId) (s : State) : State :=
  s.each (List.finRange 64) (fun k t =>
    let b := t.barrier k
    if b.owner = c then t.setBarrier k { b with enable := false, arrived := [], heldNext := [] } else t)

/-- The reset of a context completes: its status, event 0x1802, and the remote writes held for it (R391, R393, R402). Its
semaphores move where their bench is fenced. -/
def finishCtxReset (c : CtxId) (s : State) : State :=
  let s := dropBarriers c (endAttempt c s)
  let s := s.modSec (fun k => { k with queue := k.queue.filter (· != c) })
  let s := placeSems c (askQueued (s.modCtx c (fun x => { x.afterReset with busy := false, resets := satAdd x.resets 1 })))
  let x := s.ctx c
  let s := ctxEvent c 0x1802 false (domainPayload s c.val 1 0 c.val x.lastCause.toNat x.step.toNat) s
  retryRemote c s

/-! ## Completed engine, partition and chip resets -/

/-- Removes the fence of a unit unless it is retired (R397). -/
def unfence (u : UnitRef) (s : State) : State := if unitRetired s.glb u then s else s.modGlb (setFenced u false)

def reportDone (domain cause : Nat) (s : State) : State :=
  s.modGlb (fun g => { g with lastDomain := BitVec.ofNat 4 domain, lastCause := BitVec.ofNat 4 cause })

def finishEngine (p : UnitRef × Nat × List FnId) (s : State) : State :=
  let s := s.modGlb (fun g => { g with engBusy := g.engBusy.filter (fun e => e.1 != p.1) })
  completionEvents p.2.2 (domainPayload s 0xFF 2 (unitKind p.1) (unitIndex p.1) p.2.1 0)
    (updatePlls (reportDone 2 p.2.1 (unfence p.1 s)))

/-- A context in reset still has state on the unit. -/
def unitHeld (s : State) (u : UnitRef) : Bool := allCtx.any (fun c => (s.ctx c).busy && usesUnit s (s.ctx c) u)

def lowestQuarter (q : BitVec 4) : Nat := homeQuarter q

/-- The units of the quarters `q`. -/
def unitsOf (q : BitVec 4) : List UnitRef :=
  ((List.finRange 512).map UnitRef.bench ++ (List.finRange 16).map UnitRef.glueUp ++ (List.finRange 16).map UnitRef.copyEngine).filter
    (fun u => q.getLsbD (unitQuarter u))

/-- A partition reset completes with the contained ones, which report too (R399); its contexts are those that `finish` ends. -/
def finishPartition (p : BitVec 4 × Nat × List FnId) (finish : CtxId → State → State) (s : State) : State :=
  let q := p.1
  let s := s.modGlb (fun g => { g with partBusy := g.partBusy &&& ~~~q, partRst := g.partRst.filter (fun e => e.1 != q) })
  let s := s.each (ctxsOf s q) (fun c t =>
    finish c (t.modCtx c (fun x => { x with mmu := { x.mmu with tlb := [], atc := [] } })))
  let s := s.each (s.glb.engBusy.filter (fun e => q.getLsbD (unitQuarter e.1))) (fun e t => finishEngine e t)
  let s := s.each (unitsOf q) (fun u t => unfence u (t.modPwr (wakeUnit u)))
  completionEvents p.2.2 (domainPayload s 0xFF 3 0 (lowestQuarter q) p.2.1 0) (updatePlls (reportDone 3 p.2.1 s))

/-- The memory after a chip reset: context memory zero, the buddy regions as they were, unless their size changes (R390). -/
def chipMem (s : State) : State :=
  let keep (a : Nat) : Bool := s.glb.buddyGib == s.glb.buddyGibInForce && decide (2 ^ 36 - buddyBytes s ≤ a % 2 ^ 36)
  let words (l : List Nat) : List Nat := l.filter (fun w => keep (32 * w))
  { s with mem := s.mem.filter (fun p => keep p.1), poison := words s.poison, uncorr := words s.uncorr, correctable := words s.correctable }

/-- The device-wide registers after a chip reset: GLB_BUDDY_GIB takes effect; retired benches, and the
retired Glue-up engines that are fenced, stay so (R397). -/
def Glb.afterChip (g : Glb) : Glb :=
  { ({} : Glb) with
    uid := g.uid, slot := g.slot, buddyGib := g.buddyGib, buddyGibInForce := g.buddyGib, benchRetire := g.benchRetire
    linkRetire := g.linkRetire, benchFenced := g.benchRetire, engineFenced := g.engineFenced &&& g.linkRetire.zeroExtend 32
    autoPower := g.autoPower, autoChip := g.autoChip, vfEnable := g.vfEnable
    numVfs := g.numVfs, lastDomain := 4, lastCause := BitVec.ofNat 4 g.chipCause, chipDone := true }

/-- The power registers outside the always-on domain at reset values; the bench PLL of quarter 0 keeps running (R448). -/
def Pwr.afterChip (p : Pwr) : Pwr :=
  { ({} : Pwr) with
    aoOn := p.aoOn, mainOn := p.mainOn, bootEvent := p.bootEvent, pgood := p.pgood, refValid := p.refValid, perst := p.perst
    forceLow := p.forceLow, pcieUp := p.pcieUp, mult := #v[p.mult[0], 0, 0, 0], time := p.time, offCause := p.offCause }

/-- Every register outside the always-on domain at its reset value (R390); the security state that a token asked for (R438). -/
def chipClear (s : State) : State :=
  let s := chipMem s
  { s with
    ctxs := Vector.replicate 32 {}, links := Vector.replicate 16 {}, barriers := Vector.replicate 64 {}, funcs := Vector.replicate 16 {}
    glb := s.glb.afterChip, pwr := s.pwr.afterChip, routes := [], txWait := [], loopback := [], heldBuddy := []
    sec := { s.sec with debugState := s.sec.debugNext.getD s.sec.debugState, debugNext := none, queue := [] } }

/-- What completes under a reset target, the context's held writes apart; `finish` ends a context reset. -/
def completeReset (finish : CtxId → State → State) (t : ResetTarget) (s : State) : State :=
  if !(s.pwr.mainOn && decide (6 ≤ s.pwr.bootEvent)) then s
  else
    match t with
    | .context c => if (s.ctx c).busy && !inPartReset s (s.ctx c) && !s.glb.chipBusy then finish c s else s
    | .engine u =>
      match s.glb.engBusy.find? (fun p => p.1 == u) with
      | some p => if unitInReset s u || unitHeld s u then s else finishEngine p s
      | none => s
    | .partition q =>
      match s.glb.partRst.find? (fun p => p.1.getLsbD q.val) with
      | some p => if s.glb.chipBusy then s else finishPartition p finish s
      | none => s
    | .chip => if s.glb.chipBusy then chipClear s else s

/-! ## FENCE_DRAIN_TIMEOUT and RESET_TIMEOUT (R391, R398) -/

/-- The contexts in reset under a target. -/
def ctxsUnder (s : State) (t : ResetTarget) : List CtxId :=
  allCtx.filter (fun c => (s.ctx c).busy && (match t with
    | .context d => c == d
    | .engine u => usesUnit s (s.ctx c) u
    | .partition q => inPartReset s (s.ctx c) && (s.ctx c).qmask.getLsbD q.val
    | .chip => s.glb.chipBusy))

/-- Requests still outstanding are abandoned: the translations that the contexts wait for. -/
def doFenceDrainTimeout (t : ResetTarget) (s : State) : State :=
  askQueued (s.each (ctxsUnder s t) (fun c u => u.modCtx c (fun x => { x with mmu := { x.mmu with ats := [] } })))

def execFenceDrainTimeout (t : ResetTarget) (s : State) : Host.Outcome State Fault Refusal := .next (doFenceDrainTimeout t s)

/-- Event 0x1803 (R398, R403). -/
def escalationEvent (ctx : Option CtxId) (domain kind index : Nat) (s : State) : State :=
  let pl := domainPayload s ((ctx.map (·.val)).getD 0xFF) domain kind index 4 0
  match ctx with
  | some c => ctxEvent c 0x1803 false pl s
  | none => raise fn0 0x1803 false pl s

/-- Chip reset by escalation, or the event of one withheld. -/
def escalateChip (s : State) : State :=
  let s := escalationEvent none 4 0 0 s
  if s.glb.autoChip then requestChipReset 4 s else s

/-- The units on which a context has outstanding state. -/
def unitsHeldBy (s : State) (c : CtxId) : List UnitRef := (unitsOf 0xF).filter (fun u => usesUnit s (s.ctx c) u)

def doResetTimeout (t : ResetTarget) (s : State) : State :=
  if !(s.pwr.mainOn && decide (6 ≤ s.pwr.bootEvent)) then s
  else
    match t with
    | .context c =>
      if (s.ctx c).busy then
        s.each (unitsHeldBy s c) (fun u t => requestEngineReset u 4 (escalationEvent (some c) 2 (unitKind u) (unitIndex u) t))
      else s
    | .engine u =>
      if s.glb.engBusy.any (fun p => p.1 == u) then
        match partitionOf s (unitQuarter u) with
        | some q => requestPartReset q 4 (escalationEvent none 3 0 (lowestQuarter q) s)
        | none => escalateChip s
      else s
    | .partition q => if s.glb.partBusy.getLsbD q.val then escalateChip s else s
    | .chip =>
      if s.glb.chipBusy then
        let s := escalationEvent none 5 0 0 s
        if s.glb.autoPower then requestPowerCycle 4 s else s
      else s

def execResetTimeout (t : ResetTarget) (s : State) : Host.Outcome State Fault Refusal := .next (doResetTimeout t s)

/-! ## Watchdogs (R394 to R396) -/

/-- Tiles that the station has taken and not worked off, and can go on with: both operands of passes, tile sets of a sweep that
wait, the rest of a gradient tile (DEDUCED, log entry 74). -/
def StnState.canGoOn (t : StnState) : Bool :=
  (!t.stageA.isEmpty && !t.stageB.isEmpty) || t.sweeps.any (fun w => !w.sets.isEmpty) || t.amid

/-- Station `i` has work that it can perform: no output stream is full, and no input stream is empty or it goes on with what it
holds (R394). -/
def canPerform (x : Ctx) (m : Image) (i : Nat) : Bool :=
  let full := (List.range 8).any (fun port => !x.room m i port)
  let empty := m.streams.zipIdx.any (fun r => r.1.dst == i && (x.queue r.2).isEmpty)
  !full && (!empty || (x.stn i).canGoOn)

/-- The subject is armed: it holds work that it can perform, and waits on no page fault. Step 3 runs where the context has a
replica group with other members (R25). -/
def wdtArmed (s : State) (c : CtxId) (cls : Nat) (subj : WdtSubject) : Bool :=
  let x := s.ctx c
  match subj with
  | .station i =>
    let m := x.active.getD {}
    cls == 0 && (x.phase == .running || x.phase == .closing) && decide (i < x.stns.length) && !(idleSet x m).contains i &&
      !stnDone x m i && !stopped x (reqStation i) && canPerform x m i
  | .descriptor i =>
    match x.desc i with
    | some d => if cls = 0 then d.started && !d.ended && !stopped x (reqCopy i) else cls == 3 && d.waiting
    | none => false
  | .collective g => cls == 1 && x.insts.any (fun n => n.groupId == g && !n.complete && n.step == x.step)
  | .digest => cls == 2 && x.phase == .closing && x.closing == .recorded && !(digestPeers x).all (fun r => x.wit.compared.contains r)
  | .barrier k => cls == 3 && (s.barrier k).enable && (s.barrier k).owner == c && !(s.barrier k).arrived.isEmpty

/-- SUBJECT of event 0x1801. -/
def subjectCode : WdtSubject → Nat
  | .station i => i
  | .descriptor i => i
  | .collective g => g.toNat
  | .digest => 0
  | .barrier k => k.val

/-- The watchdogs of a context run: in RUNNING, CLOSING and COMMITTING, a save under way or not (R394). Expiries of several subjects
in one cycle each have their event and start one reset, so one that a watchdog reset of the same cycle precedes counts too
(R395). -/
def wdtRuns (s : State) (c : CtxId) : Bool :=
  let x := s.ctx c
  mayWork s && (!x.busy || x.lastCause == 2) && !x.restoring && !inPartReset s x &&
    (x.phase == .running || x.phase == .closing || x.phase == .committing)

/-- R395: the EXPIRED bit, event 0x1801, and with ACTION 1 a context reset. -/
def doWatchdogExpire (c : CtxId) (cls : Fin 4) (subj : WdtSubject) (s : State) : State :=
  let x := s.ctx c
  let cfg := x.wdt[cls]
  if !wdtRuns s c || cfg.limit == 0 || !wdtArmed s c cls.val subj then s
  else
    let s := s.setCtx c { x with wdtExpired := x.wdtExpired ||| BitVec.ofNat 4 (2 ^ cls.val) }
    let s := ctxEvent c 0x1801 true
      (payload [(0, 1, c.val), (3, 1, cls.val), (8, 8, x.step.toNat), (0x10, 4, subjectCode subj), (0x14, 4, cfg.limit.toNat),
        (0x18, 8, s.pwr.time.toNat)]) s
    if cfg.action = 1 then requestCtxReset c 2 s else s

def execWatchdogExpire (c : CtxId) (cls : Fin 4) (subject : WdtSubject) (s : State) : Host.Outcome State Fault Refusal :=
  .next (doWatchdogExpire c cls subject s)

/-- R396: the unit is fenced, event 0x1801 with CLASS 4, and an engine reset. -/
def doUnitWatchdog (u : UnitRef) (s : State) : State :=
  if !mayWork s then s
  else
    let s := s.modGlb (setFenced u true)
    requestEngineReset u 2 (raise fn0 0x1801 true
      (payload [(0, 1, 0xFF), (2, 1, unitKind u), (3, 1, 4), (4, 2, unitIndex u), (0x14, 4, 100), (0x18, 8, s.pwr.time.toNat)]) s)

def execUnitWatchdog (u : UnitRef) (s : State) : Host.Outcome State Fault Refusal := .next (doUnitWatchdog u s)

/-! ## FLR and the fundamental reset (R400, R415) -/

/-- The function blocks of VFs that no longer exist return to reset values. -/
def dropVfs (s : State) : State := s.each (allFns.filter (fun f => f != 0 && !fnExists s f)) (fun f t => t.setFunc f {})

/-- VF Enable and NumVFs (R409). -/
def setVfs (enable : Bool) (n : Fin 16) (s : State) : State := dropVfs (s.modGlb (fun g => { g with vfEnable := enable, numVfs := n }))

def doFlr (fn : FnId) (s : State) : State :=
  if !hostUp s || !fnExists s fn then s
  else
    let cs := allCtx.filter (fun c => (s.ctx c).assigned && (fn == 0 || (s.ctx c).func == fn))
    let s := s.each cs (fun c t => requestCtxReset c 3 t)
    let s := s.setFunc fn {}
    if fn = 0 then setVfs false 0 s else s

def execFlr (fn : FnId) (s : State) : Host.Outcome State Fault Refusal := .next (doFlr fn s)

/-- VF_ENABLE_WRITE. -/
def execVfEnableWrite (enable : Bool) (numVfs : Fin 16) (s : State) : Host.Outcome State Fault Refusal :=
  .next (if hostUp s then setVfs enable numVfs s else s)

/-- PERST# is asserted: the PCIe link is down until PERST_DEASSERT (R443). A chip reset with configuration space (R400); R403
has no CAUSE code for it, so a free value stands in LAST_CAUSE. -/
def doFundamentalReset (s : State) : State :=
  let s := s.modPwr (fun p => { p with perst := true, pcieUp := false })
  if !(s.pwr.mainOn && decide (6 ≤ s.pwr.bootEvent)) then s
  else
    let d := drawNat s
    requestChipReset d.1 (setVfs false 0 d.2)

def execFundamentalReset (s : State) : Host.Outcome State Fault Refusal := .next (doFundamentalReset s)

end Sys2Proof.Machine
end

