-- ==== Sys2Proof/Machine/Power.lean ====
section
/-! DEFINITION. Power domains and sequencing (R440 to R445), the reference (R446), and the control loop (R450, R451). -/

namespace Sys2Proof.Machine

open Sys2Proof

/-! ## Power-down and boot (R443, R444) -/

/-- The device-wide registers of the main domain at reset values; what lies in the always-on domain stays (R445). -/
def Glb.afterOff (g : Glb) : Glb :=
  { ({} : Glb) with
    uid := g.uid, slot := g.slot, benchRetire := g.benchRetire, linkRetire := g.linkRetire, autoPower := g.autoPower
    autoChip := g.autoChip, benchFenced := g.benchRetire, engineFenced := g.engineFenced &&& g.linkRetire.zeroExtend 32 }

/-- The main domain loses everything it holds. -/
def mainOff (s : State) : State :=
  { s with
    ctxs := Vector.replicate 32 {}, links := Vector.replicate 16 {}, barriers := Vector.replicate 64 {}, funcs := Vector.replicate 16 {}
    glb := s.glb.afterOff, routes := [], txWait := [], loopback := [], heldBuddy := [], mem := [], poison := [], uncorr := []
    correctable := [], upsets := [], sec := { s.sec with queue := [] }
    pwr := { s.pwr.afterChip with mainOn := false, bootEvent := 0, pcieUp := false, mult := Vector.replicate 4 0 } }

/-- Bits of PWR_OFF_CAUSE. -/
def offForce : Nat := 1
def offTherm : Nat := 2
def offSupply : Nat := 4

/-- The main domain turns off; `cause` is recorded (R444). -/
def powerDown (cause : Nat) (s : State) : State :=
  if s.pwr.mainOn then (mainOff s).modPwr (fun p => { p with offCause := p.offCause ||| BitVec.ofNat 3 cause }) else s

/-- Events 4 to 6 of R443. -/
def finishBoot (s : State) : State :=
  let s := updatePlls (s.modPwr (fun p => { p with bootEvent := 6, pcieUp := !p.perst }))
  raiseAlert alertBooted s

/-- Goes on past event 3 where the firmware is verified and the reference is valid (R432, R446). With both slots failed the
device stays in the always-on domain. -/
def bootOn (s : State) : State :=
  if s.sec.errA ≠ 0 ∧ s.sec.errB ≠ 0 then s.modPwr (fun p => { p with mainOn := false, bootEvent := 0 })
  else if s.sec.err = 0 ∧ s.pwr.refValid = true then finishBoot s
  else s

/-- PGOOD rises: a boot, unless FORCE_OFF_N is low (R444). DESIGN CHOICE (log entry 40): FORCE_OFF_N returns high between two
commands, and the edge brings its level. -/
def doPgoodRise (pins : EdgePins) (s : State) : State :=
  if !s.pwr.aoOn || s.pwr.pgood then s
  else
    let s := s.modPwr (fun p => { p with pgood := true, forceLow := pins.forceLow })
    if pins.forceLow then s
    else
      let s := s.modPwr (fun p => { p with mainOn := true, bootEvent := 2 })
      bootOn ((s.modGlb (fun g => { g with slot := pins.straps })).modSec (·.boot))

def execPgoodRise (pins : EdgePins) (s : State) : Host.Outcome State Fault Refusal := .next (doPgoodRise pins s)

def doRefclkValid (s : State) : State :=
  let s := s.modPwr (fun p => { p with refValid := true })
  if s.pwr.mainOn && s.pwr.bootEvent == 2 then bootOn s else s

def execRefclkValid (s : State) : Host.Outcome State Fault Refusal := .next (doRefclkValid s)

/-- The always-on domain goes on from its own oscillator; a boot waits at event 3 (R446). -/
def execReferenceLost (s : State) : Host.Outcome State Fault Refusal := .next (s.modPwr (fun p => { p with refValid := false }))

def execPerstDeassert (s : State) : Host.Outcome State Fault Refusal :=
  .next (s.modPwr (fun p => { p with perst := false, pcieUp := p.mainOn && decide (6 ≤ p.bootEvent) }))

def execPgoodFall (s : State) : Host.Outcome State Fault Refusal :=
  .next ((powerDown 0 s).modPwr (fun p => { p with pgood := false }))

/-- FORCE_OFF_N goes low; its level at the next rising edge of PGOOD comes with PGOOD_RISE. -/
def execForceOff (s : State) : Host.Outcome State Fault Refusal :=
  .next ((powerDown offForce s).modPwr (fun p => { p with forceLow := true }))

/-! ## The input (R440, R442) -/

/-- Each setting of an alert bit raises its event while PF0's ring is in service (R451). -/
def conditionEvent (bit code : Nat) (pl : List Byte) (s : State) : State :=
  if s.mgt.alert.getLsbD bit then s
  else
    let s := raiseAlert bit s
    if (s.func fn0).en then raise fn0 (BitVec.ofNat 16 code) false pl s else s

/-- The security unit after a power cycle: fused state stays, DEBUG returns to LOCKED (R438, R440). -/
def Sec.afterCycle (k : Sec) : Sec :=
  { k with bootSlot := 0, errA := 0, errB := 0, err := 0, certVa := 0, debugNext := none, lastNonce := none, queue := []
           debugState := if k.debugState = 1 then 0 else k.debugState }

/-- POWER_CYCLE: the whole module loses power; the always-on domain is at its reset state when it returns. -/
def doPowerCycle (s : State) : State :=
  let s := mainOff s
  { s with
    glb := { ({} : Glb) with uid := s.glb.uid, slot := 0 }, mgt := { ({} : Mgt) with alert := 0 }, sec := s.sec.afterCycle
    pwr := { ({} : Pwr) with
      aoOn := false, mainOn := false, bootEvent := 0, pgood := s.pwr.pgood, refValid := s.pwr.refValid, perst := s.pwr.perst
      forceLow := s.pwr.forceLow, pcieUp := false, mult := Vector.replicate 4 0 } }

/-- SUPPLY_OUT_OF_BAND: the input stood at `mv` for `us` microseconds. Below 30.0 V the module is off, and from 50 ms on it is a
power cycle. -/
def doSupplyOutOfBand (mv us : Nat) (ca : U16) (s : State) : State :=
  if mv < 30000 ∧ 50000 ≤ us then doPowerCycle s
  else if !s.pwr.aoOn then s
  else if mv < 30000 then (powerDown (if 20 ≤ us then offSupply else 0) s).modPwr (fun p => { p with aoOn := false })
  else if (mv < 36000 ∨ 48000 < mv) ∧ 20 ≤ us then
    powerDown offSupply s
  else if (36000 ≤ mv ∧ mv < 38000 ∨ 46000 < mv ∧ mv ≤ 48000) ∧ 100 ≤ us then
    conditionEvent alertSupply 0x1B02 (payload [(0, 1, 0xFF), (2, 2, mv), (4, 2, ca.toNat)]) s
  else s

def execSupplyOutOfBand (mv us : Nat) (ca : U16) (s : State) : Host.Outcome State Fault Refusal := .next (doSupplyOutOfBand mv us ca s)

def execPowerCycle (s : State) : Host.Outcome State Fault Refusal := .next (doPowerCycle s)

def execAlwaysOnStart (s : State) : Host.Outcome State Fault Refusal := .next (s.modPwr (fun p => { p with aoOn := true }))

/-! ## The control period (R450) -/

/-- The sensors of a quarter. -/
def sensorsOf (q : Nat) : List Nat := (List.range 8).map (· + 8 * q) ++ [32 + 2 * q, 33 + 2 * q]

/-- MULT of a quarter after the period, in units of 1/16 degree and 0.1 W. -/
def nextMult (p : Pwr) (temp : Nat → Int) (dw : Nat) (q : QuarterId) : BitVec 5 :=
  let ts := (sensorsOf q.val).map temp
  let hot := ts.any (fun t => decide (16 * (p.throttle.toNat : Int) ≤ t))
  let cool := ts.all (fun t => decide (t ≤ 16 * ((p.throttle.toNat : Int) - 5)))
  let m := (p.mult[q]).toNat
  let m := if hot || decide (10 * p.capW.toNat < dw) then max (m - 1) 16
    else if cool && decide (dw + 200 ≤ 10 * p.capW.toNat) then m + 1 else m
  BitVec.ofNat 5 (min m (p.clkMax[q]).toNat)

/-- The sensors at or above a number of degrees. -/
def sensorsAbove (temp : Nat → Int) (deg : Nat) : List Nat := (List.range 40).filter (fun n => decide (16 * (deg : Int) ≤ temp n))

/-- CONTROL_PERIOD. -/
def doControlPeriod (temps : List Int) (mv ca dw : U16) (s : State) : State :=
  if !s.pwr.mainOn || decide (s.pwr.bootEvent < 6) then s
  else
    let temp (n : Nat) : Int := temps.getD n 0
    let p := s.pwr
    let excess := (List.range 40).map (fun n => decide (16 * 115 ≤ temp n))
    let crit := (excess.zip p.overCrit).any (fun b => b.1 && b.2)
    let mult := (List.finRange 4).foldl (fun (v : Vector (BitVec 5) 4) (q : Fin 4) =>
      if p.mult[q] = 0 then v else v.set q (nextMult p temp dw.toNat q)) p.mult
    let refresh := (List.range 8).foldl (fun n k => if 16 * (p.throttle.toNat : Int) ≤ temp (32 + k) then n + 2 ^ k else n) 0
    let s := s.modPwr (fun p =>
      { p with temps := Vector.ofFn (fun i : Fin 40 => BitVec.ofInt 16 (temp i.val)), overCrit := excess, mv := mv, ca := ca, dw := dw,
               mult := mult, doubleRefresh := BitVec.ofNat 8 refresh })
    let s := match (sensorsAbove temp p.alertT.toNat).head? with
      | some n => conditionEvent alertThermal 0x1B01 (payload [(0, 1, 0xFF), (1, 1, n), (2, 2, lowBits 16 (temp n))]) s
      | none => s
    if crit then powerDown offTherm s else s

def execControlPeriod (temps : List Int) (mv : U16) (ca : U16) (dw : U16) (s : State) : Host.Outcome State Fault Refusal :=
  .next (doControlPeriod temps mv ca dw s)

end Sys2Proof.Machine
end

