-- ==== Sys2Proof/Machine/Host.lean ====
section
/-! DEFINITION. Configuration space (R368, R406), assignment of contexts (R408, R410), event-ring registers (R411 to R414),
the I3C bus below its transfers (R417), scrubbing (R333) and the return of retired units (R335, R336). -/

namespace Sys2Proof.Machine

open Sys2Proof

/-! ## Configuration space (R368, R406) -/

/-- What a function shows in configuration space. The table has no row for a configuration request (log entry 68), and the values
that software changes there and that act on the device, VF Enable and NumVFs, are State. -/
structure PciConfig where
  vendorId : U16
  deviceId : U16
  classCode : BitVec 24
  maxPayload : Nat
  maxReadRequest : Nat
  tags10 : Bool
  ari : Bool
  aer : Bool
  flr : Bool
  pasid : Bool
  ats : Bool
  atsStu : Nat
  atsQueueDepth : Nat
  pri : Bool
  priCapacity : Nat
  msixVectors : Nat
  msixTable : Nat
  msixPba : Nat
  deriving DecidableEq, Repr

def pciConfig (fn : FnId) : PciConfig :=
  { vendorId := Config.pciVendor, deviceId := if fn = 0 then 0x5120 else 0x5121, classCode := 0x120000, maxPayload := 512
    maxReadRequest := 4096, tags10 := true, ari := true, aer := true, flr := true, pasid := true, ats := true, atsStu := atsStu
    atsQueueDepth := atsQueueDepth, pri := true, priCapacity := priCapacity, msixVectors := 1, msixTable := 0x0000, msixPba := 0x0800 }

/-- The SR-IOV capability of PF0. -/
structure SriovConfig where
  totalVfs : Nat
  initialVfs : Nat
  firstOffset : Nat
  stride : Nat
  pageSizes : List Nat
  deriving DecidableEq, Repr

def sriovConfig : SriovConfig := ⟨15, 15, 1, 1, [4096, 65536]⟩

/-- The routing identifier of a function relative to PF0: VF n at First VF Offset + (n − 1) × VF Stride. -/
def functionOffset (fn : FnId) : Nat :=
  if fn = 0 then 0 else sriovConfig.firstOffset + (fn.val - 1) * sriovConfig.stride

/-! ## GLB_CTX_ASSIGN (R408, R410) -/

/-- The seven sets of quarters of R18. -/
def legalMask (q : BitVec 4) : Bool := [1, 2, 4, 8, 3, 12, 15].contains q.toNat

/-- The mask overlaps that of another valid context without being equal to it. -/
def maskClash (s : State) (c : CtxId) (q : BitVec 4) : Bool :=
  allCtx.any (fun d => d != c && (s.ctx d).assigned && (s.ctx d).qmask != q && ((s.ctx d).qmask &&& q) != 0)

/-- Context `c` may be assigned: IDLE, no active image, and nothing LOADING or VALID. -/
def Ctx.assignable (x : Ctx) : Bool :=
  x.phase == .idle && x.active.isNone && (match x.staged with
    | .empty => true
    | .invalid => true
    | _ => false)

/-- An accepted write: the fields, every group of the context dissolved, and its reset. -/
def assignCtx (c : CtxId) (valid : Bool) (func : FnId) (q : BitVec 4) (s : State) : State :=
  let s := s.modCtx c (fun x =>
    { x.dropForms with assigned := valid, func := func, qmask := q, groups := x.groups.map GroupSlot.dissolved }.setNeed)
  updatePlls (requestCtxReset c 1 (placeSems c s))

/-- A write of GLB_CTX_ASSIGN[c]; its QMASK is checked whatever VALID says (log entry 40). -/
def writeAssign (c : CtxId) (valid : Bool) (func : FnId) (q : BitVec 4) (s : State) : State :=
  if !(s.ctx c).assignable then violate c 0x1301 s
  else if !legalMask q || maskClash s c q then violate c 0x1302 s
  else assignCtx c valid func q s

def execGlbCtxAssign (fn : FnId) (c : CtxId) (valid : Bool) (func : FnId) (qmask : BitVec 4) (s : State) :
    Host.Outcome State Fault Refusal :=
  .next (glbPort fn (.glbCtxAssign fn c valid func qmask) (writeAssign c valid func qmask) s)

/-! ## Event-ring registers -/

/-- A written LOG2 outside 6 to 16 takes the nearer end. -/
def clampLog2 (v : BitVec 5) : BitVec 5 := if v.toNat < 6 then 6 else if 16 < v.toNat then 16 else v

/-- A write of GLB_EVT_CTRL; EN from 0 to 1 sets both indices to 0, and held events are written (R411, R413). -/
def writeEvtCtrl (fn : FnId) (en irq : Bool) (log2 : BitVec 5) (mod : U16) (s : State) : State :=
  drainRing fn (s.modFunc fn (fun f =>
    let f' := { f with en := en, irq := irq, log2 := clampLog2 log2, mod := mod }
    if en && !f.en then { f' with head := 0, tail := 0 } else f'))

def execEventRingEnable (fn : FnId) (irq : Bool) (log2 : BitVec 5) (mod : U16) (s : State) : Host.Outcome State Fault Refusal :=
  .next (fnPort fn (.eventRingEnable fn irq log2 mod) (writeEvtCtrl fn true irq log2 mod) s)

/-- A write of GLB_EVT_HEAD (R413, R414). -/
def writeEvtHead (fn : FnId) (index : U32) (s : State) : State :=
  let f := s.func fn
  if 2 ^ f.log2.toNat < (f.tail - index).toNat then s
  else drainRing fn (s.setFunc fn { f with head := index, owed := f.owed || index != f.tail })

def execEvtHeadWrite (fn : FnId) (index : U32) (s : State) : Host.Outcome State Fault Refusal :=
  .next (fnPort fn (.evtHeadWrite fn index) (writeEvtHead fn index) s)

def execMsixModerationEnd (fn : FnId) (s : State) : Host.Outcome State Fault Refusal :=
  .next (sendMsg fn (s.modFunc fn (fun f => { f with inMod := false })))

/-! ## The I3C bus (R417, R419) -/

/-- The management controller answers while the always-on domain has power (R445). -/
def busPort (act : Mgt → Mgt) (s : State) : State := if s.pwr.aoOn then s.modMgt act else s

/-- MGT_I3C_PID (R417). -/
def i3cPid (s : State) : Nat :=
  fieldsNat [(33, Config.mipiManufacturer.toNat), (32, 1), (29, s.glb.slot.toNat), (0, s.glb.uid.toNat % 2 ^ 29)]

/-- The characteristics of the target (R417): no HDR mode, IBI with payload; no device class. -/
def i3cBcr : Byte := 0x06
def i3cDcr : Byte := 0x00

/-- What the device sends when it takes an address: its Provisioned ID, the highest byte first, BCR and DCR. -/
def daaBytes (s : State) : List Byte := (leBytes 6 (i3cPid s)).reverse ++ [i3cBcr, i3cDcr]

def execEntdaa (da : BitVec 7) (s : State) : Host.Outcome State Fault Refusal :=
  .next (busPort (fun m => if m.daValid then m else { m with daValid := true, da := da, daaBytes := daaBytes s }) s)

def execRstdaa (s : State) : Host.Outcome State Fault Refusal :=
  .next (busPort (fun m => { m with daValid := false, da := 0 }) s)

def execDisec (s : State) : Host.Outcome State Fault Refusal := .next (busPort (fun m => { m with hotJoinOn := false }) s)

def execHotJoin (s : State) : Host.Outcome State Fault Refusal :=
  .next (busPort (fun m => if m.daValid || !m.hotJoinOn then m else { m with hotJoins := m.hotJoins + 1 }) s)

/-! ## Scrubbing and the return of retired units -/

/-- SCRUB_READ of word `w` of a stack (R333). -/
def doScrubRead (k : StackId) (w : Nat) (s : State) : State :=
  if s.pwr.mainOn && decide (6 ≤ s.pwr.bootEvent) && !s.glb.chipBusy && decide (w < 2 ^ 31) then
    eccRead none [k.val * 2 ^ 31 + w] s
  else s

def execScrubRead (k : StackId) (w : Nat) (s : State) : Host.Outcome State Fault Refusal := .next (doScrubRead k w s)

/-- W1C of GLB_BENCH_RETIRE[n]. -/
def clearBenchRetire (n : Fin 16) (mask : U32) (s : State) : State :=
  s.modGlb (fun g => { g with benchRetire := g.benchRetire.set n (g.benchRetire[n] &&& ~~~mask) })

def execBenchRetireClear (fn : FnId) (n : Fin 16) (mask : U32) (s : State) : Host.Outcome State Fault Refusal :=
  .next (glbPort fn (.benchRetireClear fn n mask) (clearBenchRetire n mask) s)

/-- W1C of GLB_LINK_RETIRE: a link returned stays DOWN until RETRAIN (R336). -/
def clearLinkRetire (mask : U32) (s : State) : State :=
  let gone := s.glb.linkRetire &&& mask.truncate 16
  (s.modGlb (fun g => { g with linkRetire := g.linkRetire &&& ~~~mask.truncate 16 })).each (allLinks.filter (fun l => gone.getLsbD l.val))
    (fun l t => t.modLink l (fun k => { k with stayDown := true }))

def execLinkRetireClear (fn : FnId) (mask : U32) (s : State) : Host.Outcome State Fault Refusal :=
  .next (glbPort fn (.linkRetireClear fn mask) (clearLinkRetire mask) s)

end Sys2Proof.Machine
end

