-- ==== Sys2Proof/Machine/Clear.lean ====
section
/-! DEFINITION. The clear registers (R15, R180, R225, R338, R355, R387, R431, R464). -/

namespace Sys2Proof.Machine

open Sys2Proof

/-- Clears counters of one context. -/
def clearCnt (c : CtxId) (f : Counters → Counters) (s : State) : State := s.modCtx c (·.count f)

/-- Sets a counter to 0 where the bit is 1. -/
def zeroWhen (b : Bool) (v : U48) : U48 := if b then 0 else v

/-- ACC_CLEAR. -/
def clearAcc (vanish trunc wrap : Bool) (k : Counters) : Counters :=
  { k with accVanish := zeroWhen vanish k.accVanish, accTrunc := zeroWhen trunc k.accTrunc, accWrap := zeroWhen wrap k.accWrap }

def execAccClearVanish (fn : FnId) (c : CtxId) (s : State) : Host.Outcome State Fault Refusal :=
  .next (ctxPort fn c (.accClearVanish fn c) (clearCnt c (clearAcc true false false)) s)

def execAccClearTrunc (fn : FnId) (c : CtxId) (s : State) : Host.Outcome State Fault Refusal :=
  .next (ctxPort fn c (.accClearTrunc fn c) (clearCnt c (clearAcc false true false)) s)

def execAccClearWrap (fn : FnId) (c : CtxId) (s : State) : Host.Outcome State Fault Refusal :=
  .next (ctxPort fn c (.accClearWrap fn c) (clearCnt c (clearAcc false false true)) s)

/-- SCR_META_CLEAR. -/
def clearMeta (drop err : Bool) (k : Counters) : Counters :=
  { k with metaDrop := zeroWhen drop k.metaDrop, metaErr := zeroWhen err k.metaErr }

def execScrMetaClearDrop (fn : FnId) (c : CtxId) (s : State) : Host.Outcome State Fault Refusal :=
  .next (ctxPort fn c (.scrMetaClearDrop fn c) (clearCnt c (clearMeta true false)) s)

def execScrMetaClearErr (fn : FnId) (c : CtxId) (s : State) : Host.Outcome State Fault Refusal :=
  .next (ctxPort fn c (.scrMetaClearErr fn c) (clearCnt c (clearMeta false true)) s)

/-- SCR_COUNT_CLEAR (R180). -/
def clearScribe (bits : BitVec 8) (k : Counters) : Counters :=
  { k with scribe := Vector.ofFn (fun i : Fin 8 => zeroWhen (bits.getLsbD i.val) k.scribe[i]) }

def execScrCountClear (fn : FnId) (c : CtxId) (bits : BitVec 8) (s : State) : Host.Outcome State Fault Refusal :=
  .next (ctxPort fn c (.scrCountClear fn c bits) (clearCnt c (clearScribe bits)) s)

/-- CTX_TAG_CLEAR. -/
def clearTag (k : Counters) : Counters := { k with tagSlip := 0 }

def execCtxTagClear (fn : FnId) (c : CtxId) (s : State) : Host.Outcome State Fault Refusal :=
  .next (ctxPort fn c (.ctxTagClear fn c) (clearCnt c clearTag) s)

/-- GAU_CLEAR. -/
def clearGau (cls sat : Bool) (k : Counters) : Counters :=
  { k with gauClass := if cls then Vector.replicate 88 0 else k.gauClass, gauSat := zeroWhen sat k.gauSat }

def execGauClearClass (fn : FnId) (c : CtxId) (s : State) : Host.Outcome State Fault Refusal :=
  .next (ctxPort fn c (.gauClearClass fn c) (clearCnt c (clearGau true false)) s)

def execGauClearSat (fn : FnId) (c : CtxId) (s : State) : Host.Outcome State Fault Refusal :=
  .next (ctxPort fn c (.gauClearSat fn c) (clearCnt c (clearGau false true)) s)

/-- CUT_CLEAR. -/
def clearCut (k : Counters) : Counters := { k with cutMigrate := 0 }

def execCutClear (fn : FnId) (c : CtxId) (s : State) : Host.Outcome State Fault Refusal :=
  .next (ctxPort fn c (.cutClear fn c) (clearCnt c clearCut) s)

/-- LNK_CLEAR: bit n of each mask for link n. -/
def clearLinks (crc replay : U16) (s : State) : State :=
  s.each allLinks (fun l t => t.modLink l (fun k =>
    { k with crcCount := zeroWhen (crc.getLsbD l.val) k.crcCount, replayCount := zeroWhen (replay.getLsbD l.val) k.replayCount }))

def execLnkClearCrc (fn : FnId) (bits : U16) (s : State) : Host.Outcome State Fault Refusal := 
  .next (glbPort fn (.lnkClearCrc fn bits) (clearLinks bits 0) s)

def execLnkClearReplay (fn : FnId) (bits : U16) (s : State) : Host.Outcome State Fault Refusal :=
  .next (glbPort fn (.lnkClearReplay fn bits) (clearLinks 0 bits) s)

/-- GLU_CLEAR. -/
def clearGlu (refuse vanish : Bool) (k : Counters) : Counters :=
  { k with gluRefuse := zeroWhen refuse k.gluRefuse, gluVanish := zeroWhen vanish k.gluVanish }

def execGluClearRefuse (fn : FnId) (c : CtxId) (s : State) : Host.Outcome State Fault Refusal :=
  .next (ctxPort fn c (.gluClearRefuse fn c) (clearCnt c (clearGlu true false)) s)

def execGluClearVanish (fn : FnId) (c : CtxId) (s : State) : Host.Outcome State Fault Refusal :=
  .next (ctxPort fn c (.gluClearVanish fn c) (clearCnt c (clearGlu false true)) s)

/-- GLU_UPD_CLEAR. -/
def clearUpd (k : Counters) : Counters := { k with stepDiff := 0 }

def execGluUpdClear (fn : FnId) (c : CtxId) (s : State) : Host.Outcome State Fault Refusal :=
  .next (ctxPort fn c (.gluUpdClear fn c) (clearCnt c clearUpd) s)

/-- GLB_INTEG_CLEAR. -/
def clearInteg (bits : BitVec 4) (rfail : Bool) (g : Glb) : Glb :=
  { g with
    stkCe := if bits.getLsbD 0 then Vector.replicate 8 0 else g.stkCe
    stkUe := if bits.getLsbD 1 then Vector.replicate 8 0 else g.stkUe
    sramCe := if bits.getLsbD 2 then Vector.replicate 4 0 else g.sramCe
    sramUe := if bits.getLsbD 3 then Vector.replicate 4 0 else g.sramUe
    benchRfail := if rfail then Vector.replicate 512 0 else g.benchRfail
    linkRfail := if rfail then Vector.replicate 16 0 else g.linkRfail }

def execGlbIntegClear (fn : FnId) (bits : BitVec 4) (s : State) : Host.Outcome State Fault Refusal :=
  .next (glbPort fn (.glbIntegClear fn bits) (fun s => s.modGlb (clearInteg bits false)) s)

def execGlbIntegClearRfail (fn : FnId) (s : State) : Host.Outcome State Fault Refusal :=
  .next (glbPort fn (.glbIntegClearRfail fn) (fun s => s.modGlb (clearInteg 0 true)) s)

/-- CTX_INTEG_CLEAR: residue, uncorrectable reads, digests. -/
def clearCtxInteg (bits : BitVec 3) (k : Counters) : Counters :=
  { k with residue := zeroWhen (bits.getLsbD 0) k.residue, eccUe := zeroWhen (bits.getLsbD 1) k.eccUe,
           digest := zeroWhen (bits.getLsbD 2) k.digest }

def execCtxIntegClear (fn : FnId) (c : CtxId) (bits : BitVec 3) (s : State) : Host.Outcome State Fault Refusal :=
  .next (ctxPort fn c (.ctxIntegClear fn c bits) (clearCnt c (clearCtxInteg bits)) s)

/-- BAR_CLEAR.STRAY. -/
def clearBarStray (s : State) : State := s.modGlb (fun g => { g with barStray := 0 })

def execBarClear (fn : FnId) (s : State) : Host.Outcome State Fault Refusal :=
  .next (glbPort fn (.barClear fn) clearBarStray s)

/-- DMA_STRAY_CLEAR. -/
def clearDmaStray (s : State) : State := s.modGlb (fun g => { g with dmaStray := 0 })

def execDmaStrayClear (fn : FnId) (s : State) : Host.Outcome State Fault Refusal :=
  .next (glbPort fn (.dmaStrayClear fn) clearDmaStray s)

/-- GLU_GROUP_CLEAR. -/
def clearForm (k : Counters) : Counters := { k with formRefuse := 0 }

def execGluGroupClear (fn : FnId) (c : CtxId) (s : State) : Host.Outcome State Fault Refusal :=
  .next (ctxPort fn c (.gluGroupClear fn c) (clearCnt c clearForm) s)

/-- VIOL_CLEAR. -/
def clearViol (count last : Bool) (k : Counters) : Counters :=
  { k with viol := zeroWhen count k.viol, violLast := if last then 0 else k.violLast }

def execViolClearCount (fn : FnId) (c : CtxId) (s : State) : Host.Outcome State Fault Refusal :=
  .next (ctxPort fn c (.violClearCount fn c) (clearCnt c (clearViol true false)) s)

def execViolClearLast (fn : FnId) (c : CtxId) (s : State) : Host.Outcome State Fault Refusal :=
  .next (ctxPort fn c (.violClearLast fn c) (clearCnt c (clearViol false true)) s)

/-- VIOL_GLB_CLEAR. -/
def clearViolGlb (count last : Bool) (g : Glb) : Glb :=
  { g with violCount := zeroWhen count g.violCount, violLast := if last then 0 else g.violLast }

def execViolGlbClearCount (fn : FnId) (s : State) : Host.Outcome State Fault Refusal :=
  .next (glbPort fn (.violGlbClearCount fn) (fun s => s.modGlb (clearViolGlb true false)) s)

def execViolGlbClearLast (fn : FnId) (s : State) : Host.Outcome State Fault Refusal :=
  .next (glbPort fn (.violGlbClearLast fn) (fun s => s.modGlb (clearViolGlb false true)) s)

end Sys2Proof.Machine
end

