-- ==== Sys2Proof/Machine/RegRead.lean ====
section
/-! DEFINITION. The register map as it reads (R457 to R463): each register's value by its offset, the MSI-X entries of BAR2
(R407), and the commands READ_LOW_WORD and PRIVATE_READ. -/

namespace Sys2Proof.Machine

open Sys2Proof

/-- A register's value: 32 bits, or 64 bits at an offset that is a multiple of 8. -/
inductive RegVal where
  | r32 (v : Nat)
  | r64 (v : Nat)
  deriving DecidableEq, Repr

/-- The index of an indexed register: `n` entries of `stride` bytes from `base`. -/
def regIx (off base stride n : Nat) : Option Nat :=
  if base ≤ off ∧ off < base + stride * n ∧ (off - base) % stride = 0 then some ((off - base) / stride) else none

/-- The first candidate that is there. -/
def firstReg : List (Option RegVal) → Option RegVal
  | [] => none
  | some v :: _ => some v
  | none :: l => firstReg l

def r32b {w : Nat} (v : BitVec w) : Option RegVal := some (.r32 v.toNat)
def r64b {w : Nat} (v : BitVec w) : Option RegVal := some (.r64 v.toNat)
/-- A write-only register reads 0 (R13). -/
def wo32 : Option RegVal := some (.r32 0)
def wo64 : Option RegVal := some (.r64 0)

/-! ## Status fields -/

def Staged.code : Staged → Nat
  | .empty => 0
  | .loading _ => 1
  | .valid _ => 2
  | .invalid => 3

def replayCode : ReplayResult → Nat
  | .idle => 0
  | .checking => 1
  | .armed => 2
  | .refused => 3
  | .matched => 4
  | .mismatch => 5

def attestCode : AttestStatus → Nat
  | .idle => 0
  | .pending => 1
  | .done => 2
  | .refused => 3

def linkCode : LinkState → Nat
  | .down => 0
  | .training => 1
  | .up => 2
  | .failed => 3

/-- CTX_STEP_STATE (R29, R54). -/
def stepStateReg (x : Ctx) : Nat :=
  fieldsNat [(24, phaseCode x.phase), (18, b2n x.suspDigest), (17, b2n x.suspEcc), (16, b2n x.suspResidue),
    (15, b2n (x.staged.image?.isSome && x.active.isSome))]

/-- GENERATION of an image slot; 0 for none. -/
def genOf (m : Option Image) : Nat := (m.map (·.generation.toNat)).getD 0

/-- A digest read of the selected mask: of its committed copy as it stands in memory, or the last one known. -/
def maskDigestReg (s : State) (c : CtxId) : Nat :=
  let x := s.ctx c
  let k := x.maskSel.toNat
  match x.active with
  | none => 0
  | some m =>
    if m.masks.length ≤ k then 0
    else
      match (fetchVa c reqGauge false (maskSpan x m k) s).1 with
      | some b => (crc64 b.1).toNat
      | none => ((x.masks.getD k {}).digest).toNat

/-! ## A context window (R462) -/

/-- CTX_, VIOL_. -/
def ctxBlock (x : Ctx) (off : Nat) : Option RegVal :=
  match off with
  | 0x000 => some (.r32 (stepStateReg x))
  | 0x008 => r64b x.step
  | 0x010 => some (.r64 (x.carcassAddr.toNat * 64))
  | 0x018 => wo32
  | 0x01C => some (.r32 (fieldsNat [(30, x.staged.code), (29, b2n x.active.isSome), (0, x.err.toNat)]))
  | 0x020 => some (.r64 (fieldsNat [(32, genOf x.staged.image?), (0, genOf x.active)]))
  | 0x028 => wo32
  | 0x02C => r32b x.agPending
  | 0x030 => r64b x.visible.runSeed
  | 0x038 => some (.r32 (b2n x.visible.srEnable))
  | 0x040 => r64b x.cnt.tagSlip
  | 0x048 => wo32
  | 0x050 => r64b x.cnt.residue
  | 0x058 => r64b x.cnt.eccUe
  | 0x060 => r64b x.cnt.digest
  | 0x068 => wo32
  | 0x070 => wo32
  | 0x074 => some (.r32 (fieldsNat [(31, b2n x.busy), (16, x.lastCause.toNat), (0, x.resets.toNat)]))
  | 0x090 => r32b x.wdtExpired
  | 0x098 => wo32
  | 0x0A0 => some (.r64 (x.saveVa.toNat * 64))
  | 0x0A8 => some (.r64 (saveNeed x))
  | 0x0B0 => some (.r64 (x.collVa.toNat * 64))
  | 0x0B8 => r64b x.collNeed
  | 0x0C0 => r64b x.collBytes
  | 0x0C8 => some (.r32 (b2n x.buddySlot))
  | 0x0D0 => wo32
  | 0x0D8 => r32b x.left
  | 0x100 => r64b x.cnt.viol
  | 0x108 => r32b x.cnt.violLast
  | 0x10C => wo32
  | _ => (regIx off 0x080 4 4).map (fun i =>
      let w := x.wdt.toList.getD i ⟨0, 0⟩
      .r32 (fieldsNat [(30, w.action.toNat), (0, w.limit.toNat)]))

/-- ACC_, SCR_. -/
def scrBlock (s : State) (c : CtxId) (x : Ctx) (off : Nat) : Option RegVal :=
  match off with
  | 0x200 => r32b x.visible.spillLog2
  | 0x208 => r64b x.cnt.accVanish
  | 0x210 => r64b x.cnt.accTrunc
  | 0x218 => r64b x.cnt.accWrap
  | 0x220 => wo32
  | 0x300 => r32b x.visible.prunePeriod
  | 0x304 => r32b x.visible.pruneK
  | 0x308 => r32b x.visible.regrowK
  | 0x310 => r64b x.visible.pruneStart
  | 0x318 => r32b x.live.predThresh
  | 0x31C => r32b x.live.shadowShare
  | 0x320 => r32b x.maskSel
  | 0x324 => some (.r32 (x.maskGen x.maskSel.toNat))
  | 0x328 => some (.r64 (maskDigestReg s c))
  | 0x330 => r64b x.cnt.metaDrop
  | 0x338 => r64b x.cnt.metaErr
  | 0x340 => wo32
  | 0x344 => wo32
  | _ => (regIx off 0x380 8 8).map (fun i => .r64 (x.cnt.scribe.toList.getD i 0).toNat)

/-- GAU_, CUT_. -/
def gauBlock (x : Ctx) (off : Nat) : Option RegVal :=
  match off with
  | 0x400 => some (.r64 (x.layerVa.toNat * 64))
  | 0x408 => some (.r64 (x.siteVa.toNat * 64))
  | 0x410 => r32b x.visible.ovfMode
  | 0x414 => r32b x.visible.scaleDelay
  | 0x418 => some (.r32 (b2n x.visible.policyEnable))
  | 0x41C => r32b x.live.satThresh
  | 0x420 => r32b (getLive (.policyW 0) x.live)
  | 0x424 => r32b (getLive (.policyW 1) x.live)
  | 0x428 => r32b (getLive (.policyW 2) x.live)
  | 0x42C => r32b (getLive (.policyW 3) x.live)
  | 0x430 => r64b x.cnt.gauSat
  | 0x438 => wo32
  | 0x880 => r32b x.live.cutWeights
  | 0x888 => r64b x.cnt.cutMigrate
  | 0x890 => wo32
  | _ => firstReg
      [(regIx off 0x500 8 88).map (fun i => .r64 (x.cnt.gauClass.toList.getD i 0).toNat),
       (regIx off 0x800 8 8).map (fun i => .r64 (x.visible.cutPin.toList.getD i 0).toNat),
       (regIx off 0x840 4 16).map (fun i => .r32 (x.visible.cutExclude.toList.getD i 0).toNat)]

/-- MMU_, DMA_, WIT_, SEC_. -/
def mmuBlock (x : Ctx) (off : Nat) : Option RegVal :=
  match off with
  | 0x900 => some (.r64 (x.mmu.root.toNat * 4096))
  | 0x908 => r32b x.mmu.pasid
  | 0x910 => wo64
  | 0x918 => wo32
  | 0x91C => wo32
  | 0x920 => some (.r32 x.mmu.faults.length)
  | 0xA00 => some (.r64 (x.dma.ringVa.toNat * 64 + x.dma.log2.toNat))
  | 0xA08 => r32b x.dma.tail
  | 0xA0C => r32b x.dma.head
  | 0xB00 => some (.r64 (x.wit.logVa.toNat * 4096))
  | 0xB08 => some (.r64 (x.wit.ldigVa.toNat * 64))
  | 0xB10 => some (.r64 (x.wit.refLdigVa.toNat * 64))
  | 0xB18 => r32b x.wit.logDepth
  | 0xB20 => r64b x.wit.logHead
  | 0xB48 => r32b x.wit.replicaGroup
  | 0xB50 => some (.r64 (fieldsNat [(12, x.wit.refAddr.toNat), (2, b2n x.wit.commit), (0, x.wit.mode.toNat)]))
  | 0xB58 => some (.r32 (fieldsNat [(28, replayCode x.wit.result), (16, x.wit.check.toNat), (0, x.wit.mismatch.toNat)]))
  | 0xB5C => some (.r32 (fieldsNat [(16, b2n x.wit.layerValid), (0, x.wit.layer.toNat)]))
  | 0xB60 => wo32
  | 0xC00 => some (.r64 (x.attestVa.toNat * 64))
  | 0xC08 => wo32
  | 0xC0C => some (.r32 (attestCode x.attestStatus))
  | _ => (regIx off 0xB28 8 4).map (fun i => .r64 (natAt x.wit.chain (8 * i) 8))

/-- A group slot's registers, by offset within the slot. -/
def slotReg (s : State) (k : GroupSlot) (off : Nat) : Option RegVal :=
  match off with
  | 0x00 => r32b k.id
  | 0x04 => some (.r32 (fieldsNat [(16, k.rank.toNat), (0, k.sizeM1.toNat)]))
  | 0x08 => some (.r64 (k.membersVa.toNat * 8))
  | 0x10 => wo32
  | 0x14 => some (.r32 (fieldsNat [(28, groupStateCode k.state), (24, k.reason.toNat), (12, k.who.toNat), (0, hmaxOf s k % 256)]))
  | _ => none

/-- GLU_, SEM_. -/
def gluBlock (s : State) (x : Ctx) (off : Nat) : Option RegVal :=
  match off with
  | 0x1000 => r64b x.cnt.gluRefuse
  | 0x1008 => r64b x.cnt.gluVanish
  | 0x1010 => wo32
  | 0x1018 => r64b x.cnt.stepDiff
  | 0x1020 => wo32
  | 0x1028 => r64b x.cnt.formRefuse
  | 0x1030 => wo32
  | 0x2000 => wo32
  | 0x2008 => wo64
  | 0x2010 => some (.r32 x.hostWaits)
  | 0x2018 => wo64
  | _ =>
    let hp (base : Nat) (v : Vector U32 64) : Option RegVal := (regIx off base 4 64).map (fun p => .r32 (v.toList.getD p 0).toNat)
    if 0x1100 ≤ off ∧ off < 0x1300 then slotReg s (x.groups.toList.getD ((off - 0x1100) / 0x20) {}) ((off - 0x1100) % 0x20)
    else firstReg
      [hp 0x1400 x.visible.lr, hp 0x1500 x.visible.beta1, hp 0x1600 x.visible.beta2, hp 0x1700 x.visible.eps,
       hp 0x1800 x.visible.decay, (regIx off 0x3000 4 1024).map (fun i => .r32 ((x.sems.toList.getD i {}).count).toNat)]

/-- A register of the window of context `c`. -/
def ctxReg (s : State) (c : CtxId) (off : Nat) : Option RegVal :=
  let x := s.ctx c
  if off < 0x200 then ctxBlock x off
  else if off < 0x400 then scrBlock s c x off
  else if off < 0x900 then gauBlock x off
  else if off < 0x1000 then mmuBlock x off
  else gluBlock s x off

/-! ## The global region (R461) and the function block -/

/-- GLB_ and the global VIOL_ registers. -/
def glbBlock (s : State) (off : Nat) : Option RegVal :=
  let g := s.glb
  let w32 (base : Nat) (v : Vector U32 16) : Option RegVal := (regIx off base 4 16).map (fun i => .r32 (v.toList.getD i 0).toNat)
  let c48 {n : Nat} (base : Nat) (v : Vector U48 n) : Option RegVal := (regIx off base 8 n).map (fun i => .r64 (v.toList.getD i 0).toNat)
  match off with
  | 0x0000 => some (.r32 (fieldsNat [(24, 0x4F), (12, 0x512), (8, 0x1), (4, 0), (0, 0)]))
  | 0x0004 => some (.r32 1)
  | 0x0008 => r64b g.uid
  | 0x0010 => r32b g.slot
  | 0x0014 => r32b g.buddyGib
  | 0x0018 => r32b g.buddyLinks
  | 0x0020 => wo32
  | 0x0024 => some (.r32 (fieldsNat [(28, g.lastDomain.toNat), (24, g.lastCause.toNat), (8, g.partBusy.toNat), (0, b2n g.chipDone)]))
  | 0x0028 => some (.r32 (fieldsNat [(1, b2n g.autoPower), (0, b2n g.autoChip)]))
  | 0x002C => r32b g.retireLimit
  | 0x0030 => wo32
  | 0x0034 => r32b g.linkRetire
  | 0x0038 => r32b g.engineFenced
  | 0x0040 => r64b g.violCount
  | 0x0048 => r32b g.violLast
  | 0x004C => wo32
  | _ => firstReg
      [(regIx off 0x100 4 32).map (fun c =>
          let x := s.ctxs.toList.getD c {}
          .r32 (fieldsNat [(31, b2n x.assigned), (24, x.func.val), (0, x.qmask.toNat)])),
       w32 0x200 g.benchRetire, w32 0x240 g.benchFenced, (regIx off 0x280 4 16).map (fun n => .r32 (g.linkRfail.toList.getD n 0).toNat),
       c48 0x300 g.stkCe, c48 0x340 g.stkUe, c48 0x380 g.sramCe, c48 0x3A0 g.sramUe,
       (regIx off 0x800 4 512).map (fun b => .r32 (g.benchRfail.toList.getD b 0).toNat)]

/-- A link's registers, by offset within its 0x40 bytes. -/
def linkReg (k : Link) (off : Nat) : Option RegVal :=
  match off with
  | 0x00 => some (.r32 (fieldsNat [(28, linkCode k.state), (24, k.peerLink.toNat), (8, k.trainFails.toNat)]))
  | 0x04 => some (.r32 (2 * b2n k.disable))
  | 0x08 => r32b k.peerSlot
  | 0x10 => r64b k.peerUid
  | 0x18 => r64b k.crcCount
  | 0x20 => r64b k.replayCount
  | _ => none

/-- A barrier's registers, by offset within its 0x80 bytes. -/
def barReg (b : Barrier) (off : Nat) : Option RegVal :=
  match off with
  | 0x00 => some (.r32 (fieldsNat [(31, b2n b.enable), (30, b2n b.scope), (16, b.owner.val), (0, b.tag.toNat)]))
  | 0x04 => r32b b.group
  | 0x08 => r32b b.epoch
  | _ => (regIx off 0x40 4 16).map (fun w => .r32 (b.mask.toList.getD w 0).toNat)

/-- CUT_DIST[n] (R239). -/
def cutDist (n : Nat) : Nat := if n / 4 = n % 4 then fieldsNat [(24, 1), (0, 0x14)] else fieldsNat [(24, 3), (0, 0x3C)]

/-- PWR_ (R456). -/
def pwrBlock (p : Pwr) (off : Nat) : Option RegVal :=
  match off with
  | 0x010 => r32b p.capW
  | 0x014 => some (.r32 (fieldsNat [(16, 0x73), (8, p.alertT.toNat), (0, p.throttle.toNat)]))
  | 0x018 => r32b p.gateIdle
  | 0x01C => r32b p.offCause
  | 0x020 => some (.r64 (fieldsNat [(32, p.mv.toNat), (16, p.ca.toNat), (0, p.dw.toNat)]))
  | 0x028 => r64b p.time
  | _ => firstReg
      [(regIx off 0 4 4).map (fun q => .r32 (fieldsNat [(8, (p.clkMax.toList.getD q 0).toNat), (0, (p.mult.toList.getD q 0).toNat)])),
       (regIx off 0x100 4 40).map (fun n => .r32 (p.temps.toList.getD n 0).toNat),
       (regIx off 0x200 4 16).map (fun n => .r32 (p.benchGated.toList.getD n 0).toNat)]

/-- SEC_ (global). -/
def secBlock (k : Sec) (off : Nat) : Option RegVal :=
  match off with
  | 0x00 => some (.r32 (fieldsNat [(12, k.bootSlot.toNat), (8, k.errA.toNat), (4, k.errB.toNat), (0, k.err.toNat)]))
  | 0x04 => r32b k.fwVersion
  | 0x08 => r32b k.svn
  | 0x0C => wo32
  | 0x10 => r32b k.keyRevoke
  | 0x14 => r32b k.debugState
  | 0x18 => r64b k.nonce
  | 0x20 => some (.r64 (k.certVa.toNat * 64))
  | 0x28 => wo64
  | _ => none

/-- MGT_. -/
def mgtBlock (s : State) (off : Nat) : Option RegVal :=
  let m := s.mgt
  match off with
  | 0x00 => some (.r32 (fieldsNat [(31, b2n m.recReq), (16, m.recReason.toNat)]))
  | 0x04 => some (.r32 (fieldsNat [(31, b2n m.daValid), (30, b2n m.werr), (0, m.da.toNat)]))
  | 0x08 => r32b m.alert
  | 0x0C => r32b m.alertEn
  | 0x10 => some (.r64 (i3cPid s))
  | _ => none

/-- A register of the global region. -/
def glbReg (s : State) (off : Nat) : Option RegVal :=
  if off < 0x10000 then glbBlock s off
  else if off < 0x10400 then linkReg (s.links.toList.getD ((off - 0x10000) / 0x40) {}) ((off - 0x10000) % 0x40)
  else if off < 0x20000 then (if off = 0x10400 then wo32 else none)
  else if off < 0x30000 then (regIx off 0x20000 4 16).map (fun n => .r32 (cutDist n))
  else if off < 0x32000 then barReg (s.barriers.toList.getD ((off - 0x30000) / 0x80) {}) ((off - 0x30000) % 0x80)
  else if off < 0x40000 then (if off = 0x32000 then r64b s.glb.barStray else if off = 0x32008 then wo32 else none)
  else if off < 0x50000 then pwrBlock s.pwr (off - 0x40000)
  else if off < 0x60000 then secBlock s.sec (off - 0x50000)
  else if off < 0x70000 then mgtBlock s (off - 0x60000)
  else if off = 0x70000 then r64b s.glb.dmaStray
  else if off = 0x70008 then wo32
  else none

/-- A register of the block of function `fn`, by offset within the block. -/
def fnReg (f : Func) (off : Nat) : Option RegVal :=
  match off with
  | 0x00 => some (.r64 (f.evtBase.toNat * 4096))
  | 0x08 => some (.r32 (fieldsNat [(31, b2n f.en), (30, b2n f.irq), (16, f.log2.toNat), (0, f.mod.toNat)]))
  | 0x0C => r32b f.head
  | 0x10 => r32b f.tail
  | 0x14 => r32b f.lost
  | _ => none

/-! ## BAR2 (R407) -/

/-- Where the offsets of BAR2 begin in those of REGISTER_WRITE and READ_LOW_WORD (log entry 68). -/
def bar2 : Nat := 0x400000

/-- The MSI-X table entry of a function, and the PBA. -/
def msixReg (f : Func) (off : Nat) : Option RegVal :=
  match off with
  | 0x000 => some (.r32 (f.msixAddr.toNat % 2 ^ 32))
  | 0x004 => some (.r32 (f.msixAddr.toNat / 2 ^ 32))
  | 0x008 => r32b f.msixData
  | 0x00C => some (.r32 (b2n f.msixMask))
  | 0x800 => some (.r32 (b2n f.msixPending))
  | _ => none

/-! ## Words as a requester reads them -/

/-- The context window that an offset lies in, and the offset within it. -/
def windowOf (off : Nat) : Option (CtxId × Nat) :=
  if 0x200000 ≤ off ∧ off < 0x400000 then some (Fin.ofNat 32 ((off - 0x200000) / 0x10000), (off - 0x200000) % 0x10000) else none

/-- The registers that the units of the always-on domain hold (R388, R445; log entry 41). -/
def alwaysOnReg (off : Nat) : Bool :=
  decide (0x60000 ≤ off ∧ off < 0x70000) || decide (0x50000 ≤ off ∧ off < 0x60000) || off == 0x4001C || off == 0x40028 || off == 0x4002C ||
    off == 0x24 || off == 0x28 || off == 0x34 || decide (0x200 ≤ off ∧ off < 0x240)

/-- The register at an offset as a requester reaches it (R409, R418, R459). -/
def regFor (s : State) (r : Requester) (off : Nat) : Option RegVal :=
  match r with
  | .bus => if off < 0x1F0000 then glbReg s off else none
  | .fn f =>
    if off < 0x1F0000 then (if f = 0 then glbReg s off else none)
    else if off < 0x200000 then (if fnExists s f then fnReg (s.func f) (off - 0x1F0000) else none)
    else if off < bar2 then
      match windowOf off with
      | some (c, o) => if fnReaches s f c then ctxReg s c o else none
      | none => none
    else if fnExists s f then msixReg (s.func f) (off - bar2)
    else none

/-- The aligned word at an offset, as it stands. -/
def wordFor (s : State) (r : Requester) (off : Nat) : Nat :=
  match regFor s r off with
  | some (.r32 v) => v % 2 ^ 32
  | some (.r64 v) => v % 2 ^ 32
  | none =>
    match if off % 8 = 4 then regFor s r (off - 4) else none with
    | some (.r64 v) => v / 2 ^ 32 % 2 ^ 32
    | _ => 0

/-- The high word that a read of the low word at `off` latches. -/
def highFor (s : State) (r : Requester) (off : Nat) : Option Nat :=
  match regFor s r off with
  | some (.r64 v) => some (v / 2 ^ 32 % 2 ^ 32)
  | _ => none

/-- The words of the bus outside the always-on domain while they cannot be read (R418). -/
def busHidden (s : State) (off : Nat) : Bool :=
  !(s.pwr.mainOn && decide (6 ≤ s.pwr.bootEvent) && !s.glb.chipBusy) && !alwaysOnReg off

/-- The data of a read of `n` bytes at `off`. -/
def bytesFor (s : State) (r : Requester) (off n : Nat) : List Byte :=
  (List.range n).map (fun i =>
    let a := off + i
    let w := if r = .bus ∧ busHidden s (a - a % 4) = true then 0xFFFFFFFF else wordFor s r (a - a % 4)
    BitVec.ofNat 8 (w / 2 ^ (8 * (a % 4))))

/-! ## READ_LOW_WORD (R458) and PRIVATE_READ (R418) -/

/-- The offset of SEC_DEBUG_NONCE. -/
def nonceOff : Nat := 0x50018

/-- A read of SEC_DEBUG_NONCE draws the next value (R438). -/
def drawOnRead (r : Requester) (off n : Nat) (s : State) : State :=
  if off ≤ nonceOff ∧ nonceOff < off + n ∧ canReadGlb s r = true then readNonce s else s

/-- A read by a function. One of an aligned word: of a latched high word, or of the word as it stands, which latches the high
word. One of any other size: the addressed bytes (R457). -/
def fnRead (f : FnId) (off n : Nat) (s : State) : State :=
  if !hostUp s || !fnExists s f then s
  else
    let fs := s.func f
    if n ≠ 4 ∨ off % 4 ≠ 0 then drawOnRead (.fn f) off n (s.setFunc f { fs with lastRead := bytesFor s (.fn f) off n })
    else
    match assocGet off fs.latches with
    | some w => s.setFunc f { fs with lastRead := leBytes 4 w.toNat, latches := fs.latches.filter (fun p => p.1 != off) }
    | none =>
      let keep := fs.latches.filter (fun p => p.1 != off + 4)
      let more := (highFor s (.fn f) off).toList.map (fun h => (off + 4, BitVec.ofNat 32 h))
      drawOnRead (.fn f) off 4 (s.setFunc f { fs with lastRead := bytesFor s (.fn f) off 4, latches := more ++ keep })

/-- A read of 4 or 8 bytes over the bus: a 4-byte read of a low word latches the high word for the next read. -/
def busRead (off n : Nat) (s : State) : State :=
  if !s.pwr.aoOn || !s.mgt.daValid then s
  else
    let data :=
      match s.mgt.latch with
      | some (o, w) => if o = off ∧ n = 4 then leBytes 4 w.toNat else bytesFor s .bus off n
      | none => bytesFor s .bus off n
    let latch := if n = 4 ∧ busHidden s off = false then (highFor s .bus off).map (fun h => (off + 4, BitVec.ofNat 32 h)) else none
    drawOnRead .bus off n (s.modMgt (fun m => { m with lastRead := data, latch := latch }))

/-- READ_LOW_WORD; a private read has 4 or 8 bytes (R418). -/
def doReadWord (r : Requester) (off n : Nat) (s : State) : State :=
  match r with
  | .fn f => fnRead f off n s
  | .bus => if n = 4 ∨ n = 8 then busRead off n s else s

def execReadLowWord (access : ReadAccess) (off : Nat) (s : State) : Host.Outcome State Fault Refusal :=
  .next (doReadWord access.req off access.size s)

/-- PRIVATE_READ: from the read pointer, which advances. -/
def doPrivateRead (eight : Bool) (s : State) : State :=
  let n := if eight then 8 else 4
  if !s.pwr.aoOn || !s.mgt.daValid then s
  else
    let off := s.mgt.readPtr.toNat
    (busRead off n s).modMgt (fun m => { m with readPtr := m.readPtr + BitVec.ofNat 24 n })

def execPrivateRead (eight : Bool) (s : State) : Host.Outcome State Fault Refusal := .next (doPrivateRead eight s)

end Sys2Proof.Machine
end

