-- ==== Sys2Proof/Machine/RegWrite.lean ====
section
/-! DEFINITION. Register writes (R13, R66, R457 to R463) and the commands REGISTER_WRITE, PRIVATE_WRITE and, with the writes held
for a context in reset, RESET_COMPLETE (R393, R402). -/

namespace Sys2Proof.Machine

open Sys2Proof

/-! ## Word by word -/

/-- The low word that the function last wrote to a 64-bit write-only register (R458). -/
def lowWord (fn : FnId) (off : Nat) (s : State) : U32 := (assocGet off (s.func fn).lows).getD 0

/-- A write of a 64-bit write-only register: the low word waits for the high word. -/
def woWrite (fn : FnId) (off : Nat) (sel : WordSel) (v : U64) (act : U64 → State → State) (s : State) : State :=
  match sel with
  | .lo => s.modFunc fn (fun f => { f with lows := assocPut off (v.truncate 32) f.lows })
  | .hi => act (setLo v (lowWord fn off s)) s
  | .both => act v s

/-- The words of a 64-bit RW register that stand for a Nat value. -/
def merged (sel : WordSel) (old : Nat) (v : U64) : U64 := mergeWords sel (BitVec.ofNat 64 old) v

/-- R66: a write to a static field. -/
def staticWrite (c : CtxId) (f : Ctx → Ctx) (s : State) : State :=
  if (s.ctx c).phase = .idle then s.modCtx c f else violate c 0x0211 s

def shadowWord (c : CtxId) (id : Nat) (w : U32) (s : State) : State := s.modCtx c (fun x => x.shadowWrite id w)

/-- A write of a 64-bit RWS register whose words have the identifiers `lo` and `lo + 1`. -/
def shadowPair (c : CtxId) (lo : Nat) (sel : WordSel) (v : U64) (s : State) : State :=
  let low (t : State) : State := shadowWord c lo (v.truncate 32) t
  let high (t : State) : State := shadowWord c (lo + 1) (v.extractLsb' 32 32) t
  match sel with
  | .lo => low s
  | .hi => high s
  | .both => high (low s)

/-- Runs `act` where the bit is 1. -/
def onBit (w : U32) (i : Nat) (act : State → State) (s : State) : State := if w.getLsbD i then act s else s

/-! ## Words of a context window -/

/-- CTX_CARCASS_CTRL (R55). -/
def writeCarcassCtrl (c : CtxId) (w : U32) (s : State) : State :=
  onBit w 2 (doActivate c) (onBit w 0 (doLoad c) (onBit w 1 (doCarcassDiscard c) s))

/-- CTX_RUN (R31; log entry 8). -/
def writeRun (c : CtxId) (w : U32) (s : State) : State :=
  if w.getLsbD 31 && w.truncate 24 == (0 : BitVec 24) then s.modCtx c (·.stopRun) else doRunSteps c (w.truncate 24) (w.getLsbD 31) s

/-- CTX_WDT_CFG[i] (R395). -/
def writeWdt (c : CtxId) (i : Fin 4) (w : U32) (s : State) : State :=
  let a : BitVec 2 := w.extractLsb' 30 2
  if 2 ≤ a.toNat then violate c 0x1201 s else s.modCtx c (fun x => { x with wdt := x.wdt.set i ⟨a, w.truncate 30⟩ })

/-- CTX_PREEMPT (R377, R383). -/
def writePreempt (c : CtxId) (w : U32) (s : State) : State :=
  if w.getLsbD 0 && w.getLsbD 1 then violate c 0x1104 s else onBit w 1 (doRestore c) (onBit w 0 (doSave c) s)

/-- SCR_MASK_GEN (R158): metadata that Scribe derives is derived again for the new committed copy. -/
def writeMaskGen (c : CtxId) (w : U32) (s : State) : State :=
  let x := s.ctx c
  let k := x.maskSel.toNat
  if x.phase ≠ .idle then violate c 0x0211 s
  else
    match x.active with
    | none => violate c 0x0703 s
    | some m =>
      if m.masks.length ≤ k then violate c 0x0703 s
      else
        let more := if (derivedMasks m).contains k then [Chore.derive k] else []
        kick c (s.setCtx c { x with masks := x.masks.set k { gen := w }, chores := x.chores ++ more })

/-- MMU_FAULT_RESUME (R366). -/
def writeFaultResume (c : CtxId) (w : U32) (s : State) : State :=
  match fieldOf w.toNat 31 30 with
  | 1 => faultResume c (w.truncate 16) true s
  | 2 => faultResume c (w.truncate 16) false s
  | _ => violate c 0x1106 s

/-- WIT_HOLD_CTRL (R317). -/
def writeHoldCtrl (c : CtxId) (w : U32) (s : State) : State :=
  if w.getLsbD 1 then doDiscard c s else onBit w 0 (doRelease c) s

/-- SEM_OP (R342). -/
def writeSemOp (c : CtxId) (w : U32) (s : State) : State :=
  let q : SemId := Fin.ofNat 1024 (fieldOf w.toNat 25 16)
  match fieldOf w.toNat 31 30 with
  | 0 => signalSem c q (w.truncate 16) s
  | 1 => decSem c q (w.truncate 16) s
  | _ => violate c 0x1001 s

/-- A register of a group slot (R425, R429); a slot that is FORMING or FORMED keeps its registers. -/
def slotWrite (c : CtxId) (g : SlotId) (f : GroupSlot → GroupSlot) (s : State) : State :=
  if ((s.ctx c).group g).held then violate c 0x1305 s else s.modCtx c (fun x => x.modGroup g f)

/-- GLU_GROUP_ID, GLU_GROUP_CFG and GLU_GROUP_CTRL of a slot. -/
def writeSlot (c : CtxId) (g : SlotId) (off : Nat) (w : U32) (s : State) : State :=
  match off with
  | 0x00 => slotWrite c g (fun k => { k with id := w }) s
  | 0x04 => slotWrite c g (fun k => { k with rank := w.extractLsb' 16 12, sizeM1 := w.truncate 12 }) s
  | 0x10 => if w.getLsbD 1 then doDissolve c g s else onBit w 0 (doForm c g) s
  | _ => s

/-- CTX_, VIOL_. -/
def writeCtxBlock (c : CtxId) (off : Nat) (w : U32) (s : State) : State :=
  match off with
  | 0x018 => writeCarcassCtrl c w s
  | 0x028 => doAgCommit c (w.truncate 6) s
  | 0x038 => shadowWord c 0x01 w s
  | 0x048 => onBit w 0 (clearCnt c clearTag) s
  | 0x068 => clearCnt c (clearCtxInteg (w.truncate 3)) s
  | 0x090 => s.modCtx c (fun x => { x with wdtExpired := x.wdtExpired &&& ~~~w.truncate 4 })
  | 0x098 => writePreempt c w s
  | 0x0C8 => staticWrite c (fun x => { x with buddySlot := w.getLsbD 0 }) s
  | 0x0D0 => writeRun c w s
  | 0x10C => clearCnt c (clearViol (w.getLsbD 0) (w.getLsbD 1)) s
  | _ =>
    match regIx off 0x080 4 4 with
    | some i => writeWdt c (Fin.ofNat 4 i) w s
    | none => s

/-- ACC_, SCR_. -/
def writeScrBlock (c : CtxId) (off : Nat) (w : U32) (s : State) : State :=
  match off with
  | 0x200 => shadowWord c 0x50 w s
  | 0x220 => clearCnt c (clearAcc (w.getLsbD 0) (w.getLsbD 1) (w.getLsbD 2)) s
  | 0x300 => shadowWord c 0x10 w s
  | 0x304 => shadowWord c 0x11 w s
  | 0x308 => shadowWord c 0x12 w s
  | 0x318 => s.modCtx c (fun x => x.liveWrite .predThresh w)
  | 0x31C => s.modCtx c (fun x => x.liveWrite .shadowShare w)
  | 0x320 => s.modCtx c (fun x => { x with maskSel := w })
  | 0x324 => writeMaskGen c w s
  | 0x340 => clearCnt c (clearMeta (w.getLsbD 0) (w.getLsbD 1)) s
  | 0x344 => clearCnt c (clearScribe (w.truncate 8)) s
  | _ => s

/-- GAU_, CUT_. -/
def writeGauBlock (c : CtxId) (off : Nat) (w : U32) (s : State) : State :=
  match off with
  | 0x410 => shadowWord c 0x20 w s
  | 0x414 => shadowWord c 0x21 w s
  | 0x418 => shadowWord c 0x22 w s
  | 0x41C => s.modCtx c (fun x => x.liveWrite .satThresh w)
  | 0x438 => clearCnt c (clearGau (w.getLsbD 0) (w.getLsbD 1)) s
  | 0x880 => s.modCtx c (fun x => x.liveWrite .cutWeights w)
  | 0x890 => onBit w 0 (clearCnt c clearCut) s
  | _ =>
    match regIx off 0x420 4 4, regIx off 0x840 4 16 with
    | some i, _ => s.modCtx c (fun x => x.liveWrite (.policyW (Fin.ofNat 4 i)) w)
    | none, some n => shadowWord c (0x40 + n) w s
    | none, none => s

/-- MMU_, DMA_, WIT_, SEC_. -/
def writeMmuBlock (c : CtxId) (off : Nat) (w : U32) (s : State) : State :=
  match off with
  | 0x908 => staticWrite c (fun x => { x with mmu := { x.mmu with pasid := w.truncate 20 } }) s
  | 0x91C => writeFaultResume c w s
  | 0xA08 => doDmaTail c (w.truncate 16) s
  | 0xB18 => staticWrite c (fun x => { x with wit := { x.wit with logDepth := w.truncate 16 } }) s
  | 0xB48 => staticWrite c (fun x => { x with wit := { x.wit with replicaGroup := w } }) s
  | 0xB60 => writeHoldCtrl c w s
  | 0xC08 => doAttest c (w.truncate 2) s
  | _ => s

/-- The identifier of GLU_HP_ word at an offset (R466). -/
def hpId (off : Nat) : Option Nat := (regIx off 0x1400 4 320).map (fun i => 0x100 + i)

/-- GLU_, SEM_. -/
def writeGluBlock (c : CtxId) (off : Nat) (w : U32) (s : State) : State :=
  match off with
  | 0x1010 => clearCnt c (clearGlu (w.getLsbD 0) (w.getLsbD 1)) s
  | 0x1020 => onBit w 0 (clearCnt c clearUpd) s
  | 0x1030 => onBit w 0 (clearCnt c clearForm) s
  | 0x2000 => ifAssigned c (writeSemOp c w) s
  | _ =>
    if 0x1100 ≤ off ∧ off < 0x1300 then writeSlot c (Fin.ofNat 16 ((off - 0x1100) / 0x20)) ((off - 0x1100) % 0x20) w s
    else
      match hpId off with
      | some id => shadowWord c id w s
      | none => s

/-- A write of a 32-bit register of a window; CTX_RESET apart. -/
def writeWord (c : CtxId) (off : Nat) (w : U32) (s : State) : State :=
  if off < 0x200 then writeCtxBlock c off w s
  else if off < 0x400 then writeScrBlock c off w s
  else if off < 0x900 then writeGauBlock c off w s
  else if off < 0x1000 then writeMmuBlock c off w s
  else writeGluBlock c off w s

/-! ## 64-bit registers of a context window -/

/-- A LOG2 below 4 takes the nearer end of its range (log entry 42). -/
def ringLog2 (v : BitVec 4) : BitVec 4 := if v.toNat < 4 then 4 else v

def writeRing (v : U64) (x : Ctx) : Ctx := { x with dma := { x.dma with ringVa := v.extractLsb' 6 58, log2 := ringLog2 (v.truncate 4) } }

/-- Eight bytes of WIT_CHAIN. -/
def writeChain (i : Nat) (v : U64) (x : Ctx) : Ctx :=
  { x with wit := { x.wit with chain := spliceBytes x.wit.chain (8 * i) (leBytes 8 v.toNat) } }

/-- The new value of a 64-bit RW register. -/
def writeStatic64 (c : CtxId) (off : Nat) (v : U64) (s : State) : State :=
  match off with
  | 0x010 => staticWrite c (fun x => { x with carcassAddr := v.extractLsb' 6 58 }) s
  | 0x0A0 => staticWrite c (fun x => { x with saveVa := v.extractLsb' 6 58 }) s
  | 0x0B0 => staticWrite c (fun x => { x with collVa := v.extractLsb' 6 58 }) s
  | 0x0C0 => staticWrite c (fun x => { x with collBytes := v }) s
  | 0x400 => staticWrite c (fun x => { x with layerVa := v.extractLsb' 6 58 }) s
  | 0x408 => staticWrite c (fun x => { x with siteVa := v.extractLsb' 6 58 }) s
  | 0x900 => staticWrite c (fun x => { x with mmu := { x.mmu with root := v.extractLsb' 12 27 } }) s
  | 0xA00 => staticWrite c (writeRing v) s
  | 0xB00 => staticWrite c (fun x => { x with wit := { x.wit with logVa := v.extractLsb' 12 52 } }) s
  | 0xB08 => staticWrite c (fun x => { x with wit := { x.wit with ldigVa := v.extractLsb' 6 58 } }) s
  | 0xB10 => staticWrite c (fun x => { x with wit := { x.wit with refLdigVa := v.extractLsb' 6 58 } }) s
  | 0xB50 => doWitReplay c v s
  | 0xC00 => s.modCtx c (fun x => { x with attestVa := v.extractLsb' 6 58 })
  | _ =>
    if 0x1100 ≤ off ∧ off < 0x1300 then slotWrite c (Fin.ofNat 16 ((off - 0x1100) / 0x20)) (fun k => { k with membersVa := v.extractLsb' 3 61 }) s
    else
      match regIx off 0xB28 8 4 with
      | some i => staticWrite c (writeChain i v) s
      | none => s

/-- The registers that are 64-bit RW. -/
def isRw64 (off : Nat) : Bool :=
  [0x010, 0x0A0, 0x0B0, 0x0C0, 0x400, 0x408, 0x900, 0xA00, 0xB00, 0xB08, 0xB10, 0xB50, 0xC00].contains off || (regIx off 0xB28 8 4).isSome ||
    (decide (0x1100 ≤ off ∧ off < 0x1300) && off % 0x20 == 8)

/-- SEM_WAIT_ARM (R345). -/
def semWaitWord (c : CtxId) (v : U64) (s : State) : State :=
  ifAssigned c (doSemWaitArm c (Fin.ofNat 1024 (fieldOf v.toNat 41 32)) (v.truncate 16) (v.extractLsb' 48 16)) s

/-- BAR_ARRIVE (R352). -/
def barArriveWord (c : CtxId) (v : U64) (s : State) : State :=
  let notify : Option SemId := if v.getLsbD 15 then some (Fin.ofNat 1024 (fieldOf v.toNat 25 16)) else none
  ifAssigned c (doBarArrive c (Fin.ofNat 64 (fieldOf v.toNat 31 26)) (Fin.ofNat 512 (fieldOf v.toNat 8 0)) (v.extractLsb' 32 32) notify) s

/-- A write of words of a 64-bit register of a window, whose value reads `old`. -/
def writePair (fn : FnId) (c : CtxId) (off old : Nat) (sel : WordSel) (v : U64) (s : State) : State :=
  let full := 0x200000 + 0x10000 * c.val + off
  if off = 0x008 then doCtxStepWrite c sel v s
  else if off = 0x030 then shadowPair c idSeedLo sel v s
  else if off = 0x310 then shadowPair c 0x13 sel v s
  else if off = 0x910 then woWrite fn full sel v (fun v => doMmuInval c (v.extractLsb' 16 48) (v.truncate 2)) s
  else if off = 0x2008 then woWrite fn full sel v (semWaitWord c) s
  else if off = 0x2018 then woWrite fn full sel v (barArriveWord c) s
  else if isRw64 off then writeStatic64 c off (merged sel old v) s
  else
    match regIx off 0x800 8 8 with
    | some i => shadowPair c (0x30 + 2 * i) sel v s
    | none => s

/-! ## Global registers -/

/-- GLB_BUDDY_GIB (R360). -/
def writeBuddyGib (w : U32) (s : State) : State :=
  let v := fieldOf w.toNat 8 0
  if v % 8 ≠ 0 ∨ 256 < v then violateGlb 0x1108 s else s.modGlb (fun g => { g with buddyGib := BitVec.ofNat 9 v })

/-- LNK_CTRL[l] (R257). -/
def writeLnkCtrl (l : LinkId) (w : U32) (s : State) : State :=
  onBit w 0 (retrainLink l) (if w.getLsbD 1 then disableLink l s else enableLink l s)

/-- A value outside a range takes the nearer end (R456). -/
def clampTo (lo hi v : Nat) : Nat := if v < lo then lo else if hi < v then hi else v

/-- PWR_ registers (R456). -/
def writePwr (off : Nat) (w : U32) (p : Pwr) : Pwr :=
  match off with
  | 0x010 => { p with capW := BitVec.ofNat 16 (clampTo 300 780 (fieldOf w.toNat 15 0)) }
  | 0x014 => { p with alertT := BitVec.ofNat 8 (clampTo 80 110 (fieldOf w.toNat 15 8)), throttle := BitVec.ofNat 8 (clampTo 70 100 (fieldOf w.toNat 7 0)) }
  | 0x018 => { p with gateIdle := w.truncate 16 }
  | 0x01C => { p with offCause := p.offCause &&& ~~~w.truncate 3 }
  | _ =>
    match regIx off 0 4 4 with
    | some q => { p with clkMax := p.clkMax.set (Fin.ofNat 4 q) (BitVec.ofNat 5 (clampTo 16 30 (fieldOf w.toNat 12 8))) }
    | none => p

/-- MGT_ registers; bit 0 of MGT_ALERT_STATUS is read-only (R419). -/
def writeMgt (off : Nat) (w : U32) (m : Mgt) : Mgt :=
  match off with
  | 0x04 => { m with werr := m.werr && !w.getLsbD 30 }
  | 0x08 => { m with alert := m.alert &&& ~~~(w.truncate 5 &&& (0x1E : BitVec 5)) }
  | 0x0C => { m with alertEn := w.truncate 5 }
  | _ => m

/-- GLB_ and the global VIOL_ registers. -/
def writeGlbBlock (off : Nat) (w : U32) (s : State) : State :=
  match off with
  | 0x0014 => writeBuddyGib w s
  | 0x0018 => s.modGlb (fun g => { g with buddyLinks := w.truncate 16 })
  | 0x0020 => rstCtrl w.toNat s
  | 0x0024 => s.modGlb (fun g => { g with chipDone := g.chipDone && !w.getLsbD 0 })
  | 0x0028 => s.modGlb (fun g => { g with autoPower := w.getLsbD 1, autoChip := w.getLsbD 0 })
  | 0x002C => s.modGlb (fun g => { g with retireLimit := w.truncate 8 })
  | 0x0030 => s.modGlb (clearInteg (w.truncate 4) (w.getLsbD 4))
  | 0x0034 => clearLinkRetire w s
  | 0x004C => s.modGlb (clearViolGlb (w.getLsbD 0) (w.getLsbD 1))
  | _ =>
    match regIx off 0x100 4 32, regIx off 0x200 4 16 with
    | some c, _ => writeAssign (Fin.ofNat 32 c) (w.getLsbD 31) (Fin.ofNat 16 (fieldOf w.toNat 27 24)) (w.truncate 4) s
    | none, some n => clearBenchRetire (Fin.ofNat 16 n) w s
    | none, none => s

/-- A register of barrier `k`. -/
def writeBar (k : BarId) (off : Nat) (w : U32) (s : State) : State :=
  match off with
  | 0x00 => writeBarrier k (w.getLsbD 31) (w.getLsbD 30) (Fin.ofNat 32 (fieldOf w.toNat 20 16)) (w.truncate 16) s
  | 0x04 => configBarrier k (fun b => { b with group := w }) s
  | _ =>
    match regIx off 0x40 4 16 with
    | some i => configBarrier k (fun b => { b with mask := b.mask.set (Fin.ofNat 16 i) w }) s
    | none => s

/-- A write of a 32-bit register of the global region. -/
def writeGlbWord (off : Nat) (w : U32) (s : State) : State :=
  if off < 0x10000 then writeGlbBlock off w s
  else if off < 0x10400 then
    (if (off - 0x10000) % 0x40 = 4 then writeLnkCtrl (Fin.ofNat 16 ((off - 0x10000) / 0x40)) w s else s)
  else if off = 0x10400 then clearLinks (w.truncate 16) (w.extractLsb' 16 16) s
  else if 0x30000 ≤ off ∧ off < 0x32000 then writeBar (Fin.ofNat 64 ((off - 0x30000) / 0x80)) ((off - 0x30000) % 0x80) w s
  else if off = 0x32008 then onBit w 0 clearBarStray s
  else if 0x40000 ≤ off ∧ off < 0x50000 then s.modPwr (writePwr (off - 0x40000) w)
  else if off = 0x5000C then doSvnCommit s
  else if 0x60000 ≤ off ∧ off < 0x70000 then s.modMgt (writeMgt (off - 0x60000) w)
  else if off = 0x70008 then onBit w 0 clearDmaStray s
  else s

/-- A write of words of a 64-bit register of the global region. -/
def writeGlbPair (fn : FnId) (off : Nat) (sel : WordSel) (v : U64) (s : State) : State :=
  if off = 0x50020 then doCertVa (merged sel (s.sec.certVa.toNat * 64) v) s
  else if off = 0x50028 then woWrite fn off sel v doDebugToken s
  else s

/-! ## The function block -/

def writeFnWord (fn : FnId) (off : Nat) (w : U32) (s : State) : State :=
  match off with
  | 0x08 => writeEvtCtrl fn (w.getLsbD 31) (w.getLsbD 30) (w.extractLsb' 16 5) (w.truncate 16) s
  | 0x0C => writeEvtHead fn w s
  | _ => s

def writeFnPair (fn : FnId) (off : Nat) (sel : WordSel) (v : U64) (s : State) : State :=
  if off = 0 then
    s.modFunc fn (fun f => { f with evtBase := (merged sel (f.evtBase.toNat * 4096) v).extractLsb' 12 52 })
  else s

/-! ## A write of 4 or 8 bytes (R457, R458) -/

/-- The code that an operation charges to context `c`, if it charges one. -/
def chargedBy (c : CtxId) (act : State → State) (s : State) : Option U16 :=
  let k := ((act (s.modCtx c (fun x => x.count (fun k => { k with viol := 0 })))).ctx c).cnt
  if k.viol = 0 then none else some k.violLast

/-- Two words of one write: where both meet the condition of a violation of context `c`, the write is charged once, with the
lowest code (R11). -/
def bothWords (c : Option CtxId) (lo hi : State → State) (s : State) : State :=
  let s1 := lo s
  let s2 := hi s1
  match c with
  | none => s2
  | some c =>
    match chargedBy c lo s, chargedBy c hi s1 with
    | some a, some b =>
      s2.modCtx c (fun x => x.count (fun k => { k with viol := (s1.ctx c).cnt.viol, violLast := if b.toNat < a.toNat then b else a }))
    | _, _ => s2

/-- Sends a write to the words or to the 64-bit register that it covers; `who` is the context that two words may both charge. -/
def writeSplit (who : State → Nat → Option CtxId) (reg : State → Nat → Option RegVal) (word : Nat → U32 → State → State)
    (pair : Nat → Nat → WordSel → U64 → State → State) (off size : Nat) (v : U64) (s : State) : State :=
  let lo : U32 := v.truncate 32
  let hi : U32 := v.extractLsb' 32 32
  if size = 8 ∧ off % 8 = 0 then
    match reg s off with
    | some (.r64 old) => pair off old .both v s
    | _ => bothWords (who s off) (word off lo) (word (off + 4) hi) s
  else if size = 4 ∧ off % 4 = 0 then
    match reg s off, (if off % 8 = 4 then reg s (off - 4) else none) with
    | some (.r64 old), _ => pair off old .lo v s
    | none, some (.r64 old) => pair (off - 4) old .hi (lo ++ (0 : U32)) s
    | _, _ => word off lo s
  else s

/-- The effect of a write into a context window, once it takes effect. -/
def writeWindow (fn : FnId) (c : CtxId) (off size : Nat) (v : U64) (s : State) : State :=
  writeSplit (fun _ _ => some c) (fun s o => ctxReg s c o) (writeWord c) (writePair fn c) off size v s

/-- The owner of the barrier whose registers an offset lies in. -/
def barOwner (s : State) (off : Nat) : Option CtxId :=
  if 0x30000 ≤ off ∧ off < 0x32000 then some (s.barrier (Fin.ofNat 64 ((off - 0x30000) / 0x80))).owner else none

def writeGlb (fn : FnId) (off size : Nat) (v : U64) (s : State) : State :=
  writeSplit barOwner glbReg writeGlbWord (fun o _ => writeGlbPair fn o) off size v s

def writeFn (fn : FnId) (off size : Nat) (v : U64) (s : State) : State :=
  writeSplit (fun _ _ => none) (fun s o => fnReg (s.func fn) o) (writeFnWord fn) (fun o _ => writeFnPair fn o) off size v s

/-- A word of the MSI-X table entry; unmasking sends the message that is pending (R414). -/
def writeMsixWord (fn : FnId) (off : Nat) (w : U32) (s : State) : State :=
  s.modFunc fn (fun f =>
    match off with
    | 0x000 => { f with msixAddr := setLo f.msixAddr (w &&& 0xFFFFFFFC) }
    | 0x004 => { f with msixAddr := setHi f.msixAddr w }
    | 0x008 => { f with msixData := w }
    | 0x00C =>
      if !w.getLsbD 0 && f.msixPending then { f with msixMask := false, msixPending := false, msgs := f.msgs + 1 }
      else { f with msixMask := w.getLsbD 0 }
    | _ => f)

/-- A write to BAR2 of an existing function. -/
def writeMsix (fn : FnId) (off size : Nat) (v : U64) (s : State) : State :=
  if hostUp s && fnExists s fn then
    writeSplit (fun _ _ => none) (fun s o => msixReg (s.func fn) o) (writeMsixWord fn) (fun _ _ _ _ s => s) off size v s
  else s

/-- CTX_RESET lies in the bytes written: never held (R393). -/
def coversReset (off size : Nat) : Bool := off == 0x070 && (size == 4 || size == 8)

/-- GLB_RST_CTRL lies in the bytes written: it waits for no other write (log entry 7). -/
def coversRstCtrl (off size : Nat) : Bool := off == 0x20 && (size == 4 || size == 8)

/-- REGISTER_WRITE. -/
def doRegisterWrite (fn : FnId) (off size : Nat) (v : U64) (s : State) : State :=
  let cmd : Instr := .registerWrite fn off size v
  if off < 0x1F0000 then
    (if coversRstCtrl off size then rstPort fn (writeGlb fn off size v) s else glbPort fn cmd (writeGlb fn off size v) s)
  else
    match windowOf off with
    | none => if off < 0x200000 then fnPort fn cmd (writeFn fn (off - 0x1F0000) size v) s else writeMsix fn (off - bar2) size v s
    | some (c, o) =>
      if coversReset o size then (if hostUp s && fnReaches s fn c && v.getLsbD 0 then requestCtxReset c 1 s else s)
      else ctxPort fn c cmd (writeWindow fn c o size v) s

def execRegisterWrite (fn : FnId) (off : Nat) (size : Nat) (value : U64) (s : State) : Host.Outcome State Fault Refusal :=
  .next (doRegisterWrite fn off size value s)

/-! ## PRIVATE_WRITE (R418) -/

/-- A write of `n` bytes at `off` that the bus may make: an aligned one to an MGT_ or PWR_ register that can be reached. -/
def busWritable (s : State) (off n : Nat) : Bool :=
  (decide (0x40000 ≤ off ∧ off < 0x50000) || decide (0x60000 ≤ off ∧ off < 0x70000)) && (n == 4 || n == 8) && off % n == 0 &&
    ((glbReg s off).isSome || (match glbReg s (off - off % 8) with
      | some (.r64 _) => true
      | _ => false)) && !busHidden s off

def doPrivateWrite (off : BitVec 24) (data : List Byte) (s : State) : State :=
  if !s.pwr.aoOn || !s.mgt.daValid then s
  else if data.isEmpty then s.modMgt (fun m => { m with readPtr := off })
  else if busWritable s off.toNat data.length then writeGlb fn0 off.toNat data.length (BitVec.ofNat 64 (leNat data)) s
  else s.modMgt (fun m => { m with werr := true })

def execPrivateWrite (off : BitVec 24) (data : List Byte) (s : State) : Host.Outcome State Fault Refusal :=
  .next (doPrivateWrite off data s)

/-! ## RESET_COMPLETE (R393, R402) -/

/-- The state that an outcome of a held write leaves. -/
def afterExec (s : State) : Host.Outcome State Fault Refusal → State
  | .next t => t
  | _ => s

/-- A held write of a function is given again; no other command is ever held. -/
def giveAgain (i : Instr) (s : State) : State :=
  match i with
  | .runSteps fn c n stop => afterExec s (execRunSteps fn c n stop s)
  | .runStop fn c => afterExec s (execRunStop fn c s)
  | .ctxStepWrite fn c sel v => afterExec s (execCtxStepWrite fn c sel v s)
  | .load fn c => afterExec s (execLoad fn c s)
  | .carcassDiscard fn c => afterExec s (execCarcassDiscard fn c s)
  | .activate fn c => afterExec s (execActivate fn c s)
  | .agCommit fn c b => afterExec s (execAgCommit fn c b s)
  | .liveFieldWrite fn c f w => afterExec s (execLiveFieldWrite fn c f w s)
  | .registerWrite fn off size v => afterExec s (execRegisterWrite fn off size v s)
  | .release fn c => afterExec s (execRelease fn c s)
  | .discard fn c => afterExec s (execDiscard fn c s)
  | .witReplay fn c v => afterExec s (execWitReplay fn c v s)
  | .semSignal fn c q v rel => afterExec s (execSemSignal fn c q v rel s)
  | .semDec fn c q v => afterExec s (execSemDec fn c q v s)
  | .semWaitArm fn c q v tag => afterExec s (execSemWaitArm fn c q v tag s)
  | .barArrive fn c k slot epoch notify => afterExec s (execBarArrive fn c k slot epoch notify s)
  | .mmuInval fn c page scope => afterExec s (execMmuInval fn c page scope s)
  | .faultRetry fn c id => afterExec s (execFaultRetry fn c id s)
  | .faultAbort fn c id => afterExec s (execFaultAbort fn c id s)
  | .dmaTail fn c index => afterExec s (execDmaTail fn c index s)
  | .save fn c => afterExec s (execSave fn c s)
  | .restore fn c => afterExec s (execRestore fn c s)
  | .form fn c g => afterExec s (execForm fn c g s)
  | .dissolve fn c g => afterExec s (execDissolve fn c g s)
  | .attestFirmware fn c => afterExec s (execAttestFirmware fn c s)
  | .attestSeal fn c => afterExec s (execAttestSeal fn c s)
  | .accClearVanish fn c => afterExec s (execAccClearVanish fn c s)
  | .accClearTrunc fn c => afterExec s (execAccClearTrunc fn c s)
  | .accClearWrap fn c => afterExec s (execAccClearWrap fn c s)
  | .scrMetaClearDrop fn c => afterExec s (execScrMetaClearDrop fn c s)
  | .scrMetaClearErr fn c => afterExec s (execScrMetaClearErr fn c s)
  | .scrCountClear fn c bits => afterExec s (execScrCountClear fn c bits s)
  | .ctxTagClear fn c => afterExec s (execCtxTagClear fn c s)
  | .gauClearClass fn c => afterExec s (execGauClearClass fn c s)
  | .gauClearSat fn c => afterExec s (execGauClearSat fn c s)
  | .cutClear fn c => afterExec s (execCutClear fn c s)
  | .gluClearRefuse fn c => afterExec s (execGluClearRefuse fn c s)
  | .gluClearVanish fn c => afterExec s (execGluClearVanish fn c s)
  | .gluUpdClear fn c => afterExec s (execGluUpdClear fn c s)
  | .ctxIntegClear fn c bits => afterExec s (execCtxIntegClear fn c bits s)
  | .gluGroupClear fn c => afterExec s (execGluGroupClear fn c s)
  | .violClearCount fn c => afterExec s (execViolClearCount fn c s)
  | .violClearLast fn c => afterExec s (execViolClearLast fn c s)
  | .barrierEnable fn k scope owner tag => afterExec s (execBarrierEnable fn k scope owner tag s)
  | .barrierDisable fn k => afterExec s (execBarrierDisable fn k s)
  | .lnkRetrain fn l => afterExec s (execLnkRetrain fn l s)
  | .lnkDisable fn l => afterExec s (execLnkDisable fn l s)
  | .secSvnCommit fn => afterExec s (execSecSvnCommit fn s)
  | .secCertVa fn v => afterExec s (execSecCertVa fn v s)
  | .debugToken fn v => afterExec s (execDebugToken fn v s)
  | .glbCtxAssign fn c valid func q => afterExec s (execGlbCtxAssign fn c valid func q s)
  | .eventRingEnable fn irq log2 mod => afterExec s (execEventRingEnable fn irq log2 mod s)
  | .evtHeadWrite fn index => afterExec s (execEvtHeadWrite fn index s)
  | .benchRetireClear fn n mask => afterExec s (execBenchRetireClear fn n mask s)
  | .linkRetireClear fn mask => afterExec s (execLinkRetireClear fn mask s)
  | .lnkClearCrc fn bits => afterExec s (execLnkClearCrc fn bits s)
  | .lnkClearReplay fn bits => afterExec s (execLnkClearReplay fn bits s)
  | .glbIntegClear fn bits => afterExec s (execGlbIntegClear fn bits s)
  | .glbIntegClearRfail fn => afterExec s (execGlbIntegClearRfail fn s)
  | .barClear fn => afterExec s (execBarClear fn s)
  | .dmaStrayClear fn => afterExec s (execDmaStrayClear fn s)
  | .violGlbClearCount fn => afterExec s (execViolGlbClearCount fn s)
  | .violGlbClearLast fn => afterExec s (execViolGlbClearLast fn s)
  | _ => s

/-- The writes held for a function, in order (R14, R393): one to a context still in reset is held again, and those after it. -/
def replayWrites (fn : FnId) (s : State) : State :=
  (s.func fn).heldWrites.foldl (fun t i => giveAgain i t) (s.modFunc fn (fun f => { f with heldWrites := [] }))

/-- The reset of a context ends, with the writes held for it and what its stopped work waits for. -/
def endCtxReset (c : CtxId) (s : State) : State := resumeStopped c ((finishCtxReset c s).each allFns (fun f t => replayWrites f t))

def execResetComplete (t : ResetTarget) (s : State) : Host.Outcome State Fault Refusal := .next (completeReset endCtxReset t s)

end Sys2Proof.Machine
end

