-- ==== Sys2Proof/Machine/Dispatch.lean ====
section
/-! DEFINITION. One arm per command of the opcode table: each a direct call of the command's meaning. -/

namespace Sys2Proof.Machine

open Sys2Proof

def exec (i : Instr) (s : State) : Host.Outcome State Fault Refusal :=
  match i with
  | .runSteps fn c steps stop => Sys2Proof.Machine.execRunSteps fn c steps stop s
  | .runStop fn c => Sys2Proof.Machine.execRunStop fn c s
  | .ctxStepWrite fn c sel value => Sys2Proof.Machine.execCtxStepWrite fn c sel value s
  | .closeStep c => Sys2Proof.Machine.execCloseStep c s
  | .sealStep c => Sys2Proof.Machine.execSealStep c s
  | .generationSwitch c => Sys2Proof.Machine.execGenerationSwitch c s
  | .load fn c => Sys2Proof.Machine.execLoad fn c s
  | .loadDone c => Sys2Proof.Machine.execLoadDone c s
  | .carcassDiscard fn c => Sys2Proof.Machine.execCarcassDiscard fn c s
  | .activate fn c => Sys2Proof.Machine.execActivate fn c s
  | .agCommit fn c groups => Sys2Proof.Machine.execAgCommit fn c groups s
  | .agVisible c group => Sys2Proof.Machine.execAgVisible c group s
  | .liveFieldWrite fn c field value => Sys2Proof.Machine.execLiveFieldWrite fn c field value s
  | .registerWrite fn off size value => Sys2Proof.Machine.execRegisterWrite fn off size value s
  | .readLowWord access off => Sys2Proof.Machine.execReadLowWord access off s
  | .fetchTile c st => Sys2Proof.Machine.execFetchTile c st s
  | .convertTile c st => Sys2Proof.Machine.execConvertTile c st s
  | .spreadTile c st => Sys2Proof.Machine.execSpreadTile c st s
  | .matmulPass c st out blk => Sys2Proof.Machine.execMatmulPass c st out blk s
  | .stationaryTileLoad c st tile => Sys2Proof.Machine.execStationaryTileLoad c st tile s
  | .accumSegment c st => Sys2Proof.Machine.execAccumSegment c st s
  | .chainJoin c st out => Sys2Proof.Machine.execChainJoin c st out s
  | .vectorTileSet c st => Sys2Proof.Machine.execVectorTileSet c st s
  | .sweepFinal c st out => Sys2Proof.Machine.execSweepFinal c st out s
  | .mode1Tile c st port => Sys2Proof.Machine.execMode1Tile c st port s
  | .vNop c st j r => Sys2Proof.Machine.execVNop c st j r s
  | .vld c st j r => Sys2Proof.Machine.execVld c st j r s
  | .vst c st j r => Sys2Proof.Machine.execVst c st j r s
  | .vmovi c st j r => Sys2Proof.Machine.execVmovi c st j r s
  | .vidx c st j r => Sys2Proof.Machine.execVidx c st j r s
  | .vsel c st j r => Sys2Proof.Machine.execVsel c st j r s
  | .vperm c st j r => Sys2Proof.Machine.execVperm c st j r s
  | .fadd c st j r => Sys2Proof.Machine.execFadd c st j r s
  | .fsub c st j r => Sys2Proof.Machine.execFsub c st j r s
  | .fmul c st j r => Sys2Proof.Machine.execFmul c st j r s
  | .ffma c st j r => Sys2Proof.Machine.execFfma c st j r s
  | .fmax c st j r => Sys2Proof.Machine.execFmax c st j r s
  | .fmin c st j r => Sys2Proof.Machine.execFmin c st j r s
  | .fabs c st j r => Sys2Proof.Machine.execFabs c st j r s
  | .fneg c st j r => Sys2Proof.Machine.execFneg c st j r s
  | .fcmp c st j r => Sys2Proof.Machine.execFcmp c st j r s
  | .fdiv c st j r => Sys2Proof.Machine.execFdiv c st j r s
  | .fsqrt c st j r => Sys2Proof.Machine.execFsqrt c st j r s
  | .frsqrt c st j r => Sys2Proof.Machine.execFrsqrt c st j r s
  | .fexp2 c st j r => Sys2Proof.Machine.execFexp2 c st j r s
  | .flog2 c st j r => Sys2Proof.Machine.execFlog2 c st j r s
  | .ftoi c st j r => Sys2Proof.Machine.execFtoi c st j r s
  | .itof c st j r => Sys2Proof.Machine.execItof c st j r s
  | .iadd c st j r => Sys2Proof.Machine.execIadd c st j r s
  | .isub c st j r => Sys2Proof.Machine.execIsub c st j r s
  | .imul c st j r => Sys2Proof.Machine.execImul c st j r s
  | .iand c st j r => Sys2Proof.Machine.execIand c st j r s
  | .ior c st j r => Sys2Proof.Machine.execIor c st j r s
  | .ixor c st j r => Sys2Proof.Machine.execIxor c st j r s
  | .ishl c st j r => Sys2Proof.Machine.execIshl c st j r s
  | .ishr c st j r => Sys2Proof.Machine.execIshr c st j r s
  | .imax c st j r => Sys2Proof.Machine.execImax c st j r s
  | .imin c st j r => Sys2Proof.Machine.execImin c st j r s
  | .icmp c st j r => Sys2Proof.Machine.execIcmp c st j r s
  | .xclr c st j r => Sys2Proof.Machine.execXclr c st j r s
  | .xacc c st j r => Sys2Proof.Machine.execXacc c st j r s
  | .xacci c st j r => Sys2Proof.Machine.execXacci c st j r s
  | .xsum c st j r => Sys2Proof.Machine.execXsum c st j r s
  | .xrnd c st j r => Sys2Proof.Machine.execXrnd c st j r s
  | .frmax c st j r => Sys2Proof.Machine.execFrmax c st j r s
  | .frmin c st j r => Sys2Proof.Machine.execFrmin c st j r s
  | .vscan c st j r => Sys2Proof.Machine.execVscan c st j r s
  | .iscan c st j r => Sys2Proof.Machine.execIscan c st j r s
  | .qand c st j r => Sys2Proof.Machine.execQand c st j r s
  | .qor c st j r => Sys2Proof.Machine.execQor c st j r s
  | .qnot c st j r => Sys2Proof.Machine.execQnot c st j r s
  | .qset c st j r => Sys2Proof.Machine.execQset c st j r s
  | .vend c st j r => Sys2Proof.Machine.execVend c st j r s
  | .storeTile c st => Sys2Proof.Machine.execStoreTile c st s
  | .scribePredict c st => Sys2Proof.Machine.execScribePredict c st s
  | .regrowthScan c st => Sys2Proof.Machine.execRegrowthScan c st s
  | .pruneUnit c st u => Sys2Proof.Machine.execPruneUnit c st u s
  | .transposeMeta c st => Sys2Proof.Machine.execTransposeMeta c st s
  | .reduceInputTile c st => Sys2Proof.Machine.execReduceInputTile c st s
  | .joinRepeat c st rank => Sys2Proof.Machine.execJoinRepeat c st rank s
  | .join l dst h => Sys2Proof.Machine.execJoin l dst h s
  | .accept l dst h => Sys2Proof.Machine.execAccept l dst h s
  | .scale l dst h recs => Sys2Proof.Machine.execScale l dst h recs s
  | .data l dst h sums => Sys2Proof.Machine.execData l dst h sums s
  | .gather l dst h bytes => Sys2Proof.Machine.execGather l dst h bytes s
  | .pause l dst h => Sys2Proof.Machine.execPause l dst h s
  | .resume l dst h => Sys2Proof.Machine.execResume l dst h s
  | .digest l dst h shardDigest attempt => Sys2Proof.Machine.execDigest l dst h shardDigest attempt s
  | .updateBlock c st b => Sys2Proof.Machine.execUpdateBlock c st b s
  | .release fn c => Sys2Proof.Machine.execRelease fn c s
  | .discard fn c => Sys2Proof.Machine.execDiscard fn c s
  | .witReplay fn c value => Sys2Proof.Machine.execWitReplay fn c value s
  | .scrubRead k w => Sys2Proof.Machine.execScrubRead k w s
  | .stationMigrate c st b => Sys2Proof.Machine.execStationMigrate c st b s
  | .benchGate b => Sys2Proof.Machine.execBenchGate b s
  | .semSignal fn c sem v rel => Sys2Proof.Machine.execSemSignal fn c sem v rel s
  | .semDec fn c sem v => Sys2Proof.Machine.execSemDec fn c sem v s
  | .semWaitArm fn c sem v tag => Sys2Proof.Machine.execSemWaitArm fn c sem v tag s
  | .syncSignal l p => Sys2Proof.Machine.execSyncSignal l p s
  | .heldSignalApply c idx => Sys2Proof.Machine.execHeldSignalApply c idx s
  | .arrive l p => Sys2Proof.Machine.execArrive l p s
  | .barArrive fn c k slot epoch notify => Sys2Proof.Machine.execBarArrive fn c k slot epoch notify s
  | .barrierEnable fn k scope owner tag => Sys2Proof.Machine.execBarrierEnable fn k scope owner tag s
  | .barrierDisable fn k => Sys2Proof.Machine.execBarrierDisable fn k s
  | .mmuInval fn c page scope => Sys2Proof.Machine.execMmuInval fn c page scope s
  | .faultRetry fn c id => Sys2Proof.Machine.execFaultRetry fn c id s
  | .faultAbort fn c id => Sys2Proof.Machine.execFaultAbort fn c id s
  | .atsInvalidate fn hostPage => Sys2Proof.Machine.execAtsInvalidate fn hostPage s
  | .priSuccess c hostPage => Sys2Proof.Machine.execPriSuccess c hostPage s
  | .priInvalidRequest c hostPage => Sys2Proof.Machine.execPriInvalidRequest c hostPage s
  | .priResponseFailure fn pasid => Sys2Proof.Machine.execPriResponseFailure fn pasid s
  | .dmaTail fn c index => Sys2Proof.Machine.execDmaTail fn c index s
  | .copy c idx => Sys2Proof.Machine.execCopy c idx s
  | .patternCopy c idx => Sys2Proof.Machine.execPatternCopy c idx s
  | .remote c idx => Sys2Proof.Machine.execRemote c idx s
  | .syncDesc c idx => Sys2Proof.Machine.execSyncDesc c idx s
  | .checkpoint c idx => Sys2Proof.Machine.execCheckpoint c idx s
  | .buddyRead c idx => Sys2Proof.Machine.execBuddyRead c idx s
  | .remoteWrite l h bytes => Sys2Proof.Machine.execRemoteWrite l h bytes s
  | .buddyWrite l h bytes => Sys2Proof.Machine.execBuddyWrite l h bytes s
  | .remoteAck l uid c wseq => Sys2Proof.Machine.execRemoteAck l uid c wseq s
  | .save fn c => Sys2Proof.Machine.execSave fn c s
  | .preemptComplete c => Sys2Proof.Machine.execPreemptComplete c s
  | .restore fn c => Sys2Proof.Machine.execRestore fn c s
  | .ctxReset fn c => Sys2Proof.Machine.execCtxReset fn c s
  | .rstContext fn index => Sys2Proof.Machine.execRstContext fn index s
  | .rstEngine fn kind index => Sys2Proof.Machine.execRstEngine fn kind index s
  | .rstPartition fn index => Sys2Proof.Machine.execRstPartition fn index s
  | .rstChip fn => Sys2Proof.Machine.execRstChip fn s
  | .powerCycleRequest fn => Sys2Proof.Machine.execPowerCycleRequest fn s
  | .fenceDrainTimeout t => Sys2Proof.Machine.execFenceDrainTimeout t s
  | .resetComplete t => Sys2Proof.Machine.execResetComplete t s
  | .resetTimeout t => Sys2Proof.Machine.execResetTimeout t s
  | .watchdogExpire c cls subject => Sys2Proof.Machine.execWatchdogExpire c cls subject s
  | .unitWatchdog u => Sys2Proof.Machine.execUnitWatchdog u s
  | .flr fn => Sys2Proof.Machine.execFlr fn s
  | .fundamentalReset => Sys2Proof.Machine.execFundamentalReset s
  | .dataFlit l bytes => Sys2Proof.Machine.execDataFlit l bytes s
  | .idleFlit l bytes => Sys2Proof.Machine.execIdleFlit l bytes s
  | .linkNoFlitTimeout l => Sys2Proof.Machine.execLinkNoFlitTimeout l s
  | .lnkRetrain fn l => Sys2Proof.Machine.execLnkRetrain fn l s
  | .lnkDisable fn l => Sys2Proof.Machine.execLnkDisable fn l s
  | .farEndDetect l => Sys2Proof.Machine.execFarEndDetect l s
  | .trainingComplete l => Sys2Proof.Machine.execTrainingComplete l s
  | .trainingFailed l => Sys2Proof.Machine.execTrainingFailed l s
  | .ident l uid slot peerLink => Sys2Proof.Machine.execIdent l uid slot peerLink s
  | .distanceAdvert => Sys2Proof.Machine.execDistanceAdvert s
  | .distancePacket l entries => Sys2Proof.Machine.execDistancePacket l entries s
  | .form fn c g => Sys2Proof.Machine.execForm fn c g s
  | .dissolve fn c g => Sys2Proof.Machine.execDissolve fn c g s
  | .tokenRepeat c g rank => Sys2Proof.Machine.execTokenRepeat c g rank s
  | .compatibilityToken l t => Sys2Proof.Machine.execCompatibilityToken l t s
  | .glbCtxAssign fn c valid func qmask => Sys2Proof.Machine.execGlbCtxAssign fn c valid func qmask s
  | .eventRingEnable fn irq log2 mod => Sys2Proof.Machine.execEventRingEnable fn irq log2 mod s
  | .evtHeadWrite fn index => Sys2Proof.Machine.execEvtHeadWrite fn index s
  | .msixModerationEnd fn => Sys2Proof.Machine.execMsixModerationEnd fn s
  | .entdaa da => Sys2Proof.Machine.execEntdaa da s
  | .rstdaa => Sys2Proof.Machine.execRstdaa s
  | .disec => Sys2Proof.Machine.execDisec s
  | .hotJoin => Sys2Proof.Machine.execHotJoin s
  | .privateWrite off data => Sys2Proof.Machine.execPrivateWrite off data s
  | .privateRead eight => Sys2Proof.Machine.execPrivateRead eight s
  | .attestFirmware fn c => Sys2Proof.Machine.execAttestFirmware fn c s
  | .attestSeal fn c => Sys2Proof.Machine.execAttestSeal fn c s
  | .reportDone c => Sys2Proof.Machine.execReportDone c s
  | .secSvnCommit fn => Sys2Proof.Machine.execSecSvnCommit fn s
  | .secCertVa fn value => Sys2Proof.Machine.execSecCertVa fn value s
  | .debugToken fn value => Sys2Proof.Machine.execDebugToken fn value s
  | .debugNonceRead req => Sys2Proof.Machine.execDebugNonceRead req s
  | .pgoodRise pins => Sys2Proof.Machine.execPgoodRise pins s
  | .refclkValid => Sys2Proof.Machine.execRefclkValid s
  | .perstDeassert => Sys2Proof.Machine.execPerstDeassert s
  | .pgoodFall => Sys2Proof.Machine.execPgoodFall s
  | .forceOff => Sys2Proof.Machine.execForceOff s
  | .supplyOutOfBand mv us ca => Sys2Proof.Machine.execSupplyOutOfBand mv us ca s
  | .powerCycle => Sys2Proof.Machine.execPowerCycle s
  | .controlPeriod temps mv ca dw => Sys2Proof.Machine.execControlPeriod temps mv ca dw s
  | .benchRetireClear fn n mask => Sys2Proof.Machine.execBenchRetireClear fn n mask s
  | .linkRetireClear fn mask => Sys2Proof.Machine.execLinkRetireClear fn mask s
  | .accClearVanish fn c => Sys2Proof.Machine.execAccClearVanish fn c s
  | .accClearTrunc fn c => Sys2Proof.Machine.execAccClearTrunc fn c s
  | .accClearWrap fn c => Sys2Proof.Machine.execAccClearWrap fn c s
  | .scrMetaClearDrop fn c => Sys2Proof.Machine.execScrMetaClearDrop fn c s
  | .scrMetaClearErr fn c => Sys2Proof.Machine.execScrMetaClearErr fn c s
  | .scrCountClear fn c bits => Sys2Proof.Machine.execScrCountClear fn c bits s
  | .ctxTagClear fn c => Sys2Proof.Machine.execCtxTagClear fn c s
  | .gauClearClass fn c => Sys2Proof.Machine.execGauClearClass fn c s
  | .gauClearSat fn c => Sys2Proof.Machine.execGauClearSat fn c s
  | .cutClear fn c => Sys2Proof.Machine.execCutClear fn c s
  | .lnkClearCrc fn bits => Sys2Proof.Machine.execLnkClearCrc fn bits s
  | .lnkClearReplay fn bits => Sys2Proof.Machine.execLnkClearReplay fn bits s
  | .gluClearRefuse fn c => Sys2Proof.Machine.execGluClearRefuse fn c s
  | .gluClearVanish fn c => Sys2Proof.Machine.execGluClearVanish fn c s
  | .gluUpdClear fn c => Sys2Proof.Machine.execGluUpdClear fn c s
  | .glbIntegClear fn bits => Sys2Proof.Machine.execGlbIntegClear fn bits s
  | .glbIntegClearRfail fn => Sys2Proof.Machine.execGlbIntegClearRfail fn s
  | .ctxIntegClear fn c bits => Sys2Proof.Machine.execCtxIntegClear fn c bits s
  | .barClear fn => Sys2Proof.Machine.execBarClear fn s
  | .dmaStrayClear fn => Sys2Proof.Machine.execDmaStrayClear fn s
  | .gluGroupClear fn c => Sys2Proof.Machine.execGluGroupClear fn c s
  | .violClearCount fn c => Sys2Proof.Machine.execViolClearCount fn c s
  | .violClearLast fn c => Sys2Proof.Machine.execViolClearLast fn c s
  | .violGlbClearCount fn => Sys2Proof.Machine.execViolGlbClearCount fn s
  | .violGlbClearLast fn => Sys2Proof.Machine.execViolGlbClearLast fn s
  | .flitSlot l vc => Sys2Proof.Machine.execFlitSlot l vc s
  | .atsTranslationCompletion c t => Sys2Proof.Machine.execAtsTranslationCompletion c t s
  | .referenceLost => Sys2Proof.Machine.execReferenceLost s
  | .alwaysOnStart => Sys2Proof.Machine.execAlwaysOnStart s
  | .vfEnableWrite enable numVfs => Sys2Proof.Machine.execVfEnableWrite enable numVfs s

end Sys2Proof.Machine
end

