-- ==== Sys2Proof/Safety.lean ====
section
/-! DEFINITION. What counts as a safe run, and the conditions in whose terms the statements speak: which function's writes
are taken (R407 to R409, R459), and which station acts (R39). -/

namespace Sys2Proof

open Machine

/-- A step that answers a next state. -/
def Proceeds (s : State) : Prop := ∃ t, step s = .next t

/-- A write of function `fn` to the window of context `c` acts at once: the host reaches the module, the function reaches
the window (R409), the context is not in reset (R393), and no earlier write of the function is held (R14). -/
structure WindowOpen (s : State) (fn : FnId) (c : CtxId) : Prop where
  up : hostUp s = true
  reach : fnReaches s fn c = true
  ready : (s.ctx c).busy = false
  clear : (s.func fn).heldWrites = []

/-- A write of function `fn` to the global region acts at once (R459, R14). -/
structure GlobalOpen (s : State) (fn : FnId) : Prop where
  up : hostUp s = true
  pf0 : fn = 0
  clear : (s.func fn).heldWrites = []

/-- A request of function `fn` for a reset or a power cycle acts: it waits for no held write. -/
structure RequestOpen (s : State) (fn : FnId) : Prop where
  up : hostUp s = true
  pf0 : fn = 0

/-- A write of function `fn` to its function block acts at once. -/
structure BlockOpen (s : State) (fn : FnId) : Prop where
  up : hostUp s = true
  fnOk : fnExists s fn = true
  clear : (s.func fn).heldWrites = []

/-- Station `i` of context `c` acts: stations run, the active image `m` has station record `st` of kind `k`, it has a
bench that the bounds in force leave it, it takes part in the step, and it waits on no page (R39, R163, R247, R366). -/
structure Acting (s : State) (c : CtxId) (i k : Nat) (m : Image) (st : Station) : Prop where
  runs : stationsRun s c = true
  image : (s.ctx c).active = some m
  record : m.stations[i]? = some st
  kind : st.kind = k
  bench : ((s.ctx c).stn i).bench < 512
  works : i ∉ idleSet (s.ctx c) m
  free : stopped (s.ctx c) (reqStation i) = false
  settled : (s.ctx c).maySit s.glb m i = true

/-- The context and function of a command that is a write to a context window, CTX_RESET and REGISTER_WRITE apart. -/
def Instr.window : Instr → Option (FnId × CtxId)
  | .runSteps fn c _ _ => some (fn, c)
  | .runStop fn c => some (fn, c)
  | .ctxStepWrite fn c _ _ => some (fn, c)
  | .load fn c => some (fn, c)
  | .carcassDiscard fn c => some (fn, c)
  | .activate fn c => some (fn, c)
  | .agCommit fn c _ => some (fn, c)
  | .liveFieldWrite fn c _ _ => some (fn, c)
  | .release fn c => some (fn, c)
  | .discard fn c => some (fn, c)
  | .witReplay fn c _ => some (fn, c)
  | .semSignal fn c _ _ _ => some (fn, c)
  | .semDec fn c _ _ => some (fn, c)
  | .semWaitArm fn c _ _ _ => some (fn, c)
  | .barArrive fn c _ _ _ _ => some (fn, c)
  | .mmuInval fn c _ _ => some (fn, c)
  | .faultRetry fn c _ => some (fn, c)
  | .faultAbort fn c _ => some (fn, c)
  | .dmaTail fn c _ => some (fn, c)
  | .save fn c => some (fn, c)
  | .restore fn c => some (fn, c)
  | .form fn c _ => some (fn, c)
  | .dissolve fn c _ => some (fn, c)
  | .attestFirmware fn c => some (fn, c)
  | .attestSeal fn c => some (fn, c)
  | .accClearVanish fn c => some (fn, c)
  | .accClearTrunc fn c => some (fn, c)
  | .accClearWrap fn c => some (fn, c)
  | .scrMetaClearDrop fn c => some (fn, c)
  | .scrMetaClearErr fn c => some (fn, c)
  | .scrCountClear fn c _ => some (fn, c)
  | .ctxTagClear fn c => some (fn, c)
  | .gauClearClass fn c => some (fn, c)
  | .gauClearSat fn c => some (fn, c)
  | .cutClear fn c => some (fn, c)
  | .gluClearRefuse fn c => some (fn, c)
  | .gluClearVanish fn c => some (fn, c)
  | .gluUpdClear fn c => some (fn, c)
  | .ctxIntegClear fn c _ => some (fn, c)
  | .gluGroupClear fn c => some (fn, c)
  | .violClearCount fn c => some (fn, c)
  | .violClearLast fn c => some (fn, c)
  | _ => none

/-- The function of a command that is a write to the global region. -/
def Instr.global : Instr → Option FnId
  | .barrierEnable fn _ _ _ _ => some fn
  | .barrierDisable fn _ => some fn
  | .rstContext fn _ => some fn
  | .rstEngine fn _ _ => some fn
  | .rstPartition fn _ => some fn
  | .rstChip fn => some fn
  | .powerCycleRequest fn => some fn
  | .lnkRetrain fn _ => some fn
  | .lnkDisable fn _ => some fn
  | .glbCtxAssign fn _ _ _ _ => some fn
  | .secSvnCommit fn => some fn
  | .secCertVa fn _ => some fn
  | .debugToken fn _ => some fn
  | .benchRetireClear fn _ _ => some fn
  | .linkRetireClear fn _ => some fn
  | .lnkClearCrc fn _ => some fn
  | .lnkClearReplay fn _ => some fn
  | .glbIntegClear fn _ => some fn
  | .glbIntegClearRfail fn => some fn
  | .barClear fn => some fn
  | .dmaStrayClear fn => some fn
  | .violGlbClearCount fn => some fn
  | .violGlbClearLast fn => some fn
  | _ => none

/-- The command asks for a reset or a power cycle, which waits for no held write (log entry 7). -/
def Instr.request : Instr → Bool
  | .rstContext _ _ | .rstEngine _ _ _ | .rstPartition _ _ | .rstChip _ | .powerCycleRequest _ => true
  | _ => false

/-- The context and the station of a command that a station carries out under R39. -/
def Instr.station : Instr → Option (CtxId × Nat)
  | .fetchTile c st => some (c, st)
  | .convertTile c st => some (c, st)
  | .spreadTile c st => some (c, st)
  | .matmulPass c st _ _ => some (c, st)
  | .stationaryTileLoad c st _ => some (c, st)
  | .accumSegment c st => some (c, st)
  | .chainJoin c st _ => some (c, st)
  | .vectorTileSet c st => some (c, st)
  | .sweepFinal c st _ => some (c, st)
  | .mode1Tile c st _ => some (c, st)
  | .vNop c st _ _ => some (c, st)
  | .vld c st _ _ => some (c, st)
  | .vst c st _ _ => some (c, st)
  | .vmovi c st _ _ => some (c, st)
  | .vidx c st _ _ => some (c, st)
  | .vsel c st _ _ => some (c, st)
  | .vperm c st _ _ => some (c, st)
  | .fadd c st _ _ => some (c, st)
  | .fsub c st _ _ => some (c, st)
  | .fmul c st _ _ => some (c, st)
  | .ffma c st _ _ => some (c, st)
  | .fmax c st _ _ => some (c, st)
  | .fmin c st _ _ => some (c, st)
  | .fabs c st _ _ => some (c, st)
  | .fneg c st _ _ => some (c, st)
  | .fcmp c st _ _ => some (c, st)
  | .fdiv c st _ _ => some (c, st)
  | .fsqrt c st _ _ => some (c, st)
  | .frsqrt c st _ _ => some (c, st)
  | .fexp2 c st _ _ => some (c, st)
  | .flog2 c st _ _ => some (c, st)
  | .ftoi c st _ _ => some (c, st)
  | .itof c st _ _ => some (c, st)
  | .iadd c st _ _ => some (c, st)
  | .isub c st _ _ => some (c, st)
  | .imul c st _ _ => some (c, st)
  | .iand c st _ _ => some (c, st)
  | .ior c st _ _ => some (c, st)
  | .ixor c st _ _ => some (c, st)
  | .ishl c st _ _ => some (c, st)
  | .ishr c st _ _ => some (c, st)
  | .imax c st _ _ => some (c, st)
  | .imin c st _ _ => some (c, st)
  | .icmp c st _ _ => some (c, st)
  | .xclr c st _ _ => some (c, st)
  | .xacc c st _ _ => some (c, st)
  | .xacci c st _ _ => some (c, st)
  | .xsum c st _ _ => some (c, st)
  | .xrnd c st _ _ => some (c, st)
  | .frmax c st _ _ => some (c, st)
  | .frmin c st _ _ => some (c, st)
  | .vscan c st _ _ => some (c, st)
  | .iscan c st _ _ => some (c, st)
  | .qand c st _ _ => some (c, st)
  | .qor c st _ _ => some (c, st)
  | .qnot c st _ _ => some (c, st)
  | .qset c st _ _ => some (c, st)
  | .vend c st _ _ => some (c, st)
  | .storeTile c st => some (c, st)
  | .scribePredict c st => some (c, st)
  | .regrowthScan c st => some (c, st)
  | .pruneUnit c st _ => some (c, st)
  | .transposeMeta c st => some (c, st)
  | .reduceInputTile c st => some (c, st)
  | .updateBlock c st _ => some (c, st)
  | _ => none

/-- The context and the station of one instruction on one vector row. -/
def Instr.lane : Instr → Option (CtxId × Nat)
  | .vNop c st _ _ => some (c, st)
  | .vld c st _ _ => some (c, st)
  | .vst c st _ _ => some (c, st)
  | .vmovi c st _ _ => some (c, st)
  | .vidx c st _ _ => some (c, st)
  | .vsel c st _ _ => some (c, st)
  | .vperm c st _ _ => some (c, st)
  | .fadd c st _ _ => some (c, st)
  | .fsub c st _ _ => some (c, st)
  | .fmul c st _ _ => some (c, st)
  | .ffma c st _ _ => some (c, st)
  | .fmax c st _ _ => some (c, st)
  | .fmin c st _ _ => some (c, st)
  | .fabs c st _ _ => some (c, st)
  | .fneg c st _ _ => some (c, st)
  | .fcmp c st _ _ => some (c, st)
  | .fdiv c st _ _ => some (c, st)
  | .fsqrt c st _ _ => some (c, st)
  | .frsqrt c st _ _ => some (c, st)
  | .fexp2 c st _ _ => some (c, st)
  | .flog2 c st _ _ => some (c, st)
  | .ftoi c st _ _ => some (c, st)
  | .itof c st _ _ => some (c, st)
  | .iadd c st _ _ => some (c, st)
  | .isub c st _ _ => some (c, st)
  | .imul c st _ _ => some (c, st)
  | .iand c st _ _ => some (c, st)
  | .ior c st _ _ => some (c, st)
  | .ixor c st _ _ => some (c, st)
  | .ishl c st _ _ => some (c, st)
  | .ishr c st _ _ => some (c, st)
  | .imax c st _ _ => some (c, st)
  | .imin c st _ _ => some (c, st)
  | .icmp c st _ _ => some (c, st)
  | .xclr c st _ _ => some (c, st)
  | .xacc c st _ _ => some (c, st)
  | .xacci c st _ _ => some (c, st)
  | .xsum c st _ _ => some (c, st)
  | .xrnd c st _ _ => some (c, st)
  | .frmax c st _ _ => some (c, st)
  | .frmin c st _ _ => some (c, st)
  | .vscan c st _ _ => some (c, st)
  | .iscan c st _ _ => some (c, st)
  | .qand c st _ _ => some (c, st)
  | .qor c st _ _ => some (c, st)
  | .qnot c st _ _ => some (c, st)
  | .qset c st _ _ => some (c, st)
  | .vend c st _ _ => some (c, st)
  | _ => none

/-- No failure of the hardware waits at a tap of an operation (R327). -/
def Sound (s : State) (taps : List Nat) : Prop :=
  ∀ t lane vrow exact delivered, Upset.residue t lane vrow exact delivered ∈ s.upsets → tapsMeet taps t = false

/-! ## Vector rows -/

/-- The unit of station `i` of context `c`. -/
def stationUnit (s : State) (c : CtxId) (i : Nat) : VecUnit := ((s.ctx c).stn i).unit

/-- `s` with that unit. -/
def putUnit (s : State) (c : CtxId) (i : Nat) (u : VecUnit) : State :=
  s.modCtx c (fun x => x.modStn i (fun n => { n with unit := u }))

/-- The lanes that an inactive lane leaves zero: MASK_MODE of the record, or of the station where the record names none (R193). -/
def zeroMasked (st : Station) (r : VecRec) : Bool := r.mm == 2 || (r.mm == 0 && st.o 6 1 == 1)

/-- The 64 lanes after a write through the mask: an active lane takes `f`, another keeps `old` or takes `z` (R193). -/
def LanesAre {α : Type} (zero : Bool) (act : List Bool) (old : List α) (z : α) (f : Nat → α) (out : List α) : Prop :=
  out.length = 64 ∧ ∀ l, l < 64 → out[l]? = some (if act.getD l false then f l else if zero then z else old.getD l z)

/-- A vector command with its operand fields left open. -/
abbrev VecCmd := CtxId → Nat → Fin 16 → VecRec → Instr

/-- Every vector instruction with its opcode (R195). -/
def laneCodes : List (VecCmd × Nat) :=
  [(.vNop, 0x00), (.vld, 0x01), (.vst, 0x02), (.vmovi, 0x03), (.vidx, 0x04), (.vsel, 0x05), (.vperm, 0x06), (.fadd, 0x10), (.fsub, 0x11),
   (.fmul, 0x12), (.ffma, 0x13), (.fmax, 0x14), (.fmin, 0x15), (.fabs, 0x16), (.fneg, 0x17), (.fcmp, 0x18), (.fdiv, 0x19),
   (.fsqrt, 0x1A), (.frsqrt, 0x1B), (.fexp2, 0x1C), (.flog2, 0x1D)] ++
  [(.ftoi, 0x1E), (.itof, 0x1F), (.iadd, 0x20), (.isub, 0x21), (.imul, 0x22), (.iand, 0x23), (.ior, 0x24),
   (.ixor, 0x25), (.ishl, 0x26), (.ishr, 0x27), (.imax, 0x28), (.imin, 0x29), (.icmp, 0x2A), (.xclr, 0x30),
   (.xacc, 0x31), (.xacci, 0x32), (.xsum, 0x33), (.xrnd, 0x34), (.frmax, 0x38), (.frmin, 0x39), (.vscan, 0x3A),
   (.iscan, 0x3B), (.qand, 0x40), (.qor, 0x41), (.qnot, 0x42), (.qset, 0x43), (.vend, 0xFF)]

/-- The instructions of two V sources and what a lane of each computes (R195). -/
def twoSource : List (VecCmd × (U32 → U32 → U32)) :=
  [(.fadd, fadd), (.fsub, fsub), (.fmul, fmul), (.fdiv, fdiv), (.fmax, fmaxBits), (.fmin, fminBits),
   (.iadd, fun a b => a + b), (.isub, fun a b => a - b), (.imul, fun a b => a * b), (.iand, fun a b => a &&& b),
   (.ior, fun a b => a ||| b), (.ixor, fun a b => a ^^^ b), (.ishl, fun a b => a <<< (b.toNat % 32)),
   (.ishr, fun a b => a.sshiftRight (b.toNat % 32)), (.imax, fun a b => if a.toInt < b.toInt then b else a),
   (.imin, fun a b => if b.toInt < a.toInt then b else a)]

/-- The instructions of one V source. -/
def oneSource : List (VecCmd × (U32 → U32)) :=
  [(.fabs, fabsBits), (.fneg, fnegBits), (.fsqrt, fsqrt), (.frsqrt, frsqrt), (.fexp2, fexp2), (.flog2, flog2), (.ftoi, ftoiBits),
   (.itof, itofBits)]

/-- The comparisons: predicate `vd` takes what AUX selects (R195). -/
def compares : List (VecCmd × (Nat → U32 → U32 → Bool)) :=
  [(.fcmp, fcmpBits), (.icmp, fun aux a b => condInt aux a.toInt b.toInt)]

/-- The instructions over two predicates. -/
def predicateOps : List (VecCmd × (Bool → Bool → Bool)) :=
  [(.qand, fun a b => a && b), (.qor, fun a b => a || b), (.qnot, fun a _ => !a)]

/-- The active lanes of the group of lane `l`: a half of the row, or all 64 where AUX[2] is 1 (R196). -/
def groupActive (r : VecRec) (act : List Bool) (l : Nat) : List Nat :=
  (groupLanes r.aux.toNat l).filter (fun k => act.getD k false)

/-- The first lane of the group of lane `l`, and the number of its lanes. -/
def groupBase (r : VecRec) (l : Nat) : Nat := if bitOf r.aux.toNat 2 then 0 else 32 * (l / 32)
def groupSize (r : VecRec) : Nat := if bitOf r.aux.toNat 2 then 64 else 32

/-- The greatest, or least, of the active lanes of a group. -/
def groupBest (f : U32 → U32 → U32) (lane : Nat → U32) : List Nat → U32
  | [] => 0
  | k :: ks => ks.foldl (fun a k => f a (lane k)) (f (lane k) (lane k))

/-- The value that enters a lane of a scan: 0 where a segment starts there (R198). -/
def scanIn (seg : List Bool) (l : Nat) (before : XLane) : XLane := if seg.getD l false then (0, 0) else before

/-- The running value of a scan after its first `n` lanes from lane `b` (R198): FP32 values exactly, or INT32 modulo 2^32. -/
def scanAfter (int : Bool) (a : List U32) (act seg : List Bool) (start : XLane) (b : Nat) : Nat → XLane
  | 0 => start
  | n + 1 =>
    if act.getD (b + n) false then
      let v := scanIn seg (b + n) (scanAfter int a act seg start b n)
      if int then ((lowBits 32 (v.1 + (a.getD (b + n) 0).toNat) : Nat), v.2) else xAdd v (xExact (a.getD (b + n) 0))
    else scanAfter int a act seg start b n

/-- The X lane that a scan starts from: as it stands, or modulo 2^32. -/
def scanStart (int : Bool) (x : XLane) : XLane := if int then ((lowBits 32 x.1 : Nat), x.2) else x

/-! ## Clears -/

/-- The clears of a context's counters: what each leaves of them (R15, R180, R225, R338, R387, R431, R464). -/
def counterClears (fn : FnId) (c : CtxId) : List (Instr × (Counters → Counters)) :=
  [(.accClearVanish fn c, fun k => { k with accVanish := 0 }), (.accClearTrunc fn c, fun k => { k with accTrunc := 0 }),
   (.accClearWrap fn c, fun k => { k with accWrap := 0 }), (.scrMetaClearDrop fn c, fun k => { k with metaDrop := 0 }),
   (.scrMetaClearErr fn c, fun k => { k with metaErr := 0 }), (.ctxTagClear fn c, fun k => { k with tagSlip := 0 }),
   (.gauClearClass fn c, fun k => { k with gauClass := Vector.replicate 88 0 }), (.gauClearSat fn c, fun k => { k with gauSat := 0 }),
   (.cutClear fn c, fun k => { k with cutMigrate := 0 }), (.gluClearRefuse fn c, fun k => { k with gluRefuse := 0 }),
   (.gluClearVanish fn c, fun k => { k with gluVanish := 0 }), (.gluUpdClear fn c, fun k => { k with stepDiff := 0 }),
   (.gluGroupClear fn c, fun k => { k with formRefuse := 0 }), (.violClearCount fn c, fun k => { k with viol := 0 }),
   (.violClearLast fn c, fun k => { k with violLast := 0 })]

/-- The clears of device-wide registers. -/
def deviceClears (fn : FnId) : List (Instr × (Glb → Glb)) :=
  [(.barClear fn, fun g => { g with barStray := 0 }), (.dmaStrayClear fn, fun g => { g with dmaStray := 0 }),
   (.violGlbClearCount fn, fun g => { g with violCount := 0 }), (.violGlbClearLast fn, fun g => { g with violLast := 0 }),
   (.glbIntegClearRfail fn, fun g => { g with benchRfail := Vector.replicate 512 0, linkRfail := Vector.replicate 16 0 })]

/-! ## Semaphores and descriptors -/

/-- Semaphore `q` of context `c`. -/
def semOf (s : State) (c : CtxId) (q : SemId) : Sem := (s.ctx c).sems[q]

/-- `s` with that semaphore. -/
def putSem (s : State) (c : CtxId) (q : SemId) (k : Sem) : State := s.modCtx c (fun x => { x with sems := x.sems.set q k })

/-- What serving a wait queue `queue` against a count of `n` leaves in semaphore `q`: the waiters served are a prefix of the
queue, their values are taken from the count, and the waiter that then heads the queue is not covered. -/
def ServedInOrder (t : State) (c : CtxId) (q : SemId) (queue : List (U16 × Waiter)) (n : Nat) : Prop :=
  ∃ served, queue = served ++ (semOf t c q).queue ∧
    (semOf t c q).count.toNat + (served.map (fun w => w.1.toNat)).sum = n ∧
    ∀ w ∈ (semOf t c q).queue.head?, (semOf t c q).count < w.1

/-- No received write waits to be committed. -/
def NoneHeld (s : State) : Prop := s.heldBuddy = [] ∧ ∀ c, (s.ctx c).heldRemote = []

/-- The commands that carry out a descriptor: the OP of each, and what it does once it has started. -/
def descCmds : List ((CtxId → Nat → Instr) × Nat × (CtxId → Nat → DescState → State → State)) :=
  [(.copy, 1, runCopy), (.patternCopy, 2, runCopy), (.remote, 3, runRemote), (.syncDesc, 4, fun c i _ s => endDesc c i 1 s),
   (.checkpoint, 5, runCheckpoint), (.buddyRead, 6, runBuddyRead)]

end Sys2Proof
end

