-- ==== Sys2Proof/Certificates/Slice0/Obligations.lean ====
section
/-! DEFINITION. The statements about the model (OBLIGATIONS.json). A docstring names the rules of spec/ and, where a clause rests on a
choice of the model, the log entry. -/

open Sys2Proof Sys2Proof.Machine

/-- For every command c and state s, a step of s with c at the front of its queue is exec of c on s with the rest of the
queue. (R14) -/
def Obligations.StepRunsFront : Prop :=
  ∀ (c : Instr) (s : State), step { s with pending := c :: s.pending } = exec c s

/-- On an empty queue a step answers a next state: PWR_TIME is one 20 ns unit higher while the always-on domain has power,
and nothing else changes. That a step without a command is one such unit is the model's choice (log entry 5). (R455) -/
def Obligations.IdleStepCounts : Prop :=
  ∀ s : State, s.pending = [] →
    step s = .next (if s.pwr.aoOn = true then { s with pwr := { s.pwr with time := s.pwr.time + 1 } } else s)

/-- For every state whose device memory and host memory are in canonical form, a step that answers a next state leaves
both in canonical form. (R360, R361, R371) -/
def Obligations.StepKeepsMemoryForm : Prop :=
  ∀ s t : State, Memory.wf s.mem = true → Memory.wf s.hostMem = true → step s = .next t →
    Memory.wf t.mem = true ∧ Memory.wf t.hostMem = true

/-- Whatever the command and the state, exec leaves the queue of waiting commands as it stands where it answers a next
state. (R14) -/
def Obligations.ExecLeavesQueue : Prop :=
  ∀ (i : Instr) (s t : State), exec i s = .next t → t.pending = s.pending

/-- No command lowers SEC_SVN.FUSED: for every command and every state, the value after is at least the value before.
(R434) -/
def Obligations.SvnOnlyRises : Prop :=
  ∀ (i : Instr) (s t : State), exec i s = .next t → s.sec.svn.toNat ≤ t.sec.svn.toNat

/-- No command takes the device out of debug state RMA, and none schedules a change at the next reset, from any state in
which RMA holds and no change is scheduled. (R438) -/
def Obligations.RmaIsFinal : Prop :=
  ∀ (i : Instr) (s t : State), s.sec.debugState = 2 → s.sec.debugNext = none → exec i s = .next t →
    t.sec.debugState = 2 ∧ t.sec.debugNext = none

/-- Every write command to a context window waits, in order behind the writes of its function that wait, where the context
is in reset or an earlier write of the function waits; so does a write to the global region behind one that waits, but for a
request of a reset or a power cycle (log entry 7); a window write is ignored where the function does not reach the window,
and a write to the global region from a function other than PF0. (R14, R393, R409, R459) -/
def Obligations.WindowWrites : Prop :=
  (∀ (i : Instr) (fn : FnId) (c : CtxId) (s : State), i.window = some (fn, c) → hostUp s = true → fnReaches s fn c = true →
    (s.ctx c).busy = true ∨ (s.func fn).heldWrites ≠ [] →
    exec i s = .next (s.modFunc fn (fun f => { f with heldWrites := f.heldWrites ++ [i] }))) ∧
  (∀ (i : Instr) (s : State), i.global = some 0 → i.request = false → hostUp s = true → (s.func 0).heldWrites ≠ [] →
    exec i s = .next (s.modFunc 0 (fun f => { f with heldWrites := f.heldWrites ++ [i] }))) ∧
  (∀ (i : Instr) (fn : FnId) (c : CtxId) (s : State), i.window = some (fn, c) → fnReaches s fn c = false → exec i s = .next s) ∧
  (∀ (i : Instr) (fn : FnId) (s : State), i.global = some fn → fn ≠ 0 → exec i s = .next s)

/-- Every command that a station carries out leaves the state unchanged where the stations of its context do not run.
(R39, R31, R27) -/
def Obligations.StationsRest : Prop :=
  ∀ (i : Instr) (c : CtxId) (st : Nat) (s : State), i.station = some (c, st) → stationsRun s c = false → exec i s = .next s

/-- The values at reset: no command waits, both memories list nothing and have the canonical form that every step keeps,
both domains are on with boot event 6 done, every context is IDLE with empty slots and the watchdog limits of the field
map, every semaphore is zero, every link is DOWN with full credits, every barrier is disabled and every event ring is out
of service. That reset is the state after boot event 6, and MULT = 16 for quarter 0 (log entry 5), are the model's choice.
(R443, R54, R354, R341, R394, R413) -/
def Obligations.ResetState : Prop :=
  let s := State.reset
  s.pending = [] ∧ s.mem = [] ∧ s.hostMem = [] ∧ Memory.wf s.mem = true ∧ Memory.wf s.hostMem = true ∧ s.poison = [] ∧ s.pwr.mainOn = true ∧ s.pwr.bootEvent = 6 ∧ s.pwr.time = 0 ∧
  s.pwr.mult[0] = 16 ∧ s.pwr.mult[1] = 0 ∧ s.mgt.alert = 0x10 ∧ s.glb.retireLimit = 4 ∧ s.glb.chipBusy = false ∧
  (∀ c, (s.ctx c).phase = .idle ∧ (s.ctx c).staged = .empty ∧ (s.ctx c).active = none ∧ (s.ctx c).step = 0 ∧ (s.ctx c).assigned = false ∧
    (s.ctx c).busy = false ∧ (s.ctx c).wdt = #v[⟨1, 0x2710⟩, ⟨0, 0xF4240⟩, ⟨0, 0xF4240⟩, ⟨0, 0⟩]) ∧
  (∀ (c : CtxId) (q : SemId), (s.ctx c).sems[q] = {}) ∧
  (∀ l, (s.link l).state = .down ∧ (s.link l).credits = [32, 1536, 256, 224]) ∧
  (∀ k, (s.barrier k).enable = false ∧ (s.barrier k).group = 0xFFFFFFFF) ∧
  (∀ fn, (s.func fn).en = false ∧ (s.func fn).head = 0 ∧ (s.func fn).tail = 0 ∧ (s.func fn).log2 = 6)

/-- A 4-byte read of GLB_ID by PF0 answers 0x4F51_2100 in every state in which BAR0 can be read and no high word is
latched for the offset, and its fields FAMILY, PART, VARIANT, STEP_MAJOR and STEP_MINOR read 0x4F, 0x512, 0x1, 0x0 and
0x0. (R4) -/
def Obligations.DeviceIdentity : Prop :=
  ∀ s : State, hostUp s = true → assocGet 0 (s.func 0).latches = none → ∃ t, exec (.readLowWord ⟨.fn 0, 4⟩ 0) s = .next t ∧
    let id : U32 := BitVec.ofNat 32 (leNat (t.func 0).lastRead)
    id = 0x4F512100 ∧ id.extractLsb' 24 8 = 0x4F ∧ id.extractLsb' 12 12 = 0x512 ∧ id.extractLsb' 8 4 = 0x1 ∧
    id.extractLsb' 4 4 = 0x0 ∧ id.extractLsb' 0 4 = 0x0

/-- Each instruction of two V sources and each of one V source writes VD lane by lane: an active lane takes the result of
the instruction on that lane, an inactive lane keeps its value or takes zero as the mask mode says; the unit and
everything else stay as they were. No failure of the hardware waits at a V tap here and in the next five statements;
ResidueChecks says what one does. (R193, R195, R196) -/
def Obligations.VectorArithmetic : Prop :=
  (∀ (s : State) (c : CtxId) (i : Nat) (m : Image) (st : Station) (j : Fin 16) (r : VecRec), Acting s c i kVECTOR m st →
    (∀ opc, Sound s (laneTaps opc)) → ∀ p ∈ twoSource, ∃ out,
      LanesAre (zeroMasked st r) ((stationUnit s c i).pred j.val r.qp.toNat) ((stationUnit s c i).reg j.val r.vd.toNat) 0
        (fun l => p.2 (((stationUnit s c i).reg j.val r.va.toNat).getD l 0) (((stationUnit s c i).reg j.val r.vb.toNat).getD l 0)) out ∧
      exec (p.1 c i j r) s = .next (putUnit s c i ((stationUnit s c i).setReg j.val r.vd.toNat out))) ∧
  (∀ (s : State) (c : CtxId) (i : Nat) (m : Image) (st : Station) (j : Fin 16) (r : VecRec), Acting s c i kVECTOR m st →
    (∀ opc, Sound s (laneTaps opc)) → ∀ p ∈ oneSource, ∃ out,
      LanesAre (zeroMasked st r) ((stationUnit s c i).pred j.val r.qp.toNat) ((stationUnit s c i).reg j.val r.vd.toNat) 0
        (fun l => p.2 (((stationUnit s c i).reg j.val r.va.toNat).getD l 0)) out ∧
      exec (p.1 c i j r) s = .next (putUnit s c i ((stationUnit s c i).setReg j.val r.vd.toNat out)))

/-- What VMOVI, FFMA, VPERM, VIDX, VSEL, VLD and VST do to the unit of the station, lane by lane, with the conversions
that VLD counts; NOP and VEND leave the state as it is. (R184, R186, R191, R192, R193, R195) -/
def Obligations.VectorMoves : Prop :=
  (∀ (s : State) (c : CtxId) (i : Nat) (m : Image) (st : Station) (j : Fin 16) (r : VecRec), Acting s c i kVECTOR m st →
    (∀ opc, Sound s (laneTaps opc)) →
    let u := stationUnit s c i
    let act := u.pred j.val r.qp.toNat
    let lane (k l : Nat) : U32 := (u.reg j.val k).getD l 0
    let writes (f : Nat → U32) (cmd : Instr) : Prop := ∃ out,
      LanesAre (zeroMasked st r) act (u.reg j.val r.vd.toNat) 0 f out ∧
        exec cmd s = .next (putUnit s c i (u.setReg j.val r.vd.toNat out))
    writes (fun _ => r.imm) (.vmovi c i j r) ∧
    writes (fun l => ffma (lane r.va.toNat l) (lane r.vb.toNat l) (lane (r.imm.toNat % 32) l)) (.ffma c i j r) ∧
    writes (fun l => lane r.va.toNat ((lane r.vb.toNat l).toNat % 64)) (.vperm c i j r) ∧
    writes (fun l => BitVec.ofNat 32 (
      if r.aux.toNat < 4 then (tileCoord u.xy (64 * j.val + l)).getD r.aux.toNat 0
      else if r.aux.toNat = 4 then l
      else if r.aux.toNat = 5 then j.val
      else 32 * u.xy.tr + (64 * j.val + l) / 32 +
        2 ^ 20 * ((m.tensor (if u.final then st.tensor2 else st.tensor)).map (·.seqShard)).getD 0)) (.vidx c i j r) ∧
    ∃ out, out.length = 64 ∧
      (∀ l, l < 64 → out[l]? = some (if act.getD l false then lane r.va.toNat l else lane r.vb.toNat l)) ∧
      exec (.vsel c i j r) s = .next (putUnit s c i (u.setReg j.val r.vd.toNat out))) ∧
  (∀ (s : State) (c : CtxId) (i : Nat) (m : Image) (st : Station) (j : Fin 16) (r : VecRec), Acting s c i kVECTOR m st →
    (∀ opc, Sound s (laneTaps opc)) →
    let u := stationUnit s c i
    let act := u.pred j.val r.qp.toNat
    let loaded (l : Nat) : U32 × Option Nat := (vecEnv m st u j.val).load r.aux.toNat (64 * j.val + l)
    (∃ out, LanesAre (zeroMasked st r) act (u.reg j.val r.vd.toNat) 0 (fun l => (loaded l).1) out ∧
      exec (.vld c i j r) s = .next (putUnit
        (s.modCtx c (fun x => x.count (gaugeClasses fFP32
          ((lanes64.filterMap (fun l => if act.getD l false then (loaded l).2 else none)).map some)))) c i
        (u.setReg j.val r.vd.toNat out))) ∧
    exec (.vst c i j r) s = .next (putUnit s c i
      (if r.aux = 0 then { u with out0 := u.out0.set j.val (u.reg j.val r.va.toNat) }
        else { u with out1 := u.out1.set j.val (u.reg j.val r.va.toNat) })) ∧
    exec (.vNop c i j r) s = .next s ∧ exec (.vend c i j r) s = .next s)

/-- FCMP, ICMP, QAND, QOR, QNOT and QSET write predicate VD through the mask; a write of Q0 writes nothing. (R193, R195) -/
def Obligations.VectorPredicates : Prop :=
  ∀ (s : State) (c : CtxId) (i : Nat) (m : Image) (st : Station) (j : Fin 16) (r : VecRec), Acting s c i kVECTOR m st →
    (∀ opc, Sound s (laneTaps opc)) →
    let u := stationUnit s c i
    let act := u.pred j.val r.qp.toNat
    let lane (k l : Nat) : U32 := (u.reg j.val k).getD l 0
    let writes (f : Nat → Bool) (cmd : Instr) : Prop := ∃ out,
      LanesAre (zeroMasked st r) act (u.pred j.val (r.vd.toNat % 8)) false f out ∧
        exec cmd s = .next (putUnit s c i (if r.vd.toNat % 8 = 0 then u else { u with q := u.q.set (r.vd.toNat % 8 - 1) out }))
    (∀ p ∈ compares, writes (fun l => p.2 r.aux.toNat (lane r.va.toNat l) (lane r.vb.toNat l)) (p.1 c i j r)) ∧
    (∀ p ∈ predicateOps, writes (fun l => p.2 ((u.pred j.val (r.va.toNat % 8)).getD l false)
      ((u.pred j.val (r.vb.toNat % 8)).getD l false)) (p.1 c i j r)) ∧
    writes (fun l => lane r.va.toNat l != 0) (.qset c i j r)

/-- XCLR, XACC, XACCI, XSUM and XRND on the X accumulators, and FRMAX and FRMIN over the active lanes of a group. (R193,
R195, R196, R197) -/
def Obligations.VectorAccumulators : Prop :=
  (∀ (s : State) (c : CtxId) (i : Nat) (m : Image) (st : Station) (j : Fin 16) (r : VecRec), Acting s c i kVECTOR m st →
    (∀ opc, Sound s (laneTaps opc)) →
    let u := stationUnit s c i
    let act := u.pred j.val r.qp.toNat
    let acc := u.acc j.val (r.aux.toNat % 4)
    let lane (l : Nat) : U32 := (u.reg j.val r.va.toNat).getD l 0
    let writes (f : Nat → XLane) (cmd : Instr) : Prop := ∃ out, LanesAre (zeroMasked st r) act acc (0, 0) f out ∧
      exec cmd s = .next (putUnit s c i (u.setAcc j.val (r.aux.toNat % 4) out))
    writes (fun _ => (0, 0)) (.xclr c i j r) ∧
    writes (fun l => xAdd (acc.getD l (0, 0)) (xExact (lane l))) (.xacc c i j r) ∧
    writes (fun l => xAdd (acc.getD l (0, 0)) ((lane l).toInt * (2 ^ 149 : Nat), 0)) (.xacci c i j r) ∧
    writes (fun l => xFit (sumInt ((groupActive r act l).map (fun k => (acc.getD k (0, 0)).1)))
      (combAll ((groupActive r act l).map (fun k => (acc.getD k (0, 0)).2)))) (.xsum c i j r) ∧
    ∃ out, LanesAre (zeroMasked st r) act (u.reg j.val r.vd.toNat) 0
        (fun l => xRound (bitOf r.aux.toNat 3) (acc.getD l (0, 0))) out ∧
      exec (.xrnd c i j r) s = .next (putUnit s c i (u.setReg j.val r.vd.toNat out))) ∧
  (∀ (s : State) (c : CtxId) (i : Nat) (m : Image) (st : Station) (j : Fin 16) (r : VecRec), Acting s c i kVECTOR m st →
    (∀ opc, Sound s (laneTaps opc)) →
    let u := stationUnit s c i
    let act := u.pred j.val r.qp.toNat
    let lane (l : Nat) : U32 := (u.reg j.val r.va.toNat).getD l 0
    let writes (f : U32 → U32 → U32) (cmd : Instr) : Prop := ∃ out,
      LanesAre (zeroMasked st r) act (u.reg j.val r.vd.toNat) 0 (fun l => groupBest f lane (groupActive r act l)) out ∧
      exec cmd s = .next (putUnit s c i (u.setReg j.val r.vd.toNat out))
    writes fmaxBits (.frmax c i j r) ∧ writes fminBits (.frmin c i j r))

/-- A scan gives each lane the running value of its group, inclusive or exclusive, restarted at segment starts, and leaves
the last running value of the group in every lane of the X register. (R195, R198) -/
def Obligations.VectorScans : Prop :=
  ∀ (s : State) (c : CtxId) (i : Nat) (m : Image) (st : Station) (j : Fin 16) (r : VecRec), Acting s c i kVECTOR m st →
    (∀ opc, Sound s (laneTaps opc)) →
    let u := stationUnit s c i
    let act := u.pred j.val r.qp.toNat
    let seg := u.pred j.val (r.vb.toNat % 8)
    let a := u.reg j.val r.va.toNat
    let acc := u.acc j.val (r.aux.toNat % 4)
    let before (int : Bool) (l n : Nat) : XLane :=
      scanAfter int a act seg (scanStart int (acc.getD (groupBase r l) (0, 0))) (groupBase r l) n
    let result (int : Bool) (v : XLane) : U32 := if int then BitVec.ofInt 32 v.1 else xRound false v
    let scans (int : Bool) (cmd : Instr) : Prop := ∃ out carry,
      LanesAre (zeroMasked st r) act (u.reg j.val r.vd.toNat) 0
        (fun l => result int (if bitOf r.aux.toNat 3 then scanIn seg l (before int l (l - groupBase r l))
          else before int l (l + 1 - groupBase r l))) out ∧
      (carry.length = 64 ∧ ∀ l, l < 64 → carry[l]? = some (before int l (groupSize r))) ∧
      exec cmd s = .next (putUnit s c i ((u.setReg j.val r.vd.toNat out).setAcc j.val (r.aux.toNat % 4) carry))
    scans false (.vscan c i j r) ∧ scans true (.iscan c i j r)

/-- One vector instruction leaves both memories, every other context, every other station and every other field of its own
context but the counters unchanged. (R183, R193) -/
def Obligations.LanesChangeOneUnit : Prop :=
  ∀ (i : Instr) (c : CtxId) (k : Nat) (s t : State), i.lane = some (c, k) → (∀ opc, Sound s (laneTaps opc)) →
    exec i s = .next t →
    t.mem = s.mem ∧ t.hostMem = s.hostMem ∧ (∀ d, d ≠ c → t.ctx d = s.ctx d) ∧
    (∀ j, j ≠ k → (t.ctx c).stn j = (s.ctx c).stn j) ∧
    ∃ u n, t = s.setCtx c { s.ctx c with
      cnt := n
      stns := (s.ctx c).stns.set k { (s.ctx c).stn k with unit := u } }

/-- The residue modulo 127 of a sum, a product and a shift follow from those of their operands, so a tap sees exactly the changes
that are no multiple of 127: every single bit, and every burst shorter than seven. Fields read carry the residues that were
generated. A failure that waits at a tap is met by the next operation that uses the tap's unit, its result is kept, and where
the tap sees it the step is marked, the unit counted and event 0x1501 raised; one that no tap sees passes unseen. (R325,
R326, R327, R328, R334) -/
def Obligations.ResidueChecks : Prop :=
  (∀ (a b : Int) (d : Nat), res127 a < 127 ∧ res127 (a + b) = (res127 a + res127 b) % 127 ∧
    res127 (a * b) = res127 a * res127 b % 127 ∧ res127 (a * 2 ^ d) = res127 a * 2 ^ (d % 7) % 127) ∧
  (∀ exact delivered : Int, (tapSees exact delivered = false ↔ (127 : Int) ∣ delivered - exact) ∧
    (∀ (m : Int) (n : Nat), m ≠ 0 → m.natAbs < 127 → delivered = exact + m * 2 ^ n → tapSees exact delivered = true)) ∧
  (∀ t : Tile, t.coded.sideFails = [] ∧ t.coded.payload = t.payload ∧ t.coded.side = t.payload.residues) ∧
  (∀ (s : State) (c : CtxId) (b : BenchId) (op : CheckOp) (tap lane vrow : Nat), s.glb.retireLimit = 0 →
    let x := s.ctx c
    ∃ t, residueMismatch c (.bench b) op tap lane vrow s = t ∧ t.mem = s.mem ∧
      t.glb = { s.glb with benchRfail := s.glb.benchRfail.set b (satAdd s.glb.benchRfail[b] 1) } ∧ (∀ d, d ≠ c → t.ctx d = s.ctx d) ∧
      t.ctx c = { x with cnt := { x.cnt with residue := satAdd x.cnt.residue 1 }, suspResidue := x.suspResidue || x.inStep }) ∧
  (∀ (s : State) (c : CtxId) (site : CheckSite) (op : CheckOp) (taps : List Nat) (ts : List Tile) (tap lane vrow : Nat) (e d : Int),
    (∀ t ∈ ts, t.sideFails = []) → s.upsets = [.residue tap lane vrow e d] →
    checkResidue c site op taps ts s = if tapsMeet taps tap = false then s
      else if tapsSee taps tap e d = true then residueMismatch c site op tap lane vrow { s with upsets := [] } else { s with upsets := [] }) ∧
  (∀ (s : State) (c : CtxId) (i : Nat) (m : Image) (st : Station) (j : Fin 16) (r : VecRec) (tap lane vrow : Nat) (e d : Int),
    Acting s c i kVECTOR m st → s.upsets = [.residue tap lane vrow e d] → ∀ p ∈ laneCodes, ∃ t op,
      exec (p.1 c i j r) { s with upsets := [] } = .next t ∧ op.station = i ∧
      exec (p.1 c i j r) s = .next (if tapsMeet (laneTaps p.2) tap = false then { t with upsets := s.upsets }
        else if tapsSee (laneTaps p.2) tap e d = true then residueMismatch c (benchSite (s.ctx c) i) op tap lane vrow t else t))

/-- Each clear sets the counters or retirement bits it names to zero and changes nothing else, but that a link whose
retirement bit goes stays DOWN until RETRAIN. (R15, R103, R180, R223,
R225, R251, R304, R339, R335, R336, R359, R387) -/
def Obligations.Clears : Prop :=
  (∀ (s : State) (fn : FnId) (c : CtxId), WindowOpen s fn c →
    (∀ p ∈ counterClears fn c, exec p.1 s = .next (s.modCtx c (fun x => { x with cnt := p.2 x.cnt }))) ∧
    (∀ bits : BitVec 8, exec (.scrCountClear fn c bits) s = .next (s.modCtx c (fun x => { x with cnt := { x.cnt with
      scribe := Vector.ofFn (fun i : Fin 8 => if bits.getLsbD i.val then 0 else x.cnt.scribe[i]) } }))) ∧
    ∀ bits : BitVec 3, exec (.ctxIntegClear fn c bits) s = .next (s.modCtx c (fun x => { x with cnt := { x.cnt with
      residue := if bits.getLsbD 0 then 0 else x.cnt.residue, eccUe := if bits.getLsbD 1 then 0 else x.cnt.eccUe
      digest := if bits.getLsbD 2 then 0 else x.cnt.digest } }))) ∧
  (∀ (s : State) (fn : FnId), GlobalOpen s fn →
    (∀ p ∈ deviceClears fn, exec p.1 s = .next { s with glb := p.2 s.glb }) ∧
    (∀ bits : BitVec 4, exec (.glbIntegClear fn bits) s = .next { s with glb := { s.glb with
      stkCe := if bits.getLsbD 0 then Vector.replicate 8 0 else s.glb.stkCe
      stkUe := if bits.getLsbD 1 then Vector.replicate 8 0 else s.glb.stkUe
      sramCe := if bits.getLsbD 2 then Vector.replicate 4 0 else s.glb.sramCe
      sramUe := if bits.getLsbD 3 then Vector.replicate 4 0 else s.glb.sramUe } }) ∧
    (∀ (n : Fin 16) (mask : U32), exec (.benchRetireClear fn n mask) s =
      .next { s with glb := { s.glb with benchRetire := s.glb.benchRetire.set n (s.glb.benchRetire[n] &&& ~~~mask) } }) ∧
    ∀ mask : U32, exec (.linkRetireClear fn mask) s = .next { s with
      glb := { s.glb with linkRetire := s.glb.linkRetire &&& ~~~mask.truncate 16 }
      links := Vector.ofFn (fun l : Fin 16 => if (s.glb.linkRetire &&& mask.truncate 16).getLsbD l.val
        then { s.links[l] with stayDown := true } else s.links[l]) }) ∧
  (∀ (s : State) (fn : FnId) (bits : U16), GlobalOpen s fn →
    exec (.lnkClearCrc fn bits) s = .next { s with links := Vector.ofFn (fun l : Fin 16 =>
      if bits.getLsbD l.val then { s.links[l] with crcCount := 0 } else s.links[l]) } ∧
    exec (.lnkClearReplay fn bits) s = .next { s with links := Vector.ofFn (fun l : Fin 16 =>
      if bits.getLsbD l.val then { s.links[l] with replayCount := 0 } else s.links[l]) })

/-- After SEM_SIGNAL, SEM_DEC and SEM_WAIT_ARM the waiters served are a prefix of the wait queue in arrival order, their
values are taken from the count, and the waiter that then heads the queue is not covered by the count, so that it blocks
every waiter behind it. (R343) -/
def Obligations.WaitQueueIsFifo : Prop :=
  ∀ (s : State) (fn : FnId) (c : CtxId) (q : SemId) (v tag : U16) (rel : Bool),
    WindowOpen s fn c → (s.ctx c).assigned = true → (s.ctx c).parked = false →
    let k := semOf s c q
    (k.count.toNat + v.toNat ≤ 0xFFFF →
      ∃ t, exec (.semSignal fn c q v rel) s = .next t ∧ ServedInOrder t c q k.queue (k.count.toNat + v.toNat)) ∧
    (v ≤ k.count → ∃ t, exec (.semDec fn c q v) s = .next t ∧ ServedInOrder t c q k.queue (k.count.toNat - v.toNat)) ∧
    ((s.ctx c).hostWaits < 16 →
      ∃ t, exec (.semWaitArm fn c q v tag) s = .next t ∧ ServedInOrder t c q (k.queue ++ [(v, .host tag)]) k.count.toNat)

/-- SEM_SIGNAL adds and saturates with 0x1003, SEM_DEC subtracts or is 0x1002, SEM_WAIT_ARM takes the value at once with
event 0x1601 or joins the queue, and the seventeenth host wait is 0x1006. (R341, R342, R345) -/
def Obligations.SemaphoreOps : Prop :=
  ∀ (s : State) (fn : FnId) (c : CtxId) (q : SemId) (v tag : U16) (rel : Bool),
    WindowOpen s fn c → (s.ctx c).assigned = true → (s.ctx c).parked = false → (semOf s c q).queue = [] →
    let k := semOf s c q
    let n := k.count.toNat + v.toNat
    exec (.semSignal fn c q v rel) s = .next (putSem (if 0xFFFF < n then violate c 0x1003 s else s) c q
      { k with count := BitVec.ofNat 16 (min n 0xFFFF) }) ∧
    exec (.semDec fn c q v) s = .next (if v ≤ k.count then putSem s c q { k with count := k.count - v } else violate c 0x1002 s) ∧
    ((s.ctx c).hostWaits < 16 → k.count < v → exec (.semWaitArm fn c q v tag) s =
      .next (putSem (s.modCtx c (fun x => { x with hostWaits := x.hostWaits + 1 })) c q { k with queue := [(v, .host tag)] })) ∧
    ((s.ctx c).hostWaits < 16 → v ≤ k.count → exec (.semWaitArm fn c q v tag) s =
      .next (ctxEvent c 0x1601 false (payload [(0, 1, c.val), (2, 2, q.val), (4, 2, tag.toNat)])
        (putSem s c q { k with count := k.count - v }))) ∧
    (16 ≤ (s.ctx c).hostWaits → exec (.semWaitArm fn c q v tag) s = .next (violate c 0x1006 s))

/-- RUN_STEPS starts a run only in IDLE with an active image and STEPS not 0, and is violation 0x0102 otherwise; RUN_STOP
ends the run after the step in progress; a CTX_STEP write is taken word by word in IDLE with the divergence marks of R298,
and is 0x0101 in any other phase. (R28, R31, R298, R463) -/
def Obligations.RunAndStepNumber : Prop :=
  (∀ (s : State) (fn : FnId) (c : CtxId) (steps : BitVec 24), WindowOpen s fn c →
    let x := s.ctx c
    let stopped (y : Ctx) : Ctx := { y with left := if y.left = 0 then 0 else 1, startWait := y.startWait.map (fun _ => 1) }
    let ok := x.phase = .idle ∧ steps ≠ 0 ∧ x.active.isSome = true ∧ x.startWait = none
    (ok → exec (.runSteps fn c steps false) s = .next (kick c (s.setCtx c { x with startWait := some steps })) ∧
      exec (.runSteps fn c steps true) s = .next (kick c (s.setCtx c (stopped { x with startWait := some steps })))) ∧
    (¬ ok → exec (.runSteps fn c steps false) s = .next (violate c 0x0102 s) ∧
      exec (.runSteps fn c steps true) s = .next ((violate c 0x0102 s).modCtx c stopped)) ∧
    exec (.runStop fn c) s = .next (s.setCtx c (stopped x))) ∧
  (∀ (s : State) (fn : FnId) (c : CtxId) (v : U64), WindowOpen s fn c →
    let x := s.ctx c
    let writes (sel : WordSel) (n : U64) : Prop := exec (.ctxStepWrite fn c sel v) s =
      .next (kick c (s.setCtx c { x with
        step := n, wit := { x.wit with attempt := 0 }
        chores := x.chores.filter (fun k => !isMark k) ++ (x.active.map (fun m => (List.range m.updates.length).map Chore.mark)).getD [] }))
    (x.phase = .idle → writes .both v ∧ writes .lo (x.step.extractLsb' 32 32 ++ v.truncate 32) ∧
      writes .hi (v.extractLsb' 32 32 ++ x.step.extractLsb' 0 32)) ∧
    (x.phase ≠ .idle → ∀ sel, exec (.ctxStepWrite fn c sel v) s = .next (violate c 0x0101 s)))

/-- LOAD and DISCARD of the staged slot, and LOAD_DONE: VALID where every check of R52 passes, else INVALID with the code
of the first check that fails. (R52, R54, R55) -/
def Obligations.StagedImages : Prop :=
  (∀ (s : State) (fn : FnId) (c : CtxId), WindowOpen s fn c →
    let x := s.ctx c
    let y := x.forgetReq reqLoad
    exec (.load fn c) s = .next (s.setCtx c { y with staged := .loading (64 * x.carcassAddr.toNat), err := 0 }) ∧
    exec (.carcassDiscard fn c) s = .next (s.setCtx c { y with staged := .empty, err := 0 })) ∧
  (∀ (s t : State) (c : CtxId) (va : Nat) (b : List Byte), (s.ctx c).staged = .loading va → ctxLive s c = true →
    (s.ctx c).assigned = true → readImage c va s = (some b, t) →
    (imageErr ((t.ctx c).active.map (·.generation)) (t.ctx c).quarters b = none →
      exec (.loadDone c) s = .next (t.modCtx c (fun x => { x with staged := .valid (imageOf b), err := 0 }))) ∧
    ∀ e, imageErr ((t.ctx c).active.map (·.generation)) (t.ctx c).quarters b = some e →
      exec (.loadDone c) s = .next (t.modCtx c (fun x => { x with
        staged := .invalid, err := e, cnt := { x.cnt with viol := satAdd x.cnt.viol 1, violLast := e } })))

/-- ACTIVATE in IDLE with a VALID staged slot moves the image to the active slot and empties the staged slot; otherwise it
is violation 0x0212 and both slots stay. That a field which no POLICY record names starts at its reset value is the model's
choice (log entry 30). (R51, R57, R158) -/
def Obligations.Activation : Prop :=
  ∀ (s : State) (fn : FnId) (c : CtxId), WindowOpen s fn c →
    let x := s.ctx c
    (∀ m, x.phase = .idle → x.staged = .valid m → exec (.activate fn c) s = .next (kick c (s.setCtx c
      (let y := x.takeImage s.glb m {} {}
       { y with
         masks := m.masks.map (fun _ => {}), sems := y.sems.map (fun q => { q with count := 0 })
         chores := [.gaugeInit] ++ (derivedMasks m).map Chore.derive ++ (List.range m.updates.length).map Chore.mark })))) ∧
    ((x.phase ≠ .idle ∨ ∀ m, x.staged ≠ .valid m) → exec (.activate fn c) s = .next (violate c 0x0212 s))

/-- RELEASE commits a held step, or waits for a CHECKPOINT of it or for the end of a power-cycle request; DISCARD drops it;
either is violation 0x0E04 outside HELD. (R317, R299, R384, R401) -/
def Obligations.HeldStep : Prop :=
  ∀ (s : State) (fn : FnId) (c : CtxId), WindowOpen s fn c →
    let x := s.ctx c
    (∀ m, x.phase = .held → x.active = some m →
      (mayWork s = true → exec (.release fn c) s = .next (if x.checkpointed
        then s.setCtx c { x with closing := .sealed, releasing := true } else doChores c (s.setCtx c (x.commit m)))) ∧
      (mayWork s = false → exec (.release fn c) s = .next (s.setCtx c { x with releasing := true }))) ∧
    (x.phase = .held → exec (.discard fn c) s = .next (s.setCtx c x.discardSealed)) ∧
    (x.phase ≠ .held → exec (.release fn c) s = .next (violate c 0x0E04 s) ∧ exec (.discard fn c) s = .next (violate c 0x0E04 s))

/-- A sealed step that is not suspect commits, or waits while a CHECKPOINT of it reads, and one that is suspect is held; the
seal waits for the digest of every member; a commit raises the step number by 1, sets WIT_CHAIN to the record hash, clears
ATTEMPT, counts the run down and advances the generation and digest of each edited mask. (R23, R27, R28, R159, R314,
R384) -/
def Obligations.SealAndCommit : Prop :=
  (∀ (s t : State) (c : CtxId) (m : Image), let x := s.ctx c
    x.active = some m → ctxLive s c = true → x.phase = .closing → x.closing = .recorded →
    (∀ r ∈ digestPeers x, r ∈ x.wit.compared) → x.wit.replaying = false → sealRecord c m false s = (true, t) →
    satSites (t.ctx c) m = [] → (t.ctx c).wit.replaying = false →
    ((t.ctx c).suspect = false → exec (.sealStep c) s = .next (if (t.ctx c).checkpointed
      then t.modCtx c (fun y => { y with closing := .sealed, releasing := true })
      else doChores c (t.setCtx c ((t.ctx c).commit m)))) ∧
    ((t.ctx c).suspect = true → exec (.sealStep c) s = .next (heldEvent c (t.modCtx c (fun y => { y with
      phase := .held, closing := .sealed }))))) ∧
  (∀ (s : State) (c : CtxId), (∃ r ∈ digestPeers (s.ctx c), r ∉ (s.ctx c).wit.compared) → exec (.sealStep c) s = .next s) ∧
  (∀ (x : Ctx) (m : Image), let y := x.commit m
    y.phase = .committing ∧ y.step = x.step + 1 ∧ y.wit.chain = x.wit.record.drop 0xFE0 ∧ y.wit.attempt = 0 ∧
    y.left = (if x.left = 0xFFFFFF ∨ x.left = 0 then x.left else x.left - 1) ∧
    ∀ (k : Nat) (q : MaskState), x.masks[k]? = some q → y.masks[k]? = some (if q.edited then
      { gen := q.gen + 1, digest := q.nextDigest, nextDigest := 0, edited := false } else q))

/-- A step closes when its stations have drained; after the commit the generation switch takes the VALID staged image, or
only the pending numeric values become visible. (R23, R58, R59) -/
def Obligations.CloseAndSwitch : Prop :=
  (∀ (s : State) (c : CtxId) (m : Image), (s.ctx c).active = some m → ctxLive s c = true →
    ((s.ctx c).phase = .running → stepDrained (s.ctx c) m = true → exec (.closeStep c) s = .next (closeOn c m (s.modCtx c (fun x => { x with
        phase := .closing, closing := .open, wit := { x.wit with closing := x.closingLive } })))) ∧
    ((s.ctx c).phase = .running → stepDrained (s.ctx c) m = false → exec (.closeStep c) s = .next s) ∧
    ((s.ctx c).phase = .closing → (s.ctx c).closing = .open → exec (.closeStep c) s = .next (closeOn c m s))) ∧
  (∀ (s : State) (c : CtxId), ctxLive s c = true → (s.ctx c).phase = .committing → (s.ctx c).closing = .sealed → (s.ctx c).chores = [] →
    (s.ctx c).active.isSome = true →
    (∀ m, (s.ctx c).staged = .valid m → exec (.generationSwitch c) s =
      .next (kick c (s.modCtx c (fun x => { x.switchTo s.glb m with closing := .no })))) ∧
    ((∀ m, (s.ctx c).staged ≠ .valid m) → exec (.generationSwitch c) s =
      .next (kick c (s.modCtx c (fun x => { x.showNumeric with closing := .no })))))

/-- A write of WIT_REPLAY in IDLE reads the reference record and arms or refuses the replay by the checks of R318; in any
other phase it is violation 0x0E05. That MODE 0 leaves RESULT IDLE is a reading of the model (log entry 32). (R318) -/
def Obligations.ReplayArming : Prop :=
  ∀ (s : State) (fn : FnId) (c : CtxId) (v : U64), WindowOpen s fn c →
    let x := s.ctx c
    let w := { x.wit with
      refAddr := v.extractLsb' 12 52, commit := v.getLsbD 2, mode := v.truncate 2, check := 0, mismatch := 0, layerValid := false, layer := 0 }
    (x.phase ≠ .idle → exec (.witReplay fn c v) s = .next (violate c 0x0E05 s)) ∧
    (x.phase = .idle → (v.truncate 2 : BitVec 2) = 0 → exec (.witReplay fn c v) s =
      .next (s.setCtx c { x.forgetReq reqGauge with wit := { w with result := .idle } })) ∧
    (∀ (t : State) (b : List Byte) (bad : Bool), x.phase = .idle → (v.truncate 2 : BitVec 2) ≠ 0 →
      fetchVa c reqGauge false ⟨(v.extractLsb' 12 52).toNat * 4096, 4096⟩
        (s.setCtx c { x.forgetReq reqGauge with wit := { w with result := .checking } }) = (some (b, bad), t) →
      (t.ctx c).wit.refAddr = v.extractLsb' 12 52 →
      exec (.witReplay fn c v) s = .next (t.modCtx c (fun y => match armCheck y b with
        | none => { y with wit := { y.wit with result := .armed, refRecord := b } }
        | some k => { y with
          wit := { y.wit with result := .refused, check := BitVec.ofNat 4 k, mode := 0 }
          cnt := { y.cnt with viol := satAdd y.cnt.viol 1, violLast := 0x0E01 } })))

/-- A commit makes the written values of each group that it names pending, whatever groups those are: the lowest violated code is
charged once and only its fallback applies; a pending group becomes visible at the instants of R62, and no other group's values
change. (R11, R61, R62, R63, R247) -/
def Obligations.AgreementGroups : Prop :=
  (∀ (s : State) (fn : FnId) (c : CtxId) (g : Fin 6), WindowOpen s fn c →
    let x := s.ctx c
    let bit : BitVec 6 := BitVec.ofNat 6 (2 ^ g.val)
    let fix := fixGroup (x.active.map (fun m => m.stations.length)) g.val x.shadow
    let committed (v : AgVals) : Ctx := { x with
      pend := copyGroup g.val v x.pend
      agPending := x.agPending ||| bit
      words := x.words.forget g.val
      keepNext := if g.val = 4 then [] else x.keepNext }
    (groupCodes s x g.val = [] → exec (.agCommit fn c bit) s = .next (s.setCtx c (committed x.shadow))) ∧
    (∀ code, fix.2 = some code → groupCodes s x g.val = [code] → code ≠ 0x0B01 →
      exec (.agCommit fn c bit) s = .next (s.setCtx c ((committed fix.1).violate code)))) ∧
  (∀ (s : State) (c : CtxId) (g : Fin 6), mayWork s = true → (s.ctx c).busy = false →
    let x := s.ctx c
    let bit : BitVec 6 := BitVec.ofNat 6 (2 ^ g.val)
    let shown : Ctx := { x with visible := copyGroup g.val x.pend x.visible, agPending := x.agPending &&& ~~~bit }
    (x.agPending.getLsbD g.val = true → g.val < 4 ∧ x.phase = .idle ∨ g.val = 5 ∧ x.phase ≠ .preempted →
      exec (.agVisible c g) s = .next (s.setCtx c shown)) ∧
    (∀ m, g.val = 4 → x.agPending.getLsbD 4 = true → x.active = some m → x.phase ≠ .preempted →
      let placed := s.setCtx c { shown with keptPlace := keptBounds x m x.keepNext, keepNext := [] }
      exec (.agVisible c g) s = .next (if x.phase.working = true then compelMoves c m placed else placed)) ∧
    (x.agPending.getLsbD g.val = false ∨ g.val < 4 ∧ x.phase ≠ .idle → exec (.agVisible c g) s = .next s)) ∧
  (∀ (s : State) (fn : FnId) (c : CtxId) (groups : BitVec 6) (low : Option U16), WindowOpen s fn c →
    let x := s.ctx c
    let fix (g : Fin 6) := fixGroup (x.active.map (fun m => m.stations.length)) g.val x.shadow
    let charged (code : U16) : Prop := ∃ g : Fin 6, groups.getLsbD g.val = true ∧ code ∈ groupCodes s x g.val
    (∀ code, low = some code → charged code) → (∀ code, charged code → ∃ k, low = some k ∧ k ≤ code) →
    ∃ y, exec (.agCommit fn c groups) s = .next (s.setCtx c y) ∧ y.agPending = x.agPending ||| groups ∧
      { y with pend := x.pend, agPending := x.agPending, words := x.words, keepNext := x.keepNext, cnt := x.cnt } = x ∧
      (∀ g : Fin 6, groups.getLsbD g.val = false → copyGroup g.val x.pend y.pend = y.pend) ∧
      (∀ g : Fin 6, groups.getLsbD g.val = true → y.words.half g.val = false ∧
        copyGroup g.val (if (fix g).2.isSome = true ∧ (fix g).2 = low then (fix g).1 else x.shadow) y.pend = y.pend) ∧
      (low = none → y.cnt = x.cnt) ∧
      (∀ code, low = some code → y.cnt = { x.cnt with viol := satAdd x.cnt.viol 1, violLast := code })) ∧
  (∀ (s : State) (c : CtxId) (g : Fin 6), mayWork s = true → (s.ctx c).busy = false → (s.ctx c).agPending.getLsbD g.val = true →
    (s.ctx c).phase ≠ .preempted → (g.val < 4 → (s.ctx c).phase = .idle) →
    let x := s.ctx c
    ∃ t, exec (.agVisible c g) s = .next t ∧ copyGroup g.val x.pend (t.ctx c).visible = (t.ctx c).visible ∧
      (t.ctx c).agPending = x.agPending &&& ~~~BitVec.ofNat 6 (2 ^ g.val) ∧ (t.ctx c).pend = x.pend ∧ (t.ctx c).shadow = x.shadow ∧
      (∀ k : Fin 6, k ≠ g → copyGroup k.val x.visible (t.ctx c).visible = (t.ctx c).visible) ∧
      (∀ d, d ≠ c → t.ctx d = s.ctx d) ∧ t.mem = s.mem)

/-- A write of a live field takes effect; during a step a numeric one is logged, the ninth is violation 0x0214, a full log
pool is 0x0E03 and a replay refuses it with 0x0E02. (R64, R65, R313, R319) -/
def Obligations.LiveFieldWrites : Prop :=
  ∀ (s : State) (fn : FnId) (c : CtxId) (f : LiveField) (w : U32), WindowOpen s fn c →
    let x := s.ctx c
    let step := numericLive f && x.inProgress
    let readers := (x.active.map (fun m => liveReaders m f)).getD []
    let live := putLive f w x.live
    let entry : LiveEntry := ⟨liveId f, getLive f live, readers.map (fun i => (i, none))⟩
    (liveFix f w = (some w, none) → step = false →
      exec (.liveFieldWrite fn c f w) s = .next (s.setCtx c { x with live := live })) ∧
    (liveFix f w = (some w, none) → step = true → x.wit.replaying = false → x.liveCount < 8 → poolUsed x.wit + readers.length ≤ 96 →
      exec (.liveFieldWrite fn c f w) s = .next (s.setCtx c { x with
        live := live, liveCount := x.liveCount + 1, wit := { x.wit with log := x.wit.log ++ [entry] } })) ∧
    (liveFix f w = (some w, none) → step = true → x.wit.replaying = true → x.liveCount < 8 → poolUsed x.wit + readers.length ≤ 96 →
      exec (.liveFieldWrite fn c f w) s = .next (violate c 0x0E02 s)) ∧
    (liveFix f w = (some w, none) → step = true → x.wit.replaying = false → 8 ≤ x.liveCount →
      exec (.liveFieldWrite fn c f w) s = .next (violate c 0x0214 s)) ∧
    (liveFix f w = (some w, none) → step = true → x.wit.replaying = false → x.liveCount < 8 → 96 < poolUsed x.wit + readers.length →
      exec (.liveFieldWrite fn c f w) s = .next (s.setCtx c { x.violate 0x0E03 with liveCount := x.liveCount + 1 }))

/-- Enabling a barrier takes its fields and starts epoch 0; under group scope without a formed group it is 0x1008; a
change of an enabled barrier is 0x1007; disabling it discards its arrivals. (R350, R353, R355) -/
def Obligations.BarrierControl : Prop :=
  ∀ (s : State) (fn : FnId) (k : BarId) (scope : Bool) (owner : CtxId) (tag : U16), GlobalOpen s fn →
    let b := s.barrier k
    let groupOk := ∃ g, formedSlot (s.ctx owner) b.group = some g ∧ g.sizeM1.toNat < 512
    let fields : Barrier := { b with scope := scope, owner := owner, tag := tag }
    let write := exec (.barrierEnable fn k scope owner tag) s
    (b.enable = false → scope = false ∨ groupOk →
      write = .next (s.setBarrier k { fields with enable := true, epoch := 0, arrived := [], heldNext := [] })) ∧
    (b.enable = false → scope = true → ¬ groupOk → write = .next (violate owner 0x1008 (s.setBarrier k fields))) ∧
    (b.enable = true → b.scope = scope ∧ b.owner = owner ∧ b.tag = tag → write = .next s) ∧
    (b.enable = true → ¬ (b.scope = scope ∧ b.owner = owner ∧ b.tag = tag) → write = .next (violate b.owner 0x1007 s)) ∧
    exec (.barrierDisable fn k) s = .next (if b.enable = true
      then s.setBarrier k { b with enable := false, arrived := [], heldNext := [] } else s)

/-- A local arrival is recorded, held for the next epoch, or a violation 0x1004 or 0x1005; the last arrival signals the
notify semaphores and opens the next epoch; under group scope every arrival is told to the other members. (R351, R352,
R353) -/
def Obligations.BarrierArrivals : Prop :=
  ∀ (s : State) (fn : FnId) (c : CtxId) (k : BarId) (slot : BenchId) (epoch : U32) (notify : Option SemId),
    WindowOpen s fn c → (s.ctx c).assigned = true →
    let b := s.barrier k
    let may := b.enable = true ∧ b.owner = c ∧ b.takes slot.val = true ∧
      (b.scope = true → ∃ g, ownRank s b = some g ∧ g.rank.toNat = slot.val)
    let arrive := exec (.barArrive fn c k slot epoch notify) s
    let tell (t : State) : State :=
      match b.scope, ownRank s b with
      | true, some g => t.each ((List.range (g.sizeM1.toNat + 1)).filter (fun r => r != slot.val && b.takes r)) (fun r u =>
          sendSync c g r 0x11 ⟨false, g.rank.zeroExtend 16, 0, 0, g.id, 0, b.tag, 0, epoch⟩ u)
      | _, _ => t
    let here : Barrier := { b with arrived := b.arrived ++ [(slot.val, notify)] }
    (may → epoch = b.epoch → (∀ a ∈ b.arrived, a.1 ≠ slot.val) → here.full = false →
      arrive = .next (tell (s.setBarrier k here))) ∧
    (may → epoch = b.epoch → (∀ a ∈ b.arrived, a.1 ≠ slot.val) → here.full = true → b.heldNext = [] →
      arrive = .next (tell ((((s.setBarrier k here).each (here.arrived.filterMap (·.2)) (fun q t => signalSem b.owner q 1 t)).modBarrier k
        (fun x => { x with epoch := x.epoch + 1, arrived := x.heldNext, heldNext := [] })))) ) ∧
    (may → epoch = b.epoch + 1 → epoch ≠ b.epoch → (∀ a ∈ b.heldNext, a.1 ≠ slot.val) → b.full = false →
      arrive = .next (tell (s.setBarrier k { b with heldNext := b.heldNext ++ [(slot.val, notify)] }))) ∧
    (may → (epoch = b.epoch ∧ ∃ a ∈ b.arrived, a.1 = slot.val) ∨ (epoch ≠ b.epoch ∧ epoch ≠ b.epoch + 1) →
      arrive = .next (violate c 0x1005 s)) ∧
    (¬ may → arrive = .next (violate c 0x1004 s))

/-- A received signal is applied or held when it is release-ordered; a received arrival is recorded as a local one is; one
that reaches no semaphore or barrier is counted as a stray. Each settles its number in the sequence of its source, which may
let a write go that waited for it. With nothing held, a signal adds to its semaphore and its queue is served, a held one that no
lower number holds is applied, and an arrival is recorded, the last opening the next epoch. A number is held back exactly while
a lower one of its source is not dealt with; that the numbers of a source start from one known number is the model's choice (log
entry 69). (R342, R347, R348, R349, R351, R352, R353) -/
def Obligations.SyncPackets : Prop :=
  (∀ (s : State) (l : LinkId) (p : SyncPkt), mayWork s = true →
    let t := noteSeq p.groupId p.srcRank p.wseq s
    let stray : State := thenHeld { t with glb := { t.glb with barStray := satAdd t.glb.barStray 1 } }
    (∀ (q : SemId) (c : CtxId), p.sem.toNat = q.val → groupCtx s p.groupId p.dstRank.toNat = some c →
      exec (.syncSignal l p) s = .next (thenHeld (if p.rel = true
        then t.modCtx c (fun x => { x with signals := x.signals ++ [⟨p.srcRank, p.groupId, p.wseq, q, p.value⟩] })
        else signalSem c q p.value t))) ∧
    (1024 ≤ p.sem.toNat ∨ groupCtx s p.groupId p.dstRank.toNat = none → exec (.syncSignal l p) s = .next stray) ∧
    (1024 ≤ p.sem.toNat ∨ arriveAt s p = [] → exec (.arrive l p) s = .next stray) ∧
    (∀ k, p.sem.toNat < 1024 → arriveAt s p = [k] →
      let b := s.barrier k
      let here (b' : Barrier) : Prop := exec (.arrive l p) s = .next (thenHeld (completeBarrier k 2 (t.setBarrier k b')))
      (b.takes p.srcRank.toNat = true → p.epoch = b.epoch → (∀ a ∈ b.arrived, a.1 ≠ p.srcRank.toNat) →
        here { b with arrived := b.arrived ++ [(p.srcRank.toNat, none)] }) ∧
      (b.takes p.srcRank.toNat = true → p.epoch = b.epoch + 1 → p.epoch ≠ b.epoch → (∀ a ∈ b.heldNext, a.1 ≠ p.srcRank.toNat) →
        here { b with heldNext := b.heldNext ++ [(p.srcRank.toNat, none)] }) ∧
      (b.takes p.srcRank.toNat = false ∨ (p.epoch ≠ b.epoch ∧ p.epoch ≠ b.epoch + 1) ∨
          (p.epoch = b.epoch ∧ ∃ a ∈ b.arrived, a.1 = p.srcRank.toNat) →
        exec (.arrive l p) s = .next stray)) ∧
    (∀ (c : CtxId) (i : Nat) (h : HeldSignal), (s.ctx c).signals[i]? = some h →
      (signalWaits s h = true → exec (.heldSignalApply c i) s = .next s) ∧
      (signalWaits s h = false → exec (.heldSignalApply c i) s =
        .next (signalSem c h.sem h.value (s.modCtx c (fun x => { x with signals := x.signals.eraseIdx i })))))) ∧
  (∀ (s : State) (l : LinkId), mayWork s = true → NoneHeld s →
    thenHeld s = s ∧
    (∀ (p : SyncPkt) (q : SemId) (c : CtxId), p.sem.toNat = q.val → groupCtx s p.groupId p.dstRank.toNat = some c →
      let k := semOf s c q
      ∃ t, exec (.syncSignal l p) s = .next t ∧ t.mem = s.mem ∧ t.barriers = s.barriers ∧
        (p.rel = true → (t.ctx c).signals = (s.ctx c).signals ++ [⟨p.srcRank, p.groupId, p.wseq, q, p.value⟩] ∧ semOf t c q = k) ∧
        (p.rel = false → (t.ctx c).signals = (s.ctx c).signals) ∧
        (p.rel = false → (s.ctx c).parked = false → ServedInOrder t c q k.queue (min (k.count.toNat + p.value.toNat) 0xFFFF)) ∧
        (p.rel = false → (s.ctx c).parked = true → semOf t c q = { k with count := satAdd k.count p.value.toNat })) ∧
    (∀ (c : CtxId) (i : Nat) (h : HeldSignal), (s.ctx c).signals[i]? = some h → signalWaits s h = false →
      let k := semOf s c h.sem
      ∃ t, exec (.heldSignalApply c i) s = .next t ∧ t.mem = s.mem ∧ t.barriers = s.barriers ∧
        (t.ctx c).signals = (s.ctx c).signals.eraseIdx i ∧
        ((s.ctx c).parked = false → ServedInOrder t c h.sem k.queue (min (k.count.toNat + h.value.toNat) 0xFFFF)) ∧
        ((s.ctx c).parked = true → semOf t c h.sem = { k with count := satAdd k.count h.value.toNat })) ∧
    (∀ (p : SyncPkt) (k : BarId), p.sem.toNat < 1024 → arriveAt s p = [k] → (s.barrier k).takes p.srcRank.toNat = true →
      p.epoch = (s.barrier k).epoch → (∀ a ∈ (s.barrier k).arrived, a.1 ≠ p.srcRank.toNat) →
      let b := s.barrier k
      let here : Barrier := { b with arrived := b.arrived ++ [(p.srcRank.toNat, none)] }
      ∃ t, exec (.arrive l p) s = .next t ∧ t.mem = s.mem ∧ (∀ j, j ≠ k → t.barrier j = s.barrier j) ∧
        (here.full = false → t.barrier k = here ∧ t.ctxs = s.ctxs) ∧
        (here.full = true → b.heldNext = [] → t.barrier k = { b with epoch := b.epoch + 1, arrived := [], heldNext := [] }))) ∧
  (∀ (s : State) (uid : U64) (b : U32) (n : Nat) (dealt : List Nat), seqInOf s uid = (b, []) → n < 2 ^ 31 → (∀ k ∈ dealt, k < n) →
    (lowerOpen (dealt.foldl (fun u k => settleSeq uid (b + BitVec.ofNat 32 k) u) s) uid (b + BitVec.ofNat 32 n) = true ↔
      ∃ k, k < n ∧ k ∉ dealt))

/-- Retry or abort of an outstanding fault resumes its requesters or resets the context, is kept in PREEMPTED, and is
0x1106 for an unknown FAULT_ID; an invalidation drops the cached entries of its scope and is violation 0x1102 where it
meets a page in use by the context. (R363, R366) -/
def Obligations.Paging : Prop :=
  (∀ (s : State) (fn : FnId) (c : CtxId) (id : U16), WindowOpen s fn c →
    let x := s.ctx c
    (∀ f, x.mmu.faults.find? (fun k => k.id == id) = some f → x.mmu.waiting = [] →
      let ended : State := s.setCtx c { x with mmu := { x.mmu with faults := x.mmu.faults.filter (fun k => k.id != id) } }
      (x.phase ≠ .preempted ∨ x.restoring = true → exec (.faultRetry fn c id) s = .next (resumeStopped c ended) ∧
        ((∃ r ∈ f.reqs, r.kind ≠ 1) → (∀ r ∈ f.reqs, r.kind ≠ 1) →
          exec (.faultAbort fn c id) s = .next (requestCtxReset c 6 ended))) ∧
      (x.phase = .preempted → x.restoring = false →
        exec (.faultRetry fn c id) s = .next (s.setCtx c { x with mmu := { x.mmu with kept := x.mmu.kept ++ [(id, true)] } }) ∧
        exec (.faultAbort fn c id) s = .next (s.setCtx c { x with mmu := { x.mmu with kept := x.mmu.kept ++ [(id, false)] } }))) ∧
    ((∀ f ∈ x.mmu.faults, f.id ≠ id) →
      exec (.faultRetry fn c id) s = .next (violate c 0x1106 s) ∧ exec (.faultAbort fn c id) s = .next (violate c 0x1106 s))) ∧
  (∀ (s : State) (fn : FnId) (c : CtxId) (page : BitVec 48) (scope : BitVec 2), WindowOpen s fn c →
    let x := s.ctx c
    let hit (t : Tlb) : Bool :=
      if scope = 0 then t.page == page.toNat else if scope = 1 then t.page / 32 == page.toNat / 32
      else if scope = 2 then t.page / 16384 == page.toNat / 16384 else true
    let hostGone (a : AtsCompletion) : Bool := x.mmu.tlb.any (fun t => hit t && t.host && t.frame == a.hostPage.toNat)
    let after (y : Ctx) : Ctx := { y with mmu := { y.mmu with
      tlb := y.mmu.tlb.filter (fun t => !hit t)
      atc := y.mmu.atc.filter (fun a => scope != 3 && !hostGone a) } }
    (x.phase = .idle ∨ (∀ t ∈ x.mmu.collPages, hit t = false) → exec (.mmuInval fn c page scope) s = .next (s.setCtx c (after x))) ∧
    (x.phase ≠ .idle → (∃ t ∈ x.mmu.collPages, hit t = true) →
      exec (.mmuInval fn c page scope) s = .next (s.setCtx c (after (x.violate 0x1102)))))

/-- A translation completion fills the cache and resumes or turns into a page request; a PRI response retries or denies; a
response failure stops PRI for the function; an invalidation drops the page in every context of the function and nowhere
else; a page request waits while its function has 512 outstanding. The order of those that wait is the model's choice (log
entry 50). (R368, R369, R370) -/
def Obligations.HostPages : Prop :=
  (∀ (s : State) (c : CtxId),
    let x := s.ctx c
    let deny (ws : List HostWait) (t : State) : State := t.each ws (fun w u =>
      if w.req.kind ≠ 7 then pageFault c w.req cHostDeny w.va w.write u
      else if ((u.ctx c).group (Fin.ofNat 16 w.req.source)).state = .forming then refuseSlot c (Fin.ofNat 16 w.req.source) 9 0 u
      else u)
    (∀ a : AtsCompletion, mayWork s = true → (∃ w ∈ x.mmu.ats, w.hostPage = a.hostPage.toNat ∧ w.stage = .translation) →
      let mine (w : HostWait) : Bool := w.hostPage == a.hostPage.toNat && w.stage == .translation
      let ok (w : HostWait) : Bool := if w.write then a.canWrite else a.canRead
      let atc := a :: x.mmu.atc.filter (fun b => b.hostPage != a.hostPage)
      ((s.func (ctxFn s c)).priStopped = false → exec (.atsTranslationCompletion c a) s =
        .next (resumeStopped c (s.setCtx c { x with mmu := { x.mmu with
          atc := atc
          ats := x.mmu.ats.filterMap (fun w => if mine w then (if ok w then none else some { w with stage := priStage s c }) else some w) } }))) ∧
      ((s.func (ctxFn s c)).priStopped = true → exec (.atsTranslationCompletion c a) s =
        .next (resumeStopped c (deny (x.mmu.ats.filter (fun w => mine w && !ok w)) (s.setCtx c { x with mmu := { x.mmu with
          atc := atc, ats := x.mmu.ats.filter (fun w => !mine w) } }))))) ∧
    (∀ page : U64, (∃ w ∈ x.mmu.ats, w.hostPage = page.toNat ∧ w.stage = .asked) →
      exec (.priSuccess c page) s = .next (askQueued (s.setCtx c { x with mmu := { x.mmu with
        atc := x.mmu.atc.filter (fun a => a.hostPage != page)
        ats := x.mmu.ats.map (fun w => if w.hostPage == page.toNat then { w with stage := .translation } else w) } }))) ∧
    (∀ page : U64,
      let asks (w : HostWait) : Bool := w.hostPage == page.toNat && w.stage == .asked
      exec (.priInvalidRequest c page) s = .next (askQueued (deny (x.mmu.ats.filter asks) (s.setCtx c { x with mmu := { x.mmu with
        ats := x.mmu.ats.filter (fun w => !asks w) } }))))) ∧
  (∀ (s : State) (c : CtxId), priStage s c = (if priOut s (ctxFn s c) < 512 then .asked else .queued)) ∧
  (∀ (s : State) (fn : FnId) (page : U64), ∃ t, exec (.atsInvalidate fn page) s = .next t ∧
    (∀ c, t.ctx c = if ctxFn s c = fn then { s.ctx c with mmu := { (s.ctx c).mmu with
      atc := (s.ctx c).mmu.atc.filter (fun a => a.hostPage != page) } } else s.ctx c) ∧
    { t with ctxs := s.ctxs } = s) ∧
  (∀ (s : State) (fn : FnId) (pasid : BitVec 20), (∀ c, (s.ctx c).mmu.ats = []) →
    exec (.priResponseFailure fn pasid) s = .next (raise 0 0x1705 false (payload [(0, 1, 0xFF), (4, 4, pasid.toNat)])
      (s.modFunc fn (fun f => { f with priStopped := true }))))

/-- DMA_TAIL takes a tail within the ring; a descriptor is read, waits for the earlier ones and for its semaphore, is
checked, runs by its OP, and ends with its STATUS, SIGNAL and event, but for one whose release-ordered signal would be the
seventeenth not yet applied; a CHECKPOINT that is done turns the buddy slot. (R349, R372, R373, R374, R375, R385) -/
def Obligations.Descriptors : Prop :=
  (∀ (s : State) (fn : FnId) (c : CtxId) (index : U16), WindowOpen s fn c →
    let x := s.ctx c
    ((index - x.dma.head).toNat < 2 ^ x.dma.log2.toNat →
      exec (.dmaTail fn c index) s = .next (s.setCtx c { x with dma := { x.dma with tail := index } })) ∧
    (2 ^ x.dma.log2.toNat ≤ (index - x.dma.head).toNat → exec (.dmaTail fn c index) s = .next (violate c 0x1107 s))) ∧
  (∀ (s : State) (c : CtxId) (i : Nat) (d : DescState), ringRuns s c i = true → (s.ctx c).desc i = some d →
    d.ended = false → d.waiting = false → d.result = 0 →
    let x := s.ctx c
    let begun (d : DescState) : DescState :=
      if descOp d.bytes = 5 then { d with started := true, step := x.step, reading := true, header := slotHeader x 0 }
      else { d with started := true }
    let queued : State := waitSem c (Fin.ofNat 1024 (natAt d.bytes 2 2 % 1024)) (BitVec.ofNat 16 (natAt d.bytes 4 2)) (.desc i)
      (s.setCtx c (x.modDesc i (fun d => { d with waited := true, waiting := true })))
    ∀ p ∈ descCmds, descOp d.bytes = p.2.1 →
      (d.started = true → exec (p.1 c i) s = .next (p.2.2 c i d s)) ∧
      (d.started = false → descFlag d.bytes 0 = false ∨ (∀ k ∈ earlier x i, descEnded x k = true) →
        (descInvalid x d.bytes = true → exec (p.1 c i) s = .next (endDesc c i 3 (violate c 0x1105 s))) ∧
        (descInvalid x d.bytes = false → descFlag d.bytes 1 = false ∨ d.waited = true →
          exec (p.1 c i) s = .next (p.2.2 c i (begun d) (s.setCtx c (x.modDesc i begun)))) ∧
        (∀ e, descInvalid x d.bytes = false → descFlag d.bytes 1 = true → d.waited = false → (queued.ctx c).desc i = some e →
          e.waiting = true → exec (p.1 c i) s = .next queued)) ∧
      (d.started = false → descFlag d.bytes 0 = true → (∃ k ∈ earlier x i, descEnded x k = false) → exec (p.1 c i) s = .next s)) ∧
  (∀ (s t : State) (c : CtxId) (i : Nat), let x := s.ctx c
    (∀ b : List Byte, ringRuns s c i = true → x.desc i = none → (∀ k ∈ earlier x i, descStarted x k = true) →
      readMoved c (reqCopy i) [⟨x.dma.ringVa.toNat * 64 + 64 * i, 64⟩] s = (some b, t) →
      ∀ p ∈ descCmds, descOp b = p.2.1 → exec (p.1 c i) s = .next (goOn c i
        (t.modCtx c (fun y => { y with dma := { y.dma with descs := y.dma.descs ++ [{ index := i, bytes := b }] } })))) ∧
    (∀ (d : DescState) (r : Nat),
      let u := resumeCommit c (s.setCtx c (x.modDesc i (fun d =>
        { d with result := r, started := true, waiting := false, unacked := [], reading := false })))
      (u.ctx c).desc i = some d →
      (relFull u c d = true → endDesc c i r s = u) ∧
      (relFull u c d = false →
        putVa c (reqCopy i) false ((u.ctx c).dma.ringVa.toNat * 64 + 64 * i + 0x38) [BitVec.ofNat 8 d.result] u = (true, t) →
        let told := if d.result = 1 then descSignal c d.bytes t else t
        let turned := if d.result = 1 ∧ descOp d.bytes = 5 then told.modCtx c (fun z => { z with buddySlot := !z.buddySlot }) else told
        let seen := if descFlag d.bytes 4 then ctxEvent c 0x1702 false (payload [(0, 1, c.val), (1, 1, d.result), (2, 2, i)]) turned
          else turned
        endDesc c i r s = seen.modCtx c (fun z => advanceHead (ringSize z) (z.modDesc i (fun d => { d with ended := true }))))))

/-- A remote write to a formed group is stored and acknowledged, or waits: for the end of a reset, behind a write of its source
at a page fault, or with REL_HDR for lower numbers; a buddy write on a buddy link and inside the region is stored and
acknowledged, or waits for lower numbers; others are strays; an acknowledgement lets the descriptor that waits for it go on or
end. With nothing held, a remote write through a cached page and a buddy write within a stack leave their bytes in memory, send
the acknowledgement and settle their number (log entry 69). (R348, R349, R374, R376, R384, R385, R386) -/
def Obligations.RemoteWrites : Prop :=
  (∀ (s : State) (l : LinkId) (h : RemoteHdr) (bs : List Byte), mayWork s = true →
    let stray : State := { s with glb := { s.glb with dmaStray := satAdd s.glb.dmaStray 1 } }
    let peer := (s.link l).peerUid
    (groupCtx s h.groupId h.dstRank.toNat = none → exec (.remoteWrite l h bs) s = .next stray) ∧
    (∀ c, groupCtx s h.groupId h.dstRank.toNat = some c →
      let wait (t : State) : State := t.modCtx c (fun x => { x with heldRemote := x.heldRemote ++ [.remoteWrite l h bs] })
      let later := (h.relHdr = true ∧ lowerOpen s (writerOf (s.ctx c) h) h.wseq = true) ∨ sourceHeld s (s.ctx c) h = true
      ((s.ctx c).busy = true → exec (.remoteWrite l h bs) s = .next (wait s)) ∧
      ((s.ctx c).busy = false → later → exec (.remoteWrite l h bs) s = .next (thenHeld (wait s))) ∧
      ((s.ctx c).busy = false → ¬ later → ∀ t,
        (putVa c (reqRemote h.srcRank.toNat) false h.dstAddr.toNat bs s = (false, t) →
          exec (.remoteWrite l h bs) s = .next (thenHeld (wait t))) ∧
        (∀ g uid, putVa c (reqRemote h.srcRank.toNat) false h.dstAddr.toNat bs s = (true, t) → formedSlot (t.ctx c) h.groupId = some g →
          g.members[h.srcRank.toNat]? = some uid →
          exec (.remoteWrite l h bs) s = .next (thenHeld (sendAck uid h (settleSeq uid h.wseq t)))))) ∧
    (s.glb.buddyLinks.getLsbD l.val = false ∨ buddyTotal s < h.dstAddr.toNat + bs.length → exec (.buddyWrite l h bs) s = .next stray) ∧
    (s.glb.buddyLinks.getLsbD l.val = true → h.dstAddr.toNat + bs.length ≤ buddyTotal s →
      exec (.buddyWrite l h bs) s = .next (thenHeld (if h.relHdr = true ∧ lowerOpen s peer h.wseq = true
        then { s with heldBuddy := s.heldBuddy ++ [(l, h, bs)] }
        else sendAck peer h (settleSeq peer h.wseq (putBuddy 9 h.dstAddr.toNat bs s))))) ∧
    (∀ (uid : U64) (c : CtxId) (wseq : U32) (d : DescState), (s.ctx c).dma.descs.find? (fun d => d.unacked.contains (uid, wseq)) = some d →
      let t := s.setCtx c ((s.ctx c).modDesc d.index (fun d => { d with unacked := dropOne (uid, wseq) d.unacked }))
      exec (.remoteAck l uid c wseq) s = .next (if ringRuns t c d.index then goOn c d.index t else t))) ∧
  (∀ (s : State) (l : LinkId), mayWork s = true → NoneHeld s →
    (∀ (h : RemoteHdr) (bs : List Byte) (c : CtxId) (g : GroupSlot) (uid : U64) (e : Tlb), groupCtx s h.groupId h.dstRank.toNat = some c →
      let x := s.ctx c
      let va := h.dstAddr.toNat
      x.busy = false → formedSlot x h.groupId = some g → g.members[h.srcRank.toNat]? = some uid → relWaits s uid h = false →
      stopped x (reqRemote h.srcRank.toNat) = false → bs ≠ [] → va < 2 ^ 48 → va % 65536 + bs.length ≤ 65536 →
      (x.mmu.collPages ++ x.mmu.tlb).find? (fun e => e.page == va / 65536) = some e → e.host = false → e.writable = true →
      ∃ u, exec (.remoteWrite l h bs) s = .next (sendAck uid h (settleSeq uid h.wseq u)) ∧
        u.mem = memWrite s.mem (e.frame * 65536 + va % 65536) bs ∧ (∀ d, d ≠ c → u.ctx d = s.ctx d)) ∧
    (∀ (h : RemoteHdr) (bs : List Byte), s.glb.buddyLinks.getLsbD l.val = true → h.dstAddr.toNat + bs.length ≤ buddyTotal s →
      relWaits s (s.link l).peerUid h = false → bs ≠ [] → h.dstAddr.toNat % buddyBytes s + bs.length ≤ buddyBytes s →
      ∃ u, exec (.buddyWrite l h bs) s = .next (sendAck (s.link l).peerUid h (settleSeq (s.link l).peerUid h.wseq u)) ∧
        u.mem = memWrite s.mem (buddyAddr s h.dstAddr.toNat) bs ∧ u.ctxs = s.ctxs) ∧
    (∀ (uid : U64) (c : CtxId) (wseq : U32) (d : DescState), (s.ctx c).dma.descs.find? (fun d => d.unacked.contains (uid, wseq)) = some d →
      let left := dropOne (uid, wseq) d.unacked
      let t := s.setCtx c ((s.ctx c).modDesc d.index (fun d => { d with unacked := dropOne (uid, wseq) d.unacked }))
      (ringRuns s c d.index = false → exec (.remoteAck l uid c wseq) s = .next t) ∧
      (∀ g, ringRuns s c d.index = true → (s.ctx c).desc d.index = some d → d.ended = false → d.waiting = false → d.result = 0 →
        d.started = true → descOp d.bytes = 3 → formedSlot (s.ctx c) (descGroup d.bytes) = some g →
        ceilDiv (descLen d.bytes) packetData ≤ d.granule →
        exec (.remoteAck l uid c wseq) s = .next (if left = [] then endDesc c d.index 1 t else t))))

/-- SAVE sends PAUSE to the partners; the pre-emption writes the save area and leaves PREEMPTED with event 0x1703; RESTORE
takes the context back where the header agrees and is 0x1103 where it does not; each is 0x1104 in the wrong phase. The
layout of the area, the places of the header's fields and the phase saved when SAVE comes in COMMITTING are the model's (log
entries 19, 72 and 75). (R32, R377, R379, R380, R381, R383) -/
def Obligations.Preemption : Prop :=
  ∀ (s t : State) (fn : FnId) (c : CtxId), let x := s.ctx c
    (WindowOpen s fn c → mayWork s = true → x.phase ≠ .preempted → x.saving = false →
      exec (.save fn c) s = .next ((s.setCtx c { x with saving := true, pausing := pauseList x }).each (pauseList x)
        (fun p u => sendColl c p.2 tPAUSE (groupHdr x p.1) [] u))) ∧
    (mayWork s = true → x.busy = false → inPartReset s x = false → x.saving = true → x.phase ≠ .committing → writeSave c s = (true, t) →
      exec (.preemptComplete c) s = .next (ctxEvent c 0x1703 false (payload [(0, 1, c.val), (1, 1, phaseCode x.phase), (8, 8, x.step.toNat)])
        (askQueued (t.modCtx c (fun y => { y with
          phase := .preempted, saved := y.phase, savedClosing := y.closing, saving := false
          mmu := { y.mmu with tlb := [], atc := [], ats := [] } }))))) ∧
    (∀ body : List Byte, (saveHead c x body).length = 64 ∧ (saveHead c x body).take 8 = [0x53, 0x41, 0x56, 0x45,
      BitVec.ofNat 8 c.val, BitVec.ofNat 8 x.qmask.toNat, 0, 0]) ∧
    (∀ (b : List Byte) (bad : Bool), WindowOpen s fn c → mayWork s = true → x.phase = .preempted → x.restoring = false → inPartReset s x = false →
      fetchVa c reqPreempt true ⟨x.saveVa.toNat * 64, 64 + x.saveLen⟩ s = (some (b, bad), t) →
      (bad = false → b.take 64 = x.saveHeader → saveHead c x (b.drop 64) = x.saveHeader →
        exec (.restore fn c) s = .next (placeRestored c t)) ∧
      (bad = true ∨ b.take 64 ≠ x.saveHeader ∨ saveHead c x (b.drop 64) ≠ x.saveHeader →
        exec (.restore fn c) s = .next ((violate c 0x1103 t).modCtx c (fun y => { y with restoring := false })))) ∧
    (WindowOpen s fn c → (x.phase = .preempted → exec (.save fn c) s = .next (violate c 0x1104 s)) ∧
      (x.phase ≠ .preempted → exec (.restore fn c) s = .next (violate c 0x1104 s)))

/-- What a context, engine, partition and chip reset request does, and what each completed reset leaves: among other
things a context reset clears ENABLE of every barrier that the context owns and leaves memory unchanged, and a chip reset
returns contexts, links, barriers and rings to their reset state and keeps the fuses, PWR_TIME and the retirement bits.
(R33, R354, R388, R390, R391, R392, R393, R397, R399, R401, R404) -/
def Obligations.Resets : Prop :=
  (∀ (s : State) (fn : FnId),
    let inReset (c : CtxId) (t : State) : State := if (t.ctx c).busy then t else t.modCtx c (fun x => { x with busy := true, lastCause := 1 })
    (∀ c, hostUp s = true → fnReaches s fn c = true → exec (.ctxReset fn c) s = .next (inReset c s)) ∧
    (RequestOpen s fn →
      (∀ (c : CtxId) (index : U16), index.toNat = c.val → exec (.rstContext fn index) s = .next (inReset c s)) ∧
      (∀ index : U16, 32 ≤ index.toNat → exec (.rstContext fn index) s = .next s) ∧
      (∀ (kind : BitVec 2) (index : U16) (u : UnitRef), unitOf kind.toNat index.toNat = some u →
        exec (.rstEngine fn kind index) s = .next (
          let hit := allCtx.filter (fun c => usesUnit s (s.ctx c) u)
          if unitInReset s u ∨ (∃ p ∈ s.glb.engBusy, p.1 = u) then s
          else (updatePlls ({ s with glb := { setFenced u true s.glb with engBusy := s.glb.engBusy ++ [(u, 1, hit.map (ctxFn s))] } }.modPwr
            (wakeUnit u))).each hit (fun c t => requestCtxReset c 7 t))) ∧
      (∀ (kind : BitVec 2) (index : U16), kind = 3 ∨ (kind = 0 ∧ 512 ≤ index.toNat) ∨ (kind ≠ 0 ∧ 16 ≤ index.toNat) →
        exec (.rstEngine fn kind index) s = .next s) ∧
      (∀ (index : U16) (q : BitVec 4), index.toNat < 4 → partitionOf s index.toNat = some q → s.glb.partBusy &&& q = 0 →
        exec (.rstPartition fn index) s = .next ((updatePlls { s with glb := { s.glb with
          partBusy := s.glb.partBusy ||| q, partRst := s.glb.partRst ++ [(q, 1, (ctxsOf s q).map (ctxFn s))] } }).each (ctxsOf s q) inReset)) ∧
      (∀ index : U16, 4 ≤ index.toNat ∨ partitionOf s index.toNat = none → exec (.rstPartition fn index) s = .next s) ∧
      exec (.rstChip fn) s = .next (updatePlls { s with glb := { s.glb with chipBusy := true, chipCause := 1 } }) ∧
      ((s.func 0).en = false → exec (.powerCycleRequest fn) s =
        .next (raiseAlert alertRecovery { s with mgt := { s.mgt with recReq := true, recReason := 1 } })))) ∧
  (∀ s : State, s.pwr.mainOn = true → 6 ≤ s.pwr.bootEvent →
    (∀ c, let x := s.ctx c
      x.busy = true → inPartReset s x = false → s.glb.chipBusy = false → x.heldRemote = [] → x.phase ≠ .closing → x.phase ≠ .held → x.phase ≠ .preempted →
      ∃ (t : State) (b : Option BenchId), exec (.resetComplete (.context c)) s = .next (resumeStopped c (t.each allFns (fun f u => replayWrites f u))) ∧
        t.ctx c = { x.dropStep.afterReset with busy := false, resets := satAdd x.resets 1, semBench := b } ∧
        (∀ k, t.barrier k = if (s.barrier k).owner = c then { s.barrier k with enable := false, arrived := [], heldNext := [] } else s.barrier k) ∧
        t.mem = s.mem) ∧
    (∀ u p, s.glb.engBusy.find? (fun e => e.1 == u) = some p → unitInReset s u = false → unitHeld s u = false →
      exec (.resetComplete (.engine u)) s = .next (finishEngine p s)) ∧
    (∀ (q : QuarterId) p, s.glb.partRst.find? (fun e => e.1.getLsbD q.val) = some p → s.glb.chipBusy = false →
      exec (.resetComplete (.partition q)) s = .next (finishPartition p endCtxReset s)) ∧
    (s.glb.chipBusy = true → ∃ t, exec (.resetComplete .chip) s = .next t ∧
      t.ctxs = Vector.replicate 32 {} ∧ t.links = Vector.replicate 16 {} ∧ t.barriers = Vector.replicate 64 {} ∧ t.funcs = Vector.replicate 16 {} ∧
      t.mgt = s.mgt ∧ t.pwr.time = s.pwr.time ∧ t.pwr.offCause = s.pwr.offCause ∧ t.sec.svn = s.sec.svn ∧
      t.glb.benchRetire = s.glb.benchRetire ∧ t.glb.linkRetire = s.glb.linkRetire ∧ t.glb.benchFenced = s.glb.benchRetire ∧
      t.glb.engineFenced = s.glb.engineFenced &&& s.glb.linkRetire.zeroExtend 32 ∧
      t.glb.chipBusy = false ∧ t.glb.chipDone = true ∧ t.glb.lastDomain = 4 ∧ t.glb.lastCause = BitVec.ofNat 4 s.glb.chipCause ∧
      t.glb.buddyGibInForce = s.glb.buddyGib ∧
      (s.glb.buddyGib ≠ s.glb.buddyGibInForce → t.mem = [] ∧ t.poison = [])))

/-- A drain that times out, a reset that exceeds its bound and its escalation to the next larger domain, the expiry of a
context watchdog and of a unit watchdog. (R391, R394, R395, R396, R398, R403) -/
def Obligations.TimeoutsAndWatchdogs : Prop :=
  ∀ s : State,
    (∀ t : ResetTarget, ∃ u, exec (.fenceDrainTimeout t) s = .next (askQueued u) ∧ (∀ c, u.ctx c =
      if c ∈ ctxsUnder s t then { s.ctx c with mmu := { (s.ctx c).mmu with ats := [] } } else s.ctx c) ∧ { u with ctxs := s.ctxs } = s) ∧
    (s.pwr.mainOn = true → 6 ≤ s.pwr.bootEvent →
      (∀ c, (s.ctx c).busy = true → exec (.resetTimeout (.context c)) s = .next (s.each (unitsHeldBy s c) (fun u t =>
        requestEngineReset u 4 (escalationEvent (some c) 2 (unitKind u) (unitIndex u) t)))) ∧
      (∀ u q, (∃ p ∈ s.glb.engBusy, p.1 = u) → partitionOf s (unitQuarter u) = some q →
        exec (.resetTimeout (.engine u)) s = .next (requestPartReset q 4 (escalationEvent none 3 0 (lowestQuarter q) s))) ∧
      (∀ u, (∃ p ∈ s.glb.engBusy, p.1 = u) → partitionOf s (unitQuarter u) = none →
        exec (.resetTimeout (.engine u)) s = .next (escalateChip s)) ∧
      (∀ q, s.glb.partBusy.getLsbD q.val = true → exec (.resetTimeout (.partition q)) s = .next (escalateChip s)) ∧
      (s.glb.chipBusy = true → exec (.resetTimeout .chip) s = .next (
        let t := escalationEvent none 5 0 0 s
        if t.glb.autoPower then requestPowerCycle 4 t else t)) ∧
      (s.glb.chipBusy = false → escalateChip s = (
        let t := escalationEvent none 4 0 0 s
        if t.glb.autoChip then updatePlls { t with glb := { t.glb with chipBusy := true, chipCause := 4 } } else t))) ∧
    (∀ (c : CtxId) (cls : Fin 4) (subj : WdtSubject),
      let x := s.ctx c
      let cfg := x.wdt[cls]
      let seen := ctxEvent c 0x1801 true
        (payload [(0, 1, c.val), (3, 1, cls.val), (8, 8, x.step.toNat), (0x10, 4, subjectCode subj), (0x14, 4, cfg.limit.toNat),
          (0x18, 8, s.pwr.time.toNat)]) (s.setCtx c { x with wdtExpired := x.wdtExpired ||| BitVec.ofNat 4 (2 ^ cls.val) })
      (mayWork s = true → x.busy = false ∨ x.lastCause = 2 → x.restoring = false → inPartReset s x = false →
        x.phase = .running ∨ x.phase = .closing ∨ x.phase = .committing → cfg.limit ≠ 0 → wdtArmed s c cls.val subj = true →
        exec (.watchdogExpire c cls subj) s = .next (if cfg.action = 1 then requestCtxReset c 2 seen else seen)) ∧
      (cfg.limit = 0 ∨ x.phase = .idle ∨ x.phase = .held ∨ x.phase = .preempted → exec (.watchdogExpire c cls subj) s = .next s)) ∧
    (∀ u, mayWork s = true → exec (.unitWatchdog u) s = .next (requestEngineReset u 2 (raise 0 0x1801 true
      (payload [(0, 1, 0xFF), (2, 1, unitKind u), (3, 1, 4), (4, 2, unitIndex u), (0x14, 4, 100), (0x18, 8, s.pwr.time.toNat)])
      { s with glb := setFenced u true s.glb })))

/-- A Function Level Reset resets the contexts of the function and its block, one of PF0 all contexts; a change of VF
Enable drops the functions that cease; GLB_CTX_ASSIGN takes effect on an idle, empty context with a legal partition and is
0x1301 or 0x1302 otherwise. The semaphores of a context lie on a bench of its partition: placing them keeps the bench they have
where it is one in use, takes one that is not fenced where there is one, and wakes it; the context uses the bench. The cause that
a fundamental reset leaves is a free value, QMASK is checked whatever VALID says (log entry 40), and which bench it is, is the
model's choice (log entry 33). (R341, R397, R400, R406, R408, R409, R410, R449) -/
def Obligations.Functions : Prop :=
  (∀ s : State, hostUp s = true →
    (∀ fn : FnId, fn ≠ 0 → fnExists s fn = true → exec (.flr fn) s =
      .next ((s.each (allCtx.filter (fun c => (s.ctx c).assigned && (s.ctx c).func == fn)) (fun c t => requestCtxReset c 3 t)).setFunc fn {})) ∧
    exec (.flr 0) s = .next (dropVfs (
      let t := (s.each (allCtx.filter (fun c => (s.ctx c).assigned)) (fun c t => requestCtxReset c 3 t)).setFunc 0 {}
      { t with glb := { t.glb with vfEnable := false, numVfs := 0 } })) ∧
    (∀ fn : FnId, fnExists s fn = false → exec (.flr fn) s = .next s) ∧
    (∀ (enable : Bool) (n : Fin 16), exec (.vfEnableWrite enable n) s =
      .next (dropVfs { s with glb := { s.glb with vfEnable := enable, numVfs := n } })) ∧
    (∃ t, exec .fundamentalReset s = .next t ∧ t.glb.chipBusy = true ∧ t.glb.chipCause = Config.freeNat s.draws ∧ t.glb.vfEnable = false ∧
      t.glb.numVfs = 0 ∧ t.pwr.perst = true ∧ t.pwr.pcieUp = false ∧ t.ctxs = s.ctxs ∧ t.mem = s.mem) ∧
    (∀ f : FnId, (dropVfs s).func f = if f ≠ 0 ∧ fnExists s f = false then {} else s.func f)) ∧
  (∀ (s : State) (fn : FnId) (c : CtxId) (valid : Bool) (func : FnId) (q : BitVec 4), GlobalOpen s fn →
    let x := s.ctx c
    let write := exec (.glbCtxAssign fn c valid func q) s
    let ready := x.phase = .idle ∧ x.active = none ∧ (x.staged = .empty ∨ x.staged = .invalid)
    let fits := q ∈ [0x1, 0x2, 0x4, 0x8, 0x3, 0xC, 0xF] ∧
      ∀ d, d ≠ c → (s.ctx d).assigned = true → (s.ctx d).qmask = q ∨ (s.ctx d).qmask &&& q = 0
    (ready → fits → write = .next (updatePlls ((placeSems c (s.setCtx c
      ({ x.dropForms with assigned := valid, func := func, qmask := q, groups := x.groups.map GroupSlot.dissolved } : Ctx).setNeed)).modCtx c
      (fun z => if z.busy then z else { z with busy := true, lastCause := 1 })))) ∧
    (¬ ready → write = .next (violate c 0x1301 s)) ∧
    (ready → ¬ fits → write = .next (violate c 0x1302 s))) ∧
  (∀ (s : State) (c : CtxId),
    let x := s.ctx c
    let t := placeSems c s
    let usable (b : BenchId) : Prop := x.quarters.getLsbD (b.val / 128) = true ∧ benchBit s.glb.benchFenced b.val = false
    (∀ b, x.semBench = some b → usable b → (t.ctx c).semBench = some b) ∧
    (∀ b, (t.ctx c).semBench = some b → usable b ∧ benchBit t.pwr.benchGated b.val = false) ∧
    ((t.ctx c).semBench = none ↔ ∀ b, ¬ usable b) ∧
    { t with ctxs := s.ctxs, pwr := s.pwr } = s ∧ { t.ctx c with semBench := x.semBench } = x ∧ (∀ d, d ≠ c → t.ctx d = s.ctx d) ∧
    (∀ b, x.semBench = some b → usesUnit s x (.bench b) = true ∧ benchEmpty s b = false))

/-- An intact flit in order is taken, one out of order asks for a resend, a damaged one is counted; a slot sends a resent
flit, a VC0 flit, an idle flit in a reserved slot, a flit of another VC, or an idle flit, and a new flit takes a sequence
number, a replay slot and a credit. A whole packet for another module goes on towards it; where its layout keeps the address is
open. A term that is no 280 byte flit is refused. The receiver of a lane gets back the bits that were scrambled where its register
is that of the sender, which 58 bits make it whatever it was; byte b of a slot is byte b / 8 of lane b mod 8, and the eight
lanes carry the 280 bytes of a slot and nothing else. The order of the bits of a byte is the model's choice (log entry 70).
(R252, R253, R254, R256, R259, R424) -/
def Obligations.Flits : Prop :=
  (∀ (s : State) (l : LinkId) (bs : List Byte), linksRun s = true → (s.link l).state = .up →
    let k := s.link l
    let seq : U16 := BitVec.ofNat 16 (natAt bs 2 2)
    let put (f : Link) : State := s.setLink l f
    (bs.length = 280 →
      (flitIntact bs = true → natAt bs 0 1 = 0x5A → seq = k.rxSeq + 1 → exec (.dataFlit l bs) s =
        .next (refuseLost (passOn l k.delivered.length (put ((k.control bs).take bs))))) ∧
      (flitIntact bs = true → natAt bs 0 1 = 0x5A → seq ≠ k.rxSeq + 1 → exec (.dataFlit l bs) s =
        .next (refuseLost (put { k.control bs with rxNak := true }))) ∧
      (flitIntact bs = false ∨ natAt bs 0 1 ≠ 0x5A →
        exec (.dataFlit l bs) s = .next (refuseLost (put { k with crcCount := satAdd k.crcCount 1, rxNak := true }))) ∧
      (flitIntact bs = true → natAt bs 0 1 = 0xA5 → exec (.idleFlit l bs) s =
        .next (refuseLost (put (if seq = k.rxSeq + 1 then k.control bs else { k.control bs with rxNak := true })))) ∧
      (flitIntact bs = false ∨ natAt bs 0 1 ≠ 0xA5 → exec (.idleFlit l bs) s =
        .next (refuseLost (put { k with crcCount := satAdd k.crcCount 1 })))) ∧
    (∀ (n : Nat) (p : Fin 4 × List Byte), k.delivered.drop n = [p] → passOn l n s =
      if Config.packetDst p.2 = s.glb.uid then s else sendPacket (Config.packetDst p.2) p.1 p.2 (put { k with delivered := k.delivered.take n })) ∧
    (bs.length ≠ 280 → exec (.dataFlit l bs) s = .refused (.illFormed "DATA_FLIT") ∧ exec (.idleFlit l bs) s = .refused (.illFormed "IDLE_FLIT")) ∧
    (∀ vc : Fin 4,
      (k.replayPos = none →
        (1024 ≤ k.replay.length → exec (.flitSlot l vc) s = .next (put (k.emit k.txSeq none))) ∧
        (k.replay.length < 1024 → k.ready 0 = true → exec (.flitSlot l vc) s = .next (put (k.sendNew 0))) ∧
        (k.replay.length < 1024 → k.ready 0 = false → reservedSlot k.slot = true → exec (.flitSlot l vc) s = .next (put (k.emit k.txSeq none))) ∧
        (k.replay.length < 1024 → k.ready 0 = false → reservedSlot k.slot = false →
          (vc ≠ 0 → k.ready vc = true → exec (.flitSlot l vc) s = .next (put (k.sendNew vc))) ∧
          (k.ready 1 = false → k.ready 2 = false → k.ready 3 = false → exec (.flitSlot l vc) s = .next (put (k.emit k.txSeq none))))) ∧
      (∀ p f, k.replayPos = some p → k.replay[p]? = some f → reservedSlot k.slot = false ∨ f.2.vc = 0 →
        (∀ w n, Upset.sram (.replayBuffer l) w n ∉ s.upsets) → exec (.flitSlot l vc) s =
        .next (put { k.emit f.1 (some f.2) with replayPos := if p + 1 < k.replay.length then some (p + 1) else none })) ∧
      (∀ f fs, k.queue vc = f :: fs → k.sendNew vc = { k.emit k.txSeq (some f) with
        txSeq := k.txSeq + 1, replay := k.replay ++ [(k.txSeq, f)], txq := k.txq.set vc.val fs
        credits := k.credits.set vc.val (k.credits.getD vc.val 0 - 1), lastVc := if vc.val = 0 then k.lastVc else vc.val
        vc0Out := if vc.val = 0 then k.vc0Out ++ [if f.eop then relTarget f.dst f.packet else none] else k.vc0Out }) ∧
      (∀ (seq : U16) (f : Option TxFlit),
        let t := k.emit seq f
        t.sent = flitBytes k seq f ∧ t.crTurn = (k.crTurn + 1) % 6 ∧ t.slot = (k.slot + 1) % 128 ∧
        { t with sent := k.sent, wire := k.wire, scram := k.scram, crTurn := k.crTurn, slot := k.slot } = k))) ∧
  (∀ (bs : List Bool) (r : BitVec 58), descramble (scramble bs r).1 r = (bs, (scramble bs r).2)) ∧
  (∀ (bs : List Bool) (r r' : BitVec 58), bs.length = 58 → (descramble (scramble bs r).1 r').2 = (scramble bs r).2) ∧
  (∀ (b : Bool) (r : BitVec 58), scramble [b] r =
    ([xor b (xor (r.getLsbD 57) (r.getLsbD 38))], r <<< 1 ||| (if xor b (xor (r.getLsbD 57) (r.getLsbD 38)) then 1 else 0))) ∧
  (∀ slot : List Byte, slot.length = 280 → ∀ b : Nat, b < 280 → (laneBytes slot (b % 8))[b / 8]? = slot[b]?) ∧
  (∀ (k : Link) (seq : U16) (f : Option TxFlit) (n : Nat), n < 8 →
    let slot := flitBytes k seq f
    let lane := scramble (wireBits (laneBytes slot n)) (k.scram.getD n 0)
    (k.emit seq f).scram[n]? = some lane.2 ∧
    ∃ w, (k.emit seq f).wire[n]? = some w ∧ w.length = 35 ∧ wireBits w = lane.1)

/-- When a link trains, comes UP, fails and stops; what an IDENT and a distance packet add to the routes and what an
advertisement sends. A link returned from retirement stays DOWN until RETRAIN. What a change of the routes means for the groups
is GroupForming's matter. (R257, R336, R423, R424, R469) -/
def Obligations.LinksAndRoutes : Prop :=
  (∀ (s : State) (fn : FnId) (l : LinkId), linksRun s = true →
    let k := s.link l
    let train := s.setLink l { k with state := .training, nakRepeat := 0 }
    (k.state = .up → exec (.linkNoFlitTimeout l) s = .next (refuseLost train)) ∧
    (GlobalOpen s fn →
      (s.glb.linkRetire.getLsbD l.val = false →
        (k.disable = false → k.state ≠ .down ∨ k.farEnd = true → exec (.lnkRetrain fn l) s =
          .next (refuseLost (s.setLink l { k with stayDown := false, state := .training, nakRepeat := 0 }))) ∧
        (k.disable = true ∨ (k.state = .down ∧ k.farEnd = false) → exec (.lnkRetrain fn l) s =
          .next (refuseLost (s.setLink l { k with stayDown := false })))) ∧
      (s.glb.linkRetire.getLsbD l.val = true → exec (.lnkRetrain fn l) s = .next s) ∧
      ∃ t, exec (.lnkDisable fn l) s = .next t ∧ (∀ r ∈ t.routes, r.2.2 ≠ l) ∧
        (k.unsent = [] → t.link l = { k.halt .down with disable := true })) ∧
    (k.state = .down → exec (.farEndDetect l) s = .next (s.setLink l { k with
      farEnd := true, state := if k.disable ∨ s.glb.linkRetire.getLsbD l.val ∨ k.stayDown then .down else .training })) ∧
    (k.state = .training → exec (.trainingComplete l) s = .next (retryWaiting (linkPacket l [1, s.glb.uid.toNat, s.glb.slot.toNat, l.val]
      (s.setLink l { k with state := .up, trainFails := 0, nakRepeat := 0, replayPos := if k.replay = [] then none else some 0 })))) ∧
    (k.state = .training → k.trainFails.toNat < 2 → exec (.trainingFailed l) s = .next (s.setLink l { k with trainFails := k.trainFails + 1 })) ∧
    (k.state = .training → 2 ≤ k.trainFails.toNat → exec (.trainingFailed l) s = .next (if k.trainFails = 2
      then refuseLost (raise 0 0x1506 true (payload [(0, 1, 0xFF), (1, 1, 1), (2, 2, l.val), (0x20, 4, 3)])
        (stopLink l .failed (s.setLink l { k with trainFails := 3 })))
      else s.setLink l { k with trainFails := satAdd k.trainFails 1 }))) ∧
  (∀ (s : State) (l : LinkId), linksRun s = true →
    let k := s.link l
    (∀ (uid : U64) (slot : BitVec 3) (peerLink : BitVec 4), k.state = .up → exec (.ident l uid slot peerLink) s =
      .next (retryWaiting (putRoute uid 1 l (s.setLink l { k with peerUid := uid, peerSlot := slot, peerLink := peerLink })))) ∧
    (exec .distanceAdvert s = .next (s.each (allLinks.filter (fun j => (s.link j).state == .up)) (fun j t =>
      linkPacket j (2 :: (distances s).flatMap (fun p => [p.1.toNat, p.2])) t))) ∧
    (∀ entries : List (U64 × Nat), k.state = .up → exec (.distancePacket l entries) s =
      .next (refuseLost (retryWaiting (({ s with routes := s.routes.filter (fun r => r.2.2 != l || r.1 == k.peerUid) }).each entries
        (fun e t => if e.1 = k.peerUid then t else putRoute e.1 (e.2 + 1) l t))))) ∧
    (∀ (uid : U64) (d : Nat), (uid = s.glb.uid ∨ 16 < d → putRoute uid d l s = s) ∧
      (uid ≠ s.glb.uid → d ≤ 16 → uid ∈ knownUids s ∨ (knownUids s).length < 4096 → ∀ r, r ∈ (putRoute uid d l s).routes ↔
        r = (uid, d, l) ∨ (r ∈ s.routes ∧ ¬ (r.1 = uid ∧ r.2.2 = l)))))

/-- FORM reads the member table and sends tokens, or is 0x1303; DISSOLVE empties the slot, or is 0x1304; a token agrees,
refuses the slot with its reason, is answered, or is counted as a stray; the slot is formed when every member has agreed. A slot
that is forming is refused with reason 8 once a member has no route; HMAX follows the routes of a formed slot. That a lost route
is noticed at the link events and at TOKEN_REPEAT is the model's choice (log entry 38). (R401, R424, R425, R426, R427,
R428, R429) -/
def Obligations.GroupForming : Prop :=
  (∀ (s : State) (fn : FnId) (c : CtxId) (g : SlotId),
    let x := s.ctx c
    let k := x.group g
    let forming : GroupSlot := { k with state := .forming, reason := 0, who := 0, members := [], memberDigest := 0, agreed := [] }
    let mayForm := x.phase = .idle ∧ x.active.isSome = true ∧ x.assigned = true ∧ k.held = false ∧ rankTaken s k.id k.rank = false
    let span : Span := ⟨k.membersVa.toNat * 8, 8 * k.size⟩
    (WindowOpen s fn c →
      (mayWork s = false → exec (.form fn c g) s = .next s) ∧
      (mayWork s = true → mayForm → (∀ w ∈ x.mmu.ats, w.req ≠ reqForm g) → ∀ tab t,
        tablePages c g (spanPages [span]) [] (s.setCtx c (x.modGroup g (fun _ => forming))) = (.ready tab, t) →
        spanBad tab t span = false → exec (.form fn c g) s = .next (
          let bs := readSpan tab t span
          takeMembers c g ((List.range k.size).map (fun r => BitVec.ofNat 64 (natAt bs (8 * r) 8))) (crc64 bs) (chargeRead c tab [span] t))) ∧
      (mayWork s = true → mayForm → (∀ w ∈ x.mmu.ats, w.req ≠ reqForm g) → ∀ t,
        tablePages c g (spanPages [span]) [] (s.setCtx c (x.modGroup g (fun _ => forming))) = (.fails, t) →
        exec (.form fn c g) s = .next (refuseSlot c g 9 0 t)) ∧
      (mayWork s = true → ¬ mayForm → exec (.form fn c g) s = .next (violate c 0x1303 s)) ∧
      (x.phase = .idle → exec (.dissolve fn c g) s = .next (s.setCtx c ((x.forgetReq (reqForm g)).modGroup g (·.dissolved)).setNeed)) ∧
      (x.phase ≠ .idle → exec (.dissolve fn c g) s = .next (violate c 0x1304 s))) ∧
    (∀ rank : Nat, mayWork s = true → k.state = .forming → k.members ≠ [] → rank ∈ k.others → rank ∉ k.agreed →
      ((∀ u ∈ k.members, (hopsTo s u).isSome = true) →
        exec (.tokenRepeat c g rank) s = .next (sendPacket (k.members.getD rank 0) 0 (tokenBytes (ownToken s x k rank)) s)) ∧
      (¬ (∀ u ∈ k.members, (hopsTo s u).isSome = true) → exec (.tokenRepeat c g rank) s = .next (refuseSlot c g 8 0 s))) ∧
    (k.state = .forming → k.members ≠ [] → ¬ (∀ u ∈ k.members, (hopsTo s u).isSome = true) →
      (((refuseLost s).ctx c).group g).state = .refused ∧ (((refuseLost s).ctx c).group g).reason = 8) ∧
    (k.state ≠ .forming ∨ (∀ u ∈ k.members, (hopsTo s u).isSome = true) → ((refuseLost s).ctx c).group g = k) ∧
    (k.state ≠ .formed → hmaxOf s k = 0) ∧
    (k.state = .formed → (∀ u ∈ k.members, ∀ h, hopsTo s u = some h → h ≤ hmaxOf s k) ∧
      ∀ n, (∀ u ∈ k.members, ∀ h, hopsTo s u = some h → h ≤ n) → hmaxOf s k ≤ n)) ∧
  (∀ (s : State) (l : LinkId) (t : Token), mayWork s = true →
    let stray : State := { s with glb := { s.glb with barStray := satAdd s.glb.barStray 1 } }
    (tokenSlot s t = none → exec (.compatibilityToken l t) s = .next stray) ∧
    (∀ (c : CtxId) (g : SlotId), tokenSlot s t = some (c, g) →
      let k := (s.ctx c).group g
      let r := t.srcRank.toNat
      let why := tokenReason (ownToken s (s.ctx c) k r) t k
      k.members ≠ [] →
      (why = none → k.state = .formed → exec (.compatibilityToken l t) s =
        .next (sendPacket (k.members.getD r 0) 0 (tokenBytes (ownToken s (s.ctx c) k r)) s)) ∧
      (∀ e, why = some e → k.state = .forming → exec (.compatibilityToken l t) s = .next (refuseSlot c g e r s)) ∧
      (∀ e, why = some e → k.state ≠ .forming → exec (.compatibilityToken l t) s = .next stray) ∧
      (why = none → k.state = .forming →
        let agreed := if r ∈ k.agreed then k.agreed else k.agreed ++ [r]
        let noted := s.modCtx c (fun x => x.modGroup g (fun k => { k with agreed := agreed }))
        exec (.compatibilityToken l t) s = .next (if ∀ q ∈ k.others, q ∈ agreed then formSlot c g noted else noted))))

/-- A GLB_RST_CTRL write with DOMAIN 0 or 6 to 15, with KIND 3, with an INDEX outside the range of its domain, or with
DOMAIN 3 naming a quarter in no partition leaves the state unchanged. (R404) -/
def Obligations.ResetControlNoEffect : Prop :=
  ∀ (s : State) (fn : FnId) (v : U64), RequestOpen s fn →
    let domain := fieldOf v.toNat 31 28
    let kind := fieldOf v.toNat 27 26
    let index := fieldOf v.toNat 15 0
    domain = 0 ∨ 6 ≤ domain ∨ kind = 3 ∨ (domain = 1 ∧ 32 ≤ index) ∨ (domain = 2 ∧ kind = 0 ∧ 512 ≤ index) ∨
      (domain = 2 ∧ kind ≠ 0 ∧ 16 ≤ index) ∨ (domain = 3 ∧ 4 ≤ index) ∨
      (domain = 3 ∧ ∀ c, (s.ctx c).assigned = true → (s.ctx c).qmask.getLsbD index = false) →
    exec (.registerWrite fn 0x20 4 v) s = .next s

/-- A register write acts on the window, the global region or the function block that its offset names, with the effect of
the command of that register; one that meets the condition of a violation in both its words is charged once; a read of a low word
latches the high word, which the next read of the high word returns; a read of another size returns the bytes addressed. That
BAR2 is addressed from 0x400000 on is the model's choice (log entry 68). (R11, R407, R414, R429, R457, R458, R461, R462) -/
def Obligations.RegisterAccess : Prop :=
  ∀ (s : State) (fn : FnId),
    (∀ (c : CtxId) (o : Nat) (v : U64), WindowOpen s fn c → o < 0x10000 → o ≠ 0x70 → ∀ size : Nat,
      exec (.registerWrite fn (0x200000 + 0x10000 * c.val + o) size v) s = .next (writeWindow fn c o size v s)) ∧
    (∀ (c : CtxId) (v : U64), WindowOpen s fn c →
      let at' (o : Nat) : Nat := 0x200000 + 0x10000 * c.val + o
      exec (.registerWrite fn (at' 0x70) 4 v) s = (if v.getLsbD 0 then exec (.ctxReset fn c) s else .next s) ∧
      exec (.registerWrite fn (at' 0xA08) 4 v) s = exec (.dmaTail fn c (v.truncate 16)) s ∧
      exec (.registerWrite fn (at' 0x28) 4 v) s = exec (.agCommit fn c (v.truncate 6)) s ∧
      exec (.registerWrite fn (at' 0x318) 4 v) s = exec (.liveFieldWrite fn c .predThresh (v.truncate 32)) s ∧
      exec (.registerWrite fn (at' 0xB50) 8 v) s = exec (.witReplay fn c v) s ∧
      exec (.registerWrite fn (at' 0x910) 8 v) s = exec (.mmuInval fn c (v.extractLsb' 16 48) (v.truncate 2)) s) ∧
    (∀ (off size : Nat) (v : U64), GlobalOpen s fn → off < 0x1F0000 → exec (.registerWrite fn off size v) s = .next (writeGlb fn off size v s)) ∧
    (∀ (o size : Nat) (v : U64), BlockOpen s fn → o < 0x10000 → exec (.registerWrite fn (0x1F0000 + o) size v) s = .next (writeFn fn o size v s)) ∧
    (∀ (c : CtxId) (g : SlotId) (v : U64), WindowOpen s fn c → ((s.ctx c).group g).held = true →
      exec (.registerWrite fn (0x200000 + 0x10000 * c.val + (0x1100 + 0x20 * g.val)) 8 v) s = .next (violate c 0x1305 s)) ∧
    (∀ v : U64, RequestOpen s fn → exec (.registerWrite fn 0x20 4 v) s = .next (writeGlb fn 0x20 4 v s)) ∧
    (∀ v : U64, hostUp s = true → fnExists s fn = true → exec (.registerWrite fn 0x40000C 4 v) s =
      .next (s.modFunc fn (fun f => if v.getLsbD 0 = false ∧ f.msixPending = true
        then { f with msixMask := false, msixPending := false, msgs := f.msgs + 1 } else { f with msixMask := v.getLsbD 0 }))) ∧
    (∀ off n : Nat, hostUp s = true → fnExists s fn = true → n ≠ 4 ∨ off % 4 ≠ 0 → 0x50018 < off ∨ off + n ≤ 0x50018 →
      exec (.readLowWord ⟨.fn fn, n⟩ off) s = .next (s.modFunc fn (fun f => { f with lastRead := bytesFor s (.fn fn) off n }))) ∧
    (∀ off : Nat, hostUp s = true → fnExists s fn = true → off % 4 = 0 → off ≠ 0x50018 →
      let f := s.func fn
      (∀ w, assocGet off f.latches = some w → exec (.readLowWord ⟨.fn fn, 4⟩ off) s =
        .next (s.setFunc fn { f with lastRead := leBytes 4 w.toNat, latches := f.latches.filter (fun p => p.1 != off) })) ∧
      (assocGet off f.latches = none → ∀ v, regFor s (.fn fn) off = some (.r64 v) → exec (.readLowWord ⟨.fn fn, 4⟩ off) s =
        .next (s.setFunc fn { f with
          lastRead := bytesFor s (.fn fn) off 4
          latches := (off + 4, BitVec.ofNat 32 (v / 2 ^ 32 % 2 ^ 32)) :: f.latches.filter (fun p => p.1 != off + 4) })) ∧
      (assocGet off f.latches = none → (∀ v, regFor s (.fn fn) off ≠ some (.r64 v)) → exec (.readLowWord ⟨.fn fn, 4⟩ off) s =
        .next (s.setFunc fn { f with lastRead := bytesFor s (.fn fn) off 4, latches := f.latches.filter (fun p => p.1 != off + 4) })))

/-- Enabling a ring, moving its head, the end of a moderation interval, and raising an event: it is written at TAIL with
its message where the ring has room, held otherwise, and counted as lost beyond 256 held events; a held event is written with a
message of its own. A masked vector keeps its message pending. (R411, R412, R413, R414) -/
def Obligations.EventRing : Prop :=
  ∀ (s : State) (fn : FnId),
    let f := s.func fn
    let told (f : Func) : Func := { f with
      msgs := if f.msixMask then f.msgs else f.msgs + 1, msixPending := f.msixMask || f.msixPending }
    (BlockOpen s fn →
      (∀ (irq : Bool) (log2 : BitVec 5) (mod : U16), 6 ≤ log2.toNat → log2.toNat ≤ 16 → exec (.eventRingEnable fn irq log2 mod) s =
        .next (drainRing fn (s.setFunc fn { f with
          en := true, irq := irq, log2 := log2, mod := mod
          head := if f.en then f.head else 0, tail := if f.en then f.tail else 0 }))) ∧
      (∀ index : U32, (f.tail - index).toNat ≤ 2 ^ f.log2.toNat → exec (.evtHeadWrite fn index) s =
        .next (drainRing fn (s.setFunc fn { f with head := index, owed := f.owed || index != f.tail }))) ∧
      (∀ index : U32, 2 ^ f.log2.toNat < (f.tail - index).toNat → exec (.evtHeadWrite fn index) s = .next s)) ∧
    exec (.msixModerationEnd fn) s = .next (s.setFunc fn (
      if f.irq && f.owed then { told f with owed := false, inMod := f.mod != 0 } else { f with inMod := false })) ∧
    (∀ (code : U16) (pl : List Byte),
      let e : Event := ⟨code, false, pl, s.pwr.time⟩
      let slot := f.evtBase.toNat * 4096 + 64 * (f.tail.toNat % 2 ^ f.log2.toNat)
      let entry := entryBytes fn f.log2.toNat f.tail e
      (f.en = true → (f.tail - f.head).toNat < 2 ^ f.log2.toNat → raise fn code false pl s =
        ({ s with hostMem := memWrite s.hostMem slot entry }).setFunc fn
          (if f.irq && !f.inMod then { told f with tail := f.tail + 1, owed := false, inMod := f.mod != 0 }
            else { f with tail := f.tail + 1, owed := true })) ∧
      (f.en = false ∨ 2 ^ f.log2.toNat ≤ (f.tail - f.head).toNat →
        (f.held.length < 256 → raise fn code false pl s = s.setFunc fn { f with held := f.held ++ [e] }) ∧
        (256 ≤ f.held.length → raise fn code false pl s = s.setFunc fn { f with lost := satAdd f.lost 1 }))) ∧
    (∀ e : Event, f.held = [e] → f.lost = 0 → f.en = true → (f.tail - f.head).toNat < 2 ^ f.log2.toNat → drainRing fn s =
      ({ s with hostMem := memWrite s.hostMem (f.evtBase.toNat * 4096 + 64 * (f.tail.toNat % 2 ^ f.log2.toNat))
                    (entryBytes fn f.log2.toNat f.tail e) }).setFunc fn
        (if f.irq && !f.inMod then { told f with tail := f.tail + 1, owed := false, inMod := f.mod != 0, held := [] }
          else { f with tail := f.tail + 1, owed := true, held := [] }))

/-- ENTDAA, with which the device gives its Provisioned ID, BCR and DCR, RSTDAA, DISEC, hot-join, private writes and private
reads while the always-on domain has power; a latched high word stays for the next read where only the pointer is set. DA
after RSTDAA and the bounds of the read latch are the model's choice (log entries 40 and 41). (R417, R418, R419) -/
def Obligations.ManagementBus : Prop :=
  ∀ s : State, s.pwr.aoOn = true →
    let m := s.mgt
    let put (m' : Mgt) : State := { s with mgt := m' }
    (∀ da : BitVec 7, exec (.entdaa da) s = .next (if m.daValid then s else put { m with
      daValid := true, da := da, daaBytes := (leBytes 6 (i3cPid s)).reverse ++ [0x06, 0x00] })) ∧
    exec .rstdaa s = .next (put { m with daValid := false, da := 0 }) ∧
    exec .disec s = .next (put { m with hotJoinOn := false }) ∧
    exec .hotJoin s = .next (if m.daValid ∨ m.hotJoinOn = false then s else put { m with hotJoins := m.hotJoins + 1 }) ∧
    (m.daValid = true →
      (∀ off : BitVec 24, exec (.privateWrite off []) s = .next (put { m with readPtr := off })) ∧
      (∀ (off : BitVec 24) (data : List Byte), data ≠ [] →
        exec (.privateWrite off data) s = .next (if busWritable s off.toNat data.length
          then writeGlb 0 off.toNat data.length (BitVec.ofNat 64 (leNat data)) s else put { m with werr := true })) ∧
      (∀ (off : BitVec 24) (data : List Byte), data ≠ [] → (data.length ≠ 4 ∧ data.length ≠ 8) ∨ off.toNat % data.length ≠ 0 ∨
          (¬ (0x40000 ≤ off.toNat ∧ off.toNat < 0x50000) ∧ ¬ (0x60000 ≤ off.toNat ∧ off.toNat < 0x70000)) →
        exec (.privateWrite off data) s = .next (put { m with werr := true })) ∧
      (∀ eight : Bool, m.latch = none →
        let n := if eight then 8 else 4
        let off := m.readPtr.toNat
        off + n ≤ 0x50018 ∨ 0x50018 < off → exec (.privateRead eight) s = .next (put { m with
          readPtr := m.readPtr + BitVec.ofNat 24 n, lastRead := bytesFor s .bus off n
          latch := if eight = false ∧ busHidden s off = false then (highFor s .bus off).map (fun h => (off + 4, BitVec.ofNat 32 h)) else none })) ∧
      (∀ w : U32, m.latch = some (m.readPtr.toNat, w) →
        let off := m.readPtr.toNat
        off + 4 ≤ 0x50018 ∨ 0x50018 < off → exec (.privateRead false) s = .next (put { m with
          readPtr := m.readPtr + 4, lastRead := leBytes 4 w.toNat
          latch := if busHidden s off = false then (highFor s .bus off).map (fun h => (off + 4, BitVec.ofNat 32 h)) else none }))) ∧
    (m.daValid = false → (∀ off data, exec (.privateWrite off data) s = .next s) ∧ ∀ eight, exec (.privateRead eight) s = .next s)

/-- Requests for reports are queued and answered with the signed body, or refused in RMA; a commit of the SVN raises it or
is 0x1402; the certificate, with the UID as its serial number, is written to the host address; a debug token is accepted only
where its signature, device, nonce and transition hold, and is 0x1403 otherwise; the fuses bind from the next boot, and under RMA
no identity key is derived. The form of the revocation image and the rest of the certificate are the model's (log entry 73).
(R434, R435, R436, R437, R438) -/
def Obligations.Security : Prop :=
  (∀ (s : State) (fn : FnId) (c : CtxId),
    let x := s.ctx c
    let asked (kind : BitVec 2) : State :=
      { s.setCtx c { x with attestStatus := .pending, attestKind := kind } with sec := { s.sec with queue := s.sec.queue ++ [c] } }
    (WindowOpen s fn c →
      (x.attestStatus ≠ .pending → exec (.attestFirmware fn c) s = .next (asked 1) ∧ exec (.attestSeal fn c) s = .next (asked 2)) ∧
      (x.attestStatus = .pending → exec (.attestFirmware fn c) s = .next (violate c 0x1401 s) ∧
        exec (.attestSeal fn c) s = .next (violate c 0x1401 s))) ∧
    (mayWork s = true → s.sec.queue.head? = some c → x.busy = false →
      let done (status : AttestStatus) (code : Nat) (t : State) : State :=
        let u := { t.modCtx c (fun y => { y with attestStatus := status }) with sec := { t.sec with queue := t.sec.queue.filter (· != c) } }
        ctxEvent c 0x1A01 false (payload [(0, 1, c.val), (1, 1, code), (2, 1, (t.ctx c).attestKind.toNat), (8, 8, (t.ctx c).step.toNat)]) u
      (s.sec.debugState = 2 → exec (.reportDone c) s = .next (done .refused 3 s)) ∧
      (s.sec.debugState ≠ 2 → ∀ (nonce : List Byte) (bad : Bool) (t u : State),
        fetchVa c reqAttest false ⟨x.attestVa.toNat * 64, 32⟩ s = (some (nonce, bad), t) →
        let body := reportBody c (t.ctx c) t.sec t.glb.uid nonce
        putVa c reqAttest false ((t.ctx c).attestVa.toNat * 64) (body ++ identitySignature t.sec body) t = (true, u) →
        exec (.reportDone c) s = .next (done .done 2 u)))) ∧
  (∀ (s : State) (fn : FnId),
    let k := s.sec
    (GlobalOpen s fn →
      (k.svn.toNat ≤ k.fwSvn.toNat → k.fwSvn.toNat ≤ 63 → exec (.secSvnCommit fn) s =
        .next { s with sec := { k with svn := BitVec.ofNat 6 k.fwSvn.toNat, keyRevoke := k.keyRevoke ||| k.revoked } }) ∧
      (k.fwSvn.toNat < k.svn.toNat ∨ 63 < k.fwSvn.toNat → exec (.secSvnCommit fn) s = .next (violateGlb 0x1402 s)) ∧
      (∀ v : U64, exec (.secCertVa fn v) s = .next { s with
        sec := { k with certVa := v.extractLsb' 6 58 }
        hostMem := memWrite s.hostMem ((v.extractLsb' 6 58).toNat * 64) (certificate s.glb.uid) }) ∧
      (∀ v : U64,
        let a := (v.extractLsb' 6 58).toNat * 64
        let token := memRead s.hostMem a (0x340 + natAt (memRead s.hostMem a 16) 0xC 4 % 2 ^ 25)
        (tokenTarget k s.glb.uid token = none → exec (.debugToken fn v) s = .next (violateGlb 0x1403 s)) ∧
        (tokenTarget k s.glb.uid token = some 2 → exec (.debugToken fn v) s =
          .next { s with sec := { k with debugState := 2, debugNext := none, identityKey := none } }) ∧
        (tokenTarget k s.glb.uid token = some 1 → exec (.debugToken fn v) s = .next { s with sec := { k with debugNext := some 1 } }))) ∧
    (∀ r : Requester, exec (.debugNonceRead r) s = .next (if canReadGlb s r then { s with sec := { k with
      lastNonce := some k.nonce, nonce := Config.debugNonce k.nonceDraws, nonceDraws := k.nonceDraws + 1 } } else s)) ∧
    (∀ (b : List Byte) (n : Nat), tokenTarget k s.glb.uid b = some n → imageCheck k b = none ∧ natAt (imgBody b) 0 8 = s.glb.uid.toNat ∧
      k.lastNonce = some (BitVec.ofNat 64 (natAt (imgBody b) 16 8)) ∧ (n = 2 ∨ n = 1 ∧ k.debugState ≠ 2)) ∧
    k.revoked.getLsbD k.keySlot.toNat = false ∧ (imageCheck k k.flashRevoke ≠ none → k.revoked = 0) ∧
    (k.boot.svnBound = k.svn ∧ k.boot.revokeBound = k.keyRevoke ∧ (k.debugState = 2 ↔ k.boot.identityKey = none)) ∧
    (∀ uid : U64, beNat ((derInteger uid.toNat).drop 2) = uid.toNat ∧
      ∃ before after, certificate uid = before ++ derInteger uid.toNat ++ after))

/-- PGOOD, the reference, PERST, FORCE_OFF_N, supply bands and the power cycle; a control period stores the readings, sets
double refresh, moves MULT by its rule, and turns the main domain off where a sensor stays above the critical value.
(R440, R442, R443, R444, R445, R446, R447, R450, R451) -/
def Obligations.Power : Prop :=
  (∀ s : State,
    let p := s.pwr
    let off (cause : BitVec 3) : State := if p.mainOn then { mainOff s with pwr := { (mainOff s).pwr with offCause := (mainOff s).pwr.offCause ||| cause } } else s
    let goesOn (t : State) : State :=
      if t.sec.errA ≠ 0 ∧ t.sec.errB ≠ 0 then { t with pwr := { t.pwr with mainOn := false, bootEvent := 0 } }
      else if t.sec.err = 0 ∧ t.pwr.refValid = true then finishBoot t else t
    (∀ pins : EdgePins, p.aoOn = true → p.pgood = false →
      (pins.forceLow = true → exec (.pgoodRise pins) s = .next { s with pwr := { p with pgood := true, forceLow := true } }) ∧
      (pins.forceLow = false → exec (.pgoodRise pins) s = .next (goesOn { s with
        pwr := { p with pgood := true, forceLow := false, mainOn := true, bootEvent := 2 }
        glb := { s.glb with slot := pins.straps }
        sec := s.sec.boot }))) ∧
    exec .refclkValid s = .next (
      let t := { s with pwr := { p with refValid := true } }
      if p.mainOn = true ∧ p.bootEvent = 2 then goesOn t else t) ∧
    ((finishBoot s).pwr.pcieUp = !p.perst ∧ (finishBoot s).pwr.bootEvent = 6) ∧
    exec .referenceLost s = .next { s with pwr := { p with refValid := false } } ∧
    exec .perstDeassert s = .next { s with pwr := { p with perst := false, pcieUp := p.mainOn && decide (6 ≤ p.bootEvent) } } ∧
    exec .forceOff s = .next { off 1 with pwr := { (off 1).pwr with forceLow := true } } ∧
    exec .pgoodFall s = .next { off 0 with pwr := { (off 0).pwr with pgood := false } } ∧
    exec .alwaysOnStart s = .next { s with pwr := { p with aoOn := true } } ∧
    (∀ (mv us : Nat) (ca : U16), mv < 30000 → 50000 ≤ us → exec (.supplyOutOfBand mv us ca) s = exec .powerCycle s) ∧
    (∀ (mv us : Nat) (ca : U16), p.aoOn = true →
      (mv < 30000 → us < 50000 → exec (.supplyOutOfBand mv us ca) s = .next (
        let t := off (if 20 ≤ us then 4 else 0)
        { t with pwr := { t.pwr with aoOn := false } })) ∧
      ((30000 ≤ mv ∧ mv < 36000) ∨ 48000 < mv → 20 ≤ us → exec (.supplyOutOfBand mv us ca) s = .next (off 4)) ∧
      ((36000 ≤ mv ∧ mv < 38000) ∨ (46000 < mv ∧ mv ≤ 48000) → 100 ≤ us → (s.func 0).en = false → s.mgt.alert.getLsbD alertSupply = false →
        exec (.supplyOutOfBand mv us ca) s = .next (raiseAlert alertSupply s))) ∧
    (∃ t, exec .powerCycle s = .next t ∧ t.pwr.aoOn = false ∧ t.pwr.mainOn = false ∧ t.ctxs = Vector.replicate 32 {} ∧ t.mem = [] ∧
      t.sec.svn = s.sec.svn ∧ t.pwr.time = 0 ∧ t.glb.benchRetire = Vector.replicate 16 0)) ∧
  (∀ (s : State) (temps : List Int) (mv ca dw : U16), s.pwr.mainOn = true → 6 ≤ s.pwr.bootEvent →
    let temp (n : Nat) : Int := temps.getD n 0
    let p := s.pwr
    ((∀ n, n < 40 → temp n < 16 * p.alertT.toNat ∧ temp n < 16 * 115) →
      ∃ t, exec (.controlPeriod temps mv ca dw) s = .next t ∧ { t with pwr := p } = s ∧ t.pwr.mv = mv ∧ t.pwr.ca = ca ∧ t.pwr.dw = dw ∧
        t.pwr.time = p.time ∧ t.pwr.mainOn = true ∧
        (∀ n : Fin 40, t.pwr.temps[n] = BitVec.ofInt 16 (temp n.val)) ∧
        (∀ k, k < 8 → t.pwr.doubleRefresh.getLsbD k = decide (16 * (p.throttle.toNat : Int) ≤ temp (32 + k))) ∧
        ∀ q : QuarterId, t.pwr.mult[q] = if p.mult[q] = 0 then 0 else nextMult p temp dw.toNat q) ∧
    ((∃ n, n < 40 ∧ 16 * 115 ≤ temp n ∧ p.overCrit[n]? = some true) →
      ∃ t, exec (.controlPeriod temps mv ca dw) s = .next t ∧ t.pwr.mainOn = false ∧ t.pwr.offCause = p.offCause ||| 2 ∧ t.mem = [] ∧
        t.ctxs = Vector.replicate 32 {}))

/-- A scrub reads one word with its ECC effects; a station at a tile boundary moves to a usable bench where Cutlist may move it;
an empty bench is gated. The moves that the bounds compel take place at tile boundaries: a station there that may not stay
takes the lowest bench that it may use, and counts the move where it had a bench; one amid a tile keeps its bench; and a
station moves before it accepts its next tile set. Which bench it takes is the model's choice (log entry 22). (R40, R241,
R244, R245, R247, R333, R449) -/
def Obligations.Upkeep : Prop :=
  (∀ s : State,
    (∀ (k : StackId) (w : Nat), s.pwr.mainOn = true → 6 ≤ s.pwr.bootEvent → s.glb.chipBusy = false → w < 2 ^ 31 →
      exec (.scrubRead k w) s = .next (eccRead none [k.val * 2 ^ 31 + w] s)) ∧
    (∀ (c : CtxId) (i : Nat) (b : BenchId) (m : Image), stationsRun s c = true → (s.ctx c).active = some m → i < (s.ctx c).stns.length →
      (s.ctx c).atBoundary m i = true → usable s.glb (s.ctx c).qmask ((s.ctx c).bound m i) b.val = true → b.val ≠ ((s.ctx c).stn i).bench →
      (s.ctx c).live.cutWeights ≠ 0 ∨ usable s.glb (s.ctx c).qmask ((s.ctx c).bound m i) ((s.ctx c).stn i).bench = false →
      exec (.stationMigrate c i b) s = .next ((wakeBench b.val s).modCtx c (fun x =>
        let y := x.modStn i (fun t => { t with bench := b.val })
        { y with cnt := { y.cnt with cutMigrate := satAdd y.cnt.cutMigrate 1 } }))) ∧
    (∀ b : BenchId, s.pwr.mainOn = true → 6 ≤ s.pwr.bootEvent → s.pwr.gateIdle ≠ 0 →
      (benchEmpty s b = true → exec (.benchGate b) s = .next { s with pwr := { s.pwr with benchGated := setBenchBit s.pwr.benchGated b true } }) ∧
      (benchEmpty s b = false → exec (.benchGate b) s = .next s))) ∧
  (∀ (s : State) (c : CtxId) (m : Image) (i : Nat), i < (s.ctx c).stns.length →
    let x := s.ctx c
    let old := (x.stn i).bench
    let may (b : Nat) : Prop := usable s.glb x.qmask (x.bound m i) b = true
    let t := compelMoves c m s
    (may old ∨ x.atBoundary m i = false → (t.ctx c).stn i = x.stn i) ∧
    (¬ may old → x.atBoundary m i = true →
      (∀ b, may b → (∀ a, a < b → ¬ may a) → ((t.ctx c).stn i) = { x.stn i with bench := b }) ∧
      ((∀ b, ¬ may b) → ((t.ctx c).stn i) = { x.stn i with bench := 512 })) ∧
    (resettle c m i s).ctx c =
      (let new := placeFor s x m i old
       let y := x.modStn i (fun n => { n with bench := new })
       if old < 512 ∧ new < 512 ∧ new ≠ old then { y with cnt := { y.cnt with cutMigrate := satAdd y.cnt.cutMigrate 1 } } else y) ∧
    (∀ st, stationsRun s c = true → x.active = some m → m.stations[i]? = some st → i ∉ idleSet x m → stopped x (reqStation i) = false →
      ∀ p ∈ [(Instr.fetchTile c i, kFETCH), (.convertTile c i, kCONVERT), (.spreadTile c i, kSPREAD), (.accumSegment c i, kACCUM),
        (.vectorTileSet c i, kVECTOR), (.storeTile c i, kSTORE), (.scribePredict c i, kSCRIBE), (.reduceInputTile c i, kREDUCE)],
        st.kind = p.2 → exec p.1 s = exec p.1 (if may old ∨ x.atBoundary m i = false then s else resettle c m i s)))

/-- A FETCH waits for room, ends with its grid, reads the metadata, indices and bytes of its next tile through translation
and emits the tile; a STORE waits for a tile, discards one outside the view (0x0902), translates every page before it
writes, and stores the winning elements or adds. (R39, R209, R211, R213, R216, R218, R220, R297, R367) -/
def Obligations.FetchAndStore : Prop :=
  (∀ (s : State) (c : CtxId) (i : Nat) (m : Image) (st : Station) (t : TensorRec), Acting s c i kFETCH m st →
    (allUpdates (s.ctx c) m).length ≤ (s.ctx c).cleared → m.tensor st.tensor = some t →
    let n := (s.ctx c).stn i
    let req := reqStation i
    let ixT := indexTensor (s.ctx c) m st
    let sp0 := (ixT.map indexSpans).getD []
    (n.fin = true ∨ fetchRoom (s.ctx c) m i = false → exec (.fetchTile c i) s = .next s) ∧
    (n.fin = false → fetchRoom (s.ctx c) m i = true →
      (∀ k, t.sparse ≠ 0 → m.masks[t.mask]? = some k →
        (∀ u, access c req false false (metaSpans (s.ctx c) (sparseDim t k) k t.mask ++ sp0) s = (none, u) →
          exec (.fetchTile c i) s = .next u) ∧
        exec (.fetchTile c i) s = .next (fetchSparse c i m st t k s)) ∧
      (t.sparse = 0 →
        let items := gridTiles (viewExtents m st t) (st.o 0 1)
        (items[n.next]? = none →
          exec (.fetchTile c i) s = .next (s.modCtx c (fun x => x.modStn i (fun n => { n with fin := true })))) ∧
        (∀ xy u, items[n.next]? = some xy →
          (access c req false false sp0 s = (none, u) → exec (.fetchTile c i) s = .next u) ∧
          (∀ tab0, access c req false false sp0 s = (some tab0, u) →
            let v := viewOf (u.ctx c) m st t ((ixT.map (indexRead tab0 u)).getD [])
            (t.format = fACC128 → exec (.fetchTile c i) s = .next (fetchAcc c i m t (v.accMap t) tab0 sp0 xy [] items.length u)) ∧
            (t.format ≠ fACC128 →
              (∀ w, access c req false false (v.spans xy) u = (none, w) → exec (.fetchTile c i) s = .next w) ∧
              (∀ tab w, access c req false false (v.spans xy) u = (some tab, w) →
                exec (.fetchTile c i) s = .next ((chargeRead c (tab0 ++ tab) (sp0 ++ v.spans xy) w).modCtx c (fun x =>
                  advanceFetch i items.length (emitValue m i (v.readTile tab w xy) x)))))))))) ∧
  (∀ (s : State) (c : CtxId) (i : Nat) (m : Image) (st : Station) (t : TensorRec), Acting s c i kSTORE m st →
    waitingOn (s.ctx c) m i 2 = 0 → m.tensor st.tensor = some t →
    let req := reqStation i
    let ixT := indexTensor (s.ctx c) m st
    let sp0 := (ixT.map indexSpans).getD []
    let add := st.o 1 1 == 1
    ((s.ctx c).peek m i 0 = none → exec (.storeTile c i) s = .next s) ∧
    (∀ tl, (s.ctx c).peek m i 0 = some tl → scaleWaiting (s.ctx c) m i tl = true →
      (∀ k, t.sparse ≠ 0 → m.masks[t.mask]? = some k →
        ((stagedMetas ((s.ctx c).stn i)).any (fun b => b.band == tl.xy.tr) || portEnded (s.ctx c) m i 2) = true →
        exec (.storeTile c i) s = .next (storePacked c i m st t k tl.xy s)) ∧
      (t.sparse = 0 → inGrid (viewExtents m st t) tl.xy = false →
        exec (.storeTile c i) s = .next (violate c 0x0902 (takeScaled c m i 0 s).2)) ∧
      (t.sparse = 0 → inGrid (viewExtents m st t) tl.xy = true →
        (∀ u, access c req false false sp0 s = (none, u) → exec (.storeTile c i) s = .next u) ∧
        (∀ tab0 u, access c req false false sp0 s = (some tab0, u) →
          let v := viewOf (u.ctx c) m st t ((ixT.map (indexRead tab0 u)).getD [])
          let u' := chargeRead c tab0 sp0 u
          (t.format = fACC128 → exec (.storeTile c i) s = .next (storeAcc c i m (v.accMap t) add tl.xy u')) ∧
          (t.format ≠ fACC128 →
            (∀ w, access c req false true (v.spans tl.xy) u' = (none, w) → exec (.storeTile c i) s = .next w) ∧
            (∀ tab w tl' slipped w', access c req false true (v.spans tl.xy) u' = (some tab, w) →
              takeScaled c m i 0 w = (some (tl', slipped), w') →
              (add = false → exec (.storeTile c i) s = .next ((writeRuns c tab (joinRuns
                ((v.puts ((w'.ctx c).stn i).seen (blockNanRows tl' slipped)).map (fun f => (f.va, f.bytes tab w')))) w').modCtx c
                  (markStored i tl.xy))) ∧
              (add = true →
                let ws := addInts (fun e => ((fieldAddr v.fmt v.base (v.offset (v.stored (tileCoord tl.xy e)))).1, 4)) tab w' tl'
                  (v.inside tl.xy)
                exec (.storeTile c i) s = .next (checkResidue c (stackAt tab ((ws.head?.map (·.1)).getD 0)) opD1 tapD1 [tl']
                  ((patchRuns c tab (joinRuns ws) w').modCtx c (markStored i tl.xy)))))))))) ∧
  (∀ (x : Ctx) (m : Image) (i : Nat) (t : Tile), let sent := emitValue m i t x
    ∃ y, sent = (if isMx t.fmt then y.push m i 1 (sclTile t).coded else y) ∧ y = x.push m i 0 { t with side := t.payload.residues }) ∧
  (∀ (x : Ctx) (m : Image) (st : Station) (t : TensorRec), m.tensor st.tensor2 = some t →
    indexTensor x m st = if st.o 2 1 = 0 then none else some { t with valueVa := (basesOf m st.tensor2 x.parity t).1 })

/-- A CONVERT converts the next tile, a site in ascending ordinal; a SPREAD waits for the metadata of every band and for
the row sets and emits the value tile with its positions, both tags of a block those of the block that goes out. (R85, R134,
R145, R176, R221, R227, R307) -/
def Obligations.ConvertAndSpread : Prop :=
  (∀ (s : State) (c : CtxId) (i : Nat) (m : Image) (st : Station), Acting s c i kCONVERT m st →
    let x := s.ctx c
    (x.room m i 0 = false ∨ x.room m i 1 = false → exec (.convertTile c i) s = .next s) ∧
    (x.room m i 0 = true → x.room m i 1 = true →
      (isSite st = false →
        (∀ u, takeScaled c m i 0 s = (none, u) → exec (.convertTile c i) s = .next u) ∧
        (∀ t slipped u, takeScaled c m i 0 s = (some (t, slipped), u) →
          exec (.convertTile c i) s = .next (u.modCtx c (convertOne i m st t)))) ∧
      (isSite st = true → ∀ u, stageHeld c m i s = u →
        let n := (u.ctx c).stn i
        let ext := stationExt m st
        (lowestTile ext n.held = none → exec (.convertTile c i) s = .next u) ∧
        (∀ t, lowestTile ext n.held = some t →
          let o := tileOrdinal ext t.xy
          (n.next < o → portEnded (u.ctx c) m i 0 = false → exec (.convertTile c i) s = .next u) ∧
          (o ≤ n.next ∨ portEnded (u.ctx c) m i 0 = true →
            let rest := dropTile t.xy n.held
            exec (.convertTile c i) s = .next ((u.modCtx c (convertOne i m st t)).modCtx c (fun x => x.modStn i (fun k =>
              { k with held := rest, next := if rest.any (fun w => tileOrdinal ext w.xy == o) then k.next else max k.next (o + 1) })))))))) ∧
  (∀ (s : State) (c : CtxId) (i : Nat) (m : Image) (st : Station), Acting s c i kSPREAD m st →
    ∀ a u, takeMetas c m i (st.o 0 1 == 1) (waitingOn (s.ctx c) m i 2) s = a →
    takeRowSets c m i (waitingOn (a.ctx c) m i 3) a = u →
    let x := u.ctx c
    let n := x.stn i
    let metas := stagedMetas n
    (x.peek m i 0 = none → exec (.spreadTile c i) s = .next u) ∧
    (∀ t0, x.peek m i 0 = some t0 →
      let rows := stagedRows n t0.xy.tr
      (m.fed i 3 = true → rows.length < predBands m i → portEnded x m i 3 = false → exec (.spreadTile c i) s = .next u) ∧
      (metas = [] → portEnded x m i 2 = false → exec (.spreadTile c i) s = .next u) ∧
      (∀ b l, metas = b :: l → b.bands ≤ metas.length → (m.fed i 3 = false ∨ predBands m i ≤ rows.length) →
        x.room m i 0 = true → x.room m i 1 = true → ∀ t slipped w, takeScaled c m i 0 u = (some (t, slipped), w) →
        ∃ out, exec (.spreadTile c i) s = .next (w.modCtx c (fun x =>
            if isMx out.fmt then (x.push m i 0 out).push m i 1 (sclTile out) else x.push m i 0 out)) ∧
          { out with payload := t.payload } = { t with sel := metas, active := rows } ∧
          out.payload = (match t.payload with
            | .val f es scs v _ => .val f es scs v v
            | p => p))))

/-- A pass waits for both operands and the stationary tile, forms the block contributions under the anchor, adds them with
their losses counted, and emits a segment after 2^L blocks or the last; an output tile without a pass is emitted at once;
a stationary tile is loaded with its codebook tables. The metadata entries in use count once for the station. How blocks without a
partner pair is the model's choice (log entry 60). (R98, R100, R102, R103, R105, R118, R122, R126, R127, R133, R144, R326) -/
def Obligations.MatrixUnit : Prop :=
  (∀ (s : State) (c : CtxId) (i : Nat) (m : Image) (st : Station) (o : TileXY) (blk : Nat), Acting s c i kMATMUL m st →
    ∀ u, stageOperands c m i s = u → stopped (u.ctx c) (reqStation i) = false →
    let x := u.ctx c
    let n := x.stn i
    let q := matInfoPure x m i
    let sp := matSpans x m i st q
    let used (z : State) : State := z.modCtx c (useBands i ((matInfoPure (z.ctx c) m i).prod == 1) (matInfoPure (z.ctx c) m i).metas)
    (∀ w, access c (reqStation i) false false (sp.1 ++ sp.2) u = (none, w) → exec (.matmulPass c i o blk) s = .next w) ∧
    (sp.1 = [] → ∀ tab w, access c (reqStation i) false false sp.2 u = (some tab, w) →
      let z := chargeRead c tab sp.2 w
      exec (.matmulPass c i o blk) s = .next
        (runPass c i m st (matInfoPure (z.ctx c) m i) (sp.2.flatMap (readSpan tab w)) o blk (used z))) ∧
    (∀ k tab w, sp.1 ≠ [] → m.masks[q.w.mask]? = some k → access c (reqStation i) false false (sp.1 ++ sp.2) u = (some tab, w) →
      let d := sparseDim q.w k
      let b := readMeta ((chargeRead c tab (sp.1 ++ sp.2) w).ctx c) tab w d k q.w.mask
      let z := (chargeRead c tab (sp.1 ++ sp.2) w).modCtx c (keepMetas i (bandMetas d b.1 b.2))
      exec (.matmulPass c i o blk) s = .next
        (runPass c i m st (matInfoPure (z.ctx c) m i) (sp.2.flatMap (readSpan tab w)) o blk (used z))) ∧
    (sp.1 = [] → sp.2 = [] →
      let v := used u
      let y := v.ctx c
      let n := y.stn i
      let dw := if q.prod = 2 then dwPositions y q st.tensor [] o else []
      let gone := q.prod == 2 && dw.all (·.isNone)
      let ps := if gone then [] else matPasses y q st.tensor n o
      (n.emitted.contains o = true ∨ (matGrid q n).contains o = false ∨ matReady y m i q o = false →
        exec (.matmulPass c i o blk) s = .next v) ∧
      (n.emitted.contains o = false → (matGrid q n).contains o = true → matReady y m i q o = true →
        let bad := !gone && matBad q n o ps
        let opened := n.segs.find? (fun k => k.out == o)
        let g := opened.getD (emptySeg o (matAnchor y m i q o) y.visible.spillLog2.toNat ps.length bad)
        let v' := if opened.isNone && bad then violate c 0x0501 v else v
        (ps = [] → y.room m i 0 = true →
          exec (.matmulPass c i o blk) s = .next (v'.modCtx c (fun x =>
            (x.push m i 0 (segTile q n g)).modStn i (fun n => { n with emitted := n.emitted ++ [o] })))) ∧
        (∀ p, ps[blk]? = some p →
          let last : Prop := ps.length ≤ g.blocksDone.length + 1
          let ends : Prop := last ∨ 2 ^ g.log2 ≤ g.inSeg + 1
          (g.blocksDone.contains blk = true ∨ (ends ∧ y.room m i 0 = false) ∨ switchStat (statOf q o p) n = none →
            exec (.matmulPass c i o blk) s = .next v) ∧
          (∀ n', g.blocksDone.contains blk = false → switchStat (statOf q o p) n = some n' →
            let cs := (passProducts y q st.tensor n' o p dw).map (fun l => blockSum l g.anchor)
            let g' : SegBuf := { g with
              v := (g.v.zip cs).map (fun z => wrapS 128 (z.1 + z.2.1))
              st := (g.st.zip cs).map (fun z => comb z.1 z.2.2.1)
              inSeg := g.inSeg + 1
              blocksDone := g.blocksDone ++ [blk] }
            let others := n'.segs.filter (fun k => k.out != o)
            let counted := v'.modCtx c (fun x => x.count (countLosses (countVanish (cs.map (·.2.2))) (countTrunc (cs.map (·.2.2)))))
            let after (f : Ctx → Ctx) : Host.Outcome State Fault Refusal :=
              let t := counted.modCtx c f
              .next (checkResidue c (benchSite (t.ctx c) i) (checkOp m i (matOrdinal q o p)) tapsM (passTiles q n' o p) t)
            (¬ ends → exec (.matmulPass c i o blk) s = after (fun x => x.setStn i { n' with segs := others ++ [g'] })) ∧
            (ends → ¬ last → y.room m i 0 = true →
              exec (.matmulPass c i o blk) s = after (fun x => (x.push m i 0 (segTile q n' g')).setStn i { n' with
                segs := others ++ [{ emptySeg o g.anchor g.log2 g.total g.bad with blocksDone := g'.blocksDone }] })) ∧
            (last → y.room m i 0 = true →
              exec (.matmulPass c i o blk) s = after (fun x => (x.push m i 0 (segTile q n' g')).setStn i { n' with
                segs := others
                emitted := n'.emitted ++ [o] }))))))) ∧
  (∀ (s : State) (c : CtxId) (i : Nat) (m : Image) (st : Station) (xy : TileXY), Acting s c i kMATMUL m st →
    ∀ u, stageOperands c m i s = u →
    (st.o 0 1 = 2 ∨ stagedAt ((u.ctx c).stn i).stageB xy = none → exec (.stationaryTileLoad c i xy) s = .next u) ∧
    (∀ w t, st.o 0 1 ≠ 2 → m.tensor st.tensor = some w → stagedAt ((u.ctx c).stn i).stageB xy = some t →
      let load (s : State) : State := s.modCtx c (fun x => x.modStn i (fun n => { n with idle := some ⟨xy, tablesOf w t⟩ }))
      (none ∉ tablesOf w t → exec (.stationaryTileLoad c i xy) s = .next (load u)) ∧
      (none ∈ tablesOf w t → exec (.stationaryTileLoad c i xy) s = .next (load (violate c 0x0502 u)))))

/-- A segment adds into the deep accumulator of its tile, 0x0402 where its anchor or SEGMENTS differ; the last segment
emits the tile; a chain tile joins under the larger anchor the first complete tile of its coordinates, and a chain that ended
without the tile is 0x0405. A chain whose source is idle in the step counts as unfed, the model's choice (log entry 64). (R105,
R106, R107, R108, R110, R111) -/
def Obligations.AccumulatorStations : Prop :=
  (∀ (s : State) (c : CtxId) (i : Nat) (m : Image) (st : Station), Acting s c i kACCUM m st →
    ((s.ctx c).room m i 0 = false ∨ (s.ctx c).room m i 1 = false → exec (.accumSegment c i) s = .next s) ∧
    ((s.ctx c).room m i 0 = true → (s.ctx c).room m i 1 = true →
      (∀ u, takeTile c m i 0 s = (none, u) → exec (.accumSegment c i) s = .next u) ∧
      (∀ t u anchor segs v sts, takeTile c m i 0 s = (some t, u) → t.payload = .acc anchor segs v sts →
        let n := (u.ctx c).stn i
        let a := (n.accs.find? (fun a => a.out == t.xy && decide (a.got < a.segments))).getD
          { out := t.xy, anchor := anchor, segments := segs, got := 0, d := List.replicate 1024 0, st := List.replicate 1024 0,
            present := t.present, cols := t.cols }
        let rest := n.accs.filter (fun b => !(b.out == t.xy && decide (b.got < b.segments)))
        let agree := anchor = a.anchor ∧ segs = a.segments
        let a' : DeepAcc :=
          { a with
            got := a.got + 1
            d := if agree then (a.d.zip v).map (fun p => wrapS 192 (p.1 + p.2)) else a.d
            st := if agree then (a.st.zip sts).map (fun p => comb p.1 p.2) else a.st.map (fun _ => 3) }
        let u' := if agree then u else violate c 0x0402 u
        (a.got + 1 < a.segments → exec (.accumSegment c i) s =
          .next (u'.modCtx c (fun x => x.modStn i (fun n => { n with accs := rest ++ [a'] })))) ∧
        (a.segments ≤ a.got + 1 → chained (s.ctx c) m i = false → exec (.accumSegment c i) s =
          .next (u'.modCtx c (fun x => emitAccum i m st t.xy a'.anchor a'.d a'.st a'.present a'.cols
            (x.modStn i (fun n => { n with accs := rest })))))))) ∧
  (∀ (s : State) (c : CtxId) (i : Nat) (m : Image) (st : Station) (out : TileXY), Acting s c i kACCUM m st →
    ∀ u, takeChain c m i ((m.tensor st.tensor).map (·.extent)) (waitingOn (s.ctx c) m i 1) s = u →
    let x := u.ctx c
    let n := x.stn i
    let full (a : DeepAcc) : Bool := a.out == out && decide (a.segments ≤ a.got)
    let rest := n.accs.eraseP full
    (n.accs.find? full = none → exec (.chainJoin c i out) s = .next u) ∧
    (∀ a, n.accs.find? full = some a → x.room m i 0 = true → x.room m i 1 = true →
      (∀ t ai k v sts, n.chain.find? (fun t => t.xy == out) = some t → t.payload = .acc ai k v sts →
        let big := max a.anchor ai
        let js := (a.d.zip (a.st.zip (v.zip sts))).map (fun p => joinElem big a.anchor ai p.1 p.2.1 p.2.2.1 p.2.2.2)
        let losses := js.flatMap (fun j => j.2.2)
        exec (.chainJoin c i out) s = .next (u.modCtx c (fun x =>
          emitAccum i m st out big (js.map (fun j => j.1)) (js.map (fun j => j.2.1)) a.present a.cols
            ((x.count (countLosses (countVanish losses) (countTrunc losses))).modStn i (fun n =>
              { n with accs := rest, chain := dropTile out n.chain }))))) ∧
      (n.chain.find? (fun t => t.xy == out) = none → portEnded x m i 1 = false → exec (.chainJoin c i out) s = .next u) ∧
      (n.chain.find? (fun t => t.xy == out) = none → portEnded x m i 1 = true →
        exec (.chainJoin c i out) s = .next ((violate c 0x0405 u).modCtx c (fun x =>
          emitAccum i m st out a.anchor a.d (a.st.map (fun _ => 3)) a.present a.cols (x.modStn i (fun n => { n with accs := rest })))))))

/-- A tile set is received into its sweep and the body runs for the next position; the final section runs when a sweep is
processed; a mode 1 tile joins the first sweep of its coordinates without one. (R186, R187, R188, R189, R200) -/
def Obligations.VectorTiles : Prop :=
  (∀ (s : State) (c : CtxId) (i : Nat) (m : Image) (st : Station), Acting s c i kVECTOR m st →
    ((s.ctx c).room m i 0 = false → exec (.vectorTileSet c i) s = .next s) ∧
    ((s.ctx c).room m i 0 = true →
      let late (w : Sweep) : Bool := w.processed && !w.late.isEmpty
      (∀ w, ((s.ctx c).stn i).sweeps.find? late = some w → exec (.vectorTileSet c i) s = .next (s.modCtx c (fun x =>
        (emitNan i m st (w.late.headD w.out) x).modStn i (fun n => { n with
          sweeps := tidySweeps m st (updSweep (fun k => k == w) { w with late := w.late.drop 1 } (fun _ => { w with late := w.late.drop 1 }) n.sweeps) })))) ∧
      (((s.ctx c).stn i).sweeps.find? late = none →
        ∀ u, (if setWaiting (s.ctx c) m i st then registerSet c i m st (takeSet c m i st s).1 (takeSet c m i st s).2 else s) = u →
        (((u.ctx c).stn i).sweeps.find? (bodyReady m st) = none → exec (.vectorTileSet c i) s = .next u) ∧
        (∀ w e, (u.ctx c).room m i 0 = true → ((u.ctx c).stn i).sweeps.find? (bodyReady m st) = some w →
          w.sets.find? (fun e => e.1 == w.next) = some e →
          let xy := ((e.2.getD 0 none).map (·.xy)).getD w.out
          let r := runRows m st (bodyOf (vecProgram m st)) (startUnit m st w xy false e.2)
          let after : Sweep := { w with vb := r.1.vb, x := r.1.x, next := w.next + 1, sets := w.sets.filter (fun k => k.1 != w.next) }
          let t := u.modCtx c (fun x => (emitVec i m st 0 xy (((e.2.getD 0 none).map (·.cols)).getD []) (rowsFlat r.1.out0) false
            (countLoads r.2 x)).modStn i (fun n =>
            { n with unit := r.1, sweeps := tidySweeps m st (updSweep (fun k => k == w) after (fun _ => after) n.sweeps) }))
          exec (.vectorTileSet c i) s = .next (checkResidue c (benchSite (t.ctx c) i)
            (checkOp m i (tileOrdinal (vecExt m st.tensor) xy)) ((bodyOf (vecProgram m st)).flatMap (fun w => laneTaps (vecOpc w)))
              (e.2.filterMap id) t))))) ∧
  (∀ (s : State) (c : CtxId) (i : Nat) (m : Image) (st : Station) (out : TileXY), Acting s c i kVECTOR m st →
    let due (w : Sweep) : Bool := w.out == out && w.processed && w.late.isEmpty
    ((s.ctx c).room m i 1 = false ∨ hasVend m st = false ∨ ((s.ctx c).stn i).sweeps.find? due = none →
      exec (.sweepFinal c i out) s = .next s) ∧
    (∀ w, (s.ctx c).room m i 1 = true → hasVend m st = true → ((s.ctx c).stn i).sweeps.find? due = some w →
      let r := runRows m st (finalOf (vecProgram m st)) (startUnit m st w out true [none, none, none])
      let t := s.modCtx c (fun x => (emitVec i m st 1 out [] (rowsFlat r.1.out1) false (countLoads r.2 x)).modStn i (fun n =>
        { n with unit := r.1, sweeps := dropSweep due n.sweeps }))
      exec (.sweepFinal c i out) s = .next (checkResidue c (benchSite (t.ctx c) i)
        (checkOp m i (tileOrdinal (vecExt m st.tensor2) out)) ((finalOf (vecProgram m st)).flatMap (fun w => laneTaps (vecOpc w))) [] t))) ∧
  (∀ (s : State) (c : CtxId) (i : Nat) (m : Image) (st : Station) (p : Fin 3), Acting s c i kVECTOR m st →
    (p.val = 0 ∨ portMode st p.val ≠ 1 → exec (.mode1Tile c i p) s = .next s) ∧
    (p.val ≠ 0 → portMode st p.val = 1 →
      (∀ u, takeTile c m i p.val s = (none, u) → exec (.mode1Tile c i p) s = .next u) ∧
      (∀ t u, takeTile c m i p.val s = (some t, u) →
        let ext := vecExt m st.tensor
        (sweepInGrid st ext t.xy = false → exec (.mode1Tile c i p) s = .next (violate c 0x0801 u)) ∧
        (sweepInGrid st ext t.xy = true → readsMode1 m st p.val = false → exec (.mode1Tile c i p) s = .next u) ∧
        (sweepInGrid st ext t.xy = true → readsMode1 m st p.val = true →
          let free (w : Sweep) : Bool := w.out == t.xy && (if p.val = 1 then w.p1.isNone else w.p2.isNone)
          exec (.mode1Tile c i p) s = .next (u.modCtx c (fun x => x.modStn i (fun n => { n with
            sweeps := updSweep free (newSweep t.xy (sweepOf st ext t.xy).2.1)
              (fun w => if p.val = 1 then { w with p1 := some t } else { w with p2 := some t }) n.sweeps })))))))

/-- The next row-set tile is scored, sampled and issued in ascending ordinal; a scan keeps and sends candidates; a prune
edits its unit and writes the staged metadata, which under FRZA is that in force with its transposed copy; transposed metadata
goes out band by band. (R154, R161, R164, R165, R166, R171, R173, R174, R175, R176, R177) -/
def Obligations.ScribeStations : Prop :=
  (∀ (s : State) (c : CtxId) (i : Nat) (m : Image) (st : Station) (q : PredInfo), Acting s c i kSCRIBE m st →
    st.o 0 1 = 0 → predInfo m st = some q →
    ((s.ctx c).room m i 0 = false → exec (.scribePredict c i) s = .next s) ∧
    ((s.ctx c).room m i 0 = true → ∀ u, stageHeld c m i s = u →
      let x := u.ctx c
      let n := x.stn i
      (lowestDue (predDue q n) = none → exec (.scribePredict c i) s = .next u) ∧
      (∀ ord xy, lowestDue (predDue q n) = some (ord, xy) →
        (n.next < ord → portEnded x m i 0 = false → exec (.scribePredict c i) s = .next u) ∧
        (ord ≤ n.next ∨ portEnded x m i 0 = true →
          let spans := viewSpans (plainView x m q.layer q.ui q.u) (rowTiles q.u (List.range q.u.nt1)) ++
            viewSpans (plainView x m q.layer q.vi q.v) (rowTiles q.v [xy.tc])
          (∀ w, access c (reqStation i) false false spans u = (none, w) → exec (.scribePredict c i) s = .next w) ∧
          (∀ tab w0, access c (reqStation i) false false spans u = (some tab, w0) →
            let y := w0.ctx c
            let w := checkPredict c i m xy w0
            let xs := ((List.range (ceilDiv (q.w.ext 0) 32)).filterMap (fun tc =>
              (y.stn i).held.find? (fun t => t.xy == ⟨xy.tr, tc, xy.x2, xy.x3⟩))).map asE2m1
            let r := scoreTile x m q xs xy.tc tab w
            let skipped := skippedRows q (fpVal (x.liveAt idPredThresh i ord)) xs xy.tc r.vals
            (skipped.filter (fun v => isSampled x q.w (x.liveAt idShadowShare i ord).toNat xy.tr (32 * xy.tc + v)) = [] →
              exec (.scribePredict c i) s = .next ((chargeRead c tab spans w).modCtx c (emitRowSet i m q ord xy
                (rowSetOf q (fpVal (x.liveAt idPredThresh i ord)) xs xy.tc skipped [] r none)))) ∧
            exec (.scribePredict c i) s = .next (issueRowSet c i m q ord xy u)))))) ∧
  (∀ (s : State) (c : CtxId) (i : Nat) (m : Image) (st : Station) (w : TensorRec) (k : MaskRec), Acting s c i kSCRIBE m st →
    m.tensor st.tensor = some w → m.masks[w.mask]? = some k →
    let d := sparseDim w k
    (st.o 0 1 = 2 → let sp := reduceSpans (s.ctx c) m st w
      (∀ u, access c (reqStation i) false false (sp.1 ++ sp.2) s = (none, u) → exec (.regrowthScan c i) s = .next u) ∧
      (∀ tab u, access c (reqStation i) false false (sp.1 ++ sp.2) s = (some tab, u) →
        let sent (v : State) : State := v.modCtx c (fun x => (sendCands i m w (List.range (scanUnits w)) x).modStn i (fun n =>
          { n with fin := (List.range (scanUnits w)).all (fun u => n.cands.any (fun q => q.unit == u && q.sent)) }))
        (∀ v, takeTile c m i 0 (chargeRead c tab (sp.1 ++ sp.2) u) = (none, v) → exec (.regrowthScan c i) s = .next (sent v)) ∧
        (∀ t v, takeTile c m i 0 (chargeRead c tab (sp.1 ++ sp.2) u) = (some t, v) →
          let rows := bandRows d (readMeta (u.ctx c) tab u d k w.mask).1 t.xy.tr
          exec (.regrowthScan c i) s = .next (sent (v.modCtx c (fun x => (countBand i t.xy.tr rows.2.1 rows.2.2 x).modStn i (fun n =>
            { n with cands := addCands w x.ag.regrowK.toNat (sp.2.flatMap (readSpan tab u)) rows.1 t n.cands }))))))) ∧
    (st.o 0 1 = 1 → ∀ b q, pruneInfo (s.ctx c) m st.tensor w = some q →
      let v := takePruneInputs c m i s
      let sp := reduceSpans (v.ctx c) m st w
      (∀ u, access c (reqStation i) false false (sp.1 ++ sp.2) v = (none, u) → exec (.pruneUnit c i b) s = .next u) ∧
      (∀ tab u, access c (reqStation i) false false (sp.1 ++ sp.2) v = (some tab, u) →
        let base := (readMeta (u.ctx c) tab u d k w.mask).1
        let bands := (List.range d.bands).map (bandRows d base)
        let e : EditIn := ⟨q, k, d, bands.map (·.1), base, (readMeta (u.ctx c) tab u d k w.mask).2, sp.2.flatMap (readSpan tab u)⟩
        let z := (chargeRead c tab (sp.1 ++ sp.2) u).modCtx c (fun x =>
          bands.zipIdx.foldl (fun y b => countBand i b.2 b.1.2.1 b.1.2.2 y) x)
        exec (.pruneUnit c i b) s = .next (finishPrune c i m e (editUnit c i m e b z)) ∧
        (((z.ctx c).stn i).units.contains b = true → exec (.pruneUnit c i b) s = .next (finishPrune c i m e z)) ∧
        (w.mode mFRZA = true → ((z.ctx c).stn i).units.contains b = false → b < unitCount w →
          unitCount w ≤ ((z.ctx c).stn i).units.length + 1 → ∀ y,
          let copy := 1 - (z.ctx c).maskGen w.mask % 2
          putMany c (reqStation i) false ((metaVaOf d k copy, e.base) ::
            (if e.baseT.isEmpty then [] else [(metaTVaOf d k copy, e.baseT)])) z = (true, y) → q.w = w →
          exec (.pruneUnit c i b) s = .next (finishPrune c i m e
            (y.modCtx c (fun x => x.modStn i (fun n => { n with units := n.units ++ [b] }))))))) ∧
    (st.o 0 1 = 3 →
      let v := s.each (List.range (waitingOn (s.ctx c) m i 0)) (fun _ t => (takeTile c m i 0 t).2)
      (((v.ctx c).stn i).fin = true ∨ (v.ctx c).room m i 0 = false → exec (.transposeMeta c i) s = .next v) ∧
      (((v.ctx c).stn i).fin = false → (v.ctx c).room m i 0 = true →
        (m.fed i 1 = true → ∀ t b u, takeTile c m i 1 v = (some t, u) → t.payload = .band b →
          exec (.transposeMeta c i) s = .next (u.modCtx c (emitDerived i m d b))) ∧
        (m.fed i 1 = true → ∀ u, takeTile c m i 1 v = (none, u) → exec (.transposeMeta c i) s = .next u) ∧
        (m.fed i 1 = false →
          let sp : Span := ⟨metaVaOf d k ((v.ctx c).maskGen w.mask % 2), d.span⟩
          (∀ u, access c (reqStation i) false false [sp] v = (none, u) → exec (.transposeMeta c i) s = .next u) ∧
          (∀ tab u b, access c (reqStation i) false false [sp] v = (some tab, u) →
            (bandMetas d (readSpan tab u sp) [])[((u.ctx c).stn i).next]? = some b →
            exec (.transposeMeta c i) s = .next ((chargeRead c tab [sp] u).modCtx c (emitDerived i m d b)))))))

/-- An input tile opens the instance, enters the contribution digest and is held for the exchange, a repeated one is 0x0C03, and a
contribution replay only digests; the exchange begins when the gradient is whole and then takes the tiles held. (R21, R144, R261,
R263, R266, R268, R270, R279, R309, R321) -/
def Obligations.ReduceInputs : Prop :=
  (∀ (s : State) (c : CtxId) (i : Nat) (m : Image) (st : Station) (w : TensorRec), Acting s c i kREDUCE m st →
    m.tensor st.tensor = some w →
    let x := s.ctx c
    let sp := reduceSpans x m st w
    let alone : Prop := x.wit.replaying = true ∧ x.wit.mode = 2 ∧ st.o 0 1 ≠ 2
    (x.peek m i 0 = none → (x.stn i).held = [] → exec (.reduceInputTile c i) s = .next (reduceProgress c i m st s)) ∧
    (x.peek m i 0 ≠ none ∨ (x.stn i).held ≠ [] →
      (∀ u, access c (reqStation i) false false (sp.1 ++ sp.2) s = (none, u) → exec (.reduceInputTile c i) s = .next u) ∧
      (∀ tab u, access c (reqStation i) false false (sp.1 ++ sp.2) s = (some tab, u) →
        let shape := shapeOf (u.ctx c) m w tab u
        let frozen := sp.2.flatMap (readSpan tab u)
        let z := (chargeRead c tab (sp.1 ++ sp.2) u).modCtx c (useBands i false (reduceMetas (u.ctx c) m w tab u))
        (alone → ∀ t v, takeTile c m i 0 z = (some t, v) →
          exec (.reduceInputTile c i) s = .next (takeReduce c i st w shape true t v)) ∧
        (¬ alone →
          let o := if ((z.ctx c).inst i (baseSubject st)).isNone then openStation c i m st w shape z else z
          (∀ v, takeTile c m i 0 o = (none, v) → exec (.reduceInputTile c i) s = .next (runReduce c i m st w shape frozen v)) ∧
          (∀ t v, takeTile c m i 0 o = (some t, v) → exec (.reduceInputTile c i) s =
            .next (runReduce c i m st w shape frozen (takeReduce c i st w shape false t v))))))) ∧
  (∀ (s : State) (c : CtxId) (i : Nat) (st : Station) (w : TensorRec) (shape : List ShapeTile) (t : Tile),
    let seen := ((s.ctx c).stn i).seen
    let noted := s.modCtx c (fun x => x.modStn i (fun n => { n with seen := n.seen ++ [t.xy] }))
    let digested := if st.o 0 1 = 2 then noted
      else noted.modCtx c (foldContrib (unitCrc w.tensorId 6 0 (inputOrdinal w shape t.xy) (tileBytes t)))
    (seen.contains t.xy = true → ∀ alone, takeReduce c i st w shape alone t s = violate c 0x0C03 s) ∧
    (seen.contains t.xy = false →
      takeReduce c i st w shape false t s = digested.modCtx c (fun x => x.modStn i (fun n => { n with held := n.held ++ [t] })) ∧
      takeReduce c i st w shape true t s = (if shape.all (fun k => ((digested.ctx c).stn i).seen.contains k.xy)
        then digested.modCtx c (fun x => x.modStn i (fun n => { n with fin := true })) else digested))) ∧
  (∀ (s : State) (c : CtxId) (i : Nat) (m : Image) (st : Station) (w : TensorRec) (shape : List ShapeTile) (frozen : List Byte),
    (gradientDone (s.ctx c) m i = false → runReduce c i m st w shape frozen s = s) ∧
    (gradientDone (s.ctx c) m i = true → ∀ n, (s.ctx c).inst i (baseSubject st) = some n → n.begun = true →
      (((s.ctx c).stn i).held = [] → runReduce c i m st w shape frozen s =
        reduceProgress c i m st (s.modCtx c (fun x => x.modStn i (fun n => { n with held := [] })))) ∧
      (∀ t k, ((s.ctx c).stn i).held = [t] → shape.find? (fun k => k.xy == t.xy) = some k → t.side = [] →
        let u := s.modCtx c (fun x => x.modStn i (fun n => { n with held := [] }))
        runReduce c i m st w shape frozen s =
          reduceProgress c i m st (takeInput c i m st w k t (shapePresent (u.ctx c) w st.tensor frozen k t) u))) ∧
    (∀ n, (s.ctx c).inst i (baseSubject st) = some n → n.begun = false → n.nan = false →
      beginInst c i (baseSubject st) s = startInst c n s))

/-- JOIN, ACCEPT, SCALE, DATA, GATHER, PAUSE, RESUME and DIGEST on a live context and on a pre-empted one, packets of no
formed group, and repeated JOINs; a packet that its receiver has accepted before is discarded. (R257, R262, R263, R264, R266,
R269, R272, R315, R316, R381, R382) -/
def Obligations.CollectivePackets : Prop :=
  ((∀ (s : State) (c : CtxId) (i r : Nat), ctxLive s c = true →
    exec (.joinRepeat c i r) s = .next (s.each ((s.ctx c).insts.filter (fun n => n.st == i && n.step == (s.ctx c).step && n.begun && !n.nan &&
      n.partners.contains r && !n.accepted.contains r)) (fun n t => sendColl c r tJOIN (instHdr n) [] t))) ∧
  (∀ (s : State) (l : LinkId) (dst : U16) (h : CollHdr), mayWork s = true →
    (groupCtx s h.groupId dst.toNat = none → exec (.join l dst h) s = .next (countStray s) ∧
      exec (.accept l dst h) s = .next (countStray s)) ∧
    (∀ c, groupCtx s h.groupId dst.toNat = some c →
      let x := s.ctx c
      let key := (h.groupId, h.srcRank.toNat, h.seq)
      let fresh := s.setCtx c { x with seqIn := x.seqIn ++ [key] }
      (key ∈ x.seqIn → exec (.join l dst h) s = .next s ∧ (x.parked = false → exec (.accept l dst h) s = .next s)) ∧
      (key ∉ x.seqIn → x.parked = true → exec (.join l dst h) s = .next (fresh.modCtx c (holdJoin l h))) ∧
      (key ∉ x.seqIn → x.parked = false →
        let found := x.insts.find? (fun n => joinKey h n && n.begun && !n.nan)
        (∀ n, found = some n → h.generation = n.gen → h.hash64 = n.hash64 → h.size.toNat + 1 = n.size →
          exec (.join l dst h) s = .next (sendColl c h.srcRank.toNat tACCEPT (instHdr n) [] fresh)) ∧
        (∀ n, found = some n → (h.generation ≠ n.gen ∨ h.hash64 ≠ n.hash64 ∨ h.size.toNat + 1 ≠ n.size) →
          exec (.join l dst h) s = .next (countRefuse c s)) ∧
        (found = none → x.step ≤ h.step → exec (.join l dst h) s = .next (fresh.modCtx c (holdJoin l h))) ∧
        (found = none → h.step < x.step → exec (.join l dst h) s = .next s) ∧
        (x.insts.find? (fun n => joinKey h n && !n.nan) = none → exec (.accept l dst h) s = .next fresh) ∧
        (∀ n m, x.insts.find? (fun n => joinKey h n && !n.nan) = some n → x.active = some m →
          let r := h.srcRank.toNat
          (n.accepted.contains r = true ∨ n.partners.contains r = false → exec (.accept l dst h) s = .next fresh) ∧
          (n.accepted.contains r = false → n.partners.contains r = true →
            let t := fresh.modCtx c (fun x => { x with
              insts := x.insts.map (fun k => if joinKey h k then { k with accepted := k.accepted ++ [r] } else k) })
            exec (.accept l dst h) s = .next (t.each n.blocks (fun b u =>
              sendGather c n (instNb m (m.station n.st) n) (reduceFmt (t.ctx c) m n.st (m.station n.st)) b r
                (sendData c n (instNb m (m.station n.st) n) b r (sendScale c n b r u)))))))))) ∧
  (∀ (s : State) (c : CtxId) (l : LinkId) (dst : U16) (h : CollHdr), mayWork s = true →
    groupCtx s h.groupId dst.toNat = some c → (s.ctx c).parked = false →
    let key := (h.groupId, h.srcRank.toNat, h.seq)
    let x := s.ctx c
    let t := s.setCtx c { x with seqIn := x.seqIn ++ [key] }
    (x.seqIn.contains key = true → ∀ recs sums bytes, exec (.scale l dst h recs) s = .next s ∧
      exec (.data l dst h sums) s = .next s ∧ exec (.gather l dst h bytes) s = .next s) ∧
    (∀ n m, x.seqIn.contains key = false → packetInst x h = some n → x.active = some m →
      (h.step ≠ n.step ∨ h.generation ≠ n.gen ∨ h.hash64 ≠ n.hash64 → ∀ recs sums bytes,
        exec (.scale l dst h recs) s = .next (packetMismatch c l h s) ∧ exec (.data l dst h sums) s = .next (packetMismatch c l h s) ∧
        exec (.gather l dst h bytes) s = .next (packetMismatch c l h s)) ∧
      (h.step = n.step → h.generation = n.gen → h.hash64 = n.hash64 →
        let st := m.station n.st
        (∀ recs, exec (.scale l dst h recs) s = .next (reduceProgress c n.st m st
          (t.each ((packetBlocks h).zip recs) (fun p u => addRecord c n.st n.subject p.1 p.2 h.contrib.toNat u)))) ∧
        (∀ sums, exec (.data l dst h sums) s = .next (reduceProgress c n.st m st
          (t.each (packetBlocks h).zipIdx (fun p u => checkResidue c (.link l) (blockOp m n p.1) tapG2 []
            (addSums c n.st n.subject p.1 ((sums.drop (32 * p.2)).take 32) h.contrib.toNat u))))) ∧
        (∀ bytes, let len := 4 * fmtBits h.format.toNat + b2n (isMx h.format.toNat)
          exec (.gather l dst h bytes) s = .next (reduceProgress c n.st m st (t.each (packetBlocks h).zipIdx (fun p u =>
            u.modCtx c (fun x => x.modInst n.st n.subject (fun k => k.modBlock p.1 (fun q =>
              { q with bytes := some ((bytes.drop (len * p.2)).take len) }))))))))) ∧
    (x.seqIn.contains key = true → exec (.pause l dst h) s = .next s ∧ exec (.resume l dst h) s = .next s) ∧
    (∀ p, p = (h.groupId, h.srcRank.toNat) → x.seqIn.contains key = false →
      (x.pausedBy.contains p = true → exec (.pause l dst h) s = .next t) ∧
      (x.pausedBy.contains p = false →
        exec (.pause l dst h) s = .next (t.modCtx c (fun y => { y with pausedBy := y.pausedBy ++ [p] }))) ∧
      (let mine (q : U32 × Nat × U64 × List Byte) : Bool := q.1 == h.groupId && q.2.1 == h.srcRank.toNat
       exec (.resume l dst h) s = .next ((t.modCtx c (fun x =>
        { x with pausedBy := x.pausedBy.filter (fun q => q != p), heldPackets := x.heldPackets.filter (fun q => !mine q) })).each
          (x.heldPackets.filter mine) (fun q u => sendPacket q.2.2.1 1 q.2.2.2 u)))) ∧
    (∀ m d a, x.active = some m →
      (x.seqIn.contains key = true → exec (.digest l dst h d a) s = .next s) ∧
      (x.seqIn.contains key = false → h.generation ≠ m.generation ∨ h.hash64 ≠ hash64Of m →
        exec (.digest l dst h d a) s = .next (countRefuse c s)) ∧
      (x.seqIn.contains key = false → h.generation = m.generation → h.hash64 = hash64Of m →
        (h.step < x.step → exec (.digest l dst h d a) s = .next s) ∧
        (x.step ≤ h.step → exec (.digest l dst h d a) s =
          .next (t.modCtx c (fun y => compareDigests (holdDigest h.groupId h.srcRank.toNat h.step d a y)))))) ∧
    (x.wit.replicaGroup = 0xFFFFFFFF → digestPeers x = [])) ∧
  (∀ (s : State) (c : CtxId) (l : LinkId) (dst : U16) (h : CollHdr), mayWork s = true →
    (groupCtx s h.groupId dst.toNat = none → ∀ recs sums bytes d a,
      ∀ cmd ∈ [Instr.scale l dst h recs, .data l dst h sums, .gather l dst h bytes, .pause l dst h, .resume l dst h, .digest l dst h d a],
        exec cmd s = .next (countStray s)) ∧
    (groupCtx s h.groupId dst.toNat = some c → (s.ctx c).busy = true → ∀ recs sums bytes,
      ∀ cmd ∈ [Instr.accept l dst h, .scale l dst h recs, .data l dst h sums, .gather l dst h bytes], exec cmd s = .next s) ∧
    (groupCtx s h.groupId dst.toNat = some c → (s.ctx c).parked = true → (s.ctx c).busy = false → ∀ recs sums bytes,
      exec (.accept l dst h) s = .next (parkPacket c (.accept l dst h) tACCEPT h [] s) ∧
      exec (.scale l dst h recs) s = .next (parkPacket c (.scale l dst h recs) tSCALE h (scaleBody h recs) s) ∧
      exec (.data l dst h sums) s = .next (parkPacket c (.data l dst h sums) tDATA h (dataBody h sums) s) ∧
      exec (.gather l dst h bytes) s = .next (parkPacket c (.gather l dst h bytes) tGATHER h bytes s)) ∧
    (groupCtx s h.groupId dst.toNat = some c → (s.ctx c).parked = true → ∀ m d a, (s.ctx c).active = some m →
      h.generation = m.generation → h.hash64 = hash64Of m → (s.ctx c).step ≤ h.step →
      (h.groupId, h.srcRank.toNat, h.seq) ∉ (s.ctx c).seqIn →
      exec (.digest l dst h d a) s = .next (s.modCtx c (fun x => holdDigest h.groupId h.srcRank.toNat h.step d a
        { x with seqIn := x.seqIn ++ [(h.groupId, h.srcRank.toNat, h.seq)] }))))

/-- A record block is updated once its gradient tile is there, from copy N mod 2 into the other copy, a block with no
updated element is only noted, and the statistics are written when every due block is done. (R144, R282, R287, R291, R292,
R293, R295, R297) -/
def Obligations.UpdatedBlocks : Prop :=
  ∀ (s : State) (c : CtxId) (i b : Nat) (m : Image) (st : Station) (q : UpdInfo), Acting s c i kUPDATE m st →
    updInfo (s.ctx c) m i = some q →
    let v := takeGrads c m i (!q.w.mode mFRZA) (waitingOn (s.ctx c) m i 0) s
    let sp := reduceSpans (v.ctx c) m st q.w
    (q.w.mode mFRZA = true → exec (.updateBlock c i b) s = .next v) ∧
    (q.w.mode mFRZA = false →
      (∀ u, access c (reqStation i) false false (sp.1 ++ sp.2) v = (none, u) → exec (.updateBlock c i b) s = .next u) ∧
      (∀ tab u, access c (reqStation i) false false (sp.1 ++ sp.2) v = (some tab, u) →
        let shape := shapeOf (u.ctx c) m q.w tab u
        let frozen := sp.2.flatMap (readSpan tab u)
        let w := (chargeRead c tab (sp.1 ++ sp.2) u).modCtx c (useBands i false (reduceMetas (u.ctx c) m q.w tab u))
        let x := w.ctx c
        let held := (x.stn q.stn).held
        let done (t : State) : Host.Outcome State Fault Refusal :=
          .next ((finishUpdate c m q frozen shape t).modCtx c (noteAmid q frozen shape))
        (findBlock shape b = none → exec (.updateBlock c i b) s = done w) ∧
        (∀ g, findBlock shape b = some g →
          (held.find? (fun t => t.xy == g.k.xy) = none → exec (.updateBlock c i b) s = done w) ∧
          (∀ t, held.find? (fun t => t.xy == g.k.xy) = some t →
            let exact := q.u.rule == 2 && bitOf q.u.flags 0
            (x.updated q.ix b = true → exec (.updateBlock c i b) s = done w) ∧
            (x.updated q.ix b = false → exact = true → portEnded x m q.stn 0 = false → exec (.updateBlock c i b) s = done w) ∧
            (x.updated q.ix b = false → exact = false ∨ portEnded x m q.stn 0 = true →
              ((q.owns b && (List.range 32).any (fun e => eligible q frozen g.k t (32 * g.row + e))) = false →
                exec (.updateBlock c i b) s = done (w.modCtx c (fun x => { x with updates := x.updates ++ [(q.ix, b, false)] }))) ∧
              ((q.owns b && (List.range 32).any (fun e => eligible q frozen g.k t (32 * g.row + e))) = true →
                let near := if q.u.rule = 4 then
                    ([2 * (g.row / 2), 2 * (g.row / 2) + 1]).filterMap (fun y => g.k.blocks.getD y none) else [b]
                let row := 32 * g.k.xy.tr + g.row
                let recs := (near.filter q.owns).map (fun n => (⟨q.recVa x.parity n, q.rb⟩ : Span))
                let reads := recs ++ statReads q x shape row
                let spans := recs ++ q.statAccess x.parity row
                (∀ z, access c (reqStation q.stn) false false spans w = (none, z) → exec (.updateBlock c i b) s = done z) ∧
                (∀ tabR z, access c (reqStation q.stn) false false spans w = (some tabR, z) → q.u.rule ≠ 2 →
                  exec (.updateBlock c i b) s = done (writeBlock c m q ⟨t, g, frozen, shape, tabR⟩ reads ⟨false, 0, [], []⟩ z)) ∧
                (∀ tabR z, access c (reqStation q.stn) false false spans w = (some tabR, z) → q.u.rule = 2 →
                  let old := readStats q tabR z x.parity
                  let stats := if exact then nextStats q (hyperOf x.ag q.u.hpSet).b2 old (heldGrads q frozen shape held) else old
                  let z' := if exact && (rowsDone q x shape).isEmpty then checkStats c m q z else z
                  exec (.updateBlock c i b) s = done (writeBlock c m q ⟨t, g, frozen, shape, tabR⟩ reads stats z'))))))))

/-- After a write every byte written reads as written and every other byte reads as before, and a read of n bytes is the n
single bytes. (R360, R361) -/
def Obligations.MemoryReadsBack : Prop :=
  (∀ (m : List Host.Cell) (a : Nat) (bs : List Byte), Memory.wf m = true →
    (∀ k v, bs[k]? = some v → memGet (memWrite m a bs) (a + k) = v) ∧
    (∀ b, b < a ∨ a + bs.length ≤ b → memGet (memWrite m a bs) b = memGet m b)) ∧
  (∀ (m : List Host.Cell) (a n : Nat), Memory.wf m = true → memRead m a n = (List.range n).map (fun k => memGet m (a + k)))
end

