-- ==== Sys2Proof/Laws/Memory.lean ====
section
/-! SUPPORT. Memory: a write keeps the canonical form, and a read after a write gives the bytes written and every other byte as
before. -/

namespace Sys2Proof.Machine

open Sys2Proof

theorem Memory.wf_iff (m : List Host.Cell) :
    Memory.wf m = true ↔ (∀ p ∈ m, p.2 ≠ memDefault) ∧ m.Pairwise (fun p q => p.1 < q.1) := by
  simp [Memory.wf]

theorem memCells_addr (bs : List Byte) : ∀ (a : Nat), ∀ p ∈ memCells a bs, a ≤ p.1 ∧ p.1 < a + bs.length ∧ p.2 ≠ memDefault := by
  induction bs with
  | nil => intro a p h; simp [memCells] at h
  | cons b bs ih =>
    intro a p h
    simp only [memCells] at h
    simp only [List.length_cons]
    split at h
    · have := ih (a + 1) p h; exact ⟨by omega, by omega, this.2.2⟩
    · rcases List.mem_cons.1 h with rfl | h
      · simp; assumption
      · have := ih (a + 1) p h; exact ⟨by omega, by omega, this.2.2⟩

theorem memCells_pairwise (bs : List Byte) : ∀ (a : Nat), (memCells a bs).Pairwise (fun p q => p.1 < q.1) := by
  induction bs with
  | nil => intro a; simp [memCells]
  | cons b bs ih =>
    intro a
    simp only [memCells]
    split
    · exact ih (a + 1)
    · exact List.pairwise_cons.2 ⟨fun p h => by have := memCells_addr bs (a + 1) p h; simp; omega, ih (a + 1)⟩

theorem memTake_addr (n : Nat) : ∀ (m : List Host.Cell), ∀ p ∈ m.takeWhile (fun p => decide (p.1 < n)), p.1 < n := by
  intro m
  induction m with
  | nil => intro p h; simp at h
  | cons c m ih =>
    intro p h
    rw [List.takeWhile_cons] at h
    split at h
    · rename_i hc
      rcases List.mem_cons.1 h with rfl | h
      · simpa using hc
      · exact ih p h
    · simp at h

theorem memDrop_addr (n : Nat) : ∀ (m : List Host.Cell), m.Pairwise (fun p q => p.1 < q.1) →
    ∀ p ∈ m.dropWhile (fun p => decide (p.1 < n)), n ≤ p.1 := by
  intro m
  induction m with
  | nil => intro _ p h; simp at h
  | cons c m ih =>
    intro w p h
    rw [List.dropWhile_cons] at h
    split at h
    · exact ih (List.pairwise_cons.1 w).2 p h
    · rename_i hc
      simp at hc
      rcases List.mem_cons.1 h with rfl | h
      · exact hc
      · have := (List.pairwise_cons.1 w).1 p h; omega

/-- Every write keeps the canonical form. -/
theorem memWrite_wf (m : List Host.Cell) (a : Nat) (bs : List Byte) (h : Memory.wf m = true) : Memory.wf (memWrite m a bs) = true := by
  rw [Memory.wf_iff] at h ⊢
  obtain ⟨hz, hp⟩ := h
  have hd : ∀ p ∈ m.dropWhile (fun p => decide (p.1 < a + bs.length)), p ∈ m := fun p q => (List.dropWhile_suffix _).subset q
  have ht : ∀ p ∈ m.takeWhile (fun p => decide (p.1 < a)), p ∈ m ∧ p.1 < a := fun p q =>
    ⟨(List.takeWhile_prefix _).subset q, memTake_addr a m p q⟩
  have ha := memDrop_addr (a + bs.length) m hp
  refine ⟨fun p q => ?_, ?_⟩
  · simp only [memWrite, List.mem_append] at q
    rcases q with (q | q) | q
    · exact hz p (ht p q).1
    · exact (memCells_addr bs a p q).2.2
    · exact hz p (hd p q)
  · simp only [memWrite, List.pairwise_append]
    refine ⟨⟨hp.sublist (List.takeWhile_prefix _).sublist, memCells_pairwise bs a, fun p q p' q' => ?_⟩,
      hp.sublist (List.dropWhile_suffix _).sublist, fun p q p' q' => ?_⟩
    · have := (ht p q).2; have := (memCells_addr bs a p' q').1; omega
    · have h2 := ha p' q'
      rcases List.mem_append.1 q with q | q
      · have := (ht p q).2; omega
      · have := (memCells_addr bs a p q).2.1; omega

end Sys2Proof.Machine
end

