-- ==== Sys2Proof/Laws/Ports.lean ====
section
/-! SUPPORT. What the ports of commands do: a write to a context window, to the global region, to a function block; a
station's command. -/

namespace Sys2Proof.Machine

open Sys2Proof

theorem ctxPort_open {s : State} {fn : FnId} {c : CtxId} (h : WindowOpen s fn c) (cmd : Instr) (act : State → State) :
    ctxPort fn c cmd act s = act s := by
  simp [ctxPort, writeInOrder, h.up, h.reach, h.ready, h.clear]

theorem ctxPort_closed {s : State} {fn : FnId} {c : CtxId} (h : hostUp s = false ∨ fnReaches s fn c = false) (cmd : Instr)
    (act : State → State) : ctxPort fn c cmd act s = s := by
  rcases h with h | h <;> simp [ctxPort, h]

/-- A window write waits where the context is in reset or an earlier write of the function waits. -/
theorem ctxPort_held {s : State} {fn : FnId} {c : CtxId} (hu : hostUp s = true) (hr : fnReaches s fn c = true)
    (hb : (s.ctx c).busy = true ∨ (s.func fn).heldWrites ≠ []) (cmd : Instr) (act : State → State) :
    ctxPort fn c cmd act s = holdWrite fn cmd s := by
  rcases hb with h | h <;> simp [ctxPort, writeInOrder, hu, hr, h]

theorem glbPort_open {s : State} {fn : FnId} (h : GlobalOpen s fn) (cmd : Instr) (act : State → State) :
    glbPort fn cmd act s = act s := by
  have hc := h.clear
  rw [h.pf0] at hc
  simp [glbPort, writeInOrder, h.up, h.pf0, hc]

theorem glbPort_closed {s : State} {fn : FnId} (h : hostUp s = false ∨ fn ≠ 0) (cmd : Instr) (act : State → State) :
    glbPort fn cmd act s = s := by
  rcases h with h | h <;> simp [glbPort, h]

theorem glbPort_held {s : State} {fn : FnId} (hu : hostUp s = true) (h0 : fn = 0) (hh : (s.func fn).heldWrites ≠ [])
    (cmd : Instr) (act : State → State) : glbPort fn cmd act s = holdWrite fn cmd s := by
  subst h0
  simp [glbPort, writeInOrder, hu, hh]

theorem rstPort_open {s : State} {fn : FnId} (h : RequestOpen s fn) (act : State → State) : rstPort fn act s = act s := by
  simp [rstPort, h.up, h.pf0]

theorem rstPort_closed {s : State} {fn : FnId} (h : hostUp s = false ∨ fn ≠ 0) (act : State → State) : rstPort fn act s = s := by
  rcases h with h | h <;> simp [rstPort, h]

theorem fnPort_open {s : State} {fn : FnId} (h : BlockOpen s fn) (cmd : Instr) (act : State → State) :
    fnPort fn cmd act s = act s := by
  simp [fnPort, writeInOrder, h.up, h.fnOk, h.clear]

/-- A window write that acts answers what the act gives. -/
theorem next_ctxPort {s t : State} {fn : FnId} {c : CtxId} (h : WindowOpen s fn c) {cmd : Instr} {act : State → State} (e : act s = t) :
    (.next (ctxPort fn c cmd act s) : Host.Outcome State Fault Refusal) = .next t := by
  rw [ctxPort_open h, e]

/-- A write to the global region that acts answers what the act gives. -/
theorem next_glbPort {s t : State} {fn : FnId} (h : GlobalOpen s fn) {cmd : Instr} {act : State → State} (e : act s = t) :
    (.next (glbPort fn cmd act s) : Host.Outcome State Fault Refusal) = .next t := by
  rw [glbPort_open h, e]

/-- A request for a reset that acts answers what the act gives. -/
theorem next_rstPort {s t : State} {fn : FnId} (h : RequestOpen s fn) {act : State → State} (e : act s = t) :
    (.next (rstPort fn act s) : Host.Outcome State Fault Refusal) = .next t := by
  rw [rstPort_open h, e]

/-- A station that the bounds leave where it is stays there. -/
theorem atTile_settled {s : State} {c : CtxId} {m : Image} {i : Nat} (h : (s.ctx c).maySit s.glb m i = true) :
    atTile c m i s = s := by simp [atTile, h]

theorem withStation_acting {s : State} {c : CtxId} {i k : Nat} {m : Image} {st : Station} (h : Acting s c i k m st)
    (act : Image → Station → State → State) : withStation c i k act s = act m st s := by
  simp [withStation, h.runs, h.image, h.record, h.kind, h.bench, h.works, h.free, atTile_settled h.settled]

theorem withStation_rests {s : State} {c : CtxId} {i k : Nat} (h : stationsRun s c = false) (act : Image → Station → State → State) :
    withStation c i k act s = s := by
  simp [withStation, h]

end Sys2Proof.Machine
end

