-- ==== Sys2Proof/Laws/State.lean ====
section
/-! SUPPORT. What each update of one part of the state leaves: one lemma for each field. -/

namespace Sys2Proof.Machine

open Sys2Proof

@[simp] theorem setCtx_pending (s : State) (c : CtxId) (x : Ctx) : (s.setCtx c x).pending = s.pending := rfl
@[simp] theorem setCtx_draws (s : State) (c : CtxId) (x : Ctx) : (s.setCtx c x).draws = s.draws := rfl
@[simp] theorem setCtx_links (s : State) (c : CtxId) (x : Ctx) : (s.setCtx c x).links = s.links := rfl
@[simp] theorem setCtx_barriers (s : State) (c : CtxId) (x : Ctx) : (s.setCtx c x).barriers = s.barriers := rfl
@[simp] theorem setCtx_funcs (s : State) (c : CtxId) (x : Ctx) : (s.setCtx c x).funcs = s.funcs := rfl
@[simp] theorem setCtx_glb (s : State) (c : CtxId) (x : Ctx) : (s.setCtx c x).glb = s.glb := rfl
@[simp] theorem setCtx_mgt (s : State) (c : CtxId) (x : Ctx) : (s.setCtx c x).mgt = s.mgt := rfl
@[simp] theorem setCtx_sec (s : State) (c : CtxId) (x : Ctx) : (s.setCtx c x).sec = s.sec := rfl
@[simp] theorem setCtx_pwr (s : State) (c : CtxId) (x : Ctx) : (s.setCtx c x).pwr = s.pwr := rfl
@[simp] theorem setCtx_routes (s : State) (c : CtxId) (x : Ctx) : (s.setCtx c x).routes = s.routes := rfl
@[simp] theorem setCtx_txWait (s : State) (c : CtxId) (x : Ctx) : (s.setCtx c x).txWait = s.txWait := rfl
@[simp] theorem setCtx_loopback (s : State) (c : CtxId) (x : Ctx) : (s.setCtx c x).loopback = s.loopback := rfl
@[simp] theorem setCtx_heldBuddy (s : State) (c : CtxId) (x : Ctx) : (s.setCtx c x).heldBuddy = s.heldBuddy := rfl
@[simp] theorem setCtx_mem (s : State) (c : CtxId) (x : Ctx) : (s.setCtx c x).mem = s.mem := rfl
@[simp] theorem setCtx_hostMem (s : State) (c : CtxId) (x : Ctx) : (s.setCtx c x).hostMem = s.hostMem := rfl
@[simp] theorem setCtx_poison (s : State) (c : CtxId) (x : Ctx) : (s.setCtx c x).poison = s.poison := rfl
@[simp] theorem setCtx_uncorr (s : State) (c : CtxId) (x : Ctx) : (s.setCtx c x).uncorr = s.uncorr := rfl
@[simp] theorem setCtx_correctable (s : State) (c : CtxId) (x : Ctx) : (s.setCtx c x).correctable = s.correctable := rfl
@[simp] theorem setCtx_upsets (s : State) (c : CtxId) (x : Ctx) : (s.setCtx c x).upsets = s.upsets := rfl

@[simp] theorem modCtx_pending (s : State) (c : CtxId) (f : Ctx → Ctx) : (s.modCtx c f).pending = s.pending := rfl
@[simp] theorem modCtx_draws (s : State) (c : CtxId) (f : Ctx → Ctx) : (s.modCtx c f).draws = s.draws := rfl
@[simp] theorem modCtx_links (s : State) (c : CtxId) (f : Ctx → Ctx) : (s.modCtx c f).links = s.links := rfl
@[simp] theorem modCtx_barriers (s : State) (c : CtxId) (f : Ctx → Ctx) : (s.modCtx c f).barriers = s.barriers := rfl
@[simp] theorem modCtx_funcs (s : State) (c : CtxId) (f : Ctx → Ctx) : (s.modCtx c f).funcs = s.funcs := rfl
@[simp] theorem modCtx_glb (s : State) (c : CtxId) (f : Ctx → Ctx) : (s.modCtx c f).glb = s.glb := rfl
@[simp] theorem modCtx_mgt (s : State) (c : CtxId) (f : Ctx → Ctx) : (s.modCtx c f).mgt = s.mgt := rfl
@[simp] theorem modCtx_sec (s : State) (c : CtxId) (f : Ctx → Ctx) : (s.modCtx c f).sec = s.sec := rfl
@[simp] theorem modCtx_pwr (s : State) (c : CtxId) (f : Ctx → Ctx) : (s.modCtx c f).pwr = s.pwr := rfl
@[simp] theorem modCtx_routes (s : State) (c : CtxId) (f : Ctx → Ctx) : (s.modCtx c f).routes = s.routes := rfl
@[simp] theorem modCtx_txWait (s : State) (c : CtxId) (f : Ctx → Ctx) : (s.modCtx c f).txWait = s.txWait := rfl
@[simp] theorem modCtx_loopback (s : State) (c : CtxId) (f : Ctx → Ctx) : (s.modCtx c f).loopback = s.loopback := rfl
@[simp] theorem modCtx_heldBuddy (s : State) (c : CtxId) (f : Ctx → Ctx) : (s.modCtx c f).heldBuddy = s.heldBuddy := rfl
@[simp] theorem modCtx_mem (s : State) (c : CtxId) (f : Ctx → Ctx) : (s.modCtx c f).mem = s.mem := rfl
@[simp] theorem modCtx_hostMem (s : State) (c : CtxId) (f : Ctx → Ctx) : (s.modCtx c f).hostMem = s.hostMem := rfl
@[simp] theorem modCtx_poison (s : State) (c : CtxId) (f : Ctx → Ctx) : (s.modCtx c f).poison = s.poison := rfl
@[simp] theorem modCtx_uncorr (s : State) (c : CtxId) (f : Ctx → Ctx) : (s.modCtx c f).uncorr = s.uncorr := rfl
@[simp] theorem modCtx_correctable (s : State) (c : CtxId) (f : Ctx → Ctx) : (s.modCtx c f).correctable = s.correctable := rfl
@[simp] theorem modCtx_upsets (s : State) (c : CtxId) (f : Ctx → Ctx) : (s.modCtx c f).upsets = s.upsets := rfl

@[simp] theorem setLink_pending (s : State) (l : LinkId) (x : Link) : (s.setLink l x).pending = s.pending := rfl
@[simp] theorem setLink_draws (s : State) (l : LinkId) (x : Link) : (s.setLink l x).draws = s.draws := rfl
@[simp] theorem setLink_ctxs (s : State) (l : LinkId) (x : Link) : (s.setLink l x).ctxs = s.ctxs := rfl
@[simp] theorem setLink_barriers (s : State) (l : LinkId) (x : Link) : (s.setLink l x).barriers = s.barriers := rfl
@[simp] theorem setLink_funcs (s : State) (l : LinkId) (x : Link) : (s.setLink l x).funcs = s.funcs := rfl
@[simp] theorem setLink_glb (s : State) (l : LinkId) (x : Link) : (s.setLink l x).glb = s.glb := rfl
@[simp] theorem setLink_mgt (s : State) (l : LinkId) (x : Link) : (s.setLink l x).mgt = s.mgt := rfl
@[simp] theorem setLink_sec (s : State) (l : LinkId) (x : Link) : (s.setLink l x).sec = s.sec := rfl
@[simp] theorem setLink_pwr (s : State) (l : LinkId) (x : Link) : (s.setLink l x).pwr = s.pwr := rfl
@[simp] theorem setLink_routes (s : State) (l : LinkId) (x : Link) : (s.setLink l x).routes = s.routes := rfl
@[simp] theorem setLink_txWait (s : State) (l : LinkId) (x : Link) : (s.setLink l x).txWait = s.txWait := rfl
@[simp] theorem setLink_loopback (s : State) (l : LinkId) (x : Link) : (s.setLink l x).loopback = s.loopback := rfl
@[simp] theorem setLink_heldBuddy (s : State) (l : LinkId) (x : Link) : (s.setLink l x).heldBuddy = s.heldBuddy := rfl
@[simp] theorem setLink_mem (s : State) (l : LinkId) (x : Link) : (s.setLink l x).mem = s.mem := rfl
@[simp] theorem setLink_hostMem (s : State) (l : LinkId) (x : Link) : (s.setLink l x).hostMem = s.hostMem := rfl
@[simp] theorem setLink_poison (s : State) (l : LinkId) (x : Link) : (s.setLink l x).poison = s.poison := rfl
@[simp] theorem setLink_uncorr (s : State) (l : LinkId) (x : Link) : (s.setLink l x).uncorr = s.uncorr := rfl
@[simp] theorem setLink_correctable (s : State) (l : LinkId) (x : Link) : (s.setLink l x).correctable = s.correctable := rfl
@[simp] theorem setLink_upsets (s : State) (l : LinkId) (x : Link) : (s.setLink l x).upsets = s.upsets := rfl

@[simp] theorem modLink_pending (s : State) (l : LinkId) (f : Link → Link) : (s.modLink l f).pending = s.pending := rfl
@[simp] theorem modLink_draws (s : State) (l : LinkId) (f : Link → Link) : (s.modLink l f).draws = s.draws := rfl
@[simp] theorem modLink_ctxs (s : State) (l : LinkId) (f : Link → Link) : (s.modLink l f).ctxs = s.ctxs := rfl
@[simp] theorem modLink_barriers (s : State) (l : LinkId) (f : Link → Link) : (s.modLink l f).barriers = s.barriers := rfl
@[simp] theorem modLink_funcs (s : State) (l : LinkId) (f : Link → Link) : (s.modLink l f).funcs = s.funcs := rfl
@[simp] theorem modLink_glb (s : State) (l : LinkId) (f : Link → Link) : (s.modLink l f).glb = s.glb := rfl
@[simp] theorem modLink_mgt (s : State) (l : LinkId) (f : Link → Link) : (s.modLink l f).mgt = s.mgt := rfl
@[simp] theorem modLink_sec (s : State) (l : LinkId) (f : Link → Link) : (s.modLink l f).sec = s.sec := rfl
@[simp] theorem modLink_pwr (s : State) (l : LinkId) (f : Link → Link) : (s.modLink l f).pwr = s.pwr := rfl
@[simp] theorem modLink_routes (s : State) (l : LinkId) (f : Link → Link) : (s.modLink l f).routes = s.routes := rfl
@[simp] theorem modLink_txWait (s : State) (l : LinkId) (f : Link → Link) : (s.modLink l f).txWait = s.txWait := rfl
@[simp] theorem modLink_loopback (s : State) (l : LinkId) (f : Link → Link) : (s.modLink l f).loopback = s.loopback := rfl
@[simp] theorem modLink_heldBuddy (s : State) (l : LinkId) (f : Link → Link) : (s.modLink l f).heldBuddy = s.heldBuddy := rfl
@[simp] theorem modLink_mem (s : State) (l : LinkId) (f : Link → Link) : (s.modLink l f).mem = s.mem := rfl
@[simp] theorem modLink_hostMem (s : State) (l : LinkId) (f : Link → Link) : (s.modLink l f).hostMem = s.hostMem := rfl
@[simp] theorem modLink_poison (s : State) (l : LinkId) (f : Link → Link) : (s.modLink l f).poison = s.poison := rfl
@[simp] theorem modLink_uncorr (s : State) (l : LinkId) (f : Link → Link) : (s.modLink l f).uncorr = s.uncorr := rfl
@[simp] theorem modLink_correctable (s : State) (l : LinkId) (f : Link → Link) : (s.modLink l f).correctable = s.correctable := rfl
@[simp] theorem modLink_upsets (s : State) (l : LinkId) (f : Link → Link) : (s.modLink l f).upsets = s.upsets := rfl

@[simp] theorem setFunc_pending (s : State) (n : FnId) (x : Func) : (s.setFunc n x).pending = s.pending := rfl
@[simp] theorem setFunc_draws (s : State) (n : FnId) (x : Func) : (s.setFunc n x).draws = s.draws := rfl
@[simp] theorem setFunc_ctxs (s : State) (n : FnId) (x : Func) : (s.setFunc n x).ctxs = s.ctxs := rfl
@[simp] theorem setFunc_links (s : State) (n : FnId) (x : Func) : (s.setFunc n x).links = s.links := rfl
@[simp] theorem setFunc_barriers (s : State) (n : FnId) (x : Func) : (s.setFunc n x).barriers = s.barriers := rfl
@[simp] theorem setFunc_glb (s : State) (n : FnId) (x : Func) : (s.setFunc n x).glb = s.glb := rfl
@[simp] theorem setFunc_mgt (s : State) (n : FnId) (x : Func) : (s.setFunc n x).mgt = s.mgt := rfl
@[simp] theorem setFunc_sec (s : State) (n : FnId) (x : Func) : (s.setFunc n x).sec = s.sec := rfl
@[simp] theorem setFunc_pwr (s : State) (n : FnId) (x : Func) : (s.setFunc n x).pwr = s.pwr := rfl
@[simp] theorem setFunc_routes (s : State) (n : FnId) (x : Func) : (s.setFunc n x).routes = s.routes := rfl
@[simp] theorem setFunc_txWait (s : State) (n : FnId) (x : Func) : (s.setFunc n x).txWait = s.txWait := rfl
@[simp] theorem setFunc_loopback (s : State) (n : FnId) (x : Func) : (s.setFunc n x).loopback = s.loopback := rfl
@[simp] theorem setFunc_heldBuddy (s : State) (n : FnId) (x : Func) : (s.setFunc n x).heldBuddy = s.heldBuddy := rfl
@[simp] theorem setFunc_mem (s : State) (n : FnId) (x : Func) : (s.setFunc n x).mem = s.mem := rfl
@[simp] theorem setFunc_hostMem (s : State) (n : FnId) (x : Func) : (s.setFunc n x).hostMem = s.hostMem := rfl
@[simp] theorem setFunc_poison (s : State) (n : FnId) (x : Func) : (s.setFunc n x).poison = s.poison := rfl
@[simp] theorem setFunc_uncorr (s : State) (n : FnId) (x : Func) : (s.setFunc n x).uncorr = s.uncorr := rfl
@[simp] theorem setFunc_correctable (s : State) (n : FnId) (x : Func) : (s.setFunc n x).correctable = s.correctable := rfl
@[simp] theorem setFunc_upsets (s : State) (n : FnId) (x : Func) : (s.setFunc n x).upsets = s.upsets := rfl

@[simp] theorem modFunc_pending (s : State) (n : FnId) (f : Func → Func) : (s.modFunc n f).pending = s.pending := rfl
@[simp] theorem modFunc_draws (s : State) (n : FnId) (f : Func → Func) : (s.modFunc n f).draws = s.draws := rfl
@[simp] theorem modFunc_ctxs (s : State) (n : FnId) (f : Func → Func) : (s.modFunc n f).ctxs = s.ctxs := rfl
@[simp] theorem modFunc_links (s : State) (n : FnId) (f : Func → Func) : (s.modFunc n f).links = s.links := rfl
@[simp] theorem modFunc_barriers (s : State) (n : FnId) (f : Func → Func) : (s.modFunc n f).barriers = s.barriers := rfl
@[simp] theorem modFunc_glb (s : State) (n : FnId) (f : Func → Func) : (s.modFunc n f).glb = s.glb := rfl
@[simp] theorem modFunc_mgt (s : State) (n : FnId) (f : Func → Func) : (s.modFunc n f).mgt = s.mgt := rfl
@[simp] theorem modFunc_sec (s : State) (n : FnId) (f : Func → Func) : (s.modFunc n f).sec = s.sec := rfl
@[simp] theorem modFunc_pwr (s : State) (n : FnId) (f : Func → Func) : (s.modFunc n f).pwr = s.pwr := rfl
@[simp] theorem modFunc_routes (s : State) (n : FnId) (f : Func → Func) : (s.modFunc n f).routes = s.routes := rfl
@[simp] theorem modFunc_txWait (s : State) (n : FnId) (f : Func → Func) : (s.modFunc n f).txWait = s.txWait := rfl
@[simp] theorem modFunc_loopback (s : State) (n : FnId) (f : Func → Func) : (s.modFunc n f).loopback = s.loopback := rfl
@[simp] theorem modFunc_heldBuddy (s : State) (n : FnId) (f : Func → Func) : (s.modFunc n f).heldBuddy = s.heldBuddy := rfl
@[simp] theorem modFunc_mem (s : State) (n : FnId) (f : Func → Func) : (s.modFunc n f).mem = s.mem := rfl
@[simp] theorem modFunc_hostMem (s : State) (n : FnId) (f : Func → Func) : (s.modFunc n f).hostMem = s.hostMem := rfl
@[simp] theorem modFunc_poison (s : State) (n : FnId) (f : Func → Func) : (s.modFunc n f).poison = s.poison := rfl
@[simp] theorem modFunc_uncorr (s : State) (n : FnId) (f : Func → Func) : (s.modFunc n f).uncorr = s.uncorr := rfl
@[simp] theorem modFunc_correctable (s : State) (n : FnId) (f : Func → Func) : (s.modFunc n f).correctable = s.correctable := rfl
@[simp] theorem modFunc_upsets (s : State) (n : FnId) (f : Func → Func) : (s.modFunc n f).upsets = s.upsets := rfl

@[simp] theorem setBarrier_pending (s : State) (k : BarId) (b : Barrier) : (s.setBarrier k b).pending = s.pending := rfl
@[simp] theorem setBarrier_draws (s : State) (k : BarId) (b : Barrier) : (s.setBarrier k b).draws = s.draws := rfl
@[simp] theorem setBarrier_ctxs (s : State) (k : BarId) (b : Barrier) : (s.setBarrier k b).ctxs = s.ctxs := rfl
@[simp] theorem setBarrier_links (s : State) (k : BarId) (b : Barrier) : (s.setBarrier k b).links = s.links := rfl
@[simp] theorem setBarrier_funcs (s : State) (k : BarId) (b : Barrier) : (s.setBarrier k b).funcs = s.funcs := rfl
@[simp] theorem setBarrier_glb (s : State) (k : BarId) (b : Barrier) : (s.setBarrier k b).glb = s.glb := rfl
@[simp] theorem setBarrier_mgt (s : State) (k : BarId) (b : Barrier) : (s.setBarrier k b).mgt = s.mgt := rfl
@[simp] theorem setBarrier_sec (s : State) (k : BarId) (b : Barrier) : (s.setBarrier k b).sec = s.sec := rfl
@[simp] theorem setBarrier_pwr (s : State) (k : BarId) (b : Barrier) : (s.setBarrier k b).pwr = s.pwr := rfl
@[simp] theorem setBarrier_routes (s : State) (k : BarId) (b : Barrier) : (s.setBarrier k b).routes = s.routes := rfl
@[simp] theorem setBarrier_txWait (s : State) (k : BarId) (b : Barrier) : (s.setBarrier k b).txWait = s.txWait := rfl
@[simp] theorem setBarrier_loopback (s : State) (k : BarId) (b : Barrier) : (s.setBarrier k b).loopback = s.loopback := rfl
@[simp] theorem setBarrier_heldBuddy (s : State) (k : BarId) (b : Barrier) : (s.setBarrier k b).heldBuddy = s.heldBuddy := rfl
@[simp] theorem setBarrier_mem (s : State) (k : BarId) (b : Barrier) : (s.setBarrier k b).mem = s.mem := rfl
@[simp] theorem setBarrier_hostMem (s : State) (k : BarId) (b : Barrier) : (s.setBarrier k b).hostMem = s.hostMem := rfl
@[simp] theorem setBarrier_poison (s : State) (k : BarId) (b : Barrier) : (s.setBarrier k b).poison = s.poison := rfl
@[simp] theorem setBarrier_uncorr (s : State) (k : BarId) (b : Barrier) : (s.setBarrier k b).uncorr = s.uncorr := rfl
@[simp] theorem setBarrier_correctable (s : State) (k : BarId) (b : Barrier) : (s.setBarrier k b).correctable = s.correctable := rfl
@[simp] theorem setBarrier_upsets (s : State) (k : BarId) (b : Barrier) : (s.setBarrier k b).upsets = s.upsets := rfl

@[simp] theorem modBarrier_pending (s : State) (k : BarId) (f : Barrier → Barrier) : (s.modBarrier k f).pending = s.pending := rfl
@[simp] theorem modBarrier_draws (s : State) (k : BarId) (f : Barrier → Barrier) : (s.modBarrier k f).draws = s.draws := rfl
@[simp] theorem modBarrier_ctxs (s : State) (k : BarId) (f : Barrier → Barrier) : (s.modBarrier k f).ctxs = s.ctxs := rfl
@[simp] theorem modBarrier_links (s : State) (k : BarId) (f : Barrier → Barrier) : (s.modBarrier k f).links = s.links := rfl
@[simp] theorem modBarrier_funcs (s : State) (k : BarId) (f : Barrier → Barrier) : (s.modBarrier k f).funcs = s.funcs := rfl
@[simp] theorem modBarrier_glb (s : State) (k : BarId) (f : Barrier → Barrier) : (s.modBarrier k f).glb = s.glb := rfl
@[simp] theorem modBarrier_mgt (s : State) (k : BarId) (f : Barrier → Barrier) : (s.modBarrier k f).mgt = s.mgt := rfl
@[simp] theorem modBarrier_sec (s : State) (k : BarId) (f : Barrier → Barrier) : (s.modBarrier k f).sec = s.sec := rfl
@[simp] theorem modBarrier_pwr (s : State) (k : BarId) (f : Barrier → Barrier) : (s.modBarrier k f).pwr = s.pwr := rfl
@[simp] theorem modBarrier_routes (s : State) (k : BarId) (f : Barrier → Barrier) : (s.modBarrier k f).routes = s.routes := rfl
@[simp] theorem modBarrier_txWait (s : State) (k : BarId) (f : Barrier → Barrier) : (s.modBarrier k f).txWait = s.txWait := rfl
@[simp] theorem modBarrier_loopback (s : State) (k : BarId) (f : Barrier → Barrier) : (s.modBarrier k f).loopback = s.loopback := rfl
@[simp] theorem modBarrier_heldBuddy (s : State) (k : BarId) (f : Barrier → Barrier) : (s.modBarrier k f).heldBuddy = s.heldBuddy := rfl
@[simp] theorem modBarrier_mem (s : State) (k : BarId) (f : Barrier → Barrier) : (s.modBarrier k f).mem = s.mem := rfl
@[simp] theorem modBarrier_hostMem (s : State) (k : BarId) (f : Barrier → Barrier) : (s.modBarrier k f).hostMem = s.hostMem := rfl
@[simp] theorem modBarrier_poison (s : State) (k : BarId) (f : Barrier → Barrier) : (s.modBarrier k f).poison = s.poison := rfl
@[simp] theorem modBarrier_uncorr (s : State) (k : BarId) (f : Barrier → Barrier) : (s.modBarrier k f).uncorr = s.uncorr := rfl
@[simp] theorem modBarrier_correctable (s : State) (k : BarId) (f : Barrier → Barrier) : (s.modBarrier k f).correctable = s.correctable := rfl
@[simp] theorem modBarrier_upsets (s : State) (k : BarId) (f : Barrier → Barrier) : (s.modBarrier k f).upsets = s.upsets := rfl

@[simp] theorem modGlb_pending (s : State) (f : Glb → Glb) : (s.modGlb f).pending = s.pending := rfl
@[simp] theorem modGlb_draws (s : State) (f : Glb → Glb) : (s.modGlb f).draws = s.draws := rfl
@[simp] theorem modGlb_ctxs (s : State) (f : Glb → Glb) : (s.modGlb f).ctxs = s.ctxs := rfl
@[simp] theorem modGlb_links (s : State) (f : Glb → Glb) : (s.modGlb f).links = s.links := rfl
@[simp] theorem modGlb_barriers (s : State) (f : Glb → Glb) : (s.modGlb f).barriers = s.barriers := rfl
@[simp] theorem modGlb_funcs (s : State) (f : Glb → Glb) : (s.modGlb f).funcs = s.funcs := rfl
@[simp] theorem modGlb_glb (s : State) (f : Glb → Glb) : (s.modGlb f).glb = f s.glb := rfl
@[simp] theorem modGlb_mgt (s : State) (f : Glb → Glb) : (s.modGlb f).mgt = s.mgt := rfl
@[simp] theorem modGlb_sec (s : State) (f : Glb → Glb) : (s.modGlb f).sec = s.sec := rfl
@[simp] theorem modGlb_pwr (s : State) (f : Glb → Glb) : (s.modGlb f).pwr = s.pwr := rfl
@[simp] theorem modGlb_routes (s : State) (f : Glb → Glb) : (s.modGlb f).routes = s.routes := rfl
@[simp] theorem modGlb_txWait (s : State) (f : Glb → Glb) : (s.modGlb f).txWait = s.txWait := rfl
@[simp] theorem modGlb_loopback (s : State) (f : Glb → Glb) : (s.modGlb f).loopback = s.loopback := rfl
@[simp] theorem modGlb_heldBuddy (s : State) (f : Glb → Glb) : (s.modGlb f).heldBuddy = s.heldBuddy := rfl
@[simp] theorem modGlb_mem (s : State) (f : Glb → Glb) : (s.modGlb f).mem = s.mem := rfl
@[simp] theorem modGlb_hostMem (s : State) (f : Glb → Glb) : (s.modGlb f).hostMem = s.hostMem := rfl
@[simp] theorem modGlb_poison (s : State) (f : Glb → Glb) : (s.modGlb f).poison = s.poison := rfl
@[simp] theorem modGlb_uncorr (s : State) (f : Glb → Glb) : (s.modGlb f).uncorr = s.uncorr := rfl
@[simp] theorem modGlb_correctable (s : State) (f : Glb → Glb) : (s.modGlb f).correctable = s.correctable := rfl
@[simp] theorem modGlb_upsets (s : State) (f : Glb → Glb) : (s.modGlb f).upsets = s.upsets := rfl

@[simp] theorem modMgt_pending (s : State) (f : Mgt → Mgt) : (s.modMgt f).pending = s.pending := rfl
@[simp] theorem modMgt_draws (s : State) (f : Mgt → Mgt) : (s.modMgt f).draws = s.draws := rfl
@[simp] theorem modMgt_ctxs (s : State) (f : Mgt → Mgt) : (s.modMgt f).ctxs = s.ctxs := rfl
@[simp] theorem modMgt_links (s : State) (f : Mgt → Mgt) : (s.modMgt f).links = s.links := rfl
@[simp] theorem modMgt_barriers (s : State) (f : Mgt → Mgt) : (s.modMgt f).barriers = s.barriers := rfl
@[simp] theorem modMgt_funcs (s : State) (f : Mgt → Mgt) : (s.modMgt f).funcs = s.funcs := rfl
@[simp] theorem modMgt_glb (s : State) (f : Mgt → Mgt) : (s.modMgt f).glb = s.glb := rfl
@[simp] theorem modMgt_mgt (s : State) (f : Mgt → Mgt) : (s.modMgt f).mgt = f s.mgt := rfl
@[simp] theorem modMgt_sec (s : State) (f : Mgt → Mgt) : (s.modMgt f).sec = s.sec := rfl
@[simp] theorem modMgt_pwr (s : State) (f : Mgt → Mgt) : (s.modMgt f).pwr = s.pwr := rfl
@[simp] theorem modMgt_routes (s : State) (f : Mgt → Mgt) : (s.modMgt f).routes = s.routes := rfl
@[simp] theorem modMgt_txWait (s : State) (f : Mgt → Mgt) : (s.modMgt f).txWait = s.txWait := rfl
@[simp] theorem modMgt_loopback (s : State) (f : Mgt → Mgt) : (s.modMgt f).loopback = s.loopback := rfl
@[simp] theorem modMgt_heldBuddy (s : State) (f : Mgt → Mgt) : (s.modMgt f).heldBuddy = s.heldBuddy := rfl
@[simp] theorem modMgt_mem (s : State) (f : Mgt → Mgt) : (s.modMgt f).mem = s.mem := rfl
@[simp] theorem modMgt_hostMem (s : State) (f : Mgt → Mgt) : (s.modMgt f).hostMem = s.hostMem := rfl
@[simp] theorem modMgt_poison (s : State) (f : Mgt → Mgt) : (s.modMgt f).poison = s.poison := rfl
@[simp] theorem modMgt_uncorr (s : State) (f : Mgt → Mgt) : (s.modMgt f).uncorr = s.uncorr := rfl
@[simp] theorem modMgt_correctable (s : State) (f : Mgt → Mgt) : (s.modMgt f).correctable = s.correctable := rfl
@[simp] theorem modMgt_upsets (s : State) (f : Mgt → Mgt) : (s.modMgt f).upsets = s.upsets := rfl

@[simp] theorem modSec_pending (s : State) (f : Sec → Sec) : (s.modSec f).pending = s.pending := rfl
@[simp] theorem modSec_draws (s : State) (f : Sec → Sec) : (s.modSec f).draws = s.draws := rfl
@[simp] theorem modSec_ctxs (s : State) (f : Sec → Sec) : (s.modSec f).ctxs = s.ctxs := rfl
@[simp] theorem modSec_links (s : State) (f : Sec → Sec) : (s.modSec f).links = s.links := rfl
@[simp] theorem modSec_barriers (s : State) (f : Sec → Sec) : (s.modSec f).barriers = s.barriers := rfl
@[simp] theorem modSec_funcs (s : State) (f : Sec → Sec) : (s.modSec f).funcs = s.funcs := rfl
@[simp] theorem modSec_glb (s : State) (f : Sec → Sec) : (s.modSec f).glb = s.glb := rfl
@[simp] theorem modSec_mgt (s : State) (f : Sec → Sec) : (s.modSec f).mgt = s.mgt := rfl
@[simp] theorem modSec_sec (s : State) (f : Sec → Sec) : (s.modSec f).sec = f s.sec := rfl
@[simp] theorem modSec_pwr (s : State) (f : Sec → Sec) : (s.modSec f).pwr = s.pwr := rfl
@[simp] theorem modSec_routes (s : State) (f : Sec → Sec) : (s.modSec f).routes = s.routes := rfl
@[simp] theorem modSec_txWait (s : State) (f : Sec → Sec) : (s.modSec f).txWait = s.txWait := rfl
@[simp] theorem modSec_loopback (s : State) (f : Sec → Sec) : (s.modSec f).loopback = s.loopback := rfl
@[simp] theorem modSec_heldBuddy (s : State) (f : Sec → Sec) : (s.modSec f).heldBuddy = s.heldBuddy := rfl
@[simp] theorem modSec_mem (s : State) (f : Sec → Sec) : (s.modSec f).mem = s.mem := rfl
@[simp] theorem modSec_hostMem (s : State) (f : Sec → Sec) : (s.modSec f).hostMem = s.hostMem := rfl
@[simp] theorem modSec_poison (s : State) (f : Sec → Sec) : (s.modSec f).poison = s.poison := rfl
@[simp] theorem modSec_uncorr (s : State) (f : Sec → Sec) : (s.modSec f).uncorr = s.uncorr := rfl
@[simp] theorem modSec_correctable (s : State) (f : Sec → Sec) : (s.modSec f).correctable = s.correctable := rfl
@[simp] theorem modSec_upsets (s : State) (f : Sec → Sec) : (s.modSec f).upsets = s.upsets := rfl

@[simp] theorem modPwr_pending (s : State) (f : Pwr → Pwr) : (s.modPwr f).pending = s.pending := rfl
@[simp] theorem modPwr_draws (s : State) (f : Pwr → Pwr) : (s.modPwr f).draws = s.draws := rfl
@[simp] theorem modPwr_ctxs (s : State) (f : Pwr → Pwr) : (s.modPwr f).ctxs = s.ctxs := rfl
@[simp] theorem modPwr_links (s : State) (f : Pwr → Pwr) : (s.modPwr f).links = s.links := rfl
@[simp] theorem modPwr_barriers (s : State) (f : Pwr → Pwr) : (s.modPwr f).barriers = s.barriers := rfl
@[simp] theorem modPwr_funcs (s : State) (f : Pwr → Pwr) : (s.modPwr f).funcs = s.funcs := rfl
@[simp] theorem modPwr_glb (s : State) (f : Pwr → Pwr) : (s.modPwr f).glb = s.glb := rfl
@[simp] theorem modPwr_mgt (s : State) (f : Pwr → Pwr) : (s.modPwr f).mgt = s.mgt := rfl
@[simp] theorem modPwr_sec (s : State) (f : Pwr → Pwr) : (s.modPwr f).sec = s.sec := rfl
@[simp] theorem modPwr_pwr (s : State) (f : Pwr → Pwr) : (s.modPwr f).pwr = f s.pwr := rfl
@[simp] theorem modPwr_routes (s : State) (f : Pwr → Pwr) : (s.modPwr f).routes = s.routes := rfl
@[simp] theorem modPwr_txWait (s : State) (f : Pwr → Pwr) : (s.modPwr f).txWait = s.txWait := rfl
@[simp] theorem modPwr_loopback (s : State) (f : Pwr → Pwr) : (s.modPwr f).loopback = s.loopback := rfl
@[simp] theorem modPwr_heldBuddy (s : State) (f : Pwr → Pwr) : (s.modPwr f).heldBuddy = s.heldBuddy := rfl
@[simp] theorem modPwr_mem (s : State) (f : Pwr → Pwr) : (s.modPwr f).mem = s.mem := rfl
@[simp] theorem modPwr_hostMem (s : State) (f : Pwr → Pwr) : (s.modPwr f).hostMem = s.hostMem := rfl
@[simp] theorem modPwr_poison (s : State) (f : Pwr → Pwr) : (s.modPwr f).poison = s.poison := rfl
@[simp] theorem modPwr_uncorr (s : State) (f : Pwr → Pwr) : (s.modPwr f).uncorr = s.uncorr := rfl
@[simp] theorem modPwr_correctable (s : State) (f : Pwr → Pwr) : (s.modPwr f).correctable = s.correctable := rfl
@[simp] theorem modPwr_upsets (s : State) (f : Pwr → Pwr) : (s.modPwr f).upsets = s.upsets := rfl

@[simp] theorem setCtx_ctx (s : State) (c : CtxId) (x : Ctx) : (s.setCtx c x).ctx c = x := by simp [State.setCtx, State.ctx]

theorem setCtx_ctx_ne (s : State) {c d : CtxId} (x : Ctx) (h : d ≠ c) : (s.setCtx c x).ctx d = s.ctx d := by
  have : c.val ≠ d.val := fun e => h (Fin.ext e.symm)
  simp [State.setCtx, State.ctx, this]

@[simp] theorem modCtx_ctx (s : State) (c : CtxId) (f : Ctx → Ctx) : (s.modCtx c f).ctx c = f (s.ctx c) := by simp [State.modCtx]

theorem modCtx_ctx_ne (s : State) {c d : CtxId} (f : Ctx → Ctx) (h : d ≠ c) : (s.modCtx c f).ctx d = s.ctx d := setCtx_ctx_ne s _ h

@[simp] theorem setCtx_setCtx (s : State) (c : CtxId) (x y : Ctx) : (s.setCtx c x).setCtx c y = s.setCtx c y := by simp [State.setCtx]

@[simp] theorem setCtx_self (s : State) (c : CtxId) : s.setCtx c (s.ctx c) = s := by simp [State.setCtx, State.ctx]

theorem modCtx_modCtx (s : State) (c : CtxId) (f g : Ctx → Ctx) : (s.modCtx c f).modCtx c g = s.modCtx c (fun x => g (f x)) := by
  simp [State.modCtx]

@[simp] theorem setLink_link (s : State) (l : LinkId) (x : Link) : (s.setLink l x).link l = x := by simp [State.setLink, State.link]

theorem setLink_link_ne (s : State) {l d : LinkId} (x : Link) (h : d ≠ l) : (s.setLink l x).link d = s.link d := by
  have : l.val ≠ d.val := fun e => h (Fin.ext e.symm)
  simp [State.setLink, State.link, this]

@[simp] theorem modLink_link (s : State) (l : LinkId) (f : Link → Link) : (s.modLink l f).link l = f (s.link l) := by simp [State.modLink]

theorem modLink_link_ne (s : State) {l d : LinkId} (f : Link → Link) (h : d ≠ l) : (s.modLink l f).link d = s.link d := setLink_link_ne s _ h

@[simp] theorem setLink_setLink (s : State) (l : LinkId) (x y : Link) : (s.setLink l x).setLink l y = s.setLink l y := by simp [State.setLink]

@[simp] theorem setLink_self (s : State) (l : LinkId) : s.setLink l (s.link l) = s := by simp [State.setLink, State.link]

theorem modLink_modLink (s : State) (l : LinkId) (f g : Link → Link) : (s.modLink l f).modLink l g = s.modLink l (fun x => g (f x)) := by
  simp [State.modLink]

@[simp] theorem setFunc_func (s : State) (n : FnId) (x : Func) : (s.setFunc n x).func n = x := by simp [State.setFunc, State.func]

theorem setFunc_func_ne (s : State) {n d : FnId} (x : Func) (h : d ≠ n) : (s.setFunc n x).func d = s.func d := by
  have : n.val ≠ d.val := fun e => h (Fin.ext e.symm)
  simp [State.setFunc, State.func, this]

@[simp] theorem modFunc_func (s : State) (n : FnId) (f : Func → Func) : (s.modFunc n f).func n = f (s.func n) := by simp [State.modFunc]

theorem modFunc_func_ne (s : State) {n d : FnId} (f : Func → Func) (h : d ≠ n) : (s.modFunc n f).func d = s.func d := setFunc_func_ne s _ h

@[simp] theorem setFunc_setFunc (s : State) (n : FnId) (x y : Func) : (s.setFunc n x).setFunc n y = s.setFunc n y := by simp [State.setFunc]

@[simp] theorem setFunc_self (s : State) (n : FnId) : s.setFunc n (s.func n) = s := by simp [State.setFunc, State.func]

theorem modFunc_modFunc (s : State) (n : FnId) (f g : Func → Func) : (s.modFunc n f).modFunc n g = s.modFunc n (fun x => g (f x)) := by
  simp [State.modFunc]

@[simp] theorem setBarrier_barrier (s : State) (k : BarId) (x : Barrier) : (s.setBarrier k x).barrier k = x := by simp [State.setBarrier, State.barrier]

theorem setBarrier_barrier_ne (s : State) {k d : BarId} (x : Barrier) (h : d ≠ k) : (s.setBarrier k x).barrier d = s.barrier d := by
  have : k.val ≠ d.val := fun e => h (Fin.ext e.symm)
  simp [State.setBarrier, State.barrier, this]

@[simp] theorem modBarrier_barrier (s : State) (k : BarId) (f : Barrier → Barrier) : (s.modBarrier k f).barrier k = f (s.barrier k) := by simp [State.modBarrier]

theorem modBarrier_barrier_ne (s : State) {k d : BarId} (f : Barrier → Barrier) (h : d ≠ k) : (s.modBarrier k f).barrier d = s.barrier d := setBarrier_barrier_ne s _ h

@[simp] theorem setBarrier_setBarrier (s : State) (k : BarId) (x y : Barrier) : (s.setBarrier k x).setBarrier k y = s.setBarrier k y := by simp [State.setBarrier]

@[simp] theorem setBarrier_self (s : State) (k : BarId) : s.setBarrier k (s.barrier k) = s := by simp [State.setBarrier, State.barrier]

theorem modBarrier_modBarrier (s : State) (k : BarId) (f g : Barrier → Barrier) : (s.modBarrier k f).modBarrier k g = s.modBarrier k (fun x => g (f x)) := by
  simp [State.modBarrier]

@[simp] theorem setLink_ctx (s : State) (l : LinkId) (x : Link) (z : CtxId) : (s.setLink l x).ctx z = s.ctx z := rfl
@[simp] theorem modLink_ctx (s : State) (l : LinkId) (f : Link → Link) (z : CtxId) : (s.modLink l f).ctx z = s.ctx z := rfl
@[simp] theorem setFunc_ctx (s : State) (n : FnId) (x : Func) (z : CtxId) : (s.setFunc n x).ctx z = s.ctx z := rfl
@[simp] theorem modFunc_ctx (s : State) (n : FnId) (f : Func → Func) (z : CtxId) : (s.modFunc n f).ctx z = s.ctx z := rfl
@[simp] theorem setBarrier_ctx (s : State) (k : BarId) (b : Barrier) (z : CtxId) : (s.setBarrier k b).ctx z = s.ctx z := rfl
@[simp] theorem modBarrier_ctx (s : State) (k : BarId) (f : Barrier → Barrier) (z : CtxId) : (s.modBarrier k f).ctx z = s.ctx z := rfl
@[simp] theorem modGlb_ctx (s : State) (f : Glb → Glb) (z : CtxId) : (s.modGlb f).ctx z = s.ctx z := rfl
@[simp] theorem modMgt_ctx (s : State) (f : Mgt → Mgt) (z : CtxId) : (s.modMgt f).ctx z = s.ctx z := rfl
@[simp] theorem modSec_ctx (s : State) (f : Sec → Sec) (z : CtxId) : (s.modSec f).ctx z = s.ctx z := rfl
@[simp] theorem modPwr_ctx (s : State) (f : Pwr → Pwr) (z : CtxId) : (s.modPwr f).ctx z = s.ctx z := rfl

@[simp] theorem setCtx_link (s : State) (c : CtxId) (x : Ctx) (z : LinkId) : (s.setCtx c x).link z = s.link z := rfl
@[simp] theorem modCtx_link (s : State) (c : CtxId) (f : Ctx → Ctx) (z : LinkId) : (s.modCtx c f).link z = s.link z := rfl
@[simp] theorem setFunc_link (s : State) (n : FnId) (x : Func) (z : LinkId) : (s.setFunc n x).link z = s.link z := rfl
@[simp] theorem modFunc_link (s : State) (n : FnId) (f : Func → Func) (z : LinkId) : (s.modFunc n f).link z = s.link z := rfl
@[simp] theorem setBarrier_link (s : State) (k : BarId) (b : Barrier) (z : LinkId) : (s.setBarrier k b).link z = s.link z := rfl
@[simp] theorem modBarrier_link (s : State) (k : BarId) (f : Barrier → Barrier) (z : LinkId) : (s.modBarrier k f).link z = s.link z := rfl
@[simp] theorem modGlb_link (s : State) (f : Glb → Glb) (z : LinkId) : (s.modGlb f).link z = s.link z := rfl
@[simp] theorem modMgt_link (s : State) (f : Mgt → Mgt) (z : LinkId) : (s.modMgt f).link z = s.link z := rfl
@[simp] theorem modSec_link (s : State) (f : Sec → Sec) (z : LinkId) : (s.modSec f).link z = s.link z := rfl
@[simp] theorem modPwr_link (s : State) (f : Pwr → Pwr) (z : LinkId) : (s.modPwr f).link z = s.link z := rfl

@[simp] theorem setCtx_func (s : State) (c : CtxId) (x : Ctx) (z : FnId) : (s.setCtx c x).func z = s.func z := rfl
@[simp] theorem modCtx_func (s : State) (c : CtxId) (f : Ctx → Ctx) (z : FnId) : (s.modCtx c f).func z = s.func z := rfl
@[simp] theorem setLink_func (s : State) (l : LinkId) (x : Link) (z : FnId) : (s.setLink l x).func z = s.func z := rfl
@[simp] theorem modLink_func (s : State) (l : LinkId) (f : Link → Link) (z : FnId) : (s.modLink l f).func z = s.func z := rfl
@[simp] theorem setBarrier_func (s : State) (k : BarId) (b : Barrier) (z : FnId) : (s.setBarrier k b).func z = s.func z := rfl
@[simp] theorem modBarrier_func (s : State) (k : BarId) (f : Barrier → Barrier) (z : FnId) : (s.modBarrier k f).func z = s.func z := rfl
@[simp] theorem modGlb_func (s : State) (f : Glb → Glb) (z : FnId) : (s.modGlb f).func z = s.func z := rfl
@[simp] theorem modMgt_func (s : State) (f : Mgt → Mgt) (z : FnId) : (s.modMgt f).func z = s.func z := rfl
@[simp] theorem modSec_func (s : State) (f : Sec → Sec) (z : FnId) : (s.modSec f).func z = s.func z := rfl
@[simp] theorem modPwr_func (s : State) (f : Pwr → Pwr) (z : FnId) : (s.modPwr f).func z = s.func z := rfl

@[simp] theorem setCtx_barrier (s : State) (c : CtxId) (x : Ctx) (z : BarId) : (s.setCtx c x).barrier z = s.barrier z := rfl
@[simp] theorem modCtx_barrier (s : State) (c : CtxId) (f : Ctx → Ctx) (z : BarId) : (s.modCtx c f).barrier z = s.barrier z := rfl
@[simp] theorem setLink_barrier (s : State) (l : LinkId) (x : Link) (z : BarId) : (s.setLink l x).barrier z = s.barrier z := rfl
@[simp] theorem modLink_barrier (s : State) (l : LinkId) (f : Link → Link) (z : BarId) : (s.modLink l f).barrier z = s.barrier z := rfl
@[simp] theorem setFunc_barrier (s : State) (n : FnId) (x : Func) (z : BarId) : (s.setFunc n x).barrier z = s.barrier z := rfl
@[simp] theorem modFunc_barrier (s : State) (n : FnId) (f : Func → Func) (z : BarId) : (s.modFunc n f).barrier z = s.barrier z := rfl
@[simp] theorem modGlb_barrier (s : State) (f : Glb → Glb) (z : BarId) : (s.modGlb f).barrier z = s.barrier z := rfl
@[simp] theorem modMgt_barrier (s : State) (f : Mgt → Mgt) (z : BarId) : (s.modMgt f).barrier z = s.barrier z := rfl
@[simp] theorem modSec_barrier (s : State) (f : Sec → Sec) (z : BarId) : (s.modSec f).barrier z = s.barrier z := rfl
@[simp] theorem modPwr_barrier (s : State) (f : Pwr → Pwr) (z : BarId) : (s.modPwr f).barrier z = s.barrier z := rfl

end Sys2Proof.Machine
end

