-- ==== Sys2Proof/Laws/Access.lean ====
section
/-! SUPPORT. An access of no page, a read of no word, and what one byte of a memory reads as. -/

namespace Sys2Proof.Machine

open Sys2Proof

theorem keepMark_self (c : CtxId) (req : FaultReq) (s : State) : keepMark c req s s = s := by
  unfold keepMark
  split
  · rfl
  · exact setCtx_self s c

theorem access_none {s : State} {c : CtxId} {req : FaultReq} {dev write : Bool} (h : stopped (s.ctx c) req = false) :
    access c req dev write [] s = (some [], s) := by
  simp [access, h, spanPages, getPages, keepMark_self]

theorem chargeRead_none (c : CtxId) (s : State) : chargeRead c [] [] s = s := by
  have e : ∀ l : List Nat, l.filter (fun _ => false) = [] := fun l => by induction l <;> simp_all
  have f : ∀ l : List Nat, l.filter (fun _ => true) = l := fun l => by induction l <;> simp_all
  have g : correctWords [] s = s := by
    show ({ (s.each (s.correctable.filter (fun _ => false)) (fun w t => countStkCe (stackOf (32 * w)) 1 t)) with
      correctable := s.correctable.filter (fun _ => true) } : State) = s
    rw [e, f]; rfl
  show reportUe (some c) [] (correctWords [] s) = s
  rw [g]; rfl

theorem memGet_mem : ∀ (m : List Host.Cell) (b : Nat) (v : Byte), m.Pairwise (fun p q => p.1 < q.1) → (b, v) ∈ m → memGet m b = v := by
  intro m
  induction m with
  | nil => intro b v _ h; cases h
  | cons p m ih =>
    intro b v hp h
    rw [List.pairwise_cons] at hp
    rcases List.mem_cons.mp h with rfl | h
    · simp [memGet]
    · have : p.1 ≠ b := Nat.ne_of_lt (hp.1 _ h)
      have e : (p.1 == b) = false := by simp [this]
      have := ih b v hp.2 h
      simp only [memGet, List.find?_cons, e] at this ⊢; exact this

theorem memGet_absent (m : List Host.Cell) (b : Nat) (h : ∀ v, (b, v) ∉ m) : memGet m b = memDefault := by
  have : m.find? (fun p => p.1 == b) = none := by
    rw [List.find?_eq_none]; rintro ⟨k, v⟩ hk; simp; rintro rfl; exact h v hk
  simp [memGet, this]

theorem memCells_mem : ∀ (bs : List Byte) (a b : Nat) (v : Byte), (b, v) ∈ memCells a bs ↔ a ≤ b ∧ bs[b - a]? = some v ∧ v ≠ memDefault := by
  intro bs
  induction bs with
  | nil => intro a b v; simp [memCells]
  | cons x bs ih =>
    intro a b v
    have key : ((b, v) ∈ memCells (a + 1) bs) ↔ a + 1 ≤ b ∧ (x :: bs)[b - a]? = some v ∧ v ≠ memDefault := by
      rw [ih]
      constructor
      · rintro ⟨h1, h2, h3⟩
        refine ⟨h1, ?_, h3⟩
        have : b - a = (b - (a + 1)) + 1 := by omega
        rw [this, List.getElem?_cons_succ]; exact h2
      · rintro ⟨h1, h2, h3⟩
        refine ⟨h1, ?_, h3⟩
        have : b - a = (b - (a + 1)) + 1 := by omega
        rw [this, List.getElem?_cons_succ] at h2; exact h2
    simp only [memCells]
    split
    · rename_i hx
      rw [key]
      constructor
      · rintro ⟨h1, h2⟩; exact ⟨by omega, h2⟩
      · rintro ⟨h1, h2, h3⟩
        refine ⟨?_, h2, h3⟩
        rcases Nat.lt_or_ge a b with q | q
        · exact q
        · have : b = a := by omega
          subst this; simp at h2; exact absurd (h2 ▸ hx) h3
    · rename_i hx
      rw [List.mem_cons, key]
      constructor
      · rintro (h | ⟨h1, h2⟩)
        · cases h; exact ⟨Nat.le_refl _, by simp, hx⟩
        · exact ⟨by omega, h2⟩
      · rintro ⟨h1, h2, h3⟩
        rcases Nat.lt_or_ge a b with q | q
        · exact .inr ⟨q, h2, h3⟩
        · have : b = a := by omega
          subst this; simp at h2; exact .inl (by rw [h2])

theorem take_mem (n : Nat) : ∀ (m : List Host.Cell) (p), m.Pairwise (fun p q => p.1 < q.1) → (p ∈ m.takeWhile (fun p => decide (p.1 < n)) ↔ p ∈ m ∧ p.1 < n) := by
  intro m
  induction m with
  | nil => simp
  | cons c m ih =>
    intro p hp
    rw [List.pairwise_cons] at hp
    rw [List.takeWhile_cons]
    split
    · rename_i h; simp at h
      rw [List.mem_cons, List.mem_cons, ih p hp.2]
      constructor
      · rintro (rfl | q)
        · exact ⟨.inl rfl, h⟩
        · exact ⟨.inr q.1, q.2⟩
      · rintro ⟨rfl | q, r⟩
        · exact .inl rfl
        · exact .inr ⟨q, r⟩
    · rename_i h; simp at h
      simp only [List.not_mem_nil, false_iff, List.mem_cons]
      rintro ⟨rfl | q, r⟩
      · omega
      · have := hp.1 _ q; omega

theorem drop_mem (n : Nat) : ∀ (m : List Host.Cell) (p), m.Pairwise (fun p q => p.1 < q.1) → (p ∈ m.dropWhile (fun p => decide (p.1 < n)) ↔ p ∈ m ∧ n ≤ p.1) := by
  intro m
  induction m with
  | nil => simp
  | cons c m ih =>
    intro p hp
    have hp' := List.pairwise_cons.mp hp
    rw [List.dropWhile_cons]
    split
    · rename_i h; simp at h
      rw [List.mem_cons, ih p hp'.2]
      constructor
      · rintro q; exact ⟨.inr q.1, q.2⟩
      · rintro ⟨rfl | q, r⟩
        · omega
        · exact ⟨q, r⟩
    · rename_i h; simp at h
      constructor
      · intro q; refine ⟨q, ?_⟩
        rcases List.mem_cons.mp q with rfl | q
        · exact h
        · have := hp'.1 _ q; omega
      · exact fun q => q.1

theorem memGet_cons_ne (p : Host.Cell) (m : List Host.Cell) (b : Nat) (h : p.1 ≠ b) : memGet (p :: m) b = memGet m b := by
  have e : (p.1 == b) = false := by simp [h]
  simp only [memGet, List.find?_cons, e]

end Sys2Proof.Machine
end

