-- ==== Sys2Proof/Laws/Each.lean ====
section
/-! SUPPORT. One act for every context, link, barrier or function, as an equation on the state; and parts of a context read back after a change. -/

namespace Sys2Proof.Machine

open Sys2Proof

theorem each_ctxs (f : CtxId → Ctx → Ctx) : ∀ (L : List CtxId), L.Nodup → ∀ s : State,
    (∀ d, (s.each L (fun c t => t.modCtx c (f c))).ctx d = if d ∈ L then f d (s.ctx d) else s.ctx d) ∧
    { s.each L (fun c t => t.modCtx c (f c)) with ctxs := s.ctxs } = s := by
  intro L
  induction L with
  | nil => intro _ s; exact ⟨fun d => by simp [State.each], rfl⟩
  | cons a L ih =>
    intro hn s
    rw [List.nodup_cons] at hn
    obtain ⟨h1, h2⟩ := ih hn.2 (s.modCtx a (f a))
    refine ⟨fun d => ?_, ?_⟩
    · show ((s.modCtx a (f a)).each L (fun c t => t.modCtx c (f c))).ctx d = _
      rw [h1 d]
      by_cases e : d = a
      · subst e; simp [hn.1]
      · rw [modCtx_ctx_ne s (f a) e]; simp [e]
    · show { (s.modCtx a (f a)).each L (fun c t => t.modCtx c (f c)) with ctxs := s.ctxs } = s
      have := congrArg (fun u : State => { u with ctxs := s.ctxs }) h2
      exact this

theorem each_links (f : LinkId → Link → Link) (s : State) :
    s.each allLinks (fun l t => t.modLink l (f l)) = { s with links := Vector.ofFn (fun l : Fin 16 => f l s.links[l]) } := by
  have key : ∀ (L : List LinkId), L.Nodup → ∀ s : State, s.each L (fun l t => t.modLink l (f l)) =
      { s with links := Vector.ofFn (fun l : Fin 16 => if l ∈ L then f l s.links[l] else s.links[l]) } := by
    intro L
    induction L with
    | nil => intro _ s; simp [State.each]
    | cons a L ih =>
      intro hn s
      rw [List.nodup_cons] at hn
      show (s.modLink a (f a)).each L _ = _
      rw [ih hn.2]
      have : (Vector.ofFn fun l : Fin 16 => if l ∈ L then f l (s.modLink a (f a)).links[l] else (s.modLink a (f a)).links[l]) =
         Vector.ofFn (fun l : Fin 16 => if l ∈ a :: L then f l s.links[l] else s.links[l]) := by
        apply Vector.ext
        intro i hi
        by_cases e : a.val = i
        · have : (⟨i, hi⟩ : Fin 16) = a := Fin.ext e.symm
          subst e
          simp [State.modLink, State.setLink, State.link, hn.1]
        · have : (⟨i, hi⟩ : Fin 16) ≠ a := fun h => e (by rw [← h])
          simp [State.modLink, State.setLink, State.link, e, this]
      rw [this]; rfl
  have := key allLinks (by decide) s
  rw [this]
  have hm : ∀ l : Fin 16, l ∈ allLinks := by decide
  simp [hm]

theorem each_barriers (p : Barrier → Bool) (f : Barrier → Barrier) : ∀ (L : List BarId), L.Nodup → ∀ s : State,
    (∀ k, (s.each L (fun k t => if p (t.barrier k) then t.setBarrier k (f (t.barrier k)) else t)).barrier k =
      if k ∈ L ∧ p (s.barrier k) = true then f (s.barrier k) else s.barrier k) ∧
    (s.each L (fun k t => if p (t.barrier k) then t.setBarrier k (f (t.barrier k)) else t)).ctxs = s.ctxs ∧
    (s.each L (fun k t => if p (t.barrier k) then t.setBarrier k (f (t.barrier k)) else t)).mem = s.mem := by
  intro L
  induction L with
  | nil => intro _ s; exact ⟨fun d => by simp [State.each], rfl, rfl⟩
  | cons a L ih =>
    intro hn s
    rw [List.nodup_cons] at hn
    have step : ∃ u, (if p (s.barrier a) then s.setBarrier a (f (s.barrier a)) else s) = u ∧
        (∀ k, u.barrier k = if k = a ∧ p (s.barrier a) = true then f (s.barrier a) else s.barrier k) ∧ u.ctxs = s.ctxs ∧ u.mem = s.mem := by
      refine ⟨_, rfl, fun k => ?_, ?_, ?_⟩
      · by_cases hp : p (s.barrier a) = true
        · rw [if_pos hp]
          by_cases e : k = a
          · subst e; simp [State.setBarrier, State.barrier]; intro h; exact absurd hp (by simpa [State.barrier] using h)
          · rw [if_neg (by simp [e])]
            unfold State.setBarrier State.barrier
            have : a.val ≠ k.val := fun h => e (Fin.ext h.symm)
            simp [this]
        · rw [if_neg hp, if_neg (by simp [hp])]
      · split <;> rfl
      · split <;> rfl
    obtain ⟨u, hu, h1, h2, h3⟩ := step
    show (∀ k, ((if p (s.barrier a) then s.setBarrier a (f (s.barrier a)) else s).each L _).barrier k = _) ∧
      ((if p (s.barrier a) then s.setBarrier a (f (s.barrier a)) else s).each L _).ctxs = s.ctxs ∧
      ((if p (s.barrier a) then s.setBarrier a (f (s.barrier a)) else s).each L _).mem = s.mem
    rw [hu]
    obtain ⟨i1, i2, i3⟩ := ih hn.2 u
    refine ⟨fun k => ?_, i2.trans h2, i3.trans h3⟩
    · rw [i1 k, h1 k]
      by_cases e : k = a
      · subst e; simp [hn.1]
      · simp [e]

theorem each_funcs : ∀ (L : List FnId), L.Nodup → ∀ s : State,
    (∀ d, (s.each L (fun f t => t.setFunc f {})).func d = if d ∈ L then {} else s.func d) ∧
    (s.each L (fun f t => t.setFunc f {})).glb = s.glb ∧ (s.each L (fun f t => t.setFunc f {})).ctxs = s.ctxs ∧
    (s.each L (fun f t => t.setFunc f {})).mem = s.mem := by
  intro L
  induction L with
  | nil => intro _ s; exact ⟨fun d => by simp [State.each], rfl, rfl, rfl⟩
  | cons a L ih =>
    intro hn s
    rw [List.nodup_cons] at hn
    obtain ⟨h1, h2⟩ := ih hn.2 (s.setFunc a {})
    refine ⟨fun d => ?_, h2⟩
    show ((s.setFunc a {}).each L (fun f t => t.setFunc f {})).func d = _
    rw [h1 d]
    by_cases e : d = a
    · subst e; simp [hn.1, State.setFunc, State.func]
    · have : a.val ≠ d.val := fun h => e (Fin.ext h.symm)
      simp [e, State.setFunc, State.func, this]

theorem barrier_eq {s t : State} (h : s.barriers = t.barriers) (k : BarId) : s.barrier k = t.barrier k := by
  unfold State.barrier; rw [h]

theorem barrier_setBarrier (s : State) (k : BarId) (b : Barrier) : (s.setBarrier k b).barrier k = b := by
  simp [State.setBarrier, State.barrier]

theorem func_setFunc (s : State) (fn : FnId) (f : Func) : (s.setFunc fn f).func fn = f := by simp [State.setFunc, State.func]

theorem desc_modDesc (x : Ctx) (i : Nat) (d : DescState) (f : DescState → DescState) (h : x.desc i = some d) (hf : ∀ d, (f d).index = d.index) :
    (x.modDesc i f).desc i = some (f d) := by
  unfold Ctx.desc Ctx.modDesc at *
  dsimp only at *
  have hd : d.index = i := by simpa using List.find?_some h
  rw [List.find?_map]
  have : ((fun d : DescState => d.index == i) ∘ fun d => if d.index = i then f d else d) = (fun d => d.index == i) := by
    funext d; simp only [Function.comp]; split <;> simp_all
  rw [this, h]
  simp [hd]

theorem group_modGroup (x : Ctx) (g : SlotId) (f : GroupSlot → GroupSlot) : (x.modGroup g f).group g = f (x.group g) := by
  simp [Ctx.modGroup, Ctx.group]

theorem groups_of (g : Fin 6) : (List.range 6).filter (fun k => (BitVec.ofNat 6 (2 ^ g.val)).getLsbD k) = [g.val] := by
  revert g; decide

end Sys2Proof.Machine
end

