-- ==== Sys2Proof/Laws/Events.lean ====
section
/-! SUPPORT. What raising an event leaves (R411 to R416): it writes the rings of the functions, host memory and the alert
register alone. -/

namespace Sys2Proof.Machine

open Sys2Proof

@[simp] theorem writeEntry_pending (fn : FnId) (e : Event) (s : State) : (writeEntry fn e s).pending = s.pending := rfl

@[simp] theorem sendMsg_pending (fn : FnId) (s : State) : (sendMsg fn s).pending = s.pending := rfl

@[simp] theorem raiseAlert_pending (n : Nat) (s : State) : (raiseAlert n s).pending = s.pending := by
  unfold raiseAlert
  split <;> rfl

@[simp] theorem raise_pending (fn : FnId) (code : U16) (fault : Bool) (pl : List Byte) (s : State) : (raise fn code fault pl s).pending = s.pending := by
  unfold raise
  dsimp only
  split <;> split <;> try split
  all_goals simp

@[simp] theorem ctxEvent_pending (c : CtxId) (code : U16) (fault : Bool) (pl : List Byte) (s : State) :
    (ctxEvent c code fault pl s).pending = s.pending := raise_pending _ _ _ _ _

@[simp] theorem writeEntry_draws (fn : FnId) (e : Event) (s : State) : (writeEntry fn e s).draws = s.draws := rfl

@[simp] theorem sendMsg_draws (fn : FnId) (s : State) : (sendMsg fn s).draws = s.draws := rfl

@[simp] theorem raiseAlert_draws (n : Nat) (s : State) : (raiseAlert n s).draws = s.draws := by
  unfold raiseAlert
  split <;> rfl

@[simp] theorem raise_draws (fn : FnId) (code : U16) (fault : Bool) (pl : List Byte) (s : State) : (raise fn code fault pl s).draws = s.draws := by
  unfold raise
  dsimp only
  split <;> split <;> try split
  all_goals simp

@[simp] theorem ctxEvent_draws (c : CtxId) (code : U16) (fault : Bool) (pl : List Byte) (s : State) :
    (ctxEvent c code fault pl s).draws = s.draws := raise_draws _ _ _ _ _

@[simp] theorem writeEntry_ctxs (fn : FnId) (e : Event) (s : State) : (writeEntry fn e s).ctxs = s.ctxs := rfl

@[simp] theorem sendMsg_ctxs (fn : FnId) (s : State) : (sendMsg fn s).ctxs = s.ctxs := rfl

@[simp] theorem raiseAlert_ctxs (n : Nat) (s : State) : (raiseAlert n s).ctxs = s.ctxs := by
  unfold raiseAlert
  split <;> rfl

@[simp] theorem raise_ctxs (fn : FnId) (code : U16) (fault : Bool) (pl : List Byte) (s : State) : (raise fn code fault pl s).ctxs = s.ctxs := by
  unfold raise
  dsimp only
  split <;> split <;> try split
  all_goals simp

@[simp] theorem ctxEvent_ctxs (c : CtxId) (code : U16) (fault : Bool) (pl : List Byte) (s : State) :
    (ctxEvent c code fault pl s).ctxs = s.ctxs := raise_ctxs _ _ _ _ _

@[simp] theorem writeEntry_links (fn : FnId) (e : Event) (s : State) : (writeEntry fn e s).links = s.links := rfl

@[simp] theorem sendMsg_links (fn : FnId) (s : State) : (sendMsg fn s).links = s.links := rfl

@[simp] theorem raiseAlert_links (n : Nat) (s : State) : (raiseAlert n s).links = s.links := by
  unfold raiseAlert
  split <;> rfl

@[simp] theorem raise_links (fn : FnId) (code : U16) (fault : Bool) (pl : List Byte) (s : State) : (raise fn code fault pl s).links = s.links := by
  unfold raise
  dsimp only
  split <;> split <;> try split
  all_goals simp

@[simp] theorem ctxEvent_links (c : CtxId) (code : U16) (fault : Bool) (pl : List Byte) (s : State) :
    (ctxEvent c code fault pl s).links = s.links := raise_links _ _ _ _ _

@[simp] theorem writeEntry_barriers (fn : FnId) (e : Event) (s : State) : (writeEntry fn e s).barriers = s.barriers := rfl

@[simp] theorem sendMsg_barriers (fn : FnId) (s : State) : (sendMsg fn s).barriers = s.barriers := rfl

@[simp] theorem raiseAlert_barriers (n : Nat) (s : State) : (raiseAlert n s).barriers = s.barriers := by
  unfold raiseAlert
  split <;> rfl

@[simp] theorem raise_barriers (fn : FnId) (code : U16) (fault : Bool) (pl : List Byte) (s : State) : (raise fn code fault pl s).barriers = s.barriers := by
  unfold raise
  dsimp only
  split <;> split <;> try split
  all_goals simp

@[simp] theorem ctxEvent_barriers (c : CtxId) (code : U16) (fault : Bool) (pl : List Byte) (s : State) :
    (ctxEvent c code fault pl s).barriers = s.barriers := raise_barriers _ _ _ _ _

@[simp] theorem writeEntry_glb (fn : FnId) (e : Event) (s : State) : (writeEntry fn e s).glb = s.glb := rfl

@[simp] theorem sendMsg_glb (fn : FnId) (s : State) : (sendMsg fn s).glb = s.glb := rfl

@[simp] theorem raiseAlert_glb (n : Nat) (s : State) : (raiseAlert n s).glb = s.glb := by
  unfold raiseAlert
  split <;> rfl

@[simp] theorem raise_glb (fn : FnId) (code : U16) (fault : Bool) (pl : List Byte) (s : State) : (raise fn code fault pl s).glb = s.glb := by
  unfold raise
  dsimp only
  split <;> split <;> try split
  all_goals simp

@[simp] theorem ctxEvent_glb (c : CtxId) (code : U16) (fault : Bool) (pl : List Byte) (s : State) :
    (ctxEvent c code fault pl s).glb = s.glb := raise_glb _ _ _ _ _

@[simp] theorem writeEntry_sec (fn : FnId) (e : Event) (s : State) : (writeEntry fn e s).sec = s.sec := rfl

@[simp] theorem sendMsg_sec (fn : FnId) (s : State) : (sendMsg fn s).sec = s.sec := rfl

@[simp] theorem raiseAlert_sec (n : Nat) (s : State) : (raiseAlert n s).sec = s.sec := by
  unfold raiseAlert
  split <;> rfl

@[simp] theorem raise_sec (fn : FnId) (code : U16) (fault : Bool) (pl : List Byte) (s : State) : (raise fn code fault pl s).sec = s.sec := by
  unfold raise
  dsimp only
  split <;> split <;> try split
  all_goals simp

@[simp] theorem ctxEvent_sec (c : CtxId) (code : U16) (fault : Bool) (pl : List Byte) (s : State) :
    (ctxEvent c code fault pl s).sec = s.sec := raise_sec _ _ _ _ _

@[simp] theorem writeEntry_pwr (fn : FnId) (e : Event) (s : State) : (writeEntry fn e s).pwr = s.pwr := rfl

@[simp] theorem sendMsg_pwr (fn : FnId) (s : State) : (sendMsg fn s).pwr = s.pwr := rfl

@[simp] theorem raiseAlert_pwr (n : Nat) (s : State) : (raiseAlert n s).pwr = s.pwr := by
  unfold raiseAlert
  split <;> rfl

@[simp] theorem raise_pwr (fn : FnId) (code : U16) (fault : Bool) (pl : List Byte) (s : State) : (raise fn code fault pl s).pwr = s.pwr := by
  unfold raise
  dsimp only
  split <;> split <;> try split
  all_goals simp

@[simp] theorem ctxEvent_pwr (c : CtxId) (code : U16) (fault : Bool) (pl : List Byte) (s : State) :
    (ctxEvent c code fault pl s).pwr = s.pwr := raise_pwr _ _ _ _ _

@[simp] theorem writeEntry_routes (fn : FnId) (e : Event) (s : State) : (writeEntry fn e s).routes = s.routes := rfl

@[simp] theorem sendMsg_routes (fn : FnId) (s : State) : (sendMsg fn s).routes = s.routes := rfl

@[simp] theorem raiseAlert_routes (n : Nat) (s : State) : (raiseAlert n s).routes = s.routes := by
  unfold raiseAlert
  split <;> rfl

@[simp] theorem raise_routes (fn : FnId) (code : U16) (fault : Bool) (pl : List Byte) (s : State) : (raise fn code fault pl s).routes = s.routes := by
  unfold raise
  dsimp only
  split <;> split <;> try split
  all_goals simp

@[simp] theorem ctxEvent_routes (c : CtxId) (code : U16) (fault : Bool) (pl : List Byte) (s : State) :
    (ctxEvent c code fault pl s).routes = s.routes := raise_routes _ _ _ _ _

@[simp] theorem writeEntry_txWait (fn : FnId) (e : Event) (s : State) : (writeEntry fn e s).txWait = s.txWait := rfl

@[simp] theorem sendMsg_txWait (fn : FnId) (s : State) : (sendMsg fn s).txWait = s.txWait := rfl

@[simp] theorem raiseAlert_txWait (n : Nat) (s : State) : (raiseAlert n s).txWait = s.txWait := by
  unfold raiseAlert
  split <;> rfl

@[simp] theorem raise_txWait (fn : FnId) (code : U16) (fault : Bool) (pl : List Byte) (s : State) : (raise fn code fault pl s).txWait = s.txWait := by
  unfold raise
  dsimp only
  split <;> split <;> try split
  all_goals simp

@[simp] theorem ctxEvent_txWait (c : CtxId) (code : U16) (fault : Bool) (pl : List Byte) (s : State) :
    (ctxEvent c code fault pl s).txWait = s.txWait := raise_txWait _ _ _ _ _

@[simp] theorem writeEntry_loopback (fn : FnId) (e : Event) (s : State) : (writeEntry fn e s).loopback = s.loopback := rfl

@[simp] theorem sendMsg_loopback (fn : FnId) (s : State) : (sendMsg fn s).loopback = s.loopback := rfl

@[simp] theorem raiseAlert_loopback (n : Nat) (s : State) : (raiseAlert n s).loopback = s.loopback := by
  unfold raiseAlert
  split <;> rfl

@[simp] theorem raise_loopback (fn : FnId) (code : U16) (fault : Bool) (pl : List Byte) (s : State) : (raise fn code fault pl s).loopback = s.loopback := by
  unfold raise
  dsimp only
  split <;> split <;> try split
  all_goals simp

@[simp] theorem ctxEvent_loopback (c : CtxId) (code : U16) (fault : Bool) (pl : List Byte) (s : State) :
    (ctxEvent c code fault pl s).loopback = s.loopback := raise_loopback _ _ _ _ _

@[simp] theorem writeEntry_heldBuddy (fn : FnId) (e : Event) (s : State) : (writeEntry fn e s).heldBuddy = s.heldBuddy := rfl

@[simp] theorem sendMsg_heldBuddy (fn : FnId) (s : State) : (sendMsg fn s).heldBuddy = s.heldBuddy := rfl

@[simp] theorem raiseAlert_heldBuddy (n : Nat) (s : State) : (raiseAlert n s).heldBuddy = s.heldBuddy := by
  unfold raiseAlert
  split <;> rfl

@[simp] theorem raise_heldBuddy (fn : FnId) (code : U16) (fault : Bool) (pl : List Byte) (s : State) : (raise fn code fault pl s).heldBuddy = s.heldBuddy := by
  unfold raise
  dsimp only
  split <;> split <;> try split
  all_goals simp

@[simp] theorem ctxEvent_heldBuddy (c : CtxId) (code : U16) (fault : Bool) (pl : List Byte) (s : State) :
    (ctxEvent c code fault pl s).heldBuddy = s.heldBuddy := raise_heldBuddy _ _ _ _ _

@[simp] theorem writeEntry_mem (fn : FnId) (e : Event) (s : State) : (writeEntry fn e s).mem = s.mem := rfl

@[simp] theorem sendMsg_mem (fn : FnId) (s : State) : (sendMsg fn s).mem = s.mem := rfl

@[simp] theorem raiseAlert_mem (n : Nat) (s : State) : (raiseAlert n s).mem = s.mem := by
  unfold raiseAlert
  split <;> rfl

@[simp] theorem raise_mem (fn : FnId) (code : U16) (fault : Bool) (pl : List Byte) (s : State) : (raise fn code fault pl s).mem = s.mem := by
  unfold raise
  dsimp only
  split <;> split <;> try split
  all_goals simp

@[simp] theorem ctxEvent_mem (c : CtxId) (code : U16) (fault : Bool) (pl : List Byte) (s : State) :
    (ctxEvent c code fault pl s).mem = s.mem := raise_mem _ _ _ _ _

@[simp] theorem writeEntry_poison (fn : FnId) (e : Event) (s : State) : (writeEntry fn e s).poison = s.poison := rfl

@[simp] theorem sendMsg_poison (fn : FnId) (s : State) : (sendMsg fn s).poison = s.poison := rfl

@[simp] theorem raiseAlert_poison (n : Nat) (s : State) : (raiseAlert n s).poison = s.poison := by
  unfold raiseAlert
  split <;> rfl

@[simp] theorem raise_poison (fn : FnId) (code : U16) (fault : Bool) (pl : List Byte) (s : State) : (raise fn code fault pl s).poison = s.poison := by
  unfold raise
  dsimp only
  split <;> split <;> try split
  all_goals simp

@[simp] theorem ctxEvent_poison (c : CtxId) (code : U16) (fault : Bool) (pl : List Byte) (s : State) :
    (ctxEvent c code fault pl s).poison = s.poison := raise_poison _ _ _ _ _

@[simp] theorem writeEntry_uncorr (fn : FnId) (e : Event) (s : State) : (writeEntry fn e s).uncorr = s.uncorr := rfl

@[simp] theorem sendMsg_uncorr (fn : FnId) (s : State) : (sendMsg fn s).uncorr = s.uncorr := rfl

@[simp] theorem raiseAlert_uncorr (n : Nat) (s : State) : (raiseAlert n s).uncorr = s.uncorr := by
  unfold raiseAlert
  split <;> rfl

@[simp] theorem raise_uncorr (fn : FnId) (code : U16) (fault : Bool) (pl : List Byte) (s : State) : (raise fn code fault pl s).uncorr = s.uncorr := by
  unfold raise
  dsimp only
  split <;> split <;> try split
  all_goals simp

@[simp] theorem ctxEvent_uncorr (c : CtxId) (code : U16) (fault : Bool) (pl : List Byte) (s : State) :
    (ctxEvent c code fault pl s).uncorr = s.uncorr := raise_uncorr _ _ _ _ _

@[simp] theorem writeEntry_correctable (fn : FnId) (e : Event) (s : State) : (writeEntry fn e s).correctable = s.correctable := rfl

@[simp] theorem sendMsg_correctable (fn : FnId) (s : State) : (sendMsg fn s).correctable = s.correctable := rfl

@[simp] theorem raiseAlert_correctable (n : Nat) (s : State) : (raiseAlert n s).correctable = s.correctable := by
  unfold raiseAlert
  split <;> rfl

@[simp] theorem raise_correctable (fn : FnId) (code : U16) (fault : Bool) (pl : List Byte) (s : State) : (raise fn code fault pl s).correctable = s.correctable := by
  unfold raise
  dsimp only
  split <;> split <;> try split
  all_goals simp

@[simp] theorem ctxEvent_correctable (c : CtxId) (code : U16) (fault : Bool) (pl : List Byte) (s : State) :
    (ctxEvent c code fault pl s).correctable = s.correctable := raise_correctable _ _ _ _ _

@[simp] theorem writeEntry_upsets (fn : FnId) (e : Event) (s : State) : (writeEntry fn e s).upsets = s.upsets := rfl

@[simp] theorem sendMsg_upsets (fn : FnId) (s : State) : (sendMsg fn s).upsets = s.upsets := rfl

@[simp] theorem raiseAlert_upsets (n : Nat) (s : State) : (raiseAlert n s).upsets = s.upsets := by
  unfold raiseAlert
  split <;> rfl

@[simp] theorem raise_upsets (fn : FnId) (code : U16) (fault : Bool) (pl : List Byte) (s : State) : (raise fn code fault pl s).upsets = s.upsets := by
  unfold raise
  dsimp only
  split <;> split <;> try split
  all_goals simp

@[simp] theorem ctxEvent_upsets (c : CtxId) (code : U16) (fault : Bool) (pl : List Byte) (s : State) :
    (ctxEvent c code fault pl s).upsets = s.upsets := raise_upsets _ _ _ _ _

@[simp] theorem raise_ctx (fn : FnId) (code : U16) (fault : Bool) (pl : List Byte) (s : State) (c : CtxId) :
    (raise fn code fault pl s).ctx c = s.ctx c := by
  unfold State.ctx
  rw [raise_ctxs]

@[simp] theorem ctxEvent_ctx (d : CtxId) (code : U16) (fault : Bool) (pl : List Byte) (s : State) (c : CtxId) :
    (ctxEvent d code fault pl s).ctx c = s.ctx c := raise_ctx _ _ _ _ _ _

end Sys2Proof.Machine
end

