-- ==== Sys2Proof/Laws/Kept.lean ====
section
/-! SUPPORT. What every command leaves as it stands or moves one way only: the canonical form of both memories, the queue, the
fused security version (R434) and the permanence of RMA (R438). -/

namespace Sys2Proof.Machine

open Sys2Proof

/-- Security state RMA with no token waiting for a chip reset. -/
def Sec.rmaFinal (k : Sec) : Prop := k.debugState = 2 ∧ k.debugNext = none

/-- What holds between an earlier state and a later one. -/
structure Kept (r t : State) : Prop where
  mem : Memory.wf r.mem = true → Memory.wf t.mem = true
  hostMem : Memory.wf r.hostMem = true → Memory.wf t.hostMem = true
  pending : t.pending = r.pending
  svn : r.sec.svn.toNat ≤ t.sec.svn.toNat
  rma : r.sec.rmaFinal → t.sec.rmaFinal

theorem Kept.refl (r : State) : Kept r r := ⟨id, id, rfl, Nat.le_refl _, id⟩

theorem Kept.trans {r s t : State} (h : Kept r s) (k : Kept s t) : Kept r t :=
  ⟨fun w => k.mem (h.mem w), fun w => k.hostMem (h.hostMem w), k.pending.trans h.pending, Nat.le_trans h.svn k.svn,
    fun w => k.rma (h.rma w)⟩

theorem Kept.of_eq {r s t : State} (h : Kept r s) (hm : t.mem = s.mem) (hh : t.hostMem = s.hostMem) (hp : t.pending = s.pending)
    (hs : t.sec = s.sec) : Kept r t :=
  ⟨fun w => hm ▸ h.mem w, fun w => hh ▸ h.hostMem w, hp.trans h.pending, by rw [hs]; exact h.svn, by rw [hs]; exact h.rma⟩

/-- Every field but the memories, the queue and the security unit may change. -/
theorem Kept.upd_iff {r s : State} {a1 a2 a3 a4 a5 a6 a7 a8 a9 a10 a11 a12 a13 a14 a15 a16} :
    Kept r ⟨s.pending, a1, a2, a3, a4, a5, a6, a7, s.sec, a8, a9, a10, a11, a12, s.mem, s.hostMem, a13, a14, a15, a16⟩ ↔ Kept r s :=
  ⟨fun h => Kept.of_eq h rfl rfl rfl rfl, fun h => Kept.of_eq h rfl rfl rfl rfl⟩

theorem Kept.updHost {r s : State} {a bs} {a1 a2 a3 a4 a5 a6 a7 a8 a9 a10 a11 a12 a13 a14 a15 a16} (h : Kept r s) :
    Kept r ⟨s.pending, a1, a2, a3, a4, a5, a6, a7, s.sec, a8, a9, a10, a11, a12, s.mem, memWrite s.hostMem a bs, a13, a14, a15, a16⟩ :=
  ⟨h.mem, fun w => memWrite_wf _ _ _ (h.hostMem w), h.pending, h.svn, h.rma⟩

theorem Kept.updMem {r s : State} {a bs} {a1 a2 a3 a4 a5 a6 a7 a8 a9 a10 a11 a12 a13 a14 a15 a16} (h : Kept r s) :
    Kept r ⟨s.pending, a1, a2, a3, a4, a5, a6, a7, s.sec, a8, a9, a10, a11, a12, memWrite s.mem a bs, s.hostMem, a13, a14, a15, a16⟩ :=
  ⟨fun w => memWrite_wf _ _ _ (h.mem w), h.hostMem, h.pending, h.svn, h.rma⟩

theorem Kept.of_sec {r s t : State} (h : Kept r s) (hm : t.mem = s.mem) (hh : t.hostMem = s.hostMem) (hp : t.pending = s.pending)
    (hv : t.sec.svn = s.sec.svn) (hd : t.sec.debugState = s.sec.debugState) (hn : t.sec.debugNext = s.sec.debugNext) : Kept r t :=
  ⟨fun w => hm ▸ h.mem w, fun w => hh ▸ h.hostMem w, hp.trans h.pending, by rw [hv]; exact h.svn,
    fun w => ⟨hd.trans (h.rma w).1, hn.trans (h.rma w).2⟩⟩

theorem Kept.of_pair {α : Type} {r : State} {p : α × State} {a : α} {t : State} (e : p = (a, t)) (h : Kept r p.2) : Kept r t := by
  subst e; exact h

theorem Kept.foldl {α : Type} {r s : State} {f : State → α → State} {l : List α} (h : Kept r s)
    (hf : ∀ t a, Kept r t → Kept r (f t a)) : Kept r (l.foldl f s) := by
  induction l generalizing s with
  | nil => exact h
  | cons a l ih => exact ih (hf s a h)

theorem Kept.foldlPair {α β : Type} {r : State} {f : State × β → α → State × β} {p : State × β} {l : List α} (h : Kept r p.1)
    (hf : ∀ t a, Kept r t.1 → Kept r (f t a).1) : Kept r (l.foldl f p).1 := by
  induction l generalizing p with
  | nil => exact h
  | cons a l ih => exact ih (hf p a h)

theorem Kept.foldlPair2 {α β : Type} {r : State} {f : β × State → α → β × State} {p : β × State} {l : List α} (h : Kept r p.2)
    (hf : ∀ t a, Kept r t.2 → Kept r (f t a).2) : Kept r (l.foldl f p).2 := by
  induction l generalizing p with
  | nil => exact h
  | cons a l ih => exact ih (hf p a h)

/-- An answer of exec keeps what `Kept` says where it is a next state. -/
structure KeptOut (r : State) (o : Host.Outcome State Fault Refusal) : Prop where
  kept : ∀ t, o = .next t → Kept r t

theorem KeptOut.next {r t : State} (h : Kept r t) : KeptOut r (.next t) := ⟨fun _ e => by cases e; exact h⟩

theorem KeptOut.refused {r : State} {f : Refusal} : KeptOut r (.refused f) := ⟨fun _ e => by cases e⟩

end Sys2Proof.Machine
end

