-- ==== Sys2Proof/Laws/KeptFlags.lean ====
section
/-! SUPPORT. What the operations of Flags keep. -/

namespace Sys2Proof.Machine

open Sys2Proof

set_option linter.unusedSimpArgs false

theorem State.setCtx_kept {r0 : State} (s : State) (c : CtxId) (x : Ctx)
    (k0 : Kept r0 s) : Kept r0 (State.setCtx s c x) := by
  unfold State.setCtx
  repeat' (first
      | (with_reducible assumption) | (with_reducible simp only [Kept.upd_iff]) | (with_reducible apply Kept.foldl)
      | (with_reducible apply Kept.foldlPair) | (with_reducible apply Kept.foldlPair2)
      | (refine Kept.of_pair (by with_reducible assumption) ?_) | (intro _) | split | (dsimp only))

theorem State.modCtx_kept {r0 : State} (s : State) (c : CtxId) (f : Ctx → Ctx)
    (k0 : Kept r0 s) : Kept r0 (State.modCtx s c f) := by
  unfold State.modCtx
  repeat' (first
      | (with_reducible assumption) | (with_reducible simp only [Kept.upd_iff])
      | (with_reducible apply State.setCtx_kept) | (with_reducible apply Kept.foldl)
      | (with_reducible apply Kept.foldlPair) | (with_reducible apply Kept.foldlPair2)
      | (refine Kept.of_pair (by with_reducible assumption) ?_) | (intro _) | split | (dsimp only))

theorem State.setLink_kept {r0 : State} (s : State) (l : LinkId) (x : Link)
    (k0 : Kept r0 s) : Kept r0 (State.setLink s l x) := by
  unfold State.setLink
  repeat' (first
      | (with_reducible assumption) | (with_reducible simp only [Kept.upd_iff]) | (with_reducible apply Kept.foldl)
      | (with_reducible apply Kept.foldlPair) | (with_reducible apply Kept.foldlPair2)
      | (refine Kept.of_pair (by with_reducible assumption) ?_) | (intro _) | split | (dsimp only))

theorem State.modLink_kept {r0 : State} (s : State) (l : LinkId) (f : Link → Link)
    (k0 : Kept r0 s) : Kept r0 (State.modLink s l f) := by
  unfold State.modLink
  repeat' (first
      | (with_reducible assumption) | (with_reducible simp only [Kept.upd_iff])
      | (with_reducible apply State.setLink_kept) | (with_reducible apply Kept.foldl)
      | (with_reducible apply Kept.foldlPair) | (with_reducible apply Kept.foldlPair2)
      | (refine Kept.of_pair (by with_reducible assumption) ?_) | (intro _) | split | (dsimp only))

theorem State.setFunc_kept {r0 : State} (s : State) (f : FnId) (x : Func)
    (k0 : Kept r0 s) : Kept r0 (State.setFunc s f x) := by
  unfold State.setFunc
  repeat' (first
      | (with_reducible assumption) | (with_reducible simp only [Kept.upd_iff]) | (with_reducible apply Kept.foldl)
      | (with_reducible apply Kept.foldlPair) | (with_reducible apply Kept.foldlPair2)
      | (refine Kept.of_pair (by with_reducible assumption) ?_) | (intro _) | split | (dsimp only))

theorem State.modFunc_kept {r0 : State} (s : State) (f : FnId) (g : Func → Func)
    (k0 : Kept r0 s) : Kept r0 (State.modFunc s f g) := by
  unfold State.modFunc
  repeat' (first
      | (with_reducible assumption) | (with_reducible simp only [Kept.upd_iff])
      | (with_reducible apply State.setFunc_kept) | (with_reducible apply Kept.foldl)
      | (with_reducible apply Kept.foldlPair) | (with_reducible apply Kept.foldlPair2)
      | (refine Kept.of_pair (by with_reducible assumption) ?_) | (intro _) | split | (dsimp only))

theorem State.setBarrier_kept {r0 : State} (s : State) (k : BarId) (b : Barrier)
    (k0 : Kept r0 s) : Kept r0 (State.setBarrier s k b) := by
  unfold State.setBarrier
  repeat' (first
      | (with_reducible assumption) | (with_reducible simp only [Kept.upd_iff]) | (with_reducible apply Kept.foldl)
      | (with_reducible apply Kept.foldlPair) | (with_reducible apply Kept.foldlPair2)
      | (refine Kept.of_pair (by with_reducible assumption) ?_) | (intro _) | split | (dsimp only))

theorem State.modBarrier_kept {r0 : State} (s : State) (k : BarId) (f : Barrier → Barrier)
    (k0 : Kept r0 s) : Kept r0 (State.modBarrier s k f) := by
  unfold State.modBarrier
  repeat' (first
      | (with_reducible assumption) | (with_reducible simp only [Kept.upd_iff])
      | (with_reducible apply State.setBarrier_kept) | (with_reducible apply Kept.foldl)
      | (with_reducible apply Kept.foldlPair) | (with_reducible apply Kept.foldlPair2)
      | (refine Kept.of_pair (by with_reducible assumption) ?_) | (intro _) | split | (dsimp only))

theorem State.modGlb_kept {r0 : State} (s : State) (f : Glb → Glb)
    (k0 : Kept r0 s) : Kept r0 (State.modGlb s f) := by
  unfold State.modGlb
  repeat' (first
      | (with_reducible assumption) | (with_reducible simp only [Kept.upd_iff]) | (with_reducible apply Kept.foldl)
      | (with_reducible apply Kept.foldlPair) | (with_reducible apply Kept.foldlPair2)
      | (refine Kept.of_pair (by with_reducible assumption) ?_) | (intro _) | split | (dsimp only))

theorem State.modMgt_kept {r0 : State} (s : State) (f : Mgt → Mgt)
    (k0 : Kept r0 s) : Kept r0 (State.modMgt s f) := by
  unfold State.modMgt
  repeat' (first
      | (with_reducible assumption) | (with_reducible simp only [Kept.upd_iff]) | (with_reducible apply Kept.foldl)
      | (with_reducible apply Kept.foldlPair) | (with_reducible apply Kept.foldlPair2)
      | (refine Kept.of_pair (by with_reducible assumption) ?_) | (intro _) | split | (dsimp only))

theorem State.modSec_kept {r0 : State} (s : State) (f : Sec → Sec) (k0 : Kept r0 s) (hv : (f s.sec).svn = s.sec.svn)
    (hd : (f s.sec).debugState = s.sec.debugState) (hn : (f s.sec).debugNext = s.sec.debugNext) : Kept r0 (State.modSec s f) :=
  Kept.of_sec k0 rfl rfl rfl hv hd hn

theorem State.modPwr_kept {r0 : State} (s : State) (f : Pwr → Pwr)
    (k0 : Kept r0 s) : Kept r0 (State.modPwr s f) := by
  unfold State.modPwr
  repeat' (first
      | (with_reducible assumption) | (with_reducible simp only [Kept.upd_iff]) | (with_reducible apply Kept.foldl)
      | (with_reducible apply Kept.foldlPair) | (with_reducible apply Kept.foldlPair2)
      | (refine Kept.of_pair (by with_reducible assumption) ?_) | (intro _) | split | (dsimp only))

theorem State.each_kept {r0 : State} {α : Type} (s : State) (l : List α) (f : α → State → State)
    (k0 : Kept r0 s) (h_f : ∀ a0 t, Kept r0 t → Kept r0 (f a0 t)) : Kept r0 (State.each s l f) := by
  unfold State.each
  repeat' (first
      | (with_reducible assumption) | (with_reducible simp only [Kept.upd_iff]) | (with_reducible apply h_f)
      | (with_reducible apply Kept.foldl) | (with_reducible apply Kept.foldlPair)
      | (with_reducible apply Kept.foldlPair2) | (refine Kept.of_pair (by with_reducible assumption) ?_) | (intro _)
      | split | (dsimp only))

theorem violate_kept {r0 : State} (c : CtxId) (code : U16) (s : State)
    (k0 : Kept r0 s) : Kept r0 (violate c code s) := by
  unfold violate
  repeat' (first
      | (with_reducible assumption) | (with_reducible simp only [Kept.upd_iff])
      | (with_reducible apply State.modCtx_kept) | (with_reducible apply Kept.foldl)
      | (with_reducible apply Kept.foldlPair) | (with_reducible apply Kept.foldlPair2)
      | (refine Kept.of_pair (by with_reducible assumption) ?_) | (intro _) | split | (dsimp only))

theorem violateGlb_kept {r0 : State} (code : U16) (s : State)
    (k0 : Kept r0 s) : Kept r0 (violateGlb code s) := by
  unfold violateGlb
  repeat' (first
      | (with_reducible assumption) | (with_reducible simp only [Kept.upd_iff])
      | (with_reducible apply State.modGlb_kept) | (with_reducible apply Kept.foldl)
      | (with_reducible apply Kept.foldlPair) | (with_reducible apply Kept.foldlPair2)
      | (refine Kept.of_pair (by with_reducible assumption) ?_) | (intro _) | split | (dsimp only))

theorem raiseAlert_kept {r0 : State} (n : Nat) (s : State)
    (k0 : Kept r0 s) : Kept r0 (raiseAlert n s) := by
  unfold raiseAlert
  repeat' (first
      | (with_reducible assumption) | (with_reducible simp only [Kept.upd_iff])
      | (with_reducible apply State.modMgt_kept) | (with_reducible apply Kept.foldl)
      | (with_reducible apply Kept.foldlPair) | (with_reducible apply Kept.foldlPair2)
      | (refine Kept.of_pair (by with_reducible assumption) ?_) | (intro _) | split | (dsimp only))

theorem writeEntry_kept {r0 : State} (fn : FnId) (e : Event) (s : State)
    (k0 : Kept r0 s) : Kept r0 (writeEntry fn e s) := by
  unfold writeEntry
  repeat' (first
      | (with_reducible assumption) | (with_reducible simp only [Kept.upd_iff])
      | (with_reducible apply State.setFunc_kept) | (with_reducible apply Kept.foldl)
      | (with_reducible apply Kept.foldlPair) | (with_reducible apply Kept.foldlPair2)
      | (refine Kept.of_pair (by with_reducible assumption) ?_) | (intro _) | split | (dsimp only)
      | (with_reducible apply Kept.updHost) | (with_reducible apply Kept.updMem))

theorem sendMsg_kept {r0 : State} (fn : FnId) (s : State)
    (k0 : Kept r0 s) : Kept r0 (sendMsg fn s) := by
  unfold sendMsg
  repeat' (first
      | (with_reducible assumption) | (with_reducible simp only [Kept.upd_iff])
      | (with_reducible apply State.modFunc_kept) | (with_reducible apply Kept.foldl)
      | (with_reducible apply Kept.foldlPair) | (with_reducible apply Kept.foldlPair2)
      | (refine Kept.of_pair (by with_reducible assumption) ?_) | (intro _) | split | (dsimp only))

theorem writeHeld_kept {r0 : State} (fn : FnId) :
    ∀ (y0 : List Event) (y1 : State), Kept r0 y1 → Kept r0 (writeHeld fn y0 y1) := by
  intro y0
  induction y0 with
  | nil =>
    intro y1 k0
    unfold writeHeld
    repeat' (first
        | (with_reducible assumption) | (with_reducible simp only [Kept.upd_iff])
        | (with_reducible apply State.modFunc_kept) | (with_reducible apply sendMsg_kept)
        | (with_reducible apply writeEntry_kept) | (with_reducible apply Kept.foldl)
        | (with_reducible apply Kept.foldlPair) | (with_reducible apply Kept.foldlPair2)
        | (refine Kept.of_pair (by with_reducible assumption) ?_) | (intro _) | split | (dsimp only))
  | cons z zs ih =>
    intro y1 k0
    unfold writeHeld
    repeat' (first
        | (with_reducible assumption) | (with_reducible simp only [Kept.upd_iff]) | (with_reducible apply ih)
        | (with_reducible apply State.modFunc_kept) | (with_reducible apply sendMsg_kept)
        | (with_reducible apply writeEntry_kept) | (with_reducible apply Kept.foldl)
        | (with_reducible apply Kept.foldlPair) | (with_reducible apply Kept.foldlPair2)
        | (refine Kept.of_pair (by with_reducible assumption) ?_) | (intro _) | split | (dsimp only))

theorem drainRing_kept {r0 : State} (fn : FnId) (s : State)
    (k0 : Kept r0 s) : Kept r0 (drainRing fn s) := by
  unfold drainRing
  repeat' (first
      | (with_reducible assumption) | (with_reducible simp only [Kept.upd_iff])
      | (with_reducible apply writeHeld_kept) | (with_reducible apply State.modFunc_kept)
      | (with_reducible apply writeEntry_kept) | (with_reducible apply sendMsg_kept)
      | (with_reducible apply Kept.foldl) | (with_reducible apply Kept.foldlPair)
      | (with_reducible apply Kept.foldlPair2) | (refine Kept.of_pair (by with_reducible assumption) ?_) | (intro _)
      | split | (dsimp only))

theorem raise_kept {r0 : State} (fn : FnId) (code : U16) (fault : Bool) (pl : List Byte) (s : State)
    (k0 : Kept r0 s) : Kept r0 (raise fn code fault pl s) := by
  unfold raise
  repeat' (first
      | (with_reducible assumption) | (with_reducible simp only [Kept.upd_iff]) | (with_reducible apply sendMsg_kept)
      | (with_reducible apply writeEntry_kept) | (with_reducible apply State.setFunc_kept)
      | (with_reducible apply raiseAlert_kept) | (with_reducible apply Kept.foldl)
      | (with_reducible apply Kept.foldlPair) | (with_reducible apply Kept.foldlPair2)
      | (refine Kept.of_pair (by with_reducible assumption) ?_) | (intro _) | split | (dsimp only))

theorem ctxEvent_kept {r0 : State} (c : CtxId) (code : U16) (fault : Bool) (pl : List Byte) (s : State)
    (k0 : Kept r0 s) : Kept r0 (ctxEvent c code fault pl s) := by
  unfold ctxEvent
  repeat' (first
      | (with_reducible assumption) | (with_reducible simp only [Kept.upd_iff]) | (with_reducible apply raise_kept)
      | (with_reducible apply Kept.foldl) | (with_reducible apply Kept.foldlPair)
      | (with_reducible apply Kept.foldlPair2) | (refine Kept.of_pair (by with_reducible assumption) ?_) | (intro _)
      | split | (dsimp only))

theorem requestCtxReset_kept {r0 : State} (c : CtxId) (cause : Nat) (s : State)
    (k0 : Kept r0 s) : Kept r0 (requestCtxReset c cause s) := by
  unfold requestCtxReset
  repeat' (first
      | (with_reducible assumption) | (with_reducible simp only [Kept.upd_iff])
      | (with_reducible apply State.modCtx_kept) | (with_reducible apply Kept.foldl)
      | (with_reducible apply Kept.foldlPair) | (with_reducible apply Kept.foldlPair2)
      | (refine Kept.of_pair (by with_reducible assumption) ?_) | (intro _) | split | (dsimp only))

end Sys2Proof.Machine
end

