-- ==== Sys2Proof/Laws/KeptCutlist.lean ====
section
/-! SUPPORT. What the operations of Cutlist keep. -/

namespace Sys2Proof.Machine

open Sys2Proof

set_option linter.unusedSimpArgs false

theorem wakeBench_kept {r0 : State} (b : Nat) (s : State)
    (k0 : Kept r0 s) : Kept r0 (wakeBench b s) := by
  unfold wakeBench
  repeat' (first
      | (with_reducible assumption) | (with_reducible simp only [Kept.upd_iff])
      | (with_reducible apply State.modPwr_kept) | (with_reducible apply Kept.foldl)
      | (with_reducible apply Kept.foldlPair) | (with_reducible apply Kept.foldlPair2)
      | (refine Kept.of_pair (by with_reducible assumption) ?_) | (intro _) | split | (dsimp only))

theorem putStation_kept {r0 : State} (c : CtxId) (i b : Nat) (s : State)
    (k0 : Kept r0 s) : Kept r0 (putStation c i b s) := by
  unfold putStation
  repeat' (first
      | (with_reducible assumption) | (with_reducible simp only [Kept.upd_iff])
      | (with_reducible apply State.modCtx_kept) | (with_reducible apply wakeBench_kept)
      | (with_reducible apply Kept.foldl) | (with_reducible apply Kept.foldlPair)
      | (with_reducible apply Kept.foldlPair2) | (refine Kept.of_pair (by with_reducible assumption) ?_) | (intro _)
      | split | (dsimp only))

theorem moveStation_kept {r0 : State} (c : CtxId) (i b : Nat) (s : State)
    (k0 : Kept r0 s) : Kept r0 (moveStation c i b s) := by
  unfold moveStation
  repeat' (first
      | (with_reducible assumption) | (with_reducible simp only [Kept.upd_iff])
      | (with_reducible apply State.modCtx_kept) | (with_reducible apply putStation_kept)
      | (with_reducible apply Kept.foldl) | (with_reducible apply Kept.foldlPair)
      | (with_reducible apply Kept.foldlPair2) | (refine Kept.of_pair (by with_reducible assumption) ?_) | (intro _)
      | split | (dsimp only))

theorem resettle_kept {r0 : State} (c : CtxId) (m : Image) (i : Nat) (s : State)
    (k0 : Kept r0 s) : Kept r0 (resettle c m i s) := by
  unfold resettle
  repeat' (first
      | (with_reducible assumption) | (with_reducible simp only [Kept.upd_iff])
      | (with_reducible apply moveStation_kept) | (with_reducible apply putStation_kept)
      | (with_reducible apply Kept.foldl) | (with_reducible apply Kept.foldlPair)
      | (with_reducible apply Kept.foldlPair2) | (refine Kept.of_pair (by with_reducible assumption) ?_) | (intro _)
      | split | (dsimp only))

theorem compelMoves_kept {r0 : State} (c : CtxId) (m : Image) (s : State)
    (k0 : Kept r0 s) : Kept r0 (compelMoves c m s) := by
  unfold compelMoves
  repeat' (first
      | (with_reducible assumption) | (with_reducible simp only [Kept.upd_iff])
      | (with_reducible apply State.each_kept) | (with_reducible apply resettle_kept)
      | (with_reducible apply Kept.foldl) | (with_reducible apply Kept.foldlPair)
      | (with_reducible apply Kept.foldlPair2) | (refine Kept.of_pair (by with_reducible assumption) ?_) | (intro _)
      | split | (dsimp only))

theorem atTile_kept {r0 : State} (c : CtxId) (m : Image) (i : Nat) (s : State)
    (k0 : Kept r0 s) : Kept r0 (atTile c m i s) := by
  unfold atTile
  repeat' (first
      | (with_reducible assumption) | (with_reducible simp only [Kept.upd_iff]) | (with_reducible apply resettle_kept)
      | (with_reducible apply Kept.foldl) | (with_reducible apply Kept.foldlPair)
      | (with_reducible apply Kept.foldlPair2) | (refine Kept.of_pair (by with_reducible assumption) ?_) | (intro _)
      | split | (dsimp only))

theorem withStation_kept {r0 : State} (c : CtxId) (i k : Nat) (act : Image → Station → State → State) (s : State)
    (k0 : Kept r0 s) (h_act : ∀ a0 a1 t, Kept r0 t → Kept r0 (act a0 a1 t)) : Kept r0 (withStation c i k act s) := by
  unfold withStation
  repeat' (first
      | (with_reducible assumption) | (with_reducible simp only [Kept.upd_iff]) | (with_reducible apply h_act)
      | (with_reducible apply atTile_kept) | (with_reducible apply Kept.foldl) | (with_reducible apply Kept.foldlPair)
      | (with_reducible apply Kept.foldlPair2) | (refine Kept.of_pair (by with_reducible assumption) ?_) | (intro _)
      | split | (dsimp only))

theorem doStationMigrate_kept {r0 : State} (c : CtxId) (i : Nat) (b : BenchId) (s : State)
    (k0 : Kept r0 s) : Kept r0 (doStationMigrate c i b s) := by
  unfold doStationMigrate
  repeat' (first
      | (with_reducible assumption) | (with_reducible simp only [Kept.upd_iff])
      | (with_reducible apply moveStation_kept) | (with_reducible apply Kept.foldl)
      | (with_reducible apply Kept.foldlPair) | (with_reducible apply Kept.foldlPair2)
      | (refine Kept.of_pair (by with_reducible assumption) ?_) | (intro _) | split | (dsimp only))

theorem execStationMigrate_kept (c : CtxId) (st : Nat) (b : BenchId) (s : State) :
    KeptOut s (execStationMigrate c st b s) := by
  have k0 := Kept.refl s
  unfold execStationMigrate
  repeat' (first
      | (with_reducible assumption) | (with_reducible simp only [Kept.upd_iff]) | (with_reducible apply KeptOut.next)
      | (with_reducible apply KeptOut.refused) | (with_reducible apply doStationMigrate_kept)
      | (with_reducible apply Kept.foldl) | (with_reducible apply Kept.foldlPair)
      | (with_reducible apply Kept.foldlPair2) | (refine Kept.of_pair (by with_reducible assumption) ?_) | (intro _)
      | split | (dsimp only))

theorem doBenchGate_kept {r0 : State} (b : BenchId) (s : State)
    (k0 : Kept r0 s) : Kept r0 (doBenchGate b s) := by
  unfold doBenchGate
  repeat' (first
      | (with_reducible assumption) | (with_reducible simp only [Kept.upd_iff])
      | (with_reducible apply State.modPwr_kept) | (with_reducible apply Kept.foldl)
      | (with_reducible apply Kept.foldlPair) | (with_reducible apply Kept.foldlPair2)
      | (refine Kept.of_pair (by with_reducible assumption) ?_) | (intro _) | split | (dsimp only))

theorem execBenchGate_kept (b : BenchId) (s : State) :
    KeptOut s (execBenchGate b s) := by
  have k0 := Kept.refl s
  unfold execBenchGate
  repeat' (first
      | (with_reducible assumption) | (with_reducible simp only [Kept.upd_iff]) | (with_reducible apply KeptOut.next)
      | (with_reducible apply KeptOut.refused) | (with_reducible apply doBenchGate_kept)
      | (with_reducible apply Kept.foldl) | (with_reducible apply Kept.foldlPair)
      | (with_reducible apply Kept.foldlPair2) | (refine Kept.of_pair (by with_reducible assumption) ?_) | (intro _)
      | split | (dsimp only))

end Sys2Proof.Machine
end

