-- ==== Sys2Proof/Laws/KeptNet.lean ====
section
/-! SUPPORT. What the operations of Net keep. -/

namespace Sys2Proof.Machine

open Sys2Proof

set_option linter.unusedSimpArgs false

theorem sendPacket_kept {r0 : State} (uid : U64) (vc : Fin 4) (bs : List Byte) (s : State)
    (k0 : Kept r0 s) : Kept r0 (sendPacket uid vc bs s) := by
  unfold sendPacket
  repeat' (first
      | (with_reducible assumption) | (with_reducible simp only [Kept.upd_iff])
      | (with_reducible apply State.modLink_kept) | (with_reducible apply Kept.foldl)
      | (with_reducible apply Kept.foldlPair) | (with_reducible apply Kept.foldlPair2)
      | (refine Kept.of_pair (by with_reducible assumption) ?_) | (intro _) | split | (dsimp only))

theorem retryWaiting_kept {r0 : State} (s : State)
    (k0 : Kept r0 s) : Kept r0 (retryWaiting s) := by
  unfold retryWaiting
  repeat' (first
      | (with_reducible assumption) | (with_reducible simp only [Kept.upd_iff])
      | (with_reducible apply sendPacket_kept) | (with_reducible apply Kept.foldl)
      | (with_reducible apply Kept.foldlPair) | (with_reducible apply Kept.foldlPair2)
      | (refine Kept.of_pair (by with_reducible assumption) ?_) | (intro _) | split | (dsimp only))

theorem stopLink_kept {r0 : State} (l : LinkId) (st : LinkState) (s : State)
    (k0 : Kept r0 s) : Kept r0 (stopLink l st s) := by
  unfold stopLink
  repeat' (first
      | (with_reducible assumption) | (with_reducible simp only [Kept.upd_iff])
      | (with_reducible apply State.setLink_kept) | (with_reducible apply sendPacket_kept)
      | (with_reducible apply Kept.foldl) | (with_reducible apply Kept.foldlPair)
      | (with_reducible apply Kept.foldlPair2) | (refine Kept.of_pair (by with_reducible assumption) ?_) | (intro _)
      | split | (dsimp only))

end Sys2Proof.Machine
end

