-- ==== Sys2Proof/Laws/KeptOps.lean ====
section
/-! SUPPORT. What the operations of Ops keep. -/

namespace Sys2Proof.Machine

open Sys2Proof

set_option linter.unusedSimpArgs false

theorem countStkCe_kept {r0 : State} (k : StackId) (n : Nat) (s : State)
    (k0 : Kept r0 s) : Kept r0 (countStkCe k n s) := by
  unfold countStkCe
  repeat' (first
      | (with_reducible assumption) | (with_reducible simp only [Kept.upd_iff])
      | (with_reducible apply State.modGlb_kept) | (with_reducible apply Kept.foldl)
      | (with_reducible apply Kept.foldlPair) | (with_reducible apply Kept.foldlPair2)
      | (refine Kept.of_pair (by with_reducible assumption) ?_) | (intro _) | split | (dsimp only))

theorem countStkUe_kept {r0 : State} (k : StackId) (s : State)
    (k0 : Kept r0 s) : Kept r0 (countStkUe k s) := by
  unfold countStkUe
  repeat' (first
      | (with_reducible assumption) | (with_reducible simp only [Kept.upd_iff])
      | (with_reducible apply State.modGlb_kept) | (with_reducible apply Kept.foldl)
      | (with_reducible apply Kept.foldlPair) | (with_reducible apply Kept.foldlPair2)
      | (refine Kept.of_pair (by with_reducible assumption) ?_) | (intro _) | split | (dsimp only))

theorem correctWords_kept {r0 : State} (ws : List Nat) (s : State)
    (k0 : Kept r0 s) : Kept r0 (correctWords ws s) := by
  unfold correctWords
  repeat' (first
      | (with_reducible assumption) | (with_reducible simp only [Kept.upd_iff])
      | (with_reducible apply State.each_kept) | (with_reducible apply countStkCe_kept)
      | (with_reducible apply Kept.foldl) | (with_reducible apply Kept.foldlPair)
      | (with_reducible apply Kept.foldlPair2) | (refine Kept.of_pair (by with_reducible assumption) ?_) | (intro _)
      | split | (dsimp only))

theorem reportUe_kept {r0 : State} (who : Option CtxId) (bad : List Nat) (s : State)
    (k0 : Kept r0 s) : Kept r0 (reportUe who bad s) := by
  unfold reportUe
  repeat' (first
      | (with_reducible assumption) | (with_reducible simp only [Kept.upd_iff])
      | (with_reducible apply countStkUe_kept) | (with_reducible apply ctxEvent_kept)
      | (with_reducible apply State.modCtx_kept) | (with_reducible apply raise_kept)
      | (with_reducible apply Kept.foldl) | (with_reducible apply Kept.foldlPair)
      | (with_reducible apply Kept.foldlPair2) | (refine Kept.of_pair (by with_reducible assumption) ?_) | (intro _)
      | split | (dsimp only))

theorem eccRead_kept {r0 : State} (who : Option CtxId) (ws : List Nat) (s : State)
    (k0 : Kept r0 s) : Kept r0 (eccRead who ws s) := by
  unfold eccRead
  repeat' (first
      | (with_reducible assumption) | (with_reducible simp only [Kept.upd_iff]) | (with_reducible apply reportUe_kept)
      | (with_reducible apply correctWords_kept) | (with_reducible apply Kept.foldl)
      | (with_reducible apply Kept.foldlPair) | (with_reducible apply Kept.foldlPair2)
      | (refine Kept.of_pair (by with_reducible assumption) ?_) | (intro _) | split | (dsimp only))

theorem devPut_kept {r0 : State} (a : Nat) (bs : List Byte) (s : State)
    (k0 : Kept r0 s) : Kept r0 (devPut a bs s) := by
  unfold devPut
  repeat' (first
      | (with_reducible assumption) | (with_reducible simp only [Kept.upd_iff]) | (with_reducible apply Kept.foldl)
      | (with_reducible apply Kept.foldlPair) | (with_reducible apply Kept.foldlPair2)
      | (refine Kept.of_pair (by with_reducible assumption) ?_) | (intro _) | split | (dsimp only)
      | (with_reducible apply Kept.updHost) | (with_reducible apply Kept.updMem))

theorem devWrite_kept {r0 : State} (who : Option CtxId) (a : Nat) (bs : List Byte) (s : State)
    (k0 : Kept r0 s) : Kept r0 (devWrite who a bs s) := by
  unfold devWrite
  repeat' (first
      | (with_reducible assumption) | (with_reducible simp only [Kept.upd_iff]) | (with_reducible apply devPut_kept)
      | (with_reducible apply eccRead_kept) | (with_reducible apply Kept.foldl)
      | (with_reducible apply Kept.foldlPair) | (with_reducible apply Kept.foldlPair2)
      | (refine Kept.of_pair (by with_reducible assumption) ?_) | (intro _) | split | (dsimp only))

theorem lookupPage_kept {r0 : State} (c : CtxId) (va : Nat) (s : State)
    (k0 : Kept r0 s) : Kept r0 (lookupPage c va s).2 := by
  unfold lookupPage
  repeat' (first
      | (with_reducible assumption) | (with_reducible simp only [Kept.upd_iff]) | (with_reducible apply eccRead_kept)
      | (with_reducible apply State.modCtx_kept) | (with_reducible apply Kept.foldl)
      | (with_reducible apply Kept.foldlPair) | (with_reducible apply Kept.foldlPair2)
      | (refine Kept.of_pair (by with_reducible assumption) ?_) | (intro _) | split | (dsimp only))

theorem pageFault_kept {r0 : State} (c : CtxId) (req : FaultReq) (cause va : Nat) (write : Bool) (s : State)
    (k0 : Kept r0 s) : Kept r0 (pageFault c req cause va write s) := by
  unfold pageFault
  repeat' (first
      | (with_reducible assumption) | (with_reducible simp only [Kept.upd_iff])
      | (with_reducible apply State.modCtx_kept) | (with_reducible apply State.setCtx_kept)
      | (with_reducible apply ctxEvent_kept) | (with_reducible apply Kept.foldl)
      | (with_reducible apply Kept.foldlPair) | (with_reducible apply Kept.foldlPair2)
      | (refine Kept.of_pair (by with_reducible assumption) ?_) | (intro _) | split | (dsimp only))

theorem keepMark_kept {r0 : State} (c : CtxId) (req : FaultReq) (s t : State)
    (k0 : Kept r0 t) : Kept r0 (keepMark c req s t) := by
  unfold keepMark
  repeat' (first
      | (with_reducible assumption) | (with_reducible simp only [Kept.upd_iff])
      | (with_reducible apply State.modCtx_kept) | (with_reducible apply Kept.foldl)
      | (with_reducible apply Kept.foldlPair) | (with_reducible apply Kept.foldlPair2)
      | (refine Kept.of_pair (by with_reducible assumption) ?_) | (intro _) | split | (dsimp only))

theorem hostWait_kept {r0 : State} (c : CtxId) (w : HostWait) (s : State)
    (k0 : Kept r0 s) : Kept r0 (hostWait c w s) := by
  unfold hostWait
  repeat' (first
      | (with_reducible assumption) | (with_reducible simp only [Kept.upd_iff])
      | (with_reducible apply State.modCtx_kept) | (with_reducible apply Kept.foldl)
      | (with_reducible apply Kept.foldlPair) | (with_reducible apply Kept.foldlPair2)
      | (refine Kept.of_pair (by with_reducible assumption) ?_) | (intro _) | split | (dsimp only))

theorem askQueued_kept {r0 : State} (s : State)
    (k0 : Kept r0 s) : Kept r0 (askQueued s) := by
  unfold askQueued
  repeat' (first
      | (with_reducible assumption) | (with_reducible simp only [Kept.upd_iff])
      | (with_reducible apply State.each_kept) | (with_reducible apply State.modCtx_kept)
      | (with_reducible apply Kept.foldl) | (with_reducible apply Kept.foldlPair)
      | (with_reducible apply Kept.foldlPair2) | (refine Kept.of_pair (by with_reducible assumption) ?_) | (intro _)
      | split | (dsimp only))

theorem getPage_kept {r0 : State} (c : CtxId) (req : FaultReq) (dev write : Bool) (va : Nat) (s : State)
    (k0 : Kept r0 s) : Kept r0 (getPage c req dev write va s).2 := by
  unfold getPage
  repeat' (first
      | (with_reducible assumption) | (with_reducible simp only [Kept.upd_iff])
      | (with_reducible apply lookupPage_kept) | (with_reducible apply pageFault_kept)
      | (with_reducible apply hostWait_kept) | (with_reducible apply Kept.foldl)
      | (with_reducible apply Kept.foldlPair) | (with_reducible apply Kept.foldlPair2)
      | (refine Kept.of_pair (p := lookupPage _ _ _) (by with_reducible assumption) ?_)
      | (refine Kept.of_pair (by with_reducible assumption) ?_) | (intro _) | split | (dsimp only))

theorem getPages_kept {r0 : State} (c : CtxId) (req : FaultReq) (dev write : Bool) :
    ∀ (y0 : List Nat) (y1 : List PageMap) (y2 : State), Kept r0 y2 → Kept r0 (getPages c req dev write y0 y1 y2).2 := by
  intro y0
  induction y0 with
  | nil =>
    intro y1 y2 k0
    unfold getPages
    repeat' (first
        | (with_reducible assumption) | (with_reducible simp only [Kept.upd_iff])
        | (with_reducible apply getPage_kept) | (with_reducible apply Kept.foldl)
        | (with_reducible apply Kept.foldlPair) | (with_reducible apply Kept.foldlPair2)
        | (refine Kept.of_pair (p := getPage _ _ _ _ _ _) (by with_reducible assumption) ?_)
        | (refine Kept.of_pair (by with_reducible assumption) ?_) | (intro _) | split | (dsimp only))
  | cons z zs ih =>
    intro y1 y2 k0
    unfold getPages
    repeat' (first
        | (with_reducible assumption) | (with_reducible simp only [Kept.upd_iff]) | (with_reducible apply ih)
        | (with_reducible apply getPage_kept) | (with_reducible apply Kept.foldl)
        | (with_reducible apply Kept.foldlPair) | (with_reducible apply Kept.foldlPair2)
        | (refine Kept.of_pair (p := getPage _ _ _ _ _ _) (by with_reducible assumption) ?_)
        | (refine Kept.of_pair (p := getPages _ _ _ _ _ _ _) (by with_reducible assumption) ?_)
        | (refine Kept.of_pair (by with_reducible assumption) ?_) | (intro _) | split | (dsimp only))

theorem access_kept {r0 : State} (c : CtxId) (req : FaultReq) (dev write : Bool) (spans : List Span) (s : State)
    (k0 : Kept r0 s) : Kept r0 (access c req dev write spans s).2 := by
  unfold access
  repeat' (first
      | (with_reducible assumption) | (with_reducible simp only [Kept.upd_iff]) | (with_reducible apply getPages_kept)
      | (with_reducible apply keepMark_kept) | (with_reducible apply Kept.foldl)
      | (with_reducible apply Kept.foldlPair) | (with_reducible apply Kept.foldlPair2)
      | (refine Kept.of_pair (p := getPages _ _ _ _ _ _ _) (by with_reducible assumption) ?_)
      | (refine Kept.of_pair (by with_reducible assumption) ?_) | (intro _) | split | (dsimp only))

theorem chargeRead_kept {r0 : State} (c : CtxId) (tab : List PageMap) (spans : List Span) (s : State)
    (k0 : Kept r0 s) : Kept r0 (chargeRead c tab spans s) := by
  unfold chargeRead
  repeat' (first
      | (with_reducible assumption) | (with_reducible simp only [Kept.upd_iff]) | (with_reducible apply eccRead_kept)
      | (with_reducible apply Kept.foldl) | (with_reducible apply Kept.foldlPair)
      | (with_reducible apply Kept.foldlPair2) | (refine Kept.of_pair (by with_reducible assumption) ?_) | (intro _)
      | split | (dsimp only))

theorem writeVa_kept {r0 : State} (c : CtxId) (tab : List PageMap) (va : Nat) (bs : List Byte) (s : State)
    (k0 : Kept r0 s) : Kept r0 (writeVa c tab va bs s) := by
  unfold writeVa
  repeat' (first
      | (with_reducible assumption) | (with_reducible simp only [Kept.upd_iff]) | (with_reducible apply devWrite_kept)
      | (with_reducible apply Kept.foldl) | (with_reducible apply Kept.foldlPair)
      | (with_reducible apply Kept.foldlPair2) | (refine Kept.of_pair (by with_reducible assumption) ?_) | (intro _)
      | split | (dsimp only) | (with_reducible apply Kept.updHost) | (with_reducible apply Kept.updMem))

theorem fetchVa_kept {r0 : State} (c : CtxId) (req : FaultReq) (dev : Bool) (sp : Span) (s : State)
    (k0 : Kept r0 s) : Kept r0 (fetchVa c req dev sp s).2 := by
  unfold fetchVa
  repeat' (first
      | (with_reducible assumption) | (with_reducible simp only [Kept.upd_iff]) | (with_reducible apply access_kept)
      | (with_reducible apply keepMark_kept) | (with_reducible apply chargeRead_kept)
      | (with_reducible apply Kept.foldl) | (with_reducible apply Kept.foldlPair)
      | (with_reducible apply Kept.foldlPair2)
      | (refine Kept.of_pair (p := access _ _ _ _ _ _) (by with_reducible assumption) ?_)
      | (refine Kept.of_pair (by with_reducible assumption) ?_) | (intro _) | split | (dsimp only))

theorem putVa_kept {r0 : State} (c : CtxId) (req : FaultReq) (dev : Bool) (va : Nat) (bs : List Byte) (s : State)
    (k0 : Kept r0 s) : Kept r0 (putVa c req dev va bs s).2 := by
  unfold putVa
  repeat' (first
      | (with_reducible assumption) | (with_reducible simp only [Kept.upd_iff]) | (with_reducible apply access_kept)
      | (with_reducible apply keepMark_kept) | (with_reducible apply writeVa_kept) | (with_reducible apply Kept.foldl)
      | (with_reducible apply Kept.foldlPair) | (with_reducible apply Kept.foldlPair2)
      | (refine Kept.of_pair (p := access _ _ _ _ _ _) (by with_reducible assumption) ?_)
      | (refine Kept.of_pair (by with_reducible assumption) ?_) | (intro _) | split | (dsimp only))

theorem putMany_kept {r0 : State} (c : CtxId) (req : FaultReq) (dev : Bool) (ws : List (Nat × List Byte)) (s : State)
    (k0 : Kept r0 s) : Kept r0 (putMany c req dev ws s).2 := by
  unfold putMany
  repeat' (first
      | (with_reducible assumption) | (with_reducible simp only [Kept.upd_iff]) | (with_reducible apply access_kept)
      | (with_reducible apply keepMark_kept) | (with_reducible apply writeVa_kept) | (with_reducible apply Kept.foldl)
      | (with_reducible apply Kept.foldlPair) | (with_reducible apply Kept.foldlPair2)
      | (refine Kept.of_pair (p := access _ _ _ _ _ _) (by with_reducible assumption) ?_)
      | (refine Kept.of_pair (by with_reducible assumption) ?_) | (intro _) | split | (dsimp only))

theorem drawNat_kept {r0 : State} (s : State)
    (k0 : Kept r0 s) : Kept r0 (drawNat s).2 := by
  unfold drawNat
  repeat' (first
      | (with_reducible assumption) | (with_reducible simp only [Kept.upd_iff]) | (with_reducible apply Kept.foldl)
      | (with_reducible apply Kept.foldlPair) | (with_reducible apply Kept.foldlPair2)
      | (refine Kept.of_pair (by with_reducible assumption) ?_) | (intro _) | split | (dsimp only))

theorem idle_kept {r0 : State} (s : State)
    (k0 : Kept r0 s) : Kept r0 (idle s) := by
  unfold idle
  repeat' (first
      | (with_reducible assumption) | (with_reducible simp only [Kept.upd_iff]) | (with_reducible apply Kept.foldl)
      | (with_reducible apply Kept.foldlPair) | (with_reducible apply Kept.foldlPair2)
      | (refine Kept.of_pair (by with_reducible assumption) ?_) | (intro _) | split | (dsimp only))

end Sys2Proof.Machine
end

