-- ==== Sys2Proof/Laws/KeptFence.lean ====
section
/-! SUPPORT. What the operations of Fence keep. -/

namespace Sys2Proof.Machine

open Sys2Proof

set_option linter.unusedSimpArgs false

theorem updatePll_kept {r0 : State} (q : QuarterId) (s : State)
    (k0 : Kept r0 s) : Kept r0 (updatePll q s) := by
  unfold updatePll
  repeat' (first
      | (with_reducible assumption) | (with_reducible simp only [Kept.upd_iff]) | (with_reducible apply drawNat_kept)
      | (with_reducible apply State.modPwr_kept) | (with_reducible apply Kept.foldl)
      | (with_reducible apply Kept.foldlPair) | (with_reducible apply Kept.foldlPair2)
      | (refine Kept.of_pair (p := drawNat _) (by with_reducible assumption) ?_)
      | (refine Kept.of_pair (by with_reducible assumption) ?_) | (intro _) | split | (dsimp only))

theorem updatePlls_kept {r0 : State} (s : State)
    (k0 : Kept r0 s) : Kept r0 (updatePlls s) := by
  unfold updatePlls
  repeat' (first
      | (with_reducible assumption) | (with_reducible simp only [Kept.upd_iff])
      | (with_reducible apply State.each_kept) | (with_reducible apply updatePll_kept)
      | (with_reducible apply Kept.foldl) | (with_reducible apply Kept.foldlPair)
      | (with_reducible apply Kept.foldlPair2) | (refine Kept.of_pair (by with_reducible assumption) ?_) | (intro _)
      | split | (dsimp only))

theorem placeSems_kept {r0 : State} (c : CtxId) (s : State)
    (k0 : Kept r0 s) : Kept r0 (placeSems c s) := by
  unfold placeSems
  repeat' (first
      | (with_reducible assumption) | (with_reducible simp only [Kept.upd_iff])
      | (with_reducible apply State.modCtx_kept) | (with_reducible apply State.modPwr_kept)
      | (with_reducible apply Kept.foldl) | (with_reducible apply Kept.foldlPair)
      | (with_reducible apply Kept.foldlPair2) | (refine Kept.of_pair (by with_reducible assumption) ?_) | (intro _)
      | split | (dsimp only))

theorem requestEngineReset_kept {r0 : State} (u : UnitRef) (cause : Nat) (s : State)
    (k0 : Kept r0 s) : Kept r0 (requestEngineReset u cause s) := by
  unfold requestEngineReset
  repeat' (first
      | (with_reducible assumption) | (with_reducible simp only [Kept.upd_iff])
      | (with_reducible apply State.modGlb_kept) | (with_reducible apply State.each_kept)
      | (with_reducible apply updatePlls_kept) | (with_reducible apply State.modPwr_kept)
      | (with_reducible apply requestCtxReset_kept) | (with_reducible apply Kept.foldl)
      | (with_reducible apply Kept.foldlPair) | (with_reducible apply Kept.foldlPair2)
      | (refine Kept.of_pair (by with_reducible assumption) ?_) | (intro _) | split | (dsimp only))

theorem retireEvent_kept {r0 : State} (kind unit : Nat) (s : State)
    (k0 : Kept r0 s) : Kept r0 (retireEvent kind unit s) := by
  unfold retireEvent
  repeat' (first
      | (with_reducible assumption) | (with_reducible simp only [Kept.upd_iff]) | (with_reducible apply raise_kept)
      | (with_reducible apply Kept.foldl) | (with_reducible apply Kept.foldlPair)
      | (with_reducible apply Kept.foldlPair2) | (refine Kept.of_pair (by with_reducible assumption) ?_) | (intro _)
      | split | (dsimp only))

theorem retireBench_kept {r0 : State} (b : BenchId) (s : State)
    (k0 : Kept r0 s) : Kept r0 (retireBench b s) := by
  unfold retireBench
  repeat' (first
      | (with_reducible assumption) | (with_reducible simp only [Kept.upd_iff])
      | (with_reducible apply State.modGlb_kept) | (with_reducible apply requestEngineReset_kept)
      | (with_reducible apply retireEvent_kept) | (with_reducible apply Kept.foldl)
      | (with_reducible apply Kept.foldlPair) | (with_reducible apply Kept.foldlPair2)
      | (refine Kept.of_pair (by with_reducible assumption) ?_) | (intro _) | split | (dsimp only))

theorem retireLink_kept {r0 : State} (l : LinkId) (s : State)
    (k0 : Kept r0 s) : Kept r0 (retireLink l s) := by
  unfold retireLink
  repeat' (first
      | (with_reducible assumption) | (with_reducible simp only [Kept.upd_iff])
      | (with_reducible apply State.modGlb_kept) | (with_reducible apply retireEvent_kept)
      | (with_reducible apply stopLink_kept) | (with_reducible apply Kept.foldl)
      | (with_reducible apply Kept.foldlPair) | (with_reducible apply Kept.foldlPair2)
      | (refine Kept.of_pair (by with_reducible assumption) ?_) | (intro _) | split | (dsimp only))

theorem residueMismatch_kept {r0 : State} (c : CtxId) (site : CheckSite) (op : CheckOp) (tap lane vrow : Nat) (s : State)
    (k0 : Kept r0 s) : Kept r0 (residueMismatch c site op tap lane vrow s) := by
  unfold residueMismatch
  repeat' (first
      | (with_reducible assumption) | (with_reducible simp only [Kept.upd_iff])
      | (with_reducible apply State.modCtx_kept) | (with_reducible apply State.modGlb_kept)
      | (with_reducible apply ctxEvent_kept) | (with_reducible apply retireBench_kept)
      | (with_reducible apply retireLink_kept) | (with_reducible apply Kept.foldl)
      | (with_reducible apply Kept.foldlPair) | (with_reducible apply Kept.foldlPair2)
      | (refine Kept.of_pair (by with_reducible assumption) ?_) | (intro _) | split | (dsimp only))

theorem checkSides_kept {r0 : State} (c : CtxId) (site : CheckSite) (op : CheckOp) (tap : Nat) (ts : List Tile) (s : State)
    (k0 : Kept r0 s) : Kept r0 (checkSides c site op tap ts s) := by
  unfold checkSides
  repeat' (first
      | (with_reducible assumption) | (with_reducible simp only [Kept.upd_iff])
      | (with_reducible apply State.each_kept) | (with_reducible apply residueMismatch_kept)
      | (with_reducible apply Kept.foldl) | (with_reducible apply Kept.foldlPair)
      | (with_reducible apply Kept.foldlPair2) | (refine Kept.of_pair (by with_reducible assumption) ?_) | (intro _)
      | split | (dsimp only))

theorem checkResidue_kept {r0 : State} (c : CtxId) (site : CheckSite) (op : CheckOp) (taps : List Nat) (ts : List Tile) (s : State)
    (k0 : Kept r0 s) : Kept r0 (checkResidue c site op taps ts s) := by
  unfold checkResidue
  repeat' (first
      | (with_reducible assumption) | (with_reducible simp only [Kept.upd_iff])
      | (with_reducible apply checkSides_kept) | (with_reducible apply State.each_kept)
      | (with_reducible apply residueMismatch_kept) | (with_reducible apply Kept.foldl)
      | (with_reducible apply Kept.foldlPair) | (with_reducible apply Kept.foldlPair2)
      | (refine Kept.of_pair (by with_reducible assumption) ?_) | (intro _) | split | (dsimp only))

theorem storeEvent_kept {r0 : State} (who : Option CtxId) (k : SramStore) (s : State)
    (k0 : Kept r0 s) : Kept r0 (storeEvent who k s) := by
  unfold storeEvent
  repeat' (first
      | (with_reducible assumption) | (with_reducible simp only [Kept.upd_iff]) | (with_reducible apply ctxEvent_kept)
      | (with_reducible apply raise_kept) | (with_reducible apply Kept.foldl) | (with_reducible apply Kept.foldlPair)
      | (with_reducible apply Kept.foldlPair2) | (refine Kept.of_pair (by with_reducible assumption) ?_) | (intro _)
      | split | (dsimp only))

theorem readStores_kept {r0 : State} (who : Option CtxId) (mine : SramStore → Bool) (s : State)
    (k0 : Kept r0 s) : Kept r0 (readStores who mine s).2 := by
  unfold readStores
  repeat' (first
      | (with_reducible assumption) | (with_reducible simp only [Kept.upd_iff])
      | (with_reducible apply State.each_kept) | (with_reducible apply State.modGlb_kept)
      | (with_reducible apply storeEvent_kept) | (with_reducible apply State.modCtx_kept)
      | (with_reducible apply Kept.foldl) | (with_reducible apply Kept.foldlPair)
      | (with_reducible apply Kept.foldlPair2) | (refine Kept.of_pair (by with_reducible assumption) ?_) | (intro _)
      | split | (dsimp only))

theorem checkSram_kept {r0 : State} (c : CtxId) (bench : Nat) (s : State)
    (k0 : Kept r0 s) : Kept r0 (checkSram c bench s).2 := by
  unfold checkSram
  repeat' (first
      | (with_reducible assumption) | (with_reducible simp only [Kept.upd_iff])
      | (with_reducible apply readStores_kept) | (with_reducible apply Kept.foldl)
      | (with_reducible apply Kept.foldlPair) | (with_reducible apply Kept.foldlPair2)
      | (refine Kept.of_pair (p := readStores _ _ _) (by with_reducible assumption) ?_)
      | (refine Kept.of_pair (by with_reducible assumption) ?_) | (intro _) | split | (dsimp only))

end Sys2Proof.Machine
end

