-- ==== Sys2Proof/Laws/KeptLayout.lean ====
section
/-! SUPPORT. What the operations of Layout keep. -/

namespace Sys2Proof.Machine

open Sys2Proof

set_option linter.unusedSimpArgs false

theorem takeTile_kept {r0 : State} (c : CtxId) (m : Image) (i port : Nat) (s : State)
    (k0 : Kept r0 s) : Kept r0 (takeTile c m i port s).2 := by
  unfold takeTile
  repeat' (first
      | (with_reducible assumption) | (with_reducible simp only [Kept.upd_iff])
      | (with_reducible apply checkSram_kept) | (with_reducible apply State.modCtx_kept)
      | (with_reducible apply Kept.foldl) | (with_reducible apply Kept.foldlPair)
      | (with_reducible apply Kept.foldlPair2)
      | (refine Kept.of_pair (p := checkSram _ _ _) (by with_reducible assumption) ?_)
      | (refine Kept.of_pair (by with_reducible assumption) ?_) | (intro _) | split | (dsimp only))

theorem takeScaled_kept {r0 : State} (c : CtxId) (m : Image) (i port : Nat) (s : State)
    (k0 : Kept r0 s) : Kept r0 (takeScaled c m i port s).2 := by
  unfold takeScaled
  repeat' (first
      | (with_reducible assumption) | (with_reducible simp only [Kept.upd_iff]) | (with_reducible apply takeTile_kept)
      | (with_reducible apply State.modCtx_kept) | (with_reducible apply Kept.foldl)
      | (with_reducible apply Kept.foldlPair) | (with_reducible apply Kept.foldlPair2)
      | (refine Kept.of_pair (p := takeTile _ _ _ _ _) (by with_reducible assumption) ?_)
      | (refine Kept.of_pair (by with_reducible assumption) ?_) | (intro _) | split | (dsimp only))

end Sys2Proof.Machine
end

