-- ==== Sys2Proof/Laws/KeptAccumStation.lean ====
section
/-! SUPPORT. What the operations of AccumStation keep. -/

namespace Sys2Proof.Machine

open Sys2Proof

set_option linter.unusedSimpArgs false

theorem doAccumSegment_kept {r0 : State} (c : CtxId) (i : Nat) (s : State)
    (k0 : Kept r0 s) : Kept r0 (doAccumSegment c i s) := by
  unfold doAccumSegment
  repeat' (first
      | (with_reducible assumption) | (with_reducible simp only [Kept.upd_iff])
      | (with_reducible apply withStation_kept) | (with_reducible apply takeTile_kept)
      | (with_reducible apply violate_kept) | (with_reducible apply State.modCtx_kept)
      | (with_reducible apply Kept.foldl) | (with_reducible apply Kept.foldlPair)
      | (with_reducible apply Kept.foldlPair2)
      | (refine Kept.of_pair (p := takeTile _ _ _ _ _) (by with_reducible assumption) ?_)
      | (refine Kept.of_pair (by with_reducible assumption) ?_) | (intro _) | split | (dsimp only))

theorem execAccumSegment_kept (c : CtxId) (st : Nat) (s : State) :
    KeptOut s (execAccumSegment c st s) := by
  have k0 := Kept.refl s
  unfold execAccumSegment
  repeat' (first
      | (with_reducible assumption) | (with_reducible simp only [Kept.upd_iff]) | (with_reducible apply KeptOut.next)
      | (with_reducible apply KeptOut.refused) | (with_reducible apply doAccumSegment_kept)
      | (with_reducible apply Kept.foldl) | (with_reducible apply Kept.foldlPair)
      | (with_reducible apply Kept.foldlPair2) | (refine Kept.of_pair (by with_reducible assumption) ?_) | (intro _)
      | split | (dsimp only))

theorem takeChain_kept {r0 : State} (c : CtxId) (m : Image) (i : Nat) (ext : Option (List Nat)) :
    ∀ (y0 : Nat) (y1 : State), Kept r0 y1 → Kept r0 (takeChain c m i ext y0 y1) := by
  intro y0
  induction y0 with
  | zero =>
    intro y1 k0
    unfold takeChain
    repeat' (first
        | (with_reducible assumption) | (with_reducible simp only [Kept.upd_iff])
        | (with_reducible apply takeTile_kept) | (with_reducible apply State.modCtx_kept)
        | (with_reducible apply violate_kept) | (with_reducible apply Kept.foldl)
        | (with_reducible apply Kept.foldlPair) | (with_reducible apply Kept.foldlPair2)
        | (refine Kept.of_pair (p := takeTile _ _ _ _ _) (by with_reducible assumption) ?_)
        | (refine Kept.of_pair (by with_reducible assumption) ?_) | (intro _) | split | (dsimp only))
  | succ n ih =>
    intro y1 k0
    unfold takeChain
    repeat' (first
        | (with_reducible assumption) | (with_reducible simp only [Kept.upd_iff]) | (with_reducible apply ih)
        | (with_reducible apply takeTile_kept) | (with_reducible apply State.modCtx_kept)
        | (with_reducible apply violate_kept) | (with_reducible apply Kept.foldl)
        | (with_reducible apply Kept.foldlPair) | (with_reducible apply Kept.foldlPair2)
        | (refine Kept.of_pair (p := takeTile _ _ _ _ _) (by with_reducible assumption) ?_)
        | (refine Kept.of_pair (by with_reducible assumption) ?_) | (intro _) | split | (dsimp only))

theorem doChainJoin_kept {r0 : State} (c : CtxId) (i : Nat) (out : TileXY) (s : State)
    (k0 : Kept r0 s) : Kept r0 (doChainJoin c i out s) := by
  unfold doChainJoin
  repeat' (first
      | (with_reducible assumption) | (with_reducible simp only [Kept.upd_iff])
      | (with_reducible apply withStation_kept) | (with_reducible apply takeChain_kept)
      | (with_reducible apply State.modCtx_kept) | (with_reducible apply violate_kept)
      | (with_reducible apply Kept.foldl) | (with_reducible apply Kept.foldlPair)
      | (with_reducible apply Kept.foldlPair2) | (refine Kept.of_pair (by with_reducible assumption) ?_) | (intro _)
      | split | (dsimp only))

theorem execChainJoin_kept (c : CtxId) (st : Nat) (out : TileXY) (s : State) :
    KeptOut s (execChainJoin c st out s) := by
  have k0 := Kept.refl s
  unfold execChainJoin
  repeat' (first
      | (with_reducible assumption) | (with_reducible simp only [Kept.upd_iff]) | (with_reducible apply KeptOut.next)
      | (with_reducible apply KeptOut.refused) | (with_reducible apply doChainJoin_kept)
      | (with_reducible apply Kept.foldl) | (with_reducible apply Kept.foldlPair)
      | (with_reducible apply Kept.foldlPair2) | (refine Kept.of_pair (by with_reducible assumption) ?_) | (intro _)
      | split | (dsimp only))

end Sys2Proof.Machine
end

