-- ==== Sys2Proof/Laws/KeptPort.lean ====
section
/-! SUPPORT. What the operations of Port keep. -/

namespace Sys2Proof.Machine

open Sys2Proof

set_option linter.unusedSimpArgs false

theorem holdWrite_kept {r0 : State} (fn : FnId) (cmd : Instr) (s : State)
    (k0 : Kept r0 s) : Kept r0 (holdWrite fn cmd s) := by
  unfold holdWrite
  repeat' (first
      | (with_reducible assumption) | (with_reducible simp only [Kept.upd_iff])
      | (with_reducible apply State.modFunc_kept) | (with_reducible apply Kept.foldl)
      | (with_reducible apply Kept.foldlPair) | (with_reducible apply Kept.foldlPair2)
      | (refine Kept.of_pair (by with_reducible assumption) ?_) | (intro _) | split | (dsimp only))

theorem writeInOrder_kept {r0 : State} (fn : FnId) (wait : Bool) (cmd : Instr) (act : State → State) (s : State)
    (k0 : Kept r0 s) (h_act : ∀ t, Kept r0 t → Kept r0 (act t)) : Kept r0 (writeInOrder fn wait cmd act s) := by
  unfold writeInOrder
  repeat' (first
      | (with_reducible assumption) | (with_reducible simp only [Kept.upd_iff]) | (with_reducible apply h_act)
      | (with_reducible apply holdWrite_kept) | (with_reducible apply Kept.foldl)
      | (with_reducible apply Kept.foldlPair) | (with_reducible apply Kept.foldlPair2)
      | (refine Kept.of_pair (by with_reducible assumption) ?_) | (intro _) | split | (dsimp only))

theorem ctxPort_kept {r0 : State} (fn : FnId) (c : CtxId) (cmd : Instr) (act : State → State) (s : State)
    (k0 : Kept r0 s) (h_act : ∀ t, Kept r0 t → Kept r0 (act t)) : Kept r0 (ctxPort fn c cmd act s) := by
  unfold ctxPort
  repeat' (first
      | (with_reducible assumption) | (with_reducible simp only [Kept.upd_iff]) | (with_reducible apply h_act)
      | (with_reducible apply writeInOrder_kept) | (with_reducible apply Kept.foldl)
      | (with_reducible apply Kept.foldlPair) | (with_reducible apply Kept.foldlPair2)
      | (refine Kept.of_pair (by with_reducible assumption) ?_) | (intro _) | split | (dsimp only))

theorem glbPort_kept {r0 : State} (fn : FnId) (cmd : Instr) (act : State → State) (s : State)
    (k0 : Kept r0 s) (h_act : ∀ t, Kept r0 t → Kept r0 (act t)) : Kept r0 (glbPort fn cmd act s) := by
  unfold glbPort
  repeat' (first
      | (with_reducible assumption) | (with_reducible simp only [Kept.upd_iff]) | (with_reducible apply h_act)
      | (with_reducible apply writeInOrder_kept) | (with_reducible apply Kept.foldl)
      | (with_reducible apply Kept.foldlPair) | (with_reducible apply Kept.foldlPair2)
      | (refine Kept.of_pair (by with_reducible assumption) ?_) | (intro _) | split | (dsimp only))

theorem rstPort_kept {r0 : State} (fn : FnId) (act : State → State) (s : State)
    (k0 : Kept r0 s) (h_act : ∀ t, Kept r0 t → Kept r0 (act t)) : Kept r0 (rstPort fn act s) := by
  unfold rstPort
  repeat' (first
      | (with_reducible assumption) | (with_reducible simp only [Kept.upd_iff]) | (with_reducible apply h_act)
      | (with_reducible apply Kept.foldl) | (with_reducible apply Kept.foldlPair)
      | (with_reducible apply Kept.foldlPair2) | (refine Kept.of_pair (by with_reducible assumption) ?_) | (intro _)
      | split | (dsimp only))

theorem fnPort_kept {r0 : State} (fn : FnId) (cmd : Instr) (act : State → State) (s : State)
    (k0 : Kept r0 s) (h_act : ∀ t, Kept r0 t → Kept r0 (act t)) : Kept r0 (fnPort fn cmd act s) := by
  unfold fnPort
  repeat' (first
      | (with_reducible assumption) | (with_reducible simp only [Kept.upd_iff]) | (with_reducible apply h_act)
      | (with_reducible apply writeInOrder_kept) | (with_reducible apply Kept.foldl)
      | (with_reducible apply Kept.foldlPair) | (with_reducible apply Kept.foldlPair2)
      | (refine Kept.of_pair (by with_reducible assumption) ?_) | (intro _) | split | (dsimp only))

end Sys2Proof.Machine
end

