-- ==== Sys2Proof/Laws/KeptClear.lean ====
section
/-! SUPPORT. What the operations of Clear keep. -/

namespace Sys2Proof.Machine

open Sys2Proof

set_option linter.unusedSimpArgs false

theorem clearCnt_kept {r0 : State} (c : CtxId) (f : Counters → Counters) (s : State)
    (k0 : Kept r0 s) : Kept r0 (clearCnt c f s) := by
  unfold clearCnt
  repeat' (first
      | (with_reducible assumption) | (with_reducible simp only [Kept.upd_iff])
      | (with_reducible apply State.modCtx_kept) | (with_reducible apply Kept.foldl)
      | (with_reducible apply Kept.foldlPair) | (with_reducible apply Kept.foldlPair2)
      | (refine Kept.of_pair (by with_reducible assumption) ?_) | (intro _) | split | (dsimp only))

theorem execAccClearVanish_kept (fn : FnId) (c : CtxId) (s : State) :
    KeptOut s (execAccClearVanish fn c s) := by
  have k0 := Kept.refl s
  unfold execAccClearVanish
  repeat' (first
      | (with_reducible assumption) | (with_reducible simp only [Kept.upd_iff]) | (with_reducible apply KeptOut.next)
      | (with_reducible apply KeptOut.refused) | (with_reducible apply ctxPort_kept)
      | (with_reducible apply clearCnt_kept) | (with_reducible apply Kept.foldl)
      | (with_reducible apply Kept.foldlPair) | (with_reducible apply Kept.foldlPair2)
      | (refine Kept.of_pair (by with_reducible assumption) ?_) | (intro _) | split | (dsimp only))

theorem execAccClearTrunc_kept (fn : FnId) (c : CtxId) (s : State) :
    KeptOut s (execAccClearTrunc fn c s) := by
  have k0 := Kept.refl s
  unfold execAccClearTrunc
  repeat' (first
      | (with_reducible assumption) | (with_reducible simp only [Kept.upd_iff]) | (with_reducible apply KeptOut.next)
      | (with_reducible apply KeptOut.refused) | (with_reducible apply ctxPort_kept)
      | (with_reducible apply clearCnt_kept) | (with_reducible apply Kept.foldl)
      | (with_reducible apply Kept.foldlPair) | (with_reducible apply Kept.foldlPair2)
      | (refine Kept.of_pair (by with_reducible assumption) ?_) | (intro _) | split | (dsimp only))

theorem execAccClearWrap_kept (fn : FnId) (c : CtxId) (s : State) :
    KeptOut s (execAccClearWrap fn c s) := by
  have k0 := Kept.refl s
  unfold execAccClearWrap
  repeat' (first
      | (with_reducible assumption) | (with_reducible simp only [Kept.upd_iff]) | (with_reducible apply KeptOut.next)
      | (with_reducible apply KeptOut.refused) | (with_reducible apply ctxPort_kept)
      | (with_reducible apply clearCnt_kept) | (with_reducible apply Kept.foldl)
      | (with_reducible apply Kept.foldlPair) | (with_reducible apply Kept.foldlPair2)
      | (refine Kept.of_pair (by with_reducible assumption) ?_) | (intro _) | split | (dsimp only))

theorem execScrMetaClearDrop_kept (fn : FnId) (c : CtxId) (s : State) :
    KeptOut s (execScrMetaClearDrop fn c s) := by
  have k0 := Kept.refl s
  unfold execScrMetaClearDrop
  repeat' (first
      | (with_reducible assumption) | (with_reducible simp only [Kept.upd_iff]) | (with_reducible apply KeptOut.next)
      | (with_reducible apply KeptOut.refused) | (with_reducible apply ctxPort_kept)
      | (with_reducible apply clearCnt_kept) | (with_reducible apply Kept.foldl)
      | (with_reducible apply Kept.foldlPair) | (with_reducible apply Kept.foldlPair2)
      | (refine Kept.of_pair (by with_reducible assumption) ?_) | (intro _) | split | (dsimp only))

theorem execScrMetaClearErr_kept (fn : FnId) (c : CtxId) (s : State) :
    KeptOut s (execScrMetaClearErr fn c s) := by
  have k0 := Kept.refl s
  unfold execScrMetaClearErr
  repeat' (first
      | (with_reducible assumption) | (with_reducible simp only [Kept.upd_iff]) | (with_reducible apply KeptOut.next)
      | (with_reducible apply KeptOut.refused) | (with_reducible apply ctxPort_kept)
      | (with_reducible apply clearCnt_kept) | (with_reducible apply Kept.foldl)
      | (with_reducible apply Kept.foldlPair) | (with_reducible apply Kept.foldlPair2)
      | (refine Kept.of_pair (by with_reducible assumption) ?_) | (intro _) | split | (dsimp only))

theorem execScrCountClear_kept (fn : FnId) (c : CtxId) (bits : BitVec 8) (s : State) :
    KeptOut s (execScrCountClear fn c bits s) := by
  have k0 := Kept.refl s
  unfold execScrCountClear
  repeat' (first
      | (with_reducible assumption) | (with_reducible simp only [Kept.upd_iff]) | (with_reducible apply KeptOut.next)
      | (with_reducible apply KeptOut.refused) | (with_reducible apply ctxPort_kept)
      | (with_reducible apply clearCnt_kept) | (with_reducible apply Kept.foldl)
      | (with_reducible apply Kept.foldlPair) | (with_reducible apply Kept.foldlPair2)
      | (refine Kept.of_pair (by with_reducible assumption) ?_) | (intro _) | split | (dsimp only))

theorem execCtxTagClear_kept (fn : FnId) (c : CtxId) (s : State) :
    KeptOut s (execCtxTagClear fn c s) := by
  have k0 := Kept.refl s
  unfold execCtxTagClear
  repeat' (first
      | (with_reducible assumption) | (with_reducible simp only [Kept.upd_iff]) | (with_reducible apply KeptOut.next)
      | (with_reducible apply KeptOut.refused) | (with_reducible apply ctxPort_kept)
      | (with_reducible apply clearCnt_kept) | (with_reducible apply Kept.foldl)
      | (with_reducible apply Kept.foldlPair) | (with_reducible apply Kept.foldlPair2)
      | (refine Kept.of_pair (by with_reducible assumption) ?_) | (intro _) | split | (dsimp only))

theorem execGauClearClass_kept (fn : FnId) (c : CtxId) (s : State) :
    KeptOut s (execGauClearClass fn c s) := by
  have k0 := Kept.refl s
  unfold execGauClearClass
  repeat' (first
      | (with_reducible assumption) | (with_reducible simp only [Kept.upd_iff]) | (with_reducible apply KeptOut.next)
      | (with_reducible apply KeptOut.refused) | (with_reducible apply ctxPort_kept)
      | (with_reducible apply clearCnt_kept) | (with_reducible apply Kept.foldl)
      | (with_reducible apply Kept.foldlPair) | (with_reducible apply Kept.foldlPair2)
      | (refine Kept.of_pair (by with_reducible assumption) ?_) | (intro _) | split | (dsimp only))

theorem execGauClearSat_kept (fn : FnId) (c : CtxId) (s : State) :
    KeptOut s (execGauClearSat fn c s) := by
  have k0 := Kept.refl s
  unfold execGauClearSat
  repeat' (first
      | (with_reducible assumption) | (with_reducible simp only [Kept.upd_iff]) | (with_reducible apply KeptOut.next)
      | (with_reducible apply KeptOut.refused) | (with_reducible apply ctxPort_kept)
      | (with_reducible apply clearCnt_kept) | (with_reducible apply Kept.foldl)
      | (with_reducible apply Kept.foldlPair) | (with_reducible apply Kept.foldlPair2)
      | (refine Kept.of_pair (by with_reducible assumption) ?_) | (intro _) | split | (dsimp only))

theorem execCutClear_kept (fn : FnId) (c : CtxId) (s : State) :
    KeptOut s (execCutClear fn c s) := by
  have k0 := Kept.refl s
  unfold execCutClear
  repeat' (first
      | (with_reducible assumption) | (with_reducible simp only [Kept.upd_iff]) | (with_reducible apply KeptOut.next)
      | (with_reducible apply KeptOut.refused) | (with_reducible apply ctxPort_kept)
      | (with_reducible apply clearCnt_kept) | (with_reducible apply Kept.foldl)
      | (with_reducible apply Kept.foldlPair) | (with_reducible apply Kept.foldlPair2)
      | (refine Kept.of_pair (by with_reducible assumption) ?_) | (intro _) | split | (dsimp only))

theorem clearLinks_kept {r0 : State} (crc replay : U16) (s : State)
    (k0 : Kept r0 s) : Kept r0 (clearLinks crc replay s) := by
  unfold clearLinks
  repeat' (first
      | (with_reducible assumption) | (with_reducible simp only [Kept.upd_iff])
      | (with_reducible apply State.each_kept) | (with_reducible apply State.modLink_kept)
      | (with_reducible apply Kept.foldl) | (with_reducible apply Kept.foldlPair)
      | (with_reducible apply Kept.foldlPair2) | (refine Kept.of_pair (by with_reducible assumption) ?_) | (intro _)
      | split | (dsimp only))

theorem execLnkClearCrc_kept (fn : FnId) (bits : U16) (s : State) :
    KeptOut s (execLnkClearCrc fn bits s) := by
  have k0 := Kept.refl s
  unfold execLnkClearCrc
  repeat' (first
      | (with_reducible assumption) | (with_reducible simp only [Kept.upd_iff]) | (with_reducible apply KeptOut.next)
      | (with_reducible apply KeptOut.refused) | (with_reducible apply glbPort_kept)
      | (with_reducible apply clearLinks_kept) | (with_reducible apply Kept.foldl)
      | (with_reducible apply Kept.foldlPair) | (with_reducible apply Kept.foldlPair2)
      | (refine Kept.of_pair (by with_reducible assumption) ?_) | (intro _) | split | (dsimp only))

theorem execLnkClearReplay_kept (fn : FnId) (bits : U16) (s : State) :
    KeptOut s (execLnkClearReplay fn bits s) := by
  have k0 := Kept.refl s
  unfold execLnkClearReplay
  repeat' (first
      | (with_reducible assumption) | (with_reducible simp only [Kept.upd_iff]) | (with_reducible apply KeptOut.next)
      | (with_reducible apply KeptOut.refused) | (with_reducible apply glbPort_kept)
      | (with_reducible apply clearLinks_kept) | (with_reducible apply Kept.foldl)
      | (with_reducible apply Kept.foldlPair) | (with_reducible apply Kept.foldlPair2)
      | (refine Kept.of_pair (by with_reducible assumption) ?_) | (intro _) | split | (dsimp only))

theorem execGluClearRefuse_kept (fn : FnId) (c : CtxId) (s : State) :
    KeptOut s (execGluClearRefuse fn c s) := by
  have k0 := Kept.refl s
  unfold execGluClearRefuse
  repeat' (first
      | (with_reducible assumption) | (with_reducible simp only [Kept.upd_iff]) | (with_reducible apply KeptOut.next)
      | (with_reducible apply KeptOut.refused) | (with_reducible apply ctxPort_kept)
      | (with_reducible apply clearCnt_kept) | (with_reducible apply Kept.foldl)
      | (with_reducible apply Kept.foldlPair) | (with_reducible apply Kept.foldlPair2)
      | (refine Kept.of_pair (by with_reducible assumption) ?_) | (intro _) | split | (dsimp only))

theorem execGluClearVanish_kept (fn : FnId) (c : CtxId) (s : State) :
    KeptOut s (execGluClearVanish fn c s) := by
  have k0 := Kept.refl s
  unfold execGluClearVanish
  repeat' (first
      | (with_reducible assumption) | (with_reducible simp only [Kept.upd_iff]) | (with_reducible apply KeptOut.next)
      | (with_reducible apply KeptOut.refused) | (with_reducible apply ctxPort_kept)
      | (with_reducible apply clearCnt_kept) | (with_reducible apply Kept.foldl)
      | (with_reducible apply Kept.foldlPair) | (with_reducible apply Kept.foldlPair2)
      | (refine Kept.of_pair (by with_reducible assumption) ?_) | (intro _) | split | (dsimp only))

theorem execGluUpdClear_kept (fn : FnId) (c : CtxId) (s : State) :
    KeptOut s (execGluUpdClear fn c s) := by
  have k0 := Kept.refl s
  unfold execGluUpdClear
  repeat' (first
      | (with_reducible assumption) | (with_reducible simp only [Kept.upd_iff]) | (with_reducible apply KeptOut.next)
      | (with_reducible apply KeptOut.refused) | (with_reducible apply ctxPort_kept)
      | (with_reducible apply clearCnt_kept) | (with_reducible apply Kept.foldl)
      | (with_reducible apply Kept.foldlPair) | (with_reducible apply Kept.foldlPair2)
      | (refine Kept.of_pair (by with_reducible assumption) ?_) | (intro _) | split | (dsimp only))

theorem execGlbIntegClear_kept (fn : FnId) (bits : BitVec 4) (s : State) :
    KeptOut s (execGlbIntegClear fn bits s) := by
  have k0 := Kept.refl s
  unfold execGlbIntegClear
  repeat' (first
      | (with_reducible assumption) | (with_reducible simp only [Kept.upd_iff]) | (with_reducible apply KeptOut.next)
      | (with_reducible apply KeptOut.refused) | (with_reducible apply glbPort_kept)
      | (with_reducible apply State.modGlb_kept) | (with_reducible apply Kept.foldl)
      | (with_reducible apply Kept.foldlPair) | (with_reducible apply Kept.foldlPair2)
      | (refine Kept.of_pair (by with_reducible assumption) ?_) | (intro _) | split | (dsimp only))

theorem execGlbIntegClearRfail_kept (fn : FnId) (s : State) :
    KeptOut s (execGlbIntegClearRfail fn s) := by
  have k0 := Kept.refl s
  unfold execGlbIntegClearRfail
  repeat' (first
      | (with_reducible assumption) | (with_reducible simp only [Kept.upd_iff]) | (with_reducible apply KeptOut.next)
      | (with_reducible apply KeptOut.refused) | (with_reducible apply glbPort_kept)
      | (with_reducible apply State.modGlb_kept) | (with_reducible apply Kept.foldl)
      | (with_reducible apply Kept.foldlPair) | (with_reducible apply Kept.foldlPair2)
      | (refine Kept.of_pair (by with_reducible assumption) ?_) | (intro _) | split | (dsimp only))

theorem execCtxIntegClear_kept (fn : FnId) (c : CtxId) (bits : BitVec 3) (s : State) :
    KeptOut s (execCtxIntegClear fn c bits s) := by
  have k0 := Kept.refl s
  unfold execCtxIntegClear
  repeat' (first
      | (with_reducible assumption) | (with_reducible simp only [Kept.upd_iff]) | (with_reducible apply KeptOut.next)
      | (with_reducible apply KeptOut.refused) | (with_reducible apply ctxPort_kept)
      | (with_reducible apply clearCnt_kept) | (with_reducible apply Kept.foldl)
      | (with_reducible apply Kept.foldlPair) | (with_reducible apply Kept.foldlPair2)
      | (refine Kept.of_pair (by with_reducible assumption) ?_) | (intro _) | split | (dsimp only))

theorem clearBarStray_kept {r0 : State} (s : State)
    (k0 : Kept r0 s) : Kept r0 (clearBarStray s) := by
  unfold clearBarStray
  repeat' (first
      | (with_reducible assumption) | (with_reducible simp only [Kept.upd_iff])
      | (with_reducible apply State.modGlb_kept) | (with_reducible apply Kept.foldl)
      | (with_reducible apply Kept.foldlPair) | (with_reducible apply Kept.foldlPair2)
      | (refine Kept.of_pair (by with_reducible assumption) ?_) | (intro _) | split | (dsimp only))

theorem execBarClear_kept (fn : FnId) (s : State) :
    KeptOut s (execBarClear fn s) := by
  have k0 := Kept.refl s
  unfold execBarClear
  repeat' (first
      | (with_reducible assumption) | (with_reducible simp only [Kept.upd_iff]) | (with_reducible apply KeptOut.next)
      | (with_reducible apply KeptOut.refused) | (with_reducible apply glbPort_kept)
      | (with_reducible apply clearBarStray_kept) | (with_reducible apply Kept.foldl)
      | (with_reducible apply Kept.foldlPair) | (with_reducible apply Kept.foldlPair2)
      | (refine Kept.of_pair (by with_reducible assumption) ?_) | (intro _) | split | (dsimp only))

theorem clearDmaStray_kept {r0 : State} (s : State)
    (k0 : Kept r0 s) : Kept r0 (clearDmaStray s) := by
  unfold clearDmaStray
  repeat' (first
      | (with_reducible assumption) | (with_reducible simp only [Kept.upd_iff])
      | (with_reducible apply State.modGlb_kept) | (with_reducible apply Kept.foldl)
      | (with_reducible apply Kept.foldlPair) | (with_reducible apply Kept.foldlPair2)
      | (refine Kept.of_pair (by with_reducible assumption) ?_) | (intro _) | split | (dsimp only))

theorem execDmaStrayClear_kept (fn : FnId) (s : State) :
    KeptOut s (execDmaStrayClear fn s) := by
  have k0 := Kept.refl s
  unfold execDmaStrayClear
  repeat' (first
      | (with_reducible assumption) | (with_reducible simp only [Kept.upd_iff]) | (with_reducible apply KeptOut.next)
      | (with_reducible apply KeptOut.refused) | (with_reducible apply glbPort_kept)
      | (with_reducible apply clearDmaStray_kept) | (with_reducible apply Kept.foldl)
      | (with_reducible apply Kept.foldlPair) | (with_reducible apply Kept.foldlPair2)
      | (refine Kept.of_pair (by with_reducible assumption) ?_) | (intro _) | split | (dsimp only))

theorem execGluGroupClear_kept (fn : FnId) (c : CtxId) (s : State) :
    KeptOut s (execGluGroupClear fn c s) := by
  have k0 := Kept.refl s
  unfold execGluGroupClear
  repeat' (first
      | (with_reducible assumption) | (with_reducible simp only [Kept.upd_iff]) | (with_reducible apply KeptOut.next)
      | (with_reducible apply KeptOut.refused) | (with_reducible apply ctxPort_kept)
      | (with_reducible apply clearCnt_kept) | (with_reducible apply Kept.foldl)
      | (with_reducible apply Kept.foldlPair) | (with_reducible apply Kept.foldlPair2)
      | (refine Kept.of_pair (by with_reducible assumption) ?_) | (intro _) | split | (dsimp only))

theorem execViolClearCount_kept (fn : FnId) (c : CtxId) (s : State) :
    KeptOut s (execViolClearCount fn c s) := by
  have k0 := Kept.refl s
  unfold execViolClearCount
  repeat' (first
      | (with_reducible assumption) | (with_reducible simp only [Kept.upd_iff]) | (with_reducible apply KeptOut.next)
      | (with_reducible apply KeptOut.refused) | (with_reducible apply ctxPort_kept)
      | (with_reducible apply clearCnt_kept) | (with_reducible apply Kept.foldl)
      | (with_reducible apply Kept.foldlPair) | (with_reducible apply Kept.foldlPair2)
      | (refine Kept.of_pair (by with_reducible assumption) ?_) | (intro _) | split | (dsimp only))

theorem execViolClearLast_kept (fn : FnId) (c : CtxId) (s : State) :
    KeptOut s (execViolClearLast fn c s) := by
  have k0 := Kept.refl s
  unfold execViolClearLast
  repeat' (first
      | (with_reducible assumption) | (with_reducible simp only [Kept.upd_iff]) | (with_reducible apply KeptOut.next)
      | (with_reducible apply KeptOut.refused) | (with_reducible apply ctxPort_kept)
      | (with_reducible apply clearCnt_kept) | (with_reducible apply Kept.foldl)
      | (with_reducible apply Kept.foldlPair) | (with_reducible apply Kept.foldlPair2)
      | (refine Kept.of_pair (by with_reducible assumption) ?_) | (intro _) | split | (dsimp only))

theorem execViolGlbClearCount_kept (fn : FnId) (s : State) :
    KeptOut s (execViolGlbClearCount fn s) := by
  have k0 := Kept.refl s
  unfold execViolGlbClearCount
  repeat' (first
      | (with_reducible assumption) | (with_reducible simp only [Kept.upd_iff]) | (with_reducible apply KeptOut.next)
      | (with_reducible apply KeptOut.refused) | (with_reducible apply glbPort_kept)
      | (with_reducible apply State.modGlb_kept) | (with_reducible apply Kept.foldl)
      | (with_reducible apply Kept.foldlPair) | (with_reducible apply Kept.foldlPair2)
      | (refine Kept.of_pair (by with_reducible assumption) ?_) | (intro _) | split | (dsimp only))

theorem execViolGlbClearLast_kept (fn : FnId) (s : State) :
    KeptOut s (execViolGlbClearLast fn s) := by
  have k0 := Kept.refl s
  unfold execViolGlbClearLast
  repeat' (first
      | (with_reducible assumption) | (with_reducible simp only [Kept.upd_iff]) | (with_reducible apply KeptOut.next)
      | (with_reducible apply KeptOut.refused) | (with_reducible apply glbPort_kept)
      | (with_reducible apply State.modGlb_kept) | (with_reducible apply Kept.foldl)
      | (with_reducible apply Kept.foldlPair) | (with_reducible apply Kept.foldlPair2)
      | (refine Kept.of_pair (by with_reducible assumption) ?_) | (intro _) | split | (dsimp only))

end Sys2Proof.Machine
end

