-- ==== Sys2Proof/Laws/KeptExchange.lean ====
section
/-! SUPPORT. What the operations of Exchange keep. -/

namespace Sys2Proof.Machine

open Sys2Proof

set_option linter.unusedSimpArgs false

theorem sendColl_kept {r0 : State} (c : CtxId) (toR type : Nat) (h : CollHdr) (body : List Byte) (s : State)
    (k0 : Kept r0 s) : Kept r0 (sendColl c toR type h body s) := by
  unfold sendColl
  repeat' (first
      | (with_reducible assumption) | (with_reducible simp only [Kept.upd_iff])
      | (with_reducible apply State.setCtx_kept) | (with_reducible apply State.modCtx_kept)
      | (with_reducible apply sendPacket_kept) | (with_reducible apply Kept.foldl)
      | (with_reducible apply Kept.foldlPair) | (with_reducible apply Kept.foldlPair2)
      | (refine Kept.of_pair (by with_reducible assumption) ?_) | (intro _) | split | (dsimp only))

theorem sendScale_kept {r0 : State} (c : CtxId) (n : Inst) (b : BlockSum) (toR : Nat) (s : State)
    (k0 : Kept r0 s) : Kept r0 (sendScale c n b toR s) := by
  unfold sendScale
  repeat' (first
      | (with_reducible assumption) | (with_reducible simp only [Kept.upd_iff]) | (with_reducible apply sendColl_kept)
      | (with_reducible apply Kept.foldl) | (with_reducible apply Kept.foldlPair)
      | (with_reducible apply Kept.foldlPair2) | (refine Kept.of_pair (by with_reducible assumption) ?_) | (intro _)
      | split | (dsimp only))

theorem sendData_kept {r0 : State} (c : CtxId) (n : Inst) (nb : Nat) (b : BlockSum) (toR : Nat) (s : State)
    (k0 : Kept r0 s) : Kept r0 (sendData c n nb b toR s) := by
  unfold sendData
  repeat' (first
      | (with_reducible assumption) | (with_reducible simp only [Kept.upd_iff]) | (with_reducible apply sendColl_kept)
      | (with_reducible apply Kept.foldl) | (with_reducible apply Kept.foldlPair)
      | (with_reducible apply Kept.foldlPair2) | (refine Kept.of_pair (by with_reducible assumption) ?_) | (intro _)
      | split | (dsimp only))

theorem sendGather_kept {r0 : State} (c : CtxId) (n : Inst) (nb fmt : Nat) (b : BlockSum) (toR : Nat) (s : State)
    (k0 : Kept r0 s) : Kept r0 (sendGather c n nb fmt b toR s) := by
  unfold sendGather
  repeat' (first
      | (with_reducible assumption) | (with_reducible simp only [Kept.upd_iff]) | (with_reducible apply sendColl_kept)
      | (with_reducible apply Kept.foldl) | (with_reducible apply Kept.foldlPair)
      | (with_reducible apply Kept.foldlPair2) | (refine Kept.of_pair (by with_reducible assumption) ?_) | (intro _)
      | split | (dsimp only))

end Sys2Proof.Machine
end

