-- ==== Sys2Proof/Laws/KeptCollective.lean ====
section
/-! SUPPORT. What the operations of Collective keep. -/

namespace Sys2Proof.Machine

open Sys2Proof

set_option linter.unusedSimpArgs false

theorem countRefuse_kept {r0 : State} (c : CtxId) (s : State)
    (k0 : Kept r0 s) : Kept r0 (countRefuse c s) := by
  unfold countRefuse
  repeat' (first
      | (with_reducible assumption) | (with_reducible simp only [Kept.upd_iff])
      | (with_reducible apply State.modCtx_kept) | (with_reducible apply Kept.foldl)
      | (with_reducible apply Kept.foldlPair) | (with_reducible apply Kept.foldlPair2)
      | (refine Kept.of_pair (by with_reducible assumption) ?_) | (intro _) | split | (dsimp only))

theorem answerJoin_kept {r0 : State} (c : CtxId) (n : Inst) (h : CollHdr) (s : State)
    (k0 : Kept r0 s) : Kept r0 (answerJoin c n h s) := by
  unfold answerJoin
  repeat' (first
      | (with_reducible assumption) | (with_reducible simp only [Kept.upd_iff]) | (with_reducible apply sendColl_kept)
      | (with_reducible apply countRefuse_kept) | (with_reducible apply Kept.foldl)
      | (with_reducible apply Kept.foldlPair) | (with_reducible apply Kept.foldlPair2)
      | (refine Kept.of_pair (by with_reducible assumption) ?_) | (intro _) | split | (dsimp only))

theorem startInst_kept {r0 : State} (c : CtxId) (n : Inst) (s : State)
    (k0 : Kept r0 s) : Kept r0 (startInst c n s) := by
  unfold startInst
  repeat' (first
      | (with_reducible assumption) | (with_reducible simp only [Kept.upd_iff])
      | (with_reducible apply State.modCtx_kept) | (with_reducible apply State.each_kept)
      | (with_reducible apply sendColl_kept) | (with_reducible apply answerJoin_kept)
      | (with_reducible apply Kept.foldl) | (with_reducible apply Kept.foldlPair)
      | (with_reducible apply Kept.foldlPair2) | (refine Kept.of_pair (by with_reducible assumption) ?_) | (intro _)
      | split | (dsimp only))

theorem addRecord_kept {r0 : State} (c : CtxId) (i subj b : Nat) (r : ScaleRec) (n : Nat) (s : State)
    (k0 : Kept r0 s) : Kept r0 (addRecord c i subj b r n s) := by
  unfold addRecord
  repeat' (first
      | (with_reducible assumption) | (with_reducible simp only [Kept.upd_iff])
      | (with_reducible apply State.modCtx_kept) | (with_reducible apply Kept.foldl)
      | (with_reducible apply Kept.foldlPair) | (with_reducible apply Kept.foldlPair2)
      | (refine Kept.of_pair (by with_reducible assumption) ?_) | (intro _) | split | (dsimp only))

theorem addSums_kept {r0 : State} (c : CtxId) (i subj b : Nat) (qs : List Int) (n : Nat) (s : State)
    (k0 : Kept r0 s) : Kept r0 (addSums c i subj b qs n s) := by
  unfold addSums
  repeat' (first
      | (with_reducible assumption) | (with_reducible simp only [Kept.upd_iff])
      | (with_reducible apply State.modCtx_kept) | (with_reducible apply Kept.foldl)
      | (with_reducible apply Kept.foldlPair) | (with_reducible apply Kept.foldlPair2)
      | (refine Kept.of_pair (by with_reducible assumption) ?_) | (intro _) | split | (dsimp only))

theorem ownBlock_kept {r0 : State} (c : CtxId) (i subj b : Nat) (vals : List Val) (pres : List Bool) (s : State)
    (k0 : Kept r0 s) : Kept r0 (ownBlock c i subj b vals pres s) := by
  unfold ownBlock
  repeat' (first
      | (with_reducible assumption) | (with_reducible simp only [Kept.upd_iff])
      | (with_reducible apply State.modCtx_kept) | (with_reducible apply addRecord_kept)
      | (with_reducible apply State.each_kept) | (with_reducible apply sendScale_kept)
      | (with_reducible apply Kept.foldl) | (with_reducible apply Kept.foldlPair)
      | (with_reducible apply Kept.foldlPair2) | (refine Kept.of_pair (by with_reducible assumption) ?_) | (intro _)
      | split | (dsimp only))

theorem addChecked_kept {r0 : State} (c : CtxId) (l : LinkId) (m : Image) (n : Inst) (b : Nat) (qs : List Int) (k : Nat) (s : State)
    (k0 : Kept r0 s) : Kept r0 (addChecked c l m n b qs k s) := by
  unfold addChecked
  repeat' (first
      | (with_reducible assumption) | (with_reducible simp only [Kept.upd_iff])
      | (with_reducible apply checkResidue_kept) | (with_reducible apply addSums_kept)
      | (with_reducible apply Kept.foldl) | (with_reducible apply Kept.foldlPair)
      | (with_reducible apply Kept.foldlPair2) | (refine Kept.of_pair (by with_reducible assumption) ?_) | (intro _)
      | split | (dsimp only))

theorem quantStage_kept {r0 : State} (c : CtxId) (i : Nat) (m : Image) (st : Station) (subj : Nat) (s : State)
    (k0 : Kept r0 s) : Kept r0 (quantStage c i m st subj s) := by
  unfold quantStage
  repeat' (first
      | (with_reducible assumption) | (with_reducible simp only [Kept.upd_iff])
      | (with_reducible apply State.each_kept) | (with_reducible apply State.modCtx_kept)
      | (with_reducible apply checkResidue_kept) | (with_reducible apply addChecked_kept)
      | (with_reducible apply sendData_kept) | (with_reducible apply Kept.foldl)
      | (with_reducible apply Kept.foldlPair) | (with_reducible apply Kept.foldlPair2)
      | (refine Kept.of_pair (by with_reducible assumption) ?_) | (intro _) | split | (dsimp only))

theorem emitStage_kept {r0 : State} (c : CtxId) (i : Nat) (m : Image) (st : Station) (s : State)
    (k0 : Kept r0 s) : Kept r0 (emitStage c i m st s) := by
  unfold emitStage
  repeat' (first
      | (with_reducible assumption) | (with_reducible simp only [Kept.upd_iff])
      | (with_reducible apply State.each_kept) | (with_reducible apply State.modCtx_kept)
      | (with_reducible apply Kept.foldl) | (with_reducible apply Kept.foldlPair)
      | (with_reducible apply Kept.foldlPair2) | (refine Kept.of_pair (by with_reducible assumption) ?_) | (intro _)
      | split | (dsimp only))

theorem checkThin_kept {r0 : State} (c : CtxId) (m : Image) (n : Inst) (s : State)
    (k0 : Kept r0 s) : Kept r0 (checkThin c m n s) := by
  unfold checkThin
  repeat' (first
      | (with_reducible assumption) | (with_reducible simp only [Kept.upd_iff])
      | (with_reducible apply checkResidue_kept) | (with_reducible apply Kept.foldl)
      | (with_reducible apply Kept.foldlPair) | (with_reducible apply Kept.foldlPair2)
      | (refine Kept.of_pair (by with_reducible assumption) ?_) | (intro _) | split | (dsimp only))

theorem thinStart_kept {r0 : State} (c : CtxId) (i : Nat) (m : Image) (st : Station) (w : TensorRec) (n : Inst) (s : State)
    (k0 : Kept r0 s) : Kept r0 (thinStart c i m st w n s) := by
  unfold thinStart
  repeat' (first
      | (with_reducible assumption) | (with_reducible simp only [Kept.upd_iff]) | (with_reducible apply access_kept)
      | (with_reducible apply checkThin_kept) | (with_reducible apply chargeRead_kept)
      | (with_reducible apply violate_kept) | (with_reducible apply State.modCtx_kept)
      | (with_reducible apply State.each_kept) | (with_reducible apply ownBlock_kept)
      | (with_reducible apply Kept.foldl) | (with_reducible apply Kept.foldlPair)
      | (with_reducible apply Kept.foldlPair2)
      | (refine Kept.of_pair (p := access _ _ _ _ _ _) (by with_reducible assumption) ?_)
      | (refine Kept.of_pair (by with_reducible assumption) ?_) | (intro _) | split | (dsimp only))

theorem thinMiddle_kept {r0 : State} (c : CtxId) (i : Nat) (m : Image) (st : Station) (w : TensorRec) (n : Inst) (s : State)
    (k0 : Kept r0 s) : Kept r0 (thinMiddle c i m st w n s) := by
  unfold thinMiddle
  repeat' (first
      | (with_reducible assumption) | (with_reducible simp only [Kept.upd_iff])
      | (with_reducible apply checkThin_kept) | (with_reducible apply startInst_kept)
      | (with_reducible apply State.each_kept) | (with_reducible apply ownBlock_kept)
      | (with_reducible apply Kept.foldl) | (with_reducible apply Kept.foldlPair)
      | (with_reducible apply Kept.foldlPair2) | (refine Kept.of_pair (by with_reducible assumption) ?_) | (intro _)
      | split | (dsimp only))

theorem thinEnd_kept {r0 : State} (c : CtxId) (i : Nat) (m : Image) (st : Station) (w : TensorRec) (n : Inst) (s : State)
    (k0 : Kept r0 s) : Kept r0 (thinEnd c i m st w n s) := by
  unfold thinEnd
  repeat' (first
      | (with_reducible assumption) | (with_reducible simp only [Kept.upd_iff]) | (with_reducible apply putVa_kept)
      | (with_reducible apply checkThin_kept) | (with_reducible apply State.modCtx_kept)
      | (with_reducible apply Kept.foldl) | (with_reducible apply Kept.foldlPair)
      | (with_reducible apply Kept.foldlPair2)
      | (refine Kept.of_pair (p := putVa _ _ _ _ _ _) (by with_reducible assumption) ?_)
      | (refine Kept.of_pair (by with_reducible assumption) ?_) | (intro _) | split | (dsimp only))

theorem thinEmit_kept {r0 : State} (c : CtxId) (i : Nat) (m : Image) (st : Station) (w : TensorRec) (n1 n2 : Inst) (s : State)
    (k0 : Kept r0 s) : Kept r0 (thinEmit c i m st w n1 n2 s) := by
  unfold thinEmit
  repeat' (first
      | (with_reducible assumption) | (with_reducible simp only [Kept.upd_iff])
      | (with_reducible apply State.each_kept) | (with_reducible apply State.modCtx_kept)
      | (with_reducible apply Kept.foldl) | (with_reducible apply Kept.foldlPair)
      | (with_reducible apply Kept.foldlPair2) | (refine Kept.of_pair (by with_reducible assumption) ?_) | (intro _)
      | split | (dsimp only))

theorem thinStage_kept {r0 : State} (c : CtxId) (i : Nat) (m : Image) (st : Station) (s : State)
    (k0 : Kept r0 s) : Kept r0 (thinStage c i m st s) := by
  unfold thinStage
  repeat' (first
      | (with_reducible assumption) | (with_reducible simp only [Kept.upd_iff])
      | (with_reducible apply State.each_kept) | (with_reducible apply State.modCtx_kept)
      | (with_reducible apply thinStart_kept) | (with_reducible apply quantStage_kept)
      | (with_reducible apply thinMiddle_kept) | (with_reducible apply thinEnd_kept)
      | (with_reducible apply thinEmit_kept) | (with_reducible apply Kept.foldl)
      | (with_reducible apply Kept.foldlPair) | (with_reducible apply Kept.foldlPair2)
      | (refine Kept.of_pair (by with_reducible assumption) ?_) | (intro _) | split | (dsimp only))

theorem reduceProgress_kept {r0 : State} (c : CtxId) (i : Nat) (m : Image) (st : Station) (s : State)
    (k0 : Kept r0 s) : Kept r0 (reduceProgress c i m st s) := by
  unfold reduceProgress
  repeat' (first
      | (with_reducible assumption) | (with_reducible simp only [Kept.upd_iff])
      | (with_reducible apply thinStage_kept) | (with_reducible apply emitStage_kept)
      | (with_reducible apply quantStage_kept) | (with_reducible apply Kept.foldl)
      | (with_reducible apply Kept.foldlPair) | (with_reducible apply Kept.foldlPair2)
      | (refine Kept.of_pair (by with_reducible assumption) ?_) | (intro _) | split | (dsimp only))

theorem openStation_kept {r0 : State} (c : CtxId) (i : Nat) (m : Image) (st : Station) (w : TensorRec) (shape : List ShapeTile) (s : State)
    (k0 : Kept r0 s) : Kept r0 (openStation c i m st w shape s) := by
  unfold openStation
  repeat' (first
      | (with_reducible assumption) | (with_reducible simp only [Kept.upd_iff])
      | (with_reducible apply State.modCtx_kept) | (with_reducible apply violate_kept)
      | (with_reducible apply Kept.foldl) | (with_reducible apply Kept.foldlPair)
      | (with_reducible apply Kept.foldlPair2) | (refine Kept.of_pair (by with_reducible assumption) ?_) | (intro _)
      | split | (dsimp only))

theorem beginInst_kept {r0 : State} (c : CtxId) (i subj : Nat) (s : State)
    (k0 : Kept r0 s) : Kept r0 (beginInst c i subj s) := by
  unfold beginInst
  repeat' (first
      | (with_reducible assumption) | (with_reducible simp only [Kept.upd_iff])
      | (with_reducible apply State.modCtx_kept) | (with_reducible apply startInst_kept)
      | (with_reducible apply Kept.foldl) | (with_reducible apply Kept.foldlPair)
      | (with_reducible apply Kept.foldlPair2) | (refine Kept.of_pair (by with_reducible assumption) ?_) | (intro _)
      | split | (dsimp only))

theorem takeInput_kept {r0 : State} (c : CtxId) (i : Nat) (m : Image) (st : Station) (w : TensorRec) (k : ShapeTile) (t : Tile) (pres : List Bool) (s : State)
    (k0 : Kept r0 s) : Kept r0 (takeInput c i m st w k t pres s) := by
  unfold takeInput
  repeat' (first
      | (with_reducible assumption) | (with_reducible simp only [Kept.upd_iff])
      | (with_reducible apply State.modCtx_kept) | (with_reducible apply State.each_kept)
      | (with_reducible apply sendGather_kept) | (with_reducible apply ownBlock_kept)
      | (with_reducible apply Kept.foldl) | (with_reducible apply Kept.foldlPair)
      | (with_reducible apply Kept.foldlPair2) | (refine Kept.of_pair (by with_reducible assumption) ?_) | (intro _)
      | split | (dsimp only))

theorem enterTile_kept {r0 : State} (c : CtxId) (i : Nat) (m : Image) (st : Station) (w : TensorRec) (shape : List ShapeTile) (frozen : List Byte) (t : Tile) (s : State)
    (k0 : Kept r0 s) : Kept r0 (enterTile c i m st w shape frozen t s) := by
  unfold enterTile
  repeat' (first
      | (with_reducible assumption) | (with_reducible simp only [Kept.upd_iff])
      | (with_reducible apply takeInput_kept) | (with_reducible apply checkSides_kept)
      | (with_reducible apply Kept.foldl) | (with_reducible apply Kept.foldlPair)
      | (with_reducible apply Kept.foldlPair2) | (refine Kept.of_pair (by with_reducible assumption) ?_) | (intro _)
      | split | (dsimp only))

theorem runReduce_kept {r0 : State} (c : CtxId) (i : Nat) (m : Image) (st : Station) (w : TensorRec) (shape : List ShapeTile) (frozen : List Byte) (s : State)
    (k0 : Kept r0 s) : Kept r0 (runReduce c i m st w shape frozen s) := by
  unfold runReduce
  repeat' (first
      | (with_reducible assumption) | (with_reducible simp only [Kept.upd_iff])
      | (with_reducible apply beginInst_kept) | (with_reducible apply State.modCtx_kept)
      | (with_reducible apply reduceProgress_kept) | (with_reducible apply State.each_kept)
      | (with_reducible apply enterTile_kept) | (with_reducible apply Kept.foldl)
      | (with_reducible apply Kept.foldlPair) | (with_reducible apply Kept.foldlPair2)
      | (refine Kept.of_pair (by with_reducible assumption) ?_) | (intro _) | split | (dsimp only))

theorem takeReduce_kept {r0 : State} (c : CtxId) (i : Nat) (st : Station) (w : TensorRec) (shape : List ShapeTile) (alone : Bool) (t : Tile) (s : State)
    (k0 : Kept r0 s) : Kept r0 (takeReduce c i st w shape alone t s) := by
  unfold takeReduce
  repeat' (first
      | (with_reducible assumption) | (with_reducible simp only [Kept.upd_iff]) | (with_reducible apply violate_kept)
      | (with_reducible apply State.modCtx_kept) | (with_reducible apply Kept.foldl)
      | (with_reducible apply Kept.foldlPair) | (with_reducible apply Kept.foldlPair2)
      | (refine Kept.of_pair (by with_reducible assumption) ?_) | (intro _) | split | (dsimp only))

theorem doReduceInputTile_kept {r0 : State} (c : CtxId) (i : Nat) (s : State)
    (k0 : Kept r0 s) : Kept r0 (doReduceInputTile c i s) := by
  unfold doReduceInputTile
  repeat' (first
      | (with_reducible assumption) | (with_reducible simp only [Kept.upd_iff])
      | (with_reducible apply withStation_kept) | (with_reducible apply reduceProgress_kept)
      | (with_reducible apply access_kept) | (with_reducible apply State.modCtx_kept)
      | (with_reducible apply chargeRead_kept) | (with_reducible apply openStation_kept)
      | (with_reducible apply takeTile_kept) | (with_reducible apply takeReduce_kept)
      | (with_reducible apply runReduce_kept) | (with_reducible apply Kept.foldl)
      | (with_reducible apply Kept.foldlPair) | (with_reducible apply Kept.foldlPair2)
      | (refine Kept.of_pair (p := access _ _ _ _ _ _) (by with_reducible assumption) ?_)
      | (refine Kept.of_pair (p := takeTile _ _ _ _ _) (by with_reducible assumption) ?_)
      | (refine Kept.of_pair (by with_reducible assumption) ?_) | (intro _) | split | (dsimp only))

theorem execReduceInputTile_kept (c : CtxId) (st : Nat) (s : State) :
    KeptOut s (execReduceInputTile c st s) := by
  have k0 := Kept.refl s
  unfold execReduceInputTile
  repeat' (first
      | (with_reducible assumption) | (with_reducible simp only [Kept.upd_iff]) | (with_reducible apply KeptOut.next)
      | (with_reducible apply KeptOut.refused) | (with_reducible apply doReduceInputTile_kept)
      | (with_reducible apply Kept.foldl) | (with_reducible apply Kept.foldlPair)
      | (with_reducible apply Kept.foldlPair2) | (refine Kept.of_pair (by with_reducible assumption) ?_) | (intro _)
      | split | (dsimp only))

theorem doJoinRepeat_kept {r0 : State} (c : CtxId) (i rank : Nat) (s : State)
    (k0 : Kept r0 s) : Kept r0 (doJoinRepeat c i rank s) := by
  unfold doJoinRepeat
  repeat' (first
      | (with_reducible assumption) | (with_reducible simp only [Kept.upd_iff])
      | (with_reducible apply State.each_kept) | (with_reducible apply sendColl_kept)
      | (with_reducible apply Kept.foldl) | (with_reducible apply Kept.foldlPair)
      | (with_reducible apply Kept.foldlPair2) | (refine Kept.of_pair (by with_reducible assumption) ?_) | (intro _)
      | split | (dsimp only))

theorem execJoinRepeat_kept (c : CtxId) (st rank : Nat) (s : State) :
    KeptOut s (execJoinRepeat c st rank s) := by
  have k0 := Kept.refl s
  unfold execJoinRepeat
  repeat' (first
      | (with_reducible assumption) | (with_reducible simp only [Kept.upd_iff]) | (with_reducible apply KeptOut.next)
      | (with_reducible apply KeptOut.refused) | (with_reducible apply doJoinRepeat_kept)
      | (with_reducible apply Kept.foldl) | (with_reducible apply Kept.foldlPair)
      | (with_reducible apply Kept.foldlPair2) | (refine Kept.of_pair (by with_reducible assumption) ?_) | (intro _)
      | split | (dsimp only))

theorem countStray_kept {r0 : State} (s : State)
    (k0 : Kept r0 s) : Kept r0 (countStray s) := by
  unfold countStray
  repeat' (first
      | (with_reducible assumption) | (with_reducible simp only [Kept.upd_iff])
      | (with_reducible apply State.modGlb_kept) | (with_reducible apply Kept.foldl)
      | (with_reducible apply Kept.foldlPair) | (with_reducible apply Kept.foldlPair2)
      | (refine Kept.of_pair (by with_reducible assumption) ?_) | (intro _) | split | (dsimp only))

theorem withRank_kept {r0 : State} (gid : U32) (dst : U16) (act : CtxId → State → State) (s : State)
    (k0 : Kept r0 s) (h_act : ∀ a0 t, Kept r0 t → Kept r0 (act a0 t)) : Kept r0 (withRank gid dst act s) := by
  unfold withRank
  repeat' (first
      | (with_reducible assumption) | (with_reducible simp only [Kept.upd_iff]) | (with_reducible apply h_act)
      | (with_reducible apply countStray_kept) | (with_reducible apply Kept.foldl)
      | (with_reducible apply Kept.foldlPair) | (with_reducible apply Kept.foldlPair2)
      | (refine Kept.of_pair (by with_reducible assumption) ?_) | (intro _) | split | (dsimp only))

theorem withGroup_kept {r0 : State} (gid : U32) (dst : U16) (act : CtxId → State → State) (s : State)
    (k0 : Kept r0 s) (h_act : ∀ a0 t, Kept r0 t → Kept r0 (act a0 t)) : Kept r0 (withGroup gid dst act s) := by
  unfold withGroup
  repeat' (first
      | (with_reducible assumption) | (with_reducible simp only [Kept.upd_iff]) | (with_reducible apply h_act)
      | (with_reducible apply withRank_kept) | (with_reducible apply Kept.foldl)
      | (with_reducible apply Kept.foldlPair) | (with_reducible apply Kept.foldlPair2)
      | (refine Kept.of_pair (by with_reducible assumption) ?_) | (intro _) | split | (dsimp only))

theorem parkPacket_kept {r0 : State} (c : CtxId) (cmd : Instr) (type : Nat) (h : CollHdr) (body : List Byte) (s : State)
    (k0 : Kept r0 s) : Kept r0 (parkPacket c cmd type h body s) := by
  unfold parkPacket
  repeat' (first
      | (with_reducible assumption) | (with_reducible simp only [Kept.upd_iff])
      | (with_reducible apply State.setCtx_kept) | (with_reducible apply putVa_kept)
      | (with_reducible apply Kept.foldl) | (with_reducible apply Kept.foldlPair)
      | (with_reducible apply Kept.foldlPair2)
      | (refine Kept.of_pair (p := putVa _ _ _ _ _ _) (by with_reducible assumption) ?_)
      | (refine Kept.of_pair (by with_reducible assumption) ?_) | (intro _) | split | (dsimp only))

theorem withFresh_kept {r0 : State} (c : CtxId) (h : CollHdr) (act : State → State) (s : State)
    (k0 : Kept r0 s) (h_act : ∀ t, Kept r0 t → Kept r0 (act t)) : Kept r0 (withFresh c h act s) := by
  unfold withFresh
  repeat' (first
      | (with_reducible assumption) | (with_reducible simp only [Kept.upd_iff]) | (with_reducible apply h_act)
      | (with_reducible apply State.modCtx_kept) | (with_reducible apply Kept.foldl)
      | (with_reducible apply Kept.foldlPair) | (with_reducible apply Kept.foldlPair2)
      | (refine Kept.of_pair (by with_reducible assumption) ?_) | (intro _) | split | (dsimp only))

theorem joinIn_kept {r0 : State} (c : CtxId) (l : LinkId) (h : CollHdr) (s : State)
    (k0 : Kept r0 s) : Kept r0 (joinIn c l h s) := by
  unfold joinIn
  repeat' (first
      | (with_reducible assumption) | (with_reducible simp only [Kept.upd_iff])
      | (with_reducible apply withFresh_kept) | (with_reducible apply answerJoin_kept)
      | (with_reducible apply State.modCtx_kept) | (with_reducible apply Kept.foldl)
      | (with_reducible apply Kept.foldlPair) | (with_reducible apply Kept.foldlPair2)
      | (refine Kept.of_pair (by with_reducible assumption) ?_) | (intro _) | split | (dsimp only))

theorem doJoin_kept {r0 : State} (l : LinkId) (dst : U16) (h : CollHdr) (s : State)
    (k0 : Kept r0 s) : Kept r0 (doJoin l dst h s) := by
  unfold doJoin
  repeat' (first
      | (with_reducible assumption) | (with_reducible simp only [Kept.upd_iff]) | (with_reducible apply withRank_kept)
      | (with_reducible apply withFresh_kept) | (with_reducible apply State.modCtx_kept)
      | (with_reducible apply joinIn_kept) | (with_reducible apply Kept.foldl) | (with_reducible apply Kept.foldlPair)
      | (with_reducible apply Kept.foldlPair2) | (refine Kept.of_pair (by with_reducible assumption) ?_) | (intro _)
      | split | (dsimp only))

theorem execJoin_kept (l : LinkId) (dst : U16) (h : CollHdr) (s : State) :
    KeptOut s (execJoin l dst h s) := by
  have k0 := Kept.refl s
  unfold execJoin
  repeat' (first
      | (with_reducible assumption) | (with_reducible simp only [Kept.upd_iff]) | (with_reducible apply KeptOut.next)
      | (with_reducible apply KeptOut.refused) | (with_reducible apply doJoin_kept)
      | (with_reducible apply Kept.foldl) | (with_reducible apply Kept.foldlPair)
      | (with_reducible apply Kept.foldlPair2) | (refine Kept.of_pair (by with_reducible assumption) ?_) | (intro _)
      | split | (dsimp only))

theorem acceptIn_kept {r0 : State} (c : CtxId) (h : CollHdr) (s : State)
    (k0 : Kept r0 s) : Kept r0 (acceptIn c h s) := by
  unfold acceptIn
  repeat' (first
      | (with_reducible assumption) | (with_reducible simp only [Kept.upd_iff])
      | (with_reducible apply State.modCtx_kept) | (with_reducible apply State.each_kept)
      | (with_reducible apply sendGather_kept) | (with_reducible apply sendData_kept)
      | (with_reducible apply sendScale_kept) | (with_reducible apply Kept.foldl)
      | (with_reducible apply Kept.foldlPair) | (with_reducible apply Kept.foldlPair2)
      | (refine Kept.of_pair (by with_reducible assumption) ?_) | (intro _) | split | (dsimp only))

theorem doAccept_kept {r0 : State} (l : LinkId) (dst : U16) (h : CollHdr) (s : State)
    (k0 : Kept r0 s) : Kept r0 (doAccept l dst h s) := by
  unfold doAccept
  repeat' (first
      | (with_reducible assumption) | (with_reducible simp only [Kept.upd_iff])
      | (with_reducible apply withGroup_kept) | (with_reducible apply parkPacket_kept)
      | (with_reducible apply withFresh_kept) | (with_reducible apply acceptIn_kept)
      | (with_reducible apply Kept.foldl) | (with_reducible apply Kept.foldlPair)
      | (with_reducible apply Kept.foldlPair2) | (refine Kept.of_pair (by with_reducible assumption) ?_) | (intro _)
      | split | (dsimp only))

theorem execAccept_kept (l : LinkId) (dst : U16) (h : CollHdr) (s : State) :
    KeptOut s (execAccept l dst h s) := by
  have k0 := Kept.refl s
  unfold execAccept
  repeat' (first
      | (with_reducible assumption) | (with_reducible simp only [Kept.upd_iff]) | (with_reducible apply KeptOut.next)
      | (with_reducible apply KeptOut.refused) | (with_reducible apply doAccept_kept)
      | (with_reducible apply Kept.foldl) | (with_reducible apply Kept.foldlPair)
      | (with_reducible apply Kept.foldlPair2) | (refine Kept.of_pair (by with_reducible assumption) ?_) | (intro _)
      | split | (dsimp only))

theorem packetMismatch_kept {r0 : State} (c : CtxId) (l : LinkId) (h : CollHdr) (s : State)
    (k0 : Kept r0 s) : Kept r0 (packetMismatch c l h s) := by
  unfold packetMismatch
  repeat' (first
      | (with_reducible assumption) | (with_reducible simp only [Kept.upd_iff]) | (with_reducible apply ctxEvent_kept)
      | (with_reducible apply State.modCtx_kept) | (with_reducible apply countRefuse_kept)
      | (with_reducible apply Kept.foldl) | (with_reducible apply Kept.foldlPair)
      | (with_reducible apply Kept.foldlPair2) | (refine Kept.of_pair (by with_reducible assumption) ?_) | (intro _)
      | split | (dsimp only))

theorem withPacket_kept {r0 : State} (c : CtxId) (l : LinkId) (h : CollHdr) (act : Image → Station → Inst → State → State) (s : State)
    (k0 : Kept r0 s) (h_act : ∀ a0 a1 a2 t, Kept r0 t → Kept r0 (act a0 a1 a2 t)) : Kept r0 (withPacket c l h act s) := by
  unfold withPacket
  repeat' (first
      | (with_reducible assumption) | (with_reducible simp only [Kept.upd_iff]) | (with_reducible apply h_act)
      | (with_reducible apply packetMismatch_kept) | (with_reducible apply State.setCtx_kept)
      | (with_reducible apply reduceProgress_kept) | (with_reducible apply Kept.foldl)
      | (with_reducible apply Kept.foldlPair) | (with_reducible apply Kept.foldlPair2)
      | (refine Kept.of_pair (by with_reducible assumption) ?_) | (intro _) | split | (dsimp only))

theorem scaleIn_kept {r0 : State} (c : CtxId) (l : LinkId) (h : CollHdr) (recs : List ScaleRec) (s : State)
    (k0 : Kept r0 s) : Kept r0 (scaleIn c l h recs s) := by
  unfold scaleIn
  repeat' (first
      | (with_reducible assumption) | (with_reducible simp only [Kept.upd_iff])
      | (with_reducible apply withPacket_kept) | (with_reducible apply State.each_kept)
      | (with_reducible apply addRecord_kept) | (with_reducible apply Kept.foldl)
      | (with_reducible apply Kept.foldlPair) | (with_reducible apply Kept.foldlPair2)
      | (refine Kept.of_pair (by with_reducible assumption) ?_) | (intro _) | split | (dsimp only))

theorem doScale_kept {r0 : State} (l : LinkId) (dst : U16) (h : CollHdr) (recs : List ScaleRec) (s : State)
    (k0 : Kept r0 s) : Kept r0 (doScale l dst h recs s) := by
  unfold doScale
  repeat' (first
      | (with_reducible assumption) | (with_reducible simp only [Kept.upd_iff])
      | (with_reducible apply withGroup_kept) | (with_reducible apply parkPacket_kept)
      | (with_reducible apply scaleIn_kept) | (with_reducible apply Kept.foldl)
      | (with_reducible apply Kept.foldlPair) | (with_reducible apply Kept.foldlPair2)
      | (refine Kept.of_pair (by with_reducible assumption) ?_) | (intro _) | split | (dsimp only))

theorem execScale_kept (l : LinkId) (dst : U16) (h : CollHdr) (recs : List ScaleRec) (s : State) :
    KeptOut s (execScale l dst h recs s) := by
  have k0 := Kept.refl s
  unfold execScale
  repeat' (first
      | (with_reducible assumption) | (with_reducible simp only [Kept.upd_iff]) | (with_reducible apply KeptOut.next)
      | (with_reducible apply KeptOut.refused) | (with_reducible apply doScale_kept)
      | (with_reducible apply Kept.foldl) | (with_reducible apply Kept.foldlPair)
      | (with_reducible apply Kept.foldlPair2) | (refine Kept.of_pair (by with_reducible assumption) ?_) | (intro _)
      | split | (dsimp only))

theorem dataIn_kept {r0 : State} (c : CtxId) (l : LinkId) (h : CollHdr) (sums : List Int) (s : State)
    (k0 : Kept r0 s) : Kept r0 (dataIn c l h sums s) := by
  unfold dataIn
  repeat' (first
      | (with_reducible assumption) | (with_reducible simp only [Kept.upd_iff])
      | (with_reducible apply withPacket_kept) | (with_reducible apply State.each_kept)
      | (with_reducible apply addChecked_kept) | (with_reducible apply Kept.foldl)
      | (with_reducible apply Kept.foldlPair) | (with_reducible apply Kept.foldlPair2)
      | (refine Kept.of_pair (by with_reducible assumption) ?_) | (intro _) | split | (dsimp only))

theorem doData_kept {r0 : State} (l : LinkId) (dst : U16) (h : CollHdr) (sums : List Int) (s : State)
    (k0 : Kept r0 s) : Kept r0 (doData l dst h sums s) := by
  unfold doData
  repeat' (first
      | (with_reducible assumption) | (with_reducible simp only [Kept.upd_iff])
      | (with_reducible apply withGroup_kept) | (with_reducible apply parkPacket_kept)
      | (with_reducible apply dataIn_kept) | (with_reducible apply Kept.foldl) | (with_reducible apply Kept.foldlPair)
      | (with_reducible apply Kept.foldlPair2) | (refine Kept.of_pair (by with_reducible assumption) ?_) | (intro _)
      | split | (dsimp only))

theorem execData_kept (l : LinkId) (dst : U16) (h : CollHdr) (sums : List Int) (s : State) :
    KeptOut s (execData l dst h sums s) := by
  have k0 := Kept.refl s
  unfold execData
  repeat' (first
      | (with_reducible assumption) | (with_reducible simp only [Kept.upd_iff]) | (with_reducible apply KeptOut.next)
      | (with_reducible apply KeptOut.refused) | (with_reducible apply doData_kept)
      | (with_reducible apply Kept.foldl) | (with_reducible apply Kept.foldlPair)
      | (with_reducible apply Kept.foldlPair2) | (refine Kept.of_pair (by with_reducible assumption) ?_) | (intro _)
      | split | (dsimp only))

theorem gatherIn_kept {r0 : State} (c : CtxId) (l : LinkId) (h : CollHdr) (bytes : List Byte) (s : State)
    (k0 : Kept r0 s) : Kept r0 (gatherIn c l h bytes s) := by
  unfold gatherIn
  repeat' (first
      | (with_reducible assumption) | (with_reducible simp only [Kept.upd_iff])
      | (with_reducible apply withPacket_kept) | (with_reducible apply State.each_kept)
      | (with_reducible apply State.modCtx_kept) | (with_reducible apply Kept.foldl)
      | (with_reducible apply Kept.foldlPair) | (with_reducible apply Kept.foldlPair2)
      | (refine Kept.of_pair (by with_reducible assumption) ?_) | (intro _) | split | (dsimp only))

theorem doGather_kept {r0 : State} (l : LinkId) (dst : U16) (h : CollHdr) (bytes : List Byte) (s : State)
    (k0 : Kept r0 s) : Kept r0 (doGather l dst h bytes s) := by
  unfold doGather
  repeat' (first
      | (with_reducible assumption) | (with_reducible simp only [Kept.upd_iff])
      | (with_reducible apply withGroup_kept) | (with_reducible apply parkPacket_kept)
      | (with_reducible apply gatherIn_kept) | (with_reducible apply Kept.foldl)
      | (with_reducible apply Kept.foldlPair) | (with_reducible apply Kept.foldlPair2)
      | (refine Kept.of_pair (by with_reducible assumption) ?_) | (intro _) | split | (dsimp only))

theorem execGather_kept (l : LinkId) (dst : U16) (h : CollHdr) (bytes : List Byte) (s : State) :
    KeptOut s (execGather l dst h bytes s) := by
  have k0 := Kept.refl s
  unfold execGather
  repeat' (first
      | (with_reducible assumption) | (with_reducible simp only [Kept.upd_iff]) | (with_reducible apply KeptOut.next)
      | (with_reducible apply KeptOut.refused) | (with_reducible apply doGather_kept)
      | (with_reducible apply Kept.foldl) | (with_reducible apply Kept.foldlPair)
      | (with_reducible apply Kept.foldlPair2) | (refine Kept.of_pair (by with_reducible assumption) ?_) | (intro _)
      | split | (dsimp only))

theorem doPause_kept {r0 : State} (dst : U16) (h : CollHdr) (s : State)
    (k0 : Kept r0 s) : Kept r0 (doPause dst h s) := by
  unfold doPause
  repeat' (first
      | (with_reducible assumption) | (with_reducible simp only [Kept.upd_iff]) | (with_reducible apply withRank_kept)
      | (with_reducible apply withFresh_kept) | (with_reducible apply State.modCtx_kept)
      | (with_reducible apply Kept.foldl) | (with_reducible apply Kept.foldlPair)
      | (with_reducible apply Kept.foldlPair2) | (refine Kept.of_pair (by with_reducible assumption) ?_) | (intro _)
      | split | (dsimp only))

theorem execPause_kept (u1 : LinkId) (dst : U16) (h : CollHdr) (s : State) :
    KeptOut s (execPause u1 dst h s) := by
  have k0 := Kept.refl s
  unfold execPause
  repeat' (first
      | (with_reducible assumption) | (with_reducible simp only [Kept.upd_iff]) | (with_reducible apply KeptOut.next)
      | (with_reducible apply KeptOut.refused) | (with_reducible apply doPause_kept)
      | (with_reducible apply Kept.foldl) | (with_reducible apply Kept.foldlPair)
      | (with_reducible apply Kept.foldlPair2) | (refine Kept.of_pair (by with_reducible assumption) ?_) | (intro _)
      | split | (dsimp only))

theorem doResume_kept {r0 : State} (dst : U16) (h : CollHdr) (s : State)
    (k0 : Kept r0 s) : Kept r0 (doResume dst h s) := by
  unfold doResume
  repeat' (first
      | (with_reducible assumption) | (with_reducible simp only [Kept.upd_iff]) | (with_reducible apply withRank_kept)
      | (with_reducible apply withFresh_kept) | (with_reducible apply State.modCtx_kept)
      | (with_reducible apply State.each_kept) | (with_reducible apply sendPacket_kept)
      | (with_reducible apply Kept.foldl) | (with_reducible apply Kept.foldlPair)
      | (with_reducible apply Kept.foldlPair2) | (refine Kept.of_pair (by with_reducible assumption) ?_) | (intro _)
      | split | (dsimp only))

theorem execResume_kept (u1 : LinkId) (dst : U16) (h : CollHdr) (s : State) :
    KeptOut s (execResume u1 dst h s) := by
  have k0 := Kept.refl s
  unfold execResume
  repeat' (first
      | (with_reducible assumption) | (with_reducible simp only [Kept.upd_iff]) | (with_reducible apply KeptOut.next)
      | (with_reducible apply KeptOut.refused) | (with_reducible apply doResume_kept)
      | (with_reducible apply Kept.foldl) | (with_reducible apply Kept.foldlPair)
      | (with_reducible apply Kept.foldlPair2) | (refine Kept.of_pair (by with_reducible assumption) ?_) | (intro _)
      | split | (dsimp only))

theorem doDigest_kept {r0 : State} (dst : U16) (h : CollHdr) (d : U64) (attempt : U16) (s : State)
    (k0 : Kept r0 s) : Kept r0 (doDigest dst h d attempt s) := by
  unfold doDigest
  repeat' (first
      | (with_reducible assumption) | (with_reducible simp only [Kept.upd_iff]) | (with_reducible apply withRank_kept)
      | (with_reducible apply countRefuse_kept) | (with_reducible apply withFresh_kept)
      | (with_reducible apply State.modCtx_kept) | (with_reducible apply Kept.foldl)
      | (with_reducible apply Kept.foldlPair) | (with_reducible apply Kept.foldlPair2)
      | (refine Kept.of_pair (by with_reducible assumption) ?_) | (intro _) | split | (dsimp only))

theorem execDigest_kept (u1 : LinkId) (dst : U16) (h : CollHdr) (shardDigest : U64) (attempt : U16) (s : State) :
    KeptOut s (execDigest u1 dst h shardDigest attempt s) := by
  have k0 := Kept.refl s
  unfold execDigest
  repeat' (first
      | (with_reducible assumption) | (with_reducible simp only [Kept.upd_iff]) | (with_reducible apply KeptOut.next)
      | (with_reducible apply KeptOut.refused) | (with_reducible apply doDigest_kept)
      | (with_reducible apply Kept.foldl) | (with_reducible apply Kept.foldlPair)
      | (with_reducible apply Kept.foldlPair2) | (refine Kept.of_pair (by with_reducible assumption) ?_) | (intro _)
      | split | (dsimp only))

end Sys2Proof.Machine
end

