-- ==== Sys2Proof/Laws/KeptMatmul.lean ====
section
/-! SUPPORT. What the operations of Matmul keep. -/

namespace Sys2Proof.Machine

open Sys2Proof

set_option linter.unusedSimpArgs false

theorem stagePort_kept {r0 : State} (c : CtxId) (m : Image) (i port : Nat) (put : Tile → StnState → StnState) :
    ∀ (y0 : Nat) (y1 : State), Kept r0 y1 → Kept r0 (stagePort c m i port put y0 y1) := by
  intro y0
  induction y0 with
  | zero =>
    intro y1 k0
    unfold stagePort
    repeat' (first
        | (with_reducible assumption) | (with_reducible simp only [Kept.upd_iff])
        | (with_reducible apply takeScaled_kept) | (with_reducible apply State.modCtx_kept)
        | (with_reducible apply Kept.foldl) | (with_reducible apply Kept.foldlPair)
        | (with_reducible apply Kept.foldlPair2)
        | (refine Kept.of_pair (p := takeScaled _ _ _ _ _) (by with_reducible assumption) ?_)
        | (refine Kept.of_pair (by with_reducible assumption) ?_) | (intro _) | split | (dsimp only))
  | succ n ih =>
    intro y1 k0
    unfold stagePort
    repeat' (first
        | (with_reducible assumption) | (with_reducible simp only [Kept.upd_iff]) | (with_reducible apply ih)
        | (with_reducible apply takeScaled_kept) | (with_reducible apply State.modCtx_kept)
        | (with_reducible apply Kept.foldl) | (with_reducible apply Kept.foldlPair)
        | (with_reducible apply Kept.foldlPair2)
        | (refine Kept.of_pair (p := takeScaled _ _ _ _ _) (by with_reducible assumption) ?_)
        | (refine Kept.of_pair (by with_reducible assumption) ?_) | (intro _) | split | (dsimp only))

theorem stageOperands_kept {r0 : State} (c : CtxId) (m : Image) (i : Nat) (s : State)
    (k0 : Kept r0 s) : Kept r0 (stageOperands c m i s) := by
  unfold stageOperands
  repeat' (first
      | (with_reducible assumption) | (with_reducible simp only [Kept.upd_iff])
      | (with_reducible apply stagePort_kept) | (with_reducible apply Kept.foldl)
      | (with_reducible apply Kept.foldlPair) | (with_reducible apply Kept.foldlPair2)
      | (refine Kept.of_pair (by with_reducible assumption) ?_) | (intro _) | split | (dsimp only))

theorem runPass_kept {r0 : State} (c : CtxId) (i : Nat) (m : Image) (st : Station) (q : MatInfo) (frozen : List Byte) (o : TileXY) (blk : Nat) (s : State)
    (k0 : Kept r0 s) : Kept r0 (runPass c i m st q frozen o blk s) := by
  unfold runPass
  repeat' (first
      | (with_reducible assumption) | (with_reducible simp only [Kept.upd_iff]) | (with_reducible apply violate_kept)
      | (with_reducible apply State.modCtx_kept) | (with_reducible apply checkResidue_kept)
      | (with_reducible apply Kept.foldl) | (with_reducible apply Kept.foldlPair)
      | (with_reducible apply Kept.foldlPair2) | (refine Kept.of_pair (by with_reducible assumption) ?_) | (intro _)
      | split | (dsimp only))

theorem doMatmulPass_kept {r0 : State} (c : CtxId) (i : Nat) (o : TileXY) (blk : Nat) (s : State)
    (k0 : Kept r0 s) : Kept r0 (doMatmulPass c i o blk s) := by
  unfold doMatmulPass
  repeat' (first
      | (with_reducible assumption) | (with_reducible simp only [Kept.upd_iff])
      | (with_reducible apply withStation_kept) | (with_reducible apply stageOperands_kept)
      | (with_reducible apply access_kept) | (with_reducible apply chargeRead_kept)
      | (with_reducible apply State.modCtx_kept) | (with_reducible apply runPass_kept)
      | (with_reducible apply Kept.foldl) | (with_reducible apply Kept.foldlPair)
      | (with_reducible apply Kept.foldlPair2)
      | (refine Kept.of_pair (p := access _ _ _ _ _ _) (by with_reducible assumption) ?_)
      | (refine Kept.of_pair (by with_reducible assumption) ?_) | (intro _) | split | (dsimp only))

theorem execMatmulPass_kept (c : CtxId) (st : Nat) (out : TileXY) (blk : Nat) (s : State) :
    KeptOut s (execMatmulPass c st out blk s) := by
  have k0 := Kept.refl s
  unfold execMatmulPass
  repeat' (first
      | (with_reducible assumption) | (with_reducible simp only [Kept.upd_iff]) | (with_reducible apply KeptOut.next)
      | (with_reducible apply KeptOut.refused) | (with_reducible apply doMatmulPass_kept)
      | (with_reducible apply Kept.foldl) | (with_reducible apply Kept.foldlPair)
      | (with_reducible apply Kept.foldlPair2) | (refine Kept.of_pair (by with_reducible assumption) ?_) | (intro _)
      | split | (dsimp only))

theorem doStationaryTileLoad_kept {r0 : State} (c : CtxId) (i : Nat) (xy : TileXY) (s : State)
    (k0 : Kept r0 s) : Kept r0 (doStationaryTileLoad c i xy s) := by
  unfold doStationaryTileLoad
  repeat' (first
      | (with_reducible assumption) | (with_reducible simp only [Kept.upd_iff])
      | (with_reducible apply withStation_kept) | (with_reducible apply stageOperands_kept)
      | (with_reducible apply violate_kept) | (with_reducible apply State.modCtx_kept)
      | (with_reducible apply Kept.foldl) | (with_reducible apply Kept.foldlPair)
      | (with_reducible apply Kept.foldlPair2) | (refine Kept.of_pair (by with_reducible assumption) ?_) | (intro _)
      | split | (dsimp only))

theorem execStationaryTileLoad_kept (c : CtxId) (st : Nat) (tile : TileXY) (s : State) :
    KeptOut s (execStationaryTileLoad c st tile s) := by
  have k0 := Kept.refl s
  unfold execStationaryTileLoad
  repeat' (first
      | (with_reducible assumption) | (with_reducible simp only [Kept.upd_iff]) | (with_reducible apply KeptOut.next)
      | (with_reducible apply KeptOut.refused) | (with_reducible apply doStationaryTileLoad_kept)
      | (with_reducible apply Kept.foldl) | (with_reducible apply Kept.foldlPair)
      | (with_reducible apply Kept.foldlPair2) | (refine Kept.of_pair (by with_reducible assumption) ?_) | (intro _)
      | split | (dsimp only))

end Sys2Proof.Machine
end

