-- ==== Sys2Proof/Laws/KeptConvert.lean ====
section
/-! SUPPORT. What the operations of Convert keep. -/

namespace Sys2Proof.Machine

open Sys2Proof

set_option linter.unusedSimpArgs false

theorem stageHeld_kept {r0 : State} (c : CtxId) (m : Image) (i : Nat) (s : State)
    (k0 : Kept r0 s) : Kept r0 (stageHeld c m i s) := by
  unfold stageHeld
  repeat' (first
      | (with_reducible assumption) | (with_reducible simp only [Kept.upd_iff])
      | (with_reducible apply stagePort_kept) | (with_reducible apply Kept.foldl)
      | (with_reducible apply Kept.foldlPair) | (with_reducible apply Kept.foldlPair2)
      | (refine Kept.of_pair (by with_reducible assumption) ?_) | (intro _) | split | (dsimp only))

theorem doConvertTile_kept {r0 : State} (c : CtxId) (i : Nat) (s : State)
    (k0 : Kept r0 s) : Kept r0 (doConvertTile c i s) := by
  unfold doConvertTile
  repeat' (first
      | (with_reducible assumption) | (with_reducible simp only [Kept.upd_iff])
      | (with_reducible apply withStation_kept) | (with_reducible apply stageHeld_kept)
      | (with_reducible apply State.modCtx_kept) | (with_reducible apply takeScaled_kept)
      | (with_reducible apply Kept.foldl) | (with_reducible apply Kept.foldlPair)
      | (with_reducible apply Kept.foldlPair2)
      | (refine Kept.of_pair (p := takeScaled _ _ _ _ _) (by with_reducible assumption) ?_)
      | (refine Kept.of_pair (by with_reducible assumption) ?_) | (intro _) | split | (dsimp only))

theorem execConvertTile_kept (c : CtxId) (st : Nat) (s : State) :
    KeptOut s (execConvertTile c st s) := by
  have k0 := Kept.refl s
  unfold execConvertTile
  repeat' (first
      | (with_reducible assumption) | (with_reducible simp only [Kept.upd_iff]) | (with_reducible apply KeptOut.next)
      | (with_reducible apply KeptOut.refused) | (with_reducible apply doConvertTile_kept)
      | (with_reducible apply Kept.foldl) | (with_reducible apply Kept.foldlPair)
      | (with_reducible apply Kept.foldlPair2) | (refine Kept.of_pair (by with_reducible assumption) ?_) | (intro _)
      | split | (dsimp only))

theorem takeMetas_kept {r0 : State} (c : CtxId) (m : Image) (i : Nat) (transposed : Bool) :
    ∀ (y0 : Nat) (y1 : State), Kept r0 y1 → Kept r0 (takeMetas c m i transposed y0 y1) := by
  intro y0
  induction y0 with
  | zero =>
    intro y1 k0
    unfold takeMetas
    repeat' (first
        | (with_reducible assumption) | (with_reducible simp only [Kept.upd_iff])
        | (with_reducible apply takeTile_kept) | (with_reducible apply State.modCtx_kept)
        | (with_reducible apply Kept.foldl) | (with_reducible apply Kept.foldlPair)
        | (with_reducible apply Kept.foldlPair2)
        | (refine Kept.of_pair (p := takeTile _ _ _ _ _) (by with_reducible assumption) ?_)
        | (refine Kept.of_pair (by with_reducible assumption) ?_) | (intro _) | split | (dsimp only))
  | succ n ih =>
    intro y1 k0
    unfold takeMetas
    repeat' (first
        | (with_reducible assumption) | (with_reducible simp only [Kept.upd_iff]) | (with_reducible apply ih)
        | (with_reducible apply takeTile_kept) | (with_reducible apply State.modCtx_kept)
        | (with_reducible apply Kept.foldl) | (with_reducible apply Kept.foldlPair)
        | (with_reducible apply Kept.foldlPair2)
        | (refine Kept.of_pair (p := takeTile _ _ _ _ _) (by with_reducible assumption) ?_)
        | (refine Kept.of_pair (by with_reducible assumption) ?_) | (intro _) | split | (dsimp only))

theorem takeRowSets_kept {r0 : State} (c : CtxId) (m : Image) (i : Nat) :
    ∀ (y0 : Nat) (y1 : State), Kept r0 y1 → Kept r0 (takeRowSets c m i y0 y1) := by
  intro y0
  induction y0 with
  | zero =>
    intro y1 k0
    unfold takeRowSets
    repeat' (first
        | (with_reducible assumption) | (with_reducible simp only [Kept.upd_iff])
        | (with_reducible apply takeTile_kept) | (with_reducible apply State.modCtx_kept)
        | (with_reducible apply Kept.foldl) | (with_reducible apply Kept.foldlPair)
        | (with_reducible apply Kept.foldlPair2)
        | (refine Kept.of_pair (p := takeTile _ _ _ _ _) (by with_reducible assumption) ?_)
        | (refine Kept.of_pair (by with_reducible assumption) ?_) | (intro _) | split | (dsimp only))
  | succ n ih =>
    intro y1 k0
    unfold takeRowSets
    repeat' (first
        | (with_reducible assumption) | (with_reducible simp only [Kept.upd_iff]) | (with_reducible apply ih)
        | (with_reducible apply takeTile_kept) | (with_reducible apply State.modCtx_kept)
        | (with_reducible apply Kept.foldl) | (with_reducible apply Kept.foldlPair)
        | (with_reducible apply Kept.foldlPair2)
        | (refine Kept.of_pair (p := takeTile _ _ _ _ _) (by with_reducible assumption) ?_)
        | (refine Kept.of_pair (by with_reducible assumption) ?_) | (intro _) | split | (dsimp only))

theorem doSpreadTile_kept {r0 : State} (c : CtxId) (i : Nat) (s : State)
    (k0 : Kept r0 s) : Kept r0 (doSpreadTile c i s) := by
  unfold doSpreadTile
  repeat' (first
      | (with_reducible assumption) | (with_reducible simp only [Kept.upd_iff])
      | (with_reducible apply withStation_kept) | (with_reducible apply takeMetas_kept)
      | (with_reducible apply takeRowSets_kept) | (with_reducible apply takeScaled_kept)
      | (with_reducible apply State.modCtx_kept) | (with_reducible apply Kept.foldl)
      | (with_reducible apply Kept.foldlPair) | (with_reducible apply Kept.foldlPair2)
      | (refine Kept.of_pair (p := takeScaled _ _ _ _ _) (by with_reducible assumption) ?_)
      | (refine Kept.of_pair (by with_reducible assumption) ?_) | (intro _) | split | (dsimp only))

theorem execSpreadTile_kept (c : CtxId) (st : Nat) (s : State) :
    KeptOut s (execSpreadTile c st s) := by
  have k0 := Kept.refl s
  unfold execSpreadTile
  repeat' (first
      | (with_reducible assumption) | (with_reducible simp only [Kept.upd_iff]) | (with_reducible apply KeptOut.next)
      | (with_reducible apply KeptOut.refused) | (with_reducible apply doSpreadTile_kept)
      | (with_reducible apply Kept.foldl) | (with_reducible apply Kept.foldlPair)
      | (with_reducible apply Kept.foldlPair2) | (refine Kept.of_pair (by with_reducible assumption) ?_) | (intro _)
      | split | (dsimp only))

end Sys2Proof.Machine
end

