-- ==== Sys2Proof/Laws/KeptStore.lean ====
section
/-! SUPPORT. What the operations of Store keep. -/

namespace Sys2Proof.Machine

open Sys2Proof

set_option linter.unusedSimpArgs false

theorem writeRuns_kept {r0 : State} (c : CtxId) (tab : List PageMap) (ws : List (Nat × List Byte)) (s : State)
    (k0 : Kept r0 s) : Kept r0 (writeRuns c tab ws s) := by
  unfold writeRuns
  repeat' (first
      | (with_reducible assumption) | (with_reducible simp only [Kept.upd_iff]) | (with_reducible apply devPut_kept)
      | (with_reducible apply eccRead_kept) | (with_reducible apply Kept.foldl)
      | (with_reducible apply Kept.foldlPair) | (with_reducible apply Kept.foldlPair2)
      | (refine Kept.of_pair (by with_reducible assumption) ?_) | (intro _) | split | (dsimp only)
      | (with_reducible apply Kept.updHost) | (with_reducible apply Kept.updMem))

theorem patchRuns_kept {r0 : State} (c : CtxId) (tab : List PageMap) (ws : List (Nat × List Byte)) (s : State)
    (k0 : Kept r0 s) : Kept r0 (patchRuns c tab ws s) := by
  unfold patchRuns
  repeat' (first
      | (with_reducible assumption) | (with_reducible simp only [Kept.upd_iff]) | (with_reducible apply eccRead_kept)
      | (with_reducible apply Kept.foldl) | (with_reducible apply Kept.foldlPair)
      | (with_reducible apply Kept.foldlPair2) | (refine Kept.of_pair (by with_reducible assumption) ?_) | (intro _)
      | split | (dsimp only) | (with_reducible apply Kept.updHost) | (with_reducible apply Kept.updMem))

theorem storeAcc_kept {r0 : State} (c : CtxId) (i : Nat) (m : Image) (a : AccMap) (add : Bool) (xy : TileXY) (s : State)
    (k0 : Kept r0 s) : Kept r0 (storeAcc c i m a add xy s) := by
  unfold storeAcc
  repeat' (first
      | (with_reducible assumption) | (with_reducible simp only [Kept.upd_iff]) | (with_reducible apply access_kept)
      | (with_reducible apply takeTile_kept) | (with_reducible apply patchRuns_kept)
      | (with_reducible apply State.each_kept) | (with_reducible apply violate_kept)
      | (with_reducible apply checkResidue_kept) | (with_reducible apply State.modCtx_kept)
      | (with_reducible apply writeRuns_kept) | (with_reducible apply Kept.foldl)
      | (with_reducible apply Kept.foldlPair) | (with_reducible apply Kept.foldlPair2)
      | (refine Kept.of_pair (p := access _ _ _ _ _ _) (by with_reducible assumption) ?_)
      | (refine Kept.of_pair (p := takeTile _ _ _ _ _) (by with_reducible assumption) ?_)
      | (refine Kept.of_pair (by with_reducible assumption) ?_) | (intro _) | split | (dsimp only))

theorem storeValue_kept {r0 : State} (c : CtxId) (i : Nat) (m : Image) (v : View) (add : Bool) (xy : TileXY) (s : State)
    (k0 : Kept r0 s) : Kept r0 (storeValue c i m v add xy s) := by
  unfold storeValue
  repeat' (first
      | (with_reducible assumption) | (with_reducible simp only [Kept.upd_iff]) | (with_reducible apply access_kept)
      | (with_reducible apply takeScaled_kept) | (with_reducible apply State.modCtx_kept)
      | (with_reducible apply patchRuns_kept) | (with_reducible apply checkResidue_kept)
      | (with_reducible apply writeRuns_kept) | (with_reducible apply Kept.foldl)
      | (with_reducible apply Kept.foldlPair) | (with_reducible apply Kept.foldlPair2)
      | (refine Kept.of_pair (p := access _ _ _ _ _ _) (by with_reducible assumption) ?_)
      | (refine Kept.of_pair (p := takeScaled _ _ _ _ _) (by with_reducible assumption) ?_)
      | (refine Kept.of_pair (by with_reducible assumption) ?_) | (intro _) | split | (dsimp only))

theorem storePackedValue_kept {r0 : State} (c : CtxId) (i : Nat) (m : Image) (t : TensorRec) (fmt : Nat) (add : Bool) (seen : List PackedTile) (pk : PackedTile) (s : State)
    (k0 : Kept r0 s) : Kept r0 (storePackedValue c i m t fmt add seen pk s) := by
  unfold storePackedValue
  repeat' (first
      | (with_reducible assumption) | (with_reducible simp only [Kept.upd_iff]) | (with_reducible apply access_kept)
      | (with_reducible apply takeScaled_kept) | (with_reducible apply State.modCtx_kept)
      | (with_reducible apply patchRuns_kept) | (with_reducible apply checkResidue_kept)
      | (with_reducible apply writeRuns_kept) | (with_reducible apply Kept.foldl)
      | (with_reducible apply Kept.foldlPair) | (with_reducible apply Kept.foldlPair2)
      | (refine Kept.of_pair (p := access _ _ _ _ _ _) (by with_reducible assumption) ?_)
      | (refine Kept.of_pair (p := takeScaled _ _ _ _ _) (by with_reducible assumption) ?_)
      | (refine Kept.of_pair (by with_reducible assumption) ?_) | (intro _) | split | (dsimp only))

theorem storePacked_kept {r0 : State} (c : CtxId) (i : Nat) (m : Image) (st : Station) (t : TensorRec) (k : MaskRec) (xy : TileXY) (s : State)
    (k0 : Kept r0 s) : Kept r0 (storePacked c i m st t k xy s) := by
  unfold storePacked
  repeat' (first
      | (with_reducible assumption) | (with_reducible simp only [Kept.upd_iff]) | (with_reducible apply access_kept)
      | (with_reducible apply State.modCtx_kept) | (with_reducible apply chargeRead_kept)
      | (with_reducible apply violate_kept) | (with_reducible apply takeScaled_kept)
      | (with_reducible apply storeAcc_kept) | (with_reducible apply storePackedValue_kept)
      | (with_reducible apply Kept.foldl) | (with_reducible apply Kept.foldlPair)
      | (with_reducible apply Kept.foldlPair2)
      | (refine Kept.of_pair (p := access _ _ _ _ _ _) (by with_reducible assumption) ?_)
      | (refine Kept.of_pair (p := takeScaled _ _ _ _ _) (by with_reducible assumption) ?_)
      | (refine Kept.of_pair (by with_reducible assumption) ?_) | (intro _) | split | (dsimp only))

theorem doStoreTile_kept {r0 : State} (c : CtxId) (i : Nat) (s : State)
    (k0 : Kept r0 s) : Kept r0 (doStoreTile c i s) := by
  unfold doStoreTile
  repeat' (first
      | (with_reducible assumption) | (with_reducible simp only [Kept.upd_iff])
      | (with_reducible apply withStation_kept) | (with_reducible apply takeMetas_kept)
      | (with_reducible apply storePacked_kept) | (with_reducible apply violate_kept)
      | (with_reducible apply takeScaled_kept) | (with_reducible apply access_kept)
      | (with_reducible apply chargeRead_kept) | (with_reducible apply storeAcc_kept)
      | (with_reducible apply storeValue_kept) | (with_reducible apply Kept.foldl)
      | (with_reducible apply Kept.foldlPair) | (with_reducible apply Kept.foldlPair2)
      | (refine Kept.of_pair (p := takeScaled _ _ _ _ _) (by with_reducible assumption) ?_)
      | (refine Kept.of_pair (p := access _ _ _ _ _ _) (by with_reducible assumption) ?_)
      | (refine Kept.of_pair (by with_reducible assumption) ?_) | (intro _) | split | (dsimp only))

theorem execStoreTile_kept (c : CtxId) (st : Nat) (s : State) :
    KeptOut s (execStoreTile c st s) := by
  have k0 := Kept.refl s
  unfold execStoreTile
  repeat' (first
      | (with_reducible assumption) | (with_reducible simp only [Kept.upd_iff]) | (with_reducible apply KeptOut.next)
      | (with_reducible apply KeptOut.refused) | (with_reducible apply doStoreTile_kept)
      | (with_reducible apply Kept.foldl) | (with_reducible apply Kept.foldlPair)
      | (with_reducible apply Kept.foldlPair2) | (refine Kept.of_pair (by with_reducible assumption) ?_) | (intro _)
      | split | (dsimp only))

end Sys2Proof.Machine
end

