-- ==== Sys2Proof/Laws/KeptPrune.lean ====
section
/-! SUPPORT. What the operations of Prune keep. -/

namespace Sys2Proof.Machine

open Sys2Proof

set_option linter.unusedSimpArgs false

theorem doRegrowthScan_kept {r0 : State} (c : CtxId) (i : Nat) (s : State)
    (k0 : Kept r0 s) : Kept r0 (doRegrowthScan c i s) := by
  unfold doRegrowthScan
  repeat' (first
      | (with_reducible assumption) | (with_reducible simp only [Kept.upd_iff])
      | (with_reducible apply withStation_kept) | (with_reducible apply access_kept)
      | (with_reducible apply takeTile_kept) | (with_reducible apply chargeRead_kept)
      | (with_reducible apply State.modCtx_kept) | (with_reducible apply Kept.foldl)
      | (with_reducible apply Kept.foldlPair) | (with_reducible apply Kept.foldlPair2)
      | (refine Kept.of_pair (p := access _ _ _ _ _ _) (by with_reducible assumption) ?_)
      | (refine Kept.of_pair (p := takeTile _ _ _ _ _) (by with_reducible assumption) ?_)
      | (refine Kept.of_pair (by with_reducible assumption) ?_) | (intro _) | split | (dsimp only))

theorem execRegrowthScan_kept (c : CtxId) (st : Nat) (s : State) :
    KeptOut s (execRegrowthScan c st s) := by
  have k0 := Kept.refl s
  unfold execRegrowthScan
  repeat' (first
      | (with_reducible assumption) | (with_reducible simp only [Kept.upd_iff]) | (with_reducible apply KeptOut.next)
      | (with_reducible apply KeptOut.refused) | (with_reducible apply doRegrowthScan_kept)
      | (with_reducible apply Kept.foldl) | (with_reducible apply Kept.foldlPair)
      | (with_reducible apply Kept.foldlPair2) | (refine Kept.of_pair (by with_reducible assumption) ?_) | (intro _)
      | split | (dsimp only))

theorem deriveCopy_kept {r0 : State} (c : CtxId) (req : FaultReq) (d : SparseDim) (k : MaskRec) (copy : Nat) (s : State)
    (k0 : Kept r0 s) : Kept r0 (deriveCopy c req d k copy s).2 := by
  unfold deriveCopy
  repeat' (first
      | (with_reducible assumption) | (with_reducible simp only [Kept.upd_iff]) | (with_reducible apply access_kept)
      | (with_reducible apply putVa_kept) | (with_reducible apply chargeRead_kept) | (with_reducible apply Kept.foldl)
      | (with_reducible apply Kept.foldlPair) | (with_reducible apply Kept.foldlPair2)
      | (refine Kept.of_pair (p := access _ _ _ _ _ _) (by with_reducible assumption) ?_)
      | (refine Kept.of_pair (p := putVa _ _ _ _ _ _) (by with_reducible assumption) ?_)
      | (refine Kept.of_pair (by with_reducible assumption) ?_) | (intro _) | split | (dsimp only))

theorem applyEdit_kept {r0 : State} (c : CtxId) (i : Nat) (e : EditIn) (old new : List SlotBlock) (tabR : List PageMap) (reads : List Span) (metas : List (Nat × List Byte)) (nibs : List FieldPut) (counts : EditCounts) (s : State)
    (k0 : Kept r0 s) : Kept r0 (applyEdit c i e old new tabR reads metas nibs counts s).2 := by
  unfold applyEdit
  repeat' (first
      | (with_reducible assumption) | (with_reducible simp only [Kept.upd_iff]) | (with_reducible apply access_kept)
      | (with_reducible apply writeRuns_kept) | (with_reducible apply chargeRead_kept)
      | (with_reducible apply State.modCtx_kept) | (with_reducible apply Kept.foldl)
      | (with_reducible apply Kept.foldlPair) | (with_reducible apply Kept.foldlPair2)
      | (refine Kept.of_pair (p := access _ _ _ _ _ _) (by with_reducible assumption) ?_)
      | (refine Kept.of_pair (by with_reducible assumption) ?_) | (intro _) | split | (dsimp only))

theorem editGrouped_kept {r0 : State} (c : CtxId) (i : Nat) (e : EditIn) (u : Nat) (s : State)
    (k0 : Kept r0 s) : Kept r0 (editGrouped c i e u s).2 := by
  unfold editGrouped
  repeat' (first
      | (with_reducible assumption) | (with_reducible simp only [Kept.upd_iff]) | (with_reducible apply access_kept)
      | (with_reducible apply applyEdit_kept) | (with_reducible apply Kept.foldl)
      | (with_reducible apply Kept.foldlPair) | (with_reducible apply Kept.foldlPair2)
      | (refine Kept.of_pair (p := access _ _ _ _ _ _) (by with_reducible assumption) ?_)
      | (refine Kept.of_pair (p := applyEdit _ _ _ _ _ _ _ _ _ _ _) (by with_reducible assumption) ?_)
      | (refine Kept.of_pair (by with_reducible assumption) ?_) | (intro _) | split | (dsimp only))

theorem editPacked_kept {r0 : State} (c : CtxId) (i : Nat) (e : EditIn) (s : State)
    (k0 : Kept r0 s) : Kept r0 (editPacked c i e s).2 := by
  unfold editPacked
  repeat' (first
      | (with_reducible assumption) | (with_reducible simp only [Kept.upd_iff]) | (with_reducible apply access_kept)
      | (with_reducible apply applyEdit_kept) | (with_reducible apply Kept.foldl)
      | (with_reducible apply Kept.foldlPair) | (with_reducible apply Kept.foldlPair2)
      | (refine Kept.of_pair (p := access _ _ _ _ _ _) (by with_reducible assumption) ?_)
      | (refine Kept.of_pair (p := applyEdit _ _ _ _ _ _ _ _ _ _ _) (by with_reducible assumption) ?_)
      | (refine Kept.of_pair (by with_reducible assumption) ?_) | (intro _) | split | (dsimp only))

theorem copyMeta_kept {r0 : State} (c : CtxId) (i : Nat) (e : EditIn) (s : State)
    (k0 : Kept r0 s) : Kept r0 (copyMeta c i e s).2 := by
  unfold copyMeta
  repeat' (first
      | (with_reducible assumption) | (with_reducible simp only [Kept.upd_iff]) | (with_reducible apply putMany_kept)
      | (with_reducible apply Kept.foldl) | (with_reducible apply Kept.foldlPair)
      | (with_reducible apply Kept.foldlPair2)
      | (refine Kept.of_pair (p := putMany _ _ _ _ _) (by with_reducible assumption) ?_)
      | (refine Kept.of_pair (by with_reducible assumption) ?_) | (intro _) | split | (dsimp only))

theorem takePruneInputs_kept {r0 : State} (c : CtxId) (m : Image) (i : Nat) (s : State)
    (k0 : Kept r0 s) : Kept r0 (takePruneInputs c m i s) := by
  unfold takePruneInputs
  repeat' (first
      | (with_reducible assumption) | (with_reducible simp only [Kept.upd_iff])
      | (with_reducible apply State.each_kept) | (with_reducible apply takeTile_kept)
      | (with_reducible apply State.modCtx_kept) | (with_reducible apply Kept.foldl)
      | (with_reducible apply Kept.foldlPair) | (with_reducible apply Kept.foldlPair2)
      | (refine Kept.of_pair (p := takeTile _ _ _ _ _) (by with_reducible assumption) ?_)
      | (refine Kept.of_pair (by with_reducible assumption) ?_) | (intro _) | split | (dsimp only))

theorem finishPrune_kept {r0 : State} (c : CtxId) (i : Nat) (m : Image) (e : EditIn) (s : State)
    (k0 : Kept r0 s) : Kept r0 (finishPrune c i m e s) := by
  unfold finishPrune
  repeat' (first
      | (with_reducible assumption) | (with_reducible simp only [Kept.upd_iff]) | (with_reducible apply access_kept)
      | (with_reducible apply State.modCtx_kept) | (with_reducible apply Kept.foldl)
      | (with_reducible apply Kept.foldlPair) | (with_reducible apply Kept.foldlPair2)
      | (refine Kept.of_pair (p := access _ _ _ _ _ _) (by with_reducible assumption) ?_)
      | (refine Kept.of_pair (by with_reducible assumption) ?_) | (intro _) | split | (dsimp only))

theorem editUnit_kept {r0 : State} (c : CtxId) (i : Nat) (m : Image) (e : EditIn) (u : Nat) (s : State)
    (k0 : Kept r0 s) : Kept r0 (editUnit c i m e u s) := by
  unfold editUnit
  repeat' (first
      | (with_reducible assumption) | (with_reducible simp only [Kept.upd_iff])
      | (with_reducible apply State.modCtx_kept) | (with_reducible apply copyMeta_kept)
      | (with_reducible apply editGrouped_kept) | (with_reducible apply editPacked_kept)
      | (with_reducible apply Kept.foldl) | (with_reducible apply Kept.foldlPair)
      | (with_reducible apply Kept.foldlPair2)
      | (refine Kept.of_pair (p := copyMeta _ _ _ _) (by with_reducible assumption) ?_)
      | (refine Kept.of_pair (p := editGrouped _ _ _ _ _) (by with_reducible assumption) ?_)
      | (refine Kept.of_pair (p := editPacked _ _ _ _) (by with_reducible assumption) ?_)
      | (refine Kept.of_pair (by with_reducible assumption) ?_) | (intro _) | split | (dsimp only))

theorem doPruneUnit_kept {r0 : State} (c : CtxId) (i u : Nat) (s : State)
    (k0 : Kept r0 s) : Kept r0 (doPruneUnit c i u s) := by
  unfold doPruneUnit
  repeat' (first
      | (with_reducible assumption) | (with_reducible simp only [Kept.upd_iff])
      | (with_reducible apply withStation_kept) | (with_reducible apply takePruneInputs_kept)
      | (with_reducible apply access_kept) | (with_reducible apply State.modCtx_kept)
      | (with_reducible apply chargeRead_kept) | (with_reducible apply finishPrune_kept)
      | (with_reducible apply editUnit_kept) | (with_reducible apply Kept.foldl)
      | (with_reducible apply Kept.foldlPair) | (with_reducible apply Kept.foldlPair2)
      | (refine Kept.of_pair (p := access _ _ _ _ _ _) (by with_reducible assumption) ?_)
      | (refine Kept.of_pair (by with_reducible assumption) ?_) | (intro _) | split | (dsimp only))

theorem execPruneUnit_kept (c : CtxId) (st u : Nat) (s : State) :
    KeptOut s (execPruneUnit c st u s) := by
  have k0 := Kept.refl s
  unfold execPruneUnit
  repeat' (first
      | (with_reducible assumption) | (with_reducible simp only [Kept.upd_iff]) | (with_reducible apply KeptOut.next)
      | (with_reducible apply KeptOut.refused) | (with_reducible apply doPruneUnit_kept)
      | (with_reducible apply Kept.foldl) | (with_reducible apply Kept.foldlPair)
      | (with_reducible apply Kept.foldlPair2) | (refine Kept.of_pair (by with_reducible assumption) ?_) | (intro _)
      | split | (dsimp only))

theorem doTransposeMeta_kept {r0 : State} (c : CtxId) (i : Nat) (s : State)
    (k0 : Kept r0 s) : Kept r0 (doTransposeMeta c i s) := by
  unfold doTransposeMeta
  repeat' (first
      | (with_reducible assumption) | (with_reducible simp only [Kept.upd_iff])
      | (with_reducible apply withStation_kept) | (with_reducible apply State.each_kept)
      | (with_reducible apply takeTile_kept) | (with_reducible apply State.modCtx_kept)
      | (with_reducible apply access_kept) | (with_reducible apply chargeRead_kept)
      | (with_reducible apply Kept.foldl) | (with_reducible apply Kept.foldlPair)
      | (with_reducible apply Kept.foldlPair2)
      | (refine Kept.of_pair (p := takeTile _ _ _ _ _) (by with_reducible assumption) ?_)
      | (refine Kept.of_pair (p := access _ _ _ _ _ _) (by with_reducible assumption) ?_)
      | (refine Kept.of_pair (by with_reducible assumption) ?_) | (intro _) | split | (dsimp only))

theorem execTransposeMeta_kept (c : CtxId) (st : Nat) (s : State) :
    KeptOut s (execTransposeMeta c st s) := by
  have k0 := Kept.refl s
  unfold execTransposeMeta
  repeat' (first
      | (with_reducible assumption) | (with_reducible simp only [Kept.upd_iff]) | (with_reducible apply KeptOut.next)
      | (with_reducible apply KeptOut.refused) | (with_reducible apply doTransposeMeta_kept)
      | (with_reducible apply Kept.foldl) | (with_reducible apply Kept.foldlPair)
      | (with_reducible apply Kept.foldlPair2) | (refine Kept.of_pair (by with_reducible assumption) ?_) | (intro _)
      | split | (dsimp only))

end Sys2Proof.Machine
end

