-- ==== Sys2Proof/Laws/KeptFetch.lean ====
section
/-! SUPPORT. What the operations of Fetch keep. -/

namespace Sys2Proof.Machine

open Sys2Proof

set_option linter.unusedSimpArgs false

theorem fetchAcc_kept {r0 : State} (c : CtxId) (i : Nat) (m : Image) (t : TensorRec) (a : AccMap) (tab0 : List PageMap) (ix : List Span) (xy : TileXY) (cols : List SlotPos) (count : Nat) (s : State)
    (k0 : Kept r0 s) : Kept r0 (fetchAcc c i m t a tab0 ix xy cols count s) := by
  unfold fetchAcc
  repeat' (first
      | (with_reducible assumption) | (with_reducible simp only [Kept.upd_iff]) | (with_reducible apply access_kept)
      | (with_reducible apply chargeRead_kept) | (with_reducible apply violate_kept)
      | (with_reducible apply State.modCtx_kept) | (with_reducible apply Kept.foldl)
      | (with_reducible apply Kept.foldlPair) | (with_reducible apply Kept.foldlPair2)
      | (refine Kept.of_pair (p := access _ _ _ _ _ _) (by with_reducible assumption) ?_)
      | (refine Kept.of_pair (by with_reducible assumption) ?_) | (intro _) | split | (dsimp only))

theorem fetchDense_kept {r0 : State} (c : CtxId) (i : Nat) (m : Image) (st : Station) (t : TensorRec) (xy : TileXY) (count : Nat) (s : State)
    (k0 : Kept r0 s) : Kept r0 (fetchDense c i m st t xy count s) := by
  unfold fetchDense
  repeat' (first
      | (with_reducible assumption) | (with_reducible simp only [Kept.upd_iff]) | (with_reducible apply access_kept)
      | (with_reducible apply fetchAcc_kept) | (with_reducible apply chargeRead_kept)
      | (with_reducible apply State.modCtx_kept) | (with_reducible apply Kept.foldl)
      | (with_reducible apply Kept.foldlPair) | (with_reducible apply Kept.foldlPair2)
      | (refine Kept.of_pair (p := access _ _ _ _ _ _) (by with_reducible assumption) ?_)
      | (refine Kept.of_pair (by with_reducible assumption) ?_) | (intro _) | split | (dsimp only))

theorem fetchSparse_kept {r0 : State} (c : CtxId) (i : Nat) (m : Image) (st : Station) (t : TensorRec) (k : MaskRec) (s : State)
    (k0 : Kept r0 s) : Kept r0 (fetchSparse c i m st t k s) := by
  unfold fetchSparse
  repeat' (first
      | (with_reducible assumption) | (with_reducible simp only [Kept.upd_iff]) | (with_reducible apply access_kept)
      | (with_reducible apply chargeRead_kept) | (with_reducible apply State.modCtx_kept)
      | (with_reducible apply fetchAcc_kept) | (with_reducible apply Kept.foldl)
      | (with_reducible apply Kept.foldlPair) | (with_reducible apply Kept.foldlPair2)
      | (refine Kept.of_pair (p := access _ _ _ _ _ _) (by with_reducible assumption) ?_)
      | (refine Kept.of_pair (by with_reducible assumption) ?_) | (intro _) | split | (dsimp only))

theorem fetchNext_kept {r0 : State} (c : CtxId) (i : Nat) (s : State)
    (k0 : Kept r0 s) : Kept r0 (fetchNext c i s) := by
  unfold fetchNext
  repeat' (first
      | (with_reducible assumption) | (with_reducible simp only [Kept.upd_iff])
      | (with_reducible apply withStation_kept) | (with_reducible apply fetchSparse_kept)
      | (with_reducible apply State.modCtx_kept) | (with_reducible apply fetchDense_kept)
      | (with_reducible apply Kept.foldl) | (with_reducible apply Kept.foldlPair)
      | (with_reducible apply Kept.foldlPair2) | (refine Kept.of_pair (by with_reducible assumption) ?_) | (intro _)
      | split | (dsimp only))

end Sys2Proof.Machine
end

