-- ==== Sys2Proof/Laws/KeptUpdate.lean ====
section
/-! SUPPORT. What the operations of Update keep. -/

namespace Sys2Proof.Machine

open Sys2Proof

set_option linter.unusedSimpArgs false

theorem clearDiverge_kept {r0 : State} (c : CtxId) (req : FaultReq) (q : UpdInfo) (s : State)
    (k0 : Kept r0 s) : Kept r0 (clearDiverge c req q s).2 := by
  unfold clearDiverge
  repeat' (first
      | (with_reducible assumption) | (with_reducible simp only [Kept.upd_iff]) | (with_reducible apply putVa_kept)
      | (with_reducible apply Kept.foldl) | (with_reducible apply Kept.foldlPair)
      | (with_reducible apply Kept.foldlPair2)
      | (refine Kept.of_pair (p := putVa _ _ _ _ _ _) (by with_reducible assumption) ?_)
      | (refine Kept.of_pair (by with_reducible assumption) ?_) | (intro _) | split | (dsimp only))

theorem markDiverge_kept {r0 : State} (c : CtxId) (q : UpdInfo) (s : State)
    (k0 : Kept r0 s) : Kept r0 (markDiverge c q s).2 := by
  unfold markDiverge
  repeat' (first
      | (with_reducible assumption) | (with_reducible simp only [Kept.upd_iff]) | (with_reducible apply access_kept)
      | (with_reducible apply writeRuns_kept) | (with_reducible apply Kept.foldl)
      | (with_reducible apply Kept.foldlPair) | (with_reducible apply Kept.foldlPair2)
      | (refine Kept.of_pair (p := access _ _ _ _ _ _) (by with_reducible assumption) ?_)
      | (refine Kept.of_pair (by with_reducible assumption) ?_) | (intro _) | split | (dsimp only))

theorem takeGrads_kept {r0 : State} (c : CtxId) (m : Image) (i : Nat) (keep : Bool) :
    ∀ (y0 : Nat) (y1 : State), Kept r0 y1 → Kept r0 (takeGrads c m i keep y0 y1) := by
  intro y0
  induction y0 with
  | zero =>
    intro y1 k0
    unfold takeGrads
    repeat' (first
        | (with_reducible assumption) | (with_reducible simp only [Kept.upd_iff])
        | (with_reducible apply takeTile_kept) | (with_reducible apply State.modCtx_kept)
        | (with_reducible apply Kept.foldl) | (with_reducible apply Kept.foldlPair)
        | (with_reducible apply Kept.foldlPair2)
        | (refine Kept.of_pair (p := takeTile _ _ _ _ _) (by with_reducible assumption) ?_)
        | (refine Kept.of_pair (by with_reducible assumption) ?_) | (intro _) | split | (dsimp only))
  | succ n ih =>
    intro y1 k0
    unfold takeGrads
    repeat' (first
        | (with_reducible assumption) | (with_reducible simp only [Kept.upd_iff]) | (with_reducible apply ih)
        | (with_reducible apply takeTile_kept) | (with_reducible apply State.modCtx_kept)
        | (with_reducible apply Kept.foldl) | (with_reducible apply Kept.foldlPair)
        | (with_reducible apply Kept.foldlPair2)
        | (refine Kept.of_pair (p := takeTile _ _ _ _ _) (by with_reducible assumption) ?_)
        | (refine Kept.of_pair (by with_reducible assumption) ?_) | (intro _) | split | (dsimp only))

theorem checkStats_kept {r0 : State} (c : CtxId) (m : Image) (q : UpdInfo) (s : State)
    (k0 : Kept r0 s) : Kept r0 (checkStats c m q s) := by
  unfold checkStats
  repeat' (first
      | (with_reducible assumption) | (with_reducible simp only [Kept.upd_iff])
      | (with_reducible apply checkResidue_kept) | (with_reducible apply Kept.foldl)
      | (with_reducible apply Kept.foldlPair) | (with_reducible apply Kept.foldlPair2)
      | (refine Kept.of_pair (by with_reducible assumption) ?_) | (intro _) | split | (dsimp only))

theorem writeBlock_kept {r0 : State} (c : CtxId) (m : Image) (q : UpdInfo) (b : BlockIn) (reads : List Span) (stats : FactStats) (s : State)
    (k0 : Kept r0 s) : Kept r0 (writeBlock c m q b reads stats s) := by
  unfold writeBlock
  repeat' (first
      | (with_reducible assumption) | (with_reducible simp only [Kept.upd_iff]) | (with_reducible apply access_kept)
      | (with_reducible apply chargeRead_kept) | (with_reducible apply writeRuns_kept)
      | (with_reducible apply State.modCtx_kept) | (with_reducible apply checkResidue_kept)
      | (with_reducible apply Kept.foldl) | (with_reducible apply Kept.foldlPair)
      | (with_reducible apply Kept.foldlPair2)
      | (refine Kept.of_pair (p := access _ _ _ _ _ _) (by with_reducible assumption) ?_)
      | (refine Kept.of_pair (by with_reducible assumption) ?_) | (intro _) | split | (dsimp only))

theorem finishUpdate_kept {r0 : State} (c : CtxId) (m : Image) (q : UpdInfo) (frozen : List Byte) (shape : List ShapeTile) (s : State)
    (k0 : Kept r0 s) : Kept r0 (finishUpdate c m q frozen shape s) := by
  unfold finishUpdate
  repeat' (first
      | (with_reducible assumption) | (with_reducible simp only [Kept.upd_iff])
      | (with_reducible apply State.modCtx_kept) | (with_reducible apply access_kept)
      | (with_reducible apply checkStats_kept) | (with_reducible apply writeRuns_kept)
      | (with_reducible apply chargeRead_kept) | (with_reducible apply Kept.foldl)
      | (with_reducible apply Kept.foldlPair) | (with_reducible apply Kept.foldlPair2)
      | (refine Kept.of_pair (p := access _ _ _ _ _ _) (by with_reducible assumption) ?_)
      | (refine Kept.of_pair (by with_reducible assumption) ?_) | (intro _) | split | (dsimp only))

theorem updateOne_kept {r0 : State} (c : CtxId) (m : Image) (q : UpdInfo) (frozen : List Byte) (shape : List ShapeTile) (b : Nat) (s : State)
    (k0 : Kept r0 s) : Kept r0 (updateOne c m q frozen shape b s) := by
  unfold updateOne
  repeat' (first
      | (with_reducible assumption) | (with_reducible simp only [Kept.upd_iff])
      | (with_reducible apply State.modCtx_kept) | (with_reducible apply access_kept)
      | (with_reducible apply checkStats_kept) | (with_reducible apply writeBlock_kept)
      | (with_reducible apply Kept.foldl) | (with_reducible apply Kept.foldlPair)
      | (with_reducible apply Kept.foldlPair2)
      | (refine Kept.of_pair (p := access _ _ _ _ _ _) (by with_reducible assumption) ?_)
      | (refine Kept.of_pair (by with_reducible assumption) ?_) | (intro _) | split | (dsimp only))

theorem doUpdateBlock_kept {r0 : State} (c : CtxId) (i b : Nat) (s : State)
    (k0 : Kept r0 s) : Kept r0 (doUpdateBlock c i b s) := by
  unfold doUpdateBlock
  repeat' (first
      | (with_reducible assumption) | (with_reducible simp only [Kept.upd_iff])
      | (with_reducible apply withStation_kept) | (with_reducible apply takeGrads_kept)
      | (with_reducible apply access_kept) | (with_reducible apply State.modCtx_kept)
      | (with_reducible apply chargeRead_kept) | (with_reducible apply finishUpdate_kept)
      | (with_reducible apply updateOne_kept) | (with_reducible apply Kept.foldl)
      | (with_reducible apply Kept.foldlPair) | (with_reducible apply Kept.foldlPair2)
      | (refine Kept.of_pair (p := access _ _ _ _ _ _) (by with_reducible assumption) ?_)
      | (refine Kept.of_pair (by with_reducible assumption) ?_) | (intro _) | split | (dsimp only))

theorem execUpdateBlock_kept (c : CtxId) (st b : Nat) (s : State) :
    KeptOut s (execUpdateBlock c st b s) := by
  have k0 := Kept.refl s
  unfold execUpdateBlock
  repeat' (first
      | (with_reducible assumption) | (with_reducible simp only [Kept.upd_iff]) | (with_reducible apply KeptOut.next)
      | (with_reducible apply KeptOut.refused) | (with_reducible apply doUpdateBlock_kept)
      | (with_reducible apply Kept.foldl) | (with_reducible apply Kept.foldlPair)
      | (with_reducible apply Kept.foldlPair2) | (refine Kept.of_pair (by with_reducible assumption) ?_) | (intro _)
      | split | (dsimp only))

theorem clearRest_kept {r0 : State} (c : CtxId) (i : Nat) :
    ∀ (y0 : List UpdInfo) (y1 : State), Kept r0 y1 → Kept r0 (clearRest c i y0 y1) := by
  intro y0
  induction y0 with
  | nil =>
    intro y1 k0
    unfold clearRest
    repeat' (first
        | (with_reducible assumption) | (with_reducible simp only [Kept.upd_iff])
        | (with_reducible apply clearDiverge_kept) | (with_reducible apply State.modCtx_kept)
        | (with_reducible apply Kept.foldl) | (with_reducible apply Kept.foldlPair)
        | (with_reducible apply Kept.foldlPair2)
        | (refine Kept.of_pair (p := clearDiverge _ _ _ _) (by with_reducible assumption) ?_)
        | (refine Kept.of_pair (by with_reducible assumption) ?_) | (intro _) | split | (dsimp only))
  | cons z zs ih =>
    intro y1 k0
    unfold clearRest
    repeat' (first
        | (with_reducible assumption) | (with_reducible simp only [Kept.upd_iff]) | (with_reducible apply ih)
        | (with_reducible apply clearDiverge_kept) | (with_reducible apply State.modCtx_kept)
        | (with_reducible apply Kept.foldl) | (with_reducible apply Kept.foldlPair)
        | (with_reducible apply Kept.foldlPair2)
        | (refine Kept.of_pair (p := clearDiverge _ _ _ _) (by with_reducible assumption) ?_)
        | (refine Kept.of_pair (by with_reducible assumption) ?_) | (intro _) | split | (dsimp only))

theorem doFetchTile_kept {r0 : State} (c : CtxId) (i : Nat) (s : State)
    (k0 : Kept r0 s) : Kept r0 (doFetchTile c i s) := by
  unfold doFetchTile
  repeat' (first
      | (with_reducible assumption) | (with_reducible simp only [Kept.upd_iff])
      | (with_reducible apply withStation_kept) | (with_reducible apply clearRest_kept)
      | (with_reducible apply fetchNext_kept) | (with_reducible apply Kept.foldl)
      | (with_reducible apply Kept.foldlPair) | (with_reducible apply Kept.foldlPair2)
      | (refine Kept.of_pair (by with_reducible assumption) ?_) | (intro _) | split | (dsimp only))

theorem execFetchTile_kept (c : CtxId) (st : Nat) (s : State) :
    KeptOut s (execFetchTile c st s) := by
  have k0 := Kept.refl s
  unfold execFetchTile
  repeat' (first
      | (with_reducible assumption) | (with_reducible simp only [Kept.upd_iff]) | (with_reducible apply KeptOut.next)
      | (with_reducible apply KeptOut.refused) | (with_reducible apply doFetchTile_kept)
      | (with_reducible apply Kept.foldl) | (with_reducible apply Kept.foldlPair)
      | (with_reducible apply Kept.foldlPair2) | (refine Kept.of_pair (by with_reducible assumption) ?_) | (intro _)
      | split | (dsimp only))

theorem copyUnits_kept {r0 : State} (c : CtxId) (m : Image) (q : UpdInfo) (s : State)
    (k0 : Kept r0 s) : Kept r0 (copyUnits c m q s).2 := by
  unfold copyUnits
  repeat' (first
      | (with_reducible assumption) | (with_reducible simp only [Kept.upd_iff]) | (with_reducible apply access_kept)
      | (with_reducible apply chargeRead_kept) | (with_reducible apply writeRuns_kept)
      | (with_reducible apply Kept.foldl) | (with_reducible apply Kept.foldlPair)
      | (with_reducible apply Kept.foldlPair2)
      | (refine Kept.of_pair (p := access _ _ _ _ _ _) (by with_reducible assumption) ?_)
      | (refine Kept.of_pair (by with_reducible assumption) ?_) | (intro _) | split | (dsimp only))

theorem copyAll_kept {r0 : State} (c : CtxId) (m : Image) :
    ∀ (y0 : List UpdInfo) (y1 : State), Kept r0 y1 → Kept r0 (copyAll c m y0 y1).2 := by
  intro y0
  induction y0 with
  | nil =>
    intro y1 k0
    unfold copyAll
    repeat' (first
        | (with_reducible assumption) | (with_reducible simp only [Kept.upd_iff])
        | (with_reducible apply copyUnits_kept) | (with_reducible apply Kept.foldl)
        | (with_reducible apply Kept.foldlPair) | (with_reducible apply Kept.foldlPair2)
        | (refine Kept.of_pair (p := copyUnits _ _ _ _) (by with_reducible assumption) ?_)
        | (refine Kept.of_pair (by with_reducible assumption) ?_) | (intro _) | split | (dsimp only))
  | cons z zs ih =>
    intro y1 k0
    unfold copyAll
    repeat' (first
        | (with_reducible assumption) | (with_reducible simp only [Kept.upd_iff]) | (with_reducible apply ih)
        | (with_reducible apply copyUnits_kept) | (with_reducible apply Kept.foldl)
        | (with_reducible apply Kept.foldlPair) | (with_reducible apply Kept.foldlPair2)
        | (refine Kept.of_pair (p := copyUnits _ _ _ _) (by with_reducible assumption) ?_)
        | (refine Kept.of_pair (p := copyAll _ _ _ _) (by with_reducible assumption) ?_)
        | (refine Kept.of_pair (by with_reducible assumption) ?_) | (intro _) | split | (dsimp only))

end Sys2Proof.Machine
end

