-- ==== Sys2Proof/Laws/KeptWitness.lean ====
section
/-! SUPPORT. What the operations of Witness keep. -/

namespace Sys2Proof.Machine

open Sys2Proof

set_option linter.unusedSimpArgs false

theorem recordFold_kept {r0 : State} (c : CtxId) (m : Image) (q : UpdInfo) (s : State)
    (k0 : Kept r0 s) : Kept r0 (recordFold c m q s).2 := by
  unfold recordFold
  repeat' (first
      | (with_reducible assumption) | (with_reducible simp only [Kept.upd_iff]) | (with_reducible apply access_kept)
      | (with_reducible apply chargeRead_kept) | (with_reducible apply Kept.foldl)
      | (with_reducible apply Kept.foldlPair) | (with_reducible apply Kept.foldlPair2)
      | (refine Kept.of_pair (p := access _ _ _ _ _ _) (by with_reducible assumption) ?_)
      | (refine Kept.of_pair (by with_reducible assumption) ?_) | (intro _) | split | (dsimp only))

theorem layerFolds_kept {r0 : State} (c : CtxId) (m : Image) :
    ∀ (y0 : List UpdInfo) (y1 : List U64) (y2 : State), Kept r0 y2 → Kept r0 (layerFolds c m y0 y1 y2).2 := by
  intro y0
  induction y0 with
  | nil =>
    intro y1 y2 k0
    unfold layerFolds
    repeat' (first
        | (with_reducible assumption) | (with_reducible simp only [Kept.upd_iff])
        | (with_reducible apply recordFold_kept) | (with_reducible apply Kept.foldl)
        | (with_reducible apply Kept.foldlPair) | (with_reducible apply Kept.foldlPair2)
        | (refine Kept.of_pair (p := recordFold _ _ _ _) (by with_reducible assumption) ?_)
        | (refine Kept.of_pair (by with_reducible assumption) ?_) | (intro _) | split | (dsimp only))
  | cons z zs ih =>
    intro y1 y2 k0
    unfold layerFolds
    repeat' (first
        | (with_reducible assumption) | (with_reducible simp only [Kept.upd_iff]) | (with_reducible apply ih)
        | (with_reducible apply recordFold_kept) | (with_reducible apply Kept.foldl)
        | (with_reducible apply Kept.foldlPair) | (with_reducible apply Kept.foldlPair2)
        | (refine Kept.of_pair (p := recordFold _ _ _ _) (by with_reducible assumption) ?_)
        | (refine Kept.of_pair (p := layerFolds _ _ _ _ _) (by with_reducible assumption) ?_)
        | (refine Kept.of_pair (by with_reducible assumption) ?_) | (intro _) | split | (dsimp only))

theorem localFold_kept {r0 : State} (c : CtxId) (m : Image) (s : State)
    (k0 : Kept r0 s) : Kept r0 (localFold c m s).2 := by
  unfold localFold
  repeat' (first
      | (with_reducible assumption) | (with_reducible simp only [Kept.upd_iff]) | (with_reducible apply access_kept)
      | (with_reducible apply chargeRead_kept) | (with_reducible apply Kept.foldl)
      | (with_reducible apply Kept.foldlPair) | (with_reducible apply Kept.foldlPair2)
      | (refine Kept.of_pair (p := access _ _ _ _ _ _) (by with_reducible assumption) ?_)
      | (refine Kept.of_pair (by with_reducible assumption) ?_) | (intro _) | split | (dsimp only))

theorem maskDigests_kept {r0 : State} (c : CtxId) (m : Image) :
    ∀ (y0 : List Nat) (y1 : List U64) (y2 : State), Kept r0 y2 → Kept r0 (maskDigests c m y0 y1 y2).2 := by
  intro y0
  induction y0 with
  | nil =>
    intro y1 y2 k0
    unfold maskDigests
    repeat' (first
        | (with_reducible assumption) | (with_reducible simp only [Kept.upd_iff])
        | (with_reducible apply fetchVa_kept) | (with_reducible apply Kept.foldl)
        | (with_reducible apply Kept.foldlPair) | (with_reducible apply Kept.foldlPair2)
        | (refine Kept.of_pair (p := fetchVa _ _ _ _ _) (by with_reducible assumption) ?_)
        | (refine Kept.of_pair (by with_reducible assumption) ?_) | (intro _) | split | (dsimp only))
  | cons z zs ih =>
    intro y1 y2 k0
    unfold maskDigests
    repeat' (first
        | (with_reducible assumption) | (with_reducible simp only [Kept.upd_iff]) | (with_reducible apply ih)
        | (with_reducible apply fetchVa_kept) | (with_reducible apply Kept.foldl)
        | (with_reducible apply Kept.foldlPair) | (with_reducible apply Kept.foldlPair2)
        | (refine Kept.of_pair (p := fetchVa _ _ _ _ _) (by with_reducible assumption) ?_)
        | (refine Kept.of_pair (p := maskDigests _ _ _ _ _) (by with_reducible assumption) ?_)
        | (refine Kept.of_pair (by with_reducible assumption) ?_) | (intro _) | split | (dsimp only))

theorem writeRecord_kept {r0 : State} (c : CtxId) (m : Image) (s : State)
    (k0 : Kept r0 s) : Kept r0 (writeRecord c m s).2 := by
  unfold writeRecord
  repeat' (first
      | (with_reducible assumption) | (with_reducible simp only [Kept.upd_iff])
      | (with_reducible apply layerFolds_kept) | (with_reducible apply localFold_kept)
      | (with_reducible apply maskDigests_kept) | (with_reducible apply putMany_kept)
      | (with_reducible apply State.modCtx_kept) | (with_reducible apply Kept.foldl)
      | (with_reducible apply Kept.foldlPair) | (with_reducible apply Kept.foldlPair2)
      | (refine Kept.of_pair (p := layerFolds _ _ _ _ _) (by with_reducible assumption) ?_)
      | (refine Kept.of_pair (p := localFold _ _ _) (by with_reducible assumption) ?_)
      | (refine Kept.of_pair (p := maskDigests _ _ _ _ _) (by with_reducible assumption) ?_)
      | (refine Kept.of_pair (p := putMany _ _ _ _ _) (by with_reducible assumption) ?_)
      | (refine Kept.of_pair (by with_reducible assumption) ?_) | (intro _) | split | (dsimp only))

theorem sealRecord_kept {r0 : State} (c : CtxId) (m : Image) (unsealed : Bool) (s : State)
    (k0 : Kept r0 s) : Kept r0 (sealRecord c m unsealed s).2 := by
  unfold sealRecord
  repeat' (first
      | (with_reducible assumption) | (with_reducible simp only [Kept.upd_iff]) | (with_reducible apply putMany_kept)
      | (with_reducible apply State.modCtx_kept) | (with_reducible apply Kept.foldl)
      | (with_reducible apply Kept.foldlPair) | (with_reducible apply Kept.foldlPair2)
      | (refine Kept.of_pair (p := putMany _ _ _ _ _) (by with_reducible assumption) ?_)
      | (refine Kept.of_pair (by with_reducible assumption) ?_) | (intro _) | split | (dsimp only))

end Sys2Proof.Machine
end

