-- ==== Sys2Proof/Laws/KeptStepFlow.lean ====
section
/-! SUPPORT. What the operations of StepFlow keep. -/

namespace Sys2Proof.Machine

open Sys2Proof

set_option linter.unusedSimpArgs false

theorem runChore_kept {r0 : State} (c : CtxId) (m : Image) (k : Chore) (s : State)
    (k0 : Kept r0 s) : Kept r0 (runChore c m k s).2 := by
  unfold runChore
  repeat' (first
      | (with_reducible assumption) | (with_reducible simp only [Kept.upd_iff]) | (with_reducible apply putMany_kept)
      | (with_reducible apply markDiverge_kept) | (with_reducible apply deriveCopy_kept)
      | (with_reducible apply Kept.foldl) | (with_reducible apply Kept.foldlPair)
      | (with_reducible apply Kept.foldlPair2)
      | (refine Kept.of_pair (p := putMany _ _ _ _ _) (by with_reducible assumption) ?_)
      | (refine Kept.of_pair (p := markDiverge _ _ _) (by with_reducible assumption) ?_)
      | (refine Kept.of_pair (p := deriveCopy _ _ _ _ _ _) (by with_reducible assumption) ?_)
      | (refine Kept.of_pair (by with_reducible assumption) ?_) | (intro _) | split | (dsimp only))

theorem runChores_kept {r0 : State} (c : CtxId) (m : Image) :
    ∀ (y0 : List Chore) (y1 : State), Kept r0 y1 → Kept r0 (runChores c m y0 y1) := by
  intro y0
  induction y0 with
  | nil =>
    intro y1 k0
    unfold runChores
    repeat' (first
        | (with_reducible assumption) | (with_reducible simp only [Kept.upd_iff])
        | (with_reducible apply runChore_kept) | (with_reducible apply State.modCtx_kept)
        | (with_reducible apply Kept.foldl) | (with_reducible apply Kept.foldlPair)
        | (with_reducible apply Kept.foldlPair2)
        | (refine Kept.of_pair (p := runChore _ _ _ _) (by with_reducible assumption) ?_)
        | (refine Kept.of_pair (by with_reducible assumption) ?_) | (intro _) | split | (dsimp only))
  | cons z zs ih =>
    intro y1 k0
    unfold runChores
    repeat' (first
        | (with_reducible assumption) | (with_reducible simp only [Kept.upd_iff]) | (with_reducible apply ih)
        | (with_reducible apply runChore_kept) | (with_reducible apply State.modCtx_kept)
        | (with_reducible apply Kept.foldl) | (with_reducible apply Kept.foldlPair)
        | (with_reducible apply Kept.foldlPair2)
        | (refine Kept.of_pair (p := runChore _ _ _ _) (by with_reducible assumption) ?_)
        | (refine Kept.of_pair (by with_reducible assumption) ?_) | (intro _) | split | (dsimp only))

theorem doChores_kept {r0 : State} (c : CtxId) (s : State)
    (k0 : Kept r0 s) : Kept r0 (doChores c s) := by
  unfold doChores
  repeat' (first
      | (with_reducible assumption) | (with_reducible simp only [Kept.upd_iff])
      | (with_reducible apply runChores_kept) | (with_reducible apply State.modCtx_kept)
      | (with_reducible apply Kept.foldl) | (with_reducible apply Kept.foldlPair)
      | (with_reducible apply Kept.foldlPair2) | (refine Kept.of_pair (by with_reducible assumption) ?_) | (intro _)
      | split | (dsimp only))

theorem beginStep_kept {r0 : State} (c : CtxId) (m : Image) (s : State)
    (k0 : Kept r0 s) : Kept r0 (beginStep c m s) := by
  unfold beginStep
  repeat' (first
      | (with_reducible assumption) | (with_reducible simp only [Kept.upd_iff])
      | (with_reducible apply State.modCtx_kept) | (with_reducible apply State.each_kept)
      | (with_reducible apply resettle_kept) | (with_reducible apply Kept.foldl)
      | (with_reducible apply Kept.foldlPair) | (with_reducible apply Kept.foldlPair2)
      | (refine Kept.of_pair (by with_reducible assumption) ?_) | (intro _) | split | (dsimp only))

theorem collTable_kept {r0 : State} (c : CtxId) :
    ∀ (y0 : List Nat) (y1 : List Tlb) (y2 : State), Kept r0 y2 → Kept r0 (collTable c y0 y1 y2).2 := by
  intro y0
  induction y0 with
  | nil =>
    intro y1 y2 k0
    unfold collTable
    repeat' (first
        | (with_reducible assumption) | (with_reducible simp only [Kept.upd_iff])
        | (with_reducible apply lookupPage_kept) | (with_reducible apply Kept.foldl)
        | (with_reducible apply Kept.foldlPair) | (with_reducible apply Kept.foldlPair2)
        | (refine Kept.of_pair (p := lookupPage _ _ _) (by with_reducible assumption) ?_)
        | (refine Kept.of_pair (by with_reducible assumption) ?_) | (intro _) | split | (dsimp only))
  | cons z zs ih =>
    intro y1 y2 k0
    unfold collTable
    repeat' (first
        | (with_reducible assumption) | (with_reducible simp only [Kept.upd_iff]) | (with_reducible apply ih)
        | (with_reducible apply lookupPage_kept) | (with_reducible apply Kept.foldl)
        | (with_reducible apply Kept.foldlPair) | (with_reducible apply Kept.foldlPair2)
        | (refine Kept.of_pair (p := lookupPage _ _ _) (by with_reducible assumption) ?_)
        | (refine Kept.of_pair (p := collTable _ _ _ _) (by with_reducible assumption) ?_)
        | (refine Kept.of_pair (by with_reducible assumption) ?_) | (intro _) | split | (dsimp only))

theorem startRun_kept {r0 : State} (c : CtxId) (m : Image) (steps : BitVec 24) (s : State)
    (k0 : Kept r0 s) : Kept r0 (startRun c m steps s) := by
  unfold startRun
  repeat' (first
      | (with_reducible assumption) | (with_reducible simp only [Kept.upd_iff])
      | (with_reducible apply collTable_kept) | (with_reducible apply violate_kept)
      | (with_reducible apply State.modCtx_kept) | (with_reducible apply access_kept)
      | (with_reducible apply chargeRead_kept) | (with_reducible apply beginStep_kept)
      | (with_reducible apply Kept.foldl) | (with_reducible apply Kept.foldlPair)
      | (with_reducible apply Kept.foldlPair2)
      | (refine Kept.of_pair (p := collTable _ _ _ _) (by with_reducible assumption) ?_)
      | (refine Kept.of_pair (p := access _ _ _ _ _ _) (by with_reducible assumption) ?_)
      | (refine Kept.of_pair (by with_reducible assumption) ?_) | (intro _) | split | (dsimp only))

theorem armReplay_kept {r0 : State} (c : CtxId) (s : State)
    (k0 : Kept r0 s) : Kept r0 (armReplay c s) := by
  unfold armReplay
  repeat' (first
      | (with_reducible assumption) | (with_reducible simp only [Kept.upd_iff]) | (with_reducible apply fetchVa_kept)
      | (with_reducible apply State.modCtx_kept) | (with_reducible apply Kept.foldl)
      | (with_reducible apply Kept.foldlPair) | (with_reducible apply Kept.foldlPair2)
      | (refine Kept.of_pair (p := fetchVa _ _ _ _ _) (by with_reducible assumption) ?_)
      | (refine Kept.of_pair (by with_reducible assumption) ?_) | (intro _) | split | (dsimp only))

theorem doWitReplay_kept {r0 : State} (c : CtxId) (v : U64) (s : State)
    (k0 : Kept r0 s) : Kept r0 (doWitReplay c v s) := by
  unfold doWitReplay
  repeat' (first
      | (with_reducible assumption) | (with_reducible simp only [Kept.upd_iff]) | (with_reducible apply violate_kept)
      | (with_reducible apply State.setCtx_kept) | (with_reducible apply armReplay_kept)
      | (with_reducible apply Kept.foldl) | (with_reducible apply Kept.foldlPair)
      | (with_reducible apply Kept.foldlPair2) | (refine Kept.of_pair (by with_reducible assumption) ?_) | (intro _)
      | split | (dsimp only))

theorem execWitReplay_kept (fn : FnId) (c : CtxId) (value : U64) (s : State) :
    KeptOut s (execWitReplay fn c value s) := by
  have k0 := Kept.refl s
  unfold execWitReplay
  repeat' (first
      | (with_reducible assumption) | (with_reducible simp only [Kept.upd_iff]) | (with_reducible apply KeptOut.next)
      | (with_reducible apply KeptOut.refused) | (with_reducible apply ctxPort_kept)
      | (with_reducible apply doWitReplay_kept) | (with_reducible apply Kept.foldl)
      | (with_reducible apply Kept.foldlPair) | (with_reducible apply Kept.foldlPair2)
      | (refine Kept.of_pair (by with_reducible assumption) ?_) | (intro _) | split | (dsimp only))

theorem finishBoundary_kept {r0 : State} (c : CtxId) (m : Image) (s : State)
    (k0 : Kept r0 s) : Kept r0 (finishBoundary c m s) := by
  unfold finishBoundary
  repeat' (first
      | (with_reducible assumption) | (with_reducible simp only [Kept.upd_iff])
      | (with_reducible apply State.modCtx_kept) | (with_reducible apply beginStep_kept)
      | (with_reducible apply Kept.foldl) | (with_reducible apply Kept.foldlPair)
      | (with_reducible apply Kept.foldlPair2) | (refine Kept.of_pair (by with_reducible assumption) ?_) | (intro _)
      | split | (dsimp only))

theorem kickOn_kept {r0 : State} (c : CtxId) (s : State)
    (k0 : Kept r0 s) : Kept r0 (kickOn c s) := by
  unfold kickOn
  repeat' (first
      | (with_reducible assumption) | (with_reducible simp only [Kept.upd_iff])
      | (with_reducible apply finishBoundary_kept) | (with_reducible apply armReplay_kept)
      | (with_reducible apply startRun_kept) | (with_reducible apply Kept.foldl)
      | (with_reducible apply Kept.foldlPair) | (with_reducible apply Kept.foldlPair2)
      | (refine Kept.of_pair (by with_reducible assumption) ?_) | (intro _) | split | (dsimp only))

theorem kick_kept {r0 : State} (c : CtxId) (s : State)
    (k0 : Kept r0 s) : Kept r0 (kick c s) := by
  unfold kick
  repeat' (first
      | (with_reducible assumption) | (with_reducible simp only [Kept.upd_iff]) | (with_reducible apply kickOn_kept)
      | (with_reducible apply doChores_kept) | (with_reducible apply Kept.foldl)
      | (with_reducible apply Kept.foldlPair) | (with_reducible apply Kept.foldlPair2)
      | (refine Kept.of_pair (by with_reducible assumption) ?_) | (intro _) | split | (dsimp only))

theorem doRunSteps_kept {r0 : State} (c : CtxId) (steps : BitVec 24) (stop : Bool) (s : State)
    (k0 : Kept r0 s) : Kept r0 (doRunSteps c steps stop s) := by
  unfold doRunSteps
  repeat' (first
      | (with_reducible assumption) | (with_reducible simp only [Kept.upd_iff]) | (with_reducible apply violate_kept)
      | (with_reducible apply State.setCtx_kept) | (with_reducible apply State.modCtx_kept)
      | (with_reducible apply kick_kept) | (with_reducible apply Kept.foldl) | (with_reducible apply Kept.foldlPair)
      | (with_reducible apply Kept.foldlPair2) | (refine Kept.of_pair (by with_reducible assumption) ?_) | (intro _)
      | split | (dsimp only))

theorem execRunSteps_kept (fn : FnId) (c : CtxId) (steps : BitVec 24) (stop : Bool) (s : State) :
    KeptOut s (execRunSteps fn c steps stop s) := by
  have k0 := Kept.refl s
  unfold execRunSteps
  repeat' (first
      | (with_reducible assumption) | (with_reducible simp only [Kept.upd_iff]) | (with_reducible apply KeptOut.next)
      | (with_reducible apply KeptOut.refused) | (with_reducible apply ctxPort_kept)
      | (with_reducible apply doRunSteps_kept) | (with_reducible apply Kept.foldl)
      | (with_reducible apply Kept.foldlPair) | (with_reducible apply Kept.foldlPair2)
      | (refine Kept.of_pair (by with_reducible assumption) ?_) | (intro _) | split | (dsimp only))

theorem execRunStop_kept (fn : FnId) (c : CtxId) (s : State) :
    KeptOut s (execRunStop fn c s) := by
  have k0 := Kept.refl s
  unfold execRunStop
  repeat' (first
      | (with_reducible assumption) | (with_reducible simp only [Kept.upd_iff]) | (with_reducible apply KeptOut.next)
      | (with_reducible apply KeptOut.refused) | (with_reducible apply ctxPort_kept)
      | (with_reducible apply State.modCtx_kept) | (with_reducible apply Kept.foldl)
      | (with_reducible apply Kept.foldlPair) | (with_reducible apply Kept.foldlPair2)
      | (refine Kept.of_pair (by with_reducible assumption) ?_) | (intro _) | split | (dsimp only))

theorem doCtxStepWrite_kept {r0 : State} (c : CtxId) (sel : WordSel) (v : U64) (s : State)
    (k0 : Kept r0 s) : Kept r0 (doCtxStepWrite c sel v s) := by
  unfold doCtxStepWrite
  repeat' (first
      | (with_reducible assumption) | (with_reducible simp only [Kept.upd_iff]) | (with_reducible apply violate_kept)
      | (with_reducible apply kick_kept) | (with_reducible apply State.setCtx_kept)
      | (with_reducible apply Kept.foldl) | (with_reducible apply Kept.foldlPair)
      | (with_reducible apply Kept.foldlPair2) | (refine Kept.of_pair (by with_reducible assumption) ?_) | (intro _)
      | split | (dsimp only))

theorem execCtxStepWrite_kept (fn : FnId) (c : CtxId) (sel : WordSel) (value : U64) (s : State) :
    KeptOut s (execCtxStepWrite fn c sel value s) := by
  have k0 := Kept.refl s
  unfold execCtxStepWrite
  repeat' (first
      | (with_reducible assumption) | (with_reducible simp only [Kept.upd_iff]) | (with_reducible apply KeptOut.next)
      | (with_reducible apply KeptOut.refused) | (with_reducible apply ctxPort_kept)
      | (with_reducible apply doCtxStepWrite_kept) | (with_reducible apply Kept.foldl)
      | (with_reducible apply Kept.foldlPair) | (with_reducible apply Kept.foldlPair2)
      | (refine Kept.of_pair (by with_reducible assumption) ?_) | (intro _) | split | (dsimp only))

theorem doLoad_kept {r0 : State} (c : CtxId) (s : State)
    (k0 : Kept r0 s) : Kept r0 (doLoad c s) := by
  unfold doLoad
  repeat' (first
      | (with_reducible assumption) | (with_reducible simp only [Kept.upd_iff])
      | (with_reducible apply State.modCtx_kept) | (with_reducible apply Kept.foldl)
      | (with_reducible apply Kept.foldlPair) | (with_reducible apply Kept.foldlPair2)
      | (refine Kept.of_pair (by with_reducible assumption) ?_) | (intro _) | split | (dsimp only))

theorem execLoad_kept (fn : FnId) (c : CtxId) (s : State) :
    KeptOut s (execLoad fn c s) := by
  have k0 := Kept.refl s
  unfold execLoad
  repeat' (first
      | (with_reducible assumption) | (with_reducible simp only [Kept.upd_iff]) | (with_reducible apply KeptOut.next)
      | (with_reducible apply KeptOut.refused) | (with_reducible apply ctxPort_kept)
      | (with_reducible apply doLoad_kept) | (with_reducible apply Kept.foldl) | (with_reducible apply Kept.foldlPair)
      | (with_reducible apply Kept.foldlPair2) | (refine Kept.of_pair (by with_reducible assumption) ?_) | (intro _)
      | split | (dsimp only))

theorem doCarcassDiscard_kept {r0 : State} (c : CtxId) (s : State)
    (k0 : Kept r0 s) : Kept r0 (doCarcassDiscard c s) := by
  unfold doCarcassDiscard
  repeat' (first
      | (with_reducible assumption) | (with_reducible simp only [Kept.upd_iff])
      | (with_reducible apply State.modCtx_kept) | (with_reducible apply Kept.foldl)
      | (with_reducible apply Kept.foldlPair) | (with_reducible apply Kept.foldlPair2)
      | (refine Kept.of_pair (by with_reducible assumption) ?_) | (intro _) | split | (dsimp only))

theorem execCarcassDiscard_kept (fn : FnId) (c : CtxId) (s : State) :
    KeptOut s (execCarcassDiscard fn c s) := by
  have k0 := Kept.refl s
  unfold execCarcassDiscard
  repeat' (first
      | (with_reducible assumption) | (with_reducible simp only [Kept.upd_iff]) | (with_reducible apply KeptOut.next)
      | (with_reducible apply KeptOut.refused) | (with_reducible apply ctxPort_kept)
      | (with_reducible apply doCarcassDiscard_kept) | (with_reducible apply Kept.foldl)
      | (with_reducible apply Kept.foldlPair) | (with_reducible apply Kept.foldlPair2)
      | (refine Kept.of_pair (by with_reducible assumption) ?_) | (intro _) | split | (dsimp only))

theorem readImage_kept {r0 : State} (c : CtxId) (va : Nat) (s : State)
    (k0 : Kept r0 s) : Kept r0 (readImage c va s).2 := by
  unfold readImage
  repeat' (first
      | (with_reducible assumption) | (with_reducible simp only [Kept.upd_iff]) | (with_reducible apply fetchVa_kept)
      | (with_reducible apply Kept.foldl) | (with_reducible apply Kept.foldlPair)
      | (with_reducible apply Kept.foldlPair2)
      | (refine Kept.of_pair (p := fetchVa _ _ _ _ _) (by with_reducible assumption) ?_)
      | (refine Kept.of_pair (by with_reducible assumption) ?_) | (intro _) | split | (dsimp only))

theorem doLoadDone_kept {r0 : State} (c : CtxId) (s : State)
    (k0 : Kept r0 s) : Kept r0 (doLoadDone c s) := by
  unfold doLoadDone
  repeat' (first
      | (with_reducible assumption) | (with_reducible simp only [Kept.upd_iff])
      | (with_reducible apply State.modCtx_kept) | (with_reducible apply readImage_kept)
      | (with_reducible apply Kept.foldl) | (with_reducible apply Kept.foldlPair)
      | (with_reducible apply Kept.foldlPair2)
      | (refine Kept.of_pair (p := readImage _ _ _) (by with_reducible assumption) ?_)
      | (refine Kept.of_pair (by with_reducible assumption) ?_) | (intro _) | split | (dsimp only))

theorem execLoadDone_kept (c : CtxId) (s : State) :
    KeptOut s (execLoadDone c s) := by
  have k0 := Kept.refl s
  unfold execLoadDone
  repeat' (first
      | (with_reducible assumption) | (with_reducible simp only [Kept.upd_iff]) | (with_reducible apply KeptOut.next)
      | (with_reducible apply KeptOut.refused) | (with_reducible apply doLoadDone_kept)
      | (with_reducible apply Kept.foldl) | (with_reducible apply Kept.foldlPair)
      | (with_reducible apply Kept.foldlPair2) | (refine Kept.of_pair (by with_reducible assumption) ?_) | (intro _)
      | split | (dsimp only))

theorem doActivate_kept {r0 : State} (c : CtxId) (s : State)
    (k0 : Kept r0 s) : Kept r0 (doActivate c s) := by
  unfold doActivate
  repeat' (first
      | (with_reducible assumption) | (with_reducible simp only [Kept.upd_iff]) | (with_reducible apply kick_kept)
      | (with_reducible apply State.setCtx_kept) | (with_reducible apply violate_kept)
      | (with_reducible apply Kept.foldl) | (with_reducible apply Kept.foldlPair)
      | (with_reducible apply Kept.foldlPair2) | (refine Kept.of_pair (by with_reducible assumption) ?_) | (intro _)
      | split | (dsimp only))

theorem execActivate_kept (fn : FnId) (c : CtxId) (s : State) :
    KeptOut s (execActivate fn c s) := by
  have k0 := Kept.refl s
  unfold execActivate
  repeat' (first
      | (with_reducible assumption) | (with_reducible simp only [Kept.upd_iff]) | (with_reducible apply KeptOut.next)
      | (with_reducible apply KeptOut.refused) | (with_reducible apply ctxPort_kept)
      | (with_reducible apply doActivate_kept) | (with_reducible apply Kept.foldl)
      | (with_reducible apply Kept.foldlPair) | (with_reducible apply Kept.foldlPair2)
      | (refine Kept.of_pair (by with_reducible assumption) ?_) | (intro _) | split | (dsimp only))

theorem sendDigests_kept {r0 : State} (c : CtxId) (m : Image) (s : State)
    (k0 : Kept r0 s) : Kept r0 (sendDigests c m s) := by
  unfold sendDigests
  repeat' (first
      | (with_reducible assumption) | (with_reducible simp only [Kept.upd_iff])
      | (with_reducible apply State.each_kept) | (with_reducible apply sendColl_kept)
      | (with_reducible apply State.modCtx_kept) | (with_reducible apply Kept.foldl)
      | (with_reducible apply Kept.foldlPair) | (with_reducible apply Kept.foldlPair2)
      | (refine Kept.of_pair (by with_reducible assumption) ?_) | (intro _) | split | (dsimp only))

theorem closeOn_kept {r0 : State} (c : CtxId) (m : Image) (s : State)
    (k0 : Kept r0 s) : Kept r0 (closeOn c m s) := by
  unfold closeOn
  repeat' (first
      | (with_reducible assumption) | (with_reducible simp only [Kept.upd_iff]) | (with_reducible apply copyAll_kept)
      | (with_reducible apply writeRecord_kept) | (with_reducible apply sendDigests_kept)
      | (with_reducible apply State.modCtx_kept) | (with_reducible apply Kept.foldl)
      | (with_reducible apply Kept.foldlPair) | (with_reducible apply Kept.foldlPair2)
      | (refine Kept.of_pair (p := copyAll _ _ _ _) (by with_reducible assumption) ?_)
      | (refine Kept.of_pair (p := writeRecord _ _ _) (by with_reducible assumption) ?_)
      | (refine Kept.of_pair (by with_reducible assumption) ?_) | (intro _) | split | (dsimp only))

theorem doCloseStep_kept {r0 : State} (c : CtxId) (s : State)
    (k0 : Kept r0 s) : Kept r0 (doCloseStep c s) := by
  unfold doCloseStep
  repeat' (first
      | (with_reducible assumption) | (with_reducible simp only [Kept.upd_iff]) | (with_reducible apply closeOn_kept)
      | (with_reducible apply State.setCtx_kept) | (with_reducible apply Kept.foldl)
      | (with_reducible apply Kept.foldlPair) | (with_reducible apply Kept.foldlPair2)
      | (refine Kept.of_pair (by with_reducible assumption) ?_) | (intro _) | split | (dsimp only))

theorem execCloseStep_kept (c : CtxId) (s : State) :
    KeptOut s (execCloseStep c s) := by
  have k0 := Kept.refl s
  unfold execCloseStep
  repeat' (first
      | (with_reducible assumption) | (with_reducible simp only [Kept.upd_iff]) | (with_reducible apply KeptOut.next)
      | (with_reducible apply KeptOut.refused) | (with_reducible apply doCloseStep_kept)
      | (with_reducible apply Kept.foldl) | (with_reducible apply Kept.foldlPair)
      | (with_reducible apply Kept.foldlPair2) | (refine Kept.of_pair (by with_reducible assumption) ?_) | (intro _)
      | split | (dsimp only))

theorem commitStep_kept {r0 : State} (c : CtxId) (m : Image) (s : State)
    (k0 : Kept r0 s) : Kept r0 (commitStep c m s) := by
  unfold commitStep
  repeat' (first
      | (with_reducible assumption) | (with_reducible simp only [Kept.upd_iff]) | (with_reducible apply doChores_kept)
      | (with_reducible apply State.modCtx_kept) | (with_reducible apply Kept.foldl)
      | (with_reducible apply Kept.foldlPair) | (with_reducible apply Kept.foldlPair2)
      | (refine Kept.of_pair (by with_reducible assumption) ?_) | (intro _) | split | (dsimp only))

theorem saturationEvent_kept {r0 : State} (c : CtxId) (m : Image) (i : Nat) (s : State)
    (k0 : Kept r0 s) : Kept r0 (saturationEvent c m i s) := by
  unfold saturationEvent
  repeat' (first
      | (with_reducible assumption) | (with_reducible simp only [Kept.upd_iff]) | (with_reducible apply ctxEvent_kept)
      | (with_reducible apply State.modCtx_kept) | (with_reducible apply Kept.foldl)
      | (with_reducible apply Kept.foldlPair) | (with_reducible apply Kept.foldlPair2)
      | (refine Kept.of_pair (by with_reducible assumption) ?_) | (intro _) | split | (dsimp only))

theorem readRefLayers_kept {r0 : State} (c : CtxId) (m : Image) (s : State)
    (k0 : Kept r0 s) : Kept r0 (readRefLayers c m s).2 := by
  unfold readRefLayers
  repeat' (first
      | (with_reducible assumption) | (with_reducible simp only [Kept.upd_iff]) | (with_reducible apply fetchVa_kept)
      | (with_reducible apply Kept.foldl) | (with_reducible apply Kept.foldlPair)
      | (with_reducible apply Kept.foldlPair2)
      | (refine Kept.of_pair (p := fetchVa _ _ _ _ _) (by with_reducible assumption) ?_)
      | (refine Kept.of_pair (by with_reducible assumption) ?_) | (intro _) | split | (dsimp only))

theorem heldEvent_kept {r0 : State} (c : CtxId) (s : State)
    (k0 : Kept r0 s) : Kept r0 (heldEvent c s) := by
  unfold heldEvent
  repeat' (first
      | (with_reducible assumption) | (with_reducible simp only [Kept.upd_iff]) | (with_reducible apply ctxEvent_kept)
      | (with_reducible apply Kept.foldl) | (with_reducible apply Kept.foldlPair)
      | (with_reducible apply Kept.foldlPair2) | (refine Kept.of_pair (by with_reducible assumption) ?_) | (intro _)
      | split | (dsimp only))

theorem commitOrWait_kept {r0 : State} (c : CtxId) (m : Image) (s : State)
    (k0 : Kept r0 s) : Kept r0 (commitOrWait c m s) := by
  unfold commitOrWait
  repeat' (first
      | (with_reducible assumption) | (with_reducible simp only [Kept.upd_iff])
      | (with_reducible apply State.modCtx_kept) | (with_reducible apply commitStep_kept)
      | (with_reducible apply Kept.foldl) | (with_reducible apply Kept.foldlPair)
      | (with_reducible apply Kept.foldlPair2) | (refine Kept.of_pair (by with_reducible assumption) ?_) | (intro _)
      | split | (dsimp only))

theorem afterSeal_kept {r0 : State} (c : CtxId) (m : Image) (drop : Bool) (s : State)
    (k0 : Kept r0 s) : Kept r0 (afterSeal c m drop s) := by
  unfold afterSeal
  repeat' (first
      | (with_reducible assumption) | (with_reducible simp only [Kept.upd_iff])
      | (with_reducible apply State.modCtx_kept) | (with_reducible apply heldEvent_kept)
      | (with_reducible apply commitOrWait_kept) | (with_reducible apply Kept.foldl)
      | (with_reducible apply Kept.foldlPair) | (with_reducible apply Kept.foldlPair2)
      | (refine Kept.of_pair (by with_reducible assumption) ?_) | (intro _) | split | (dsimp only))

theorem resumeCommit_kept {r0 : State} (c : CtxId) (s : State)
    (k0 : Kept r0 s) : Kept r0 (resumeCommit c s) := by
  unfold resumeCommit
  repeat' (first
      | (with_reducible assumption) | (with_reducible simp only [Kept.upd_iff])
      | (with_reducible apply commitStep_kept) | (with_reducible apply Kept.foldl)
      | (with_reducible apply Kept.foldlPair) | (with_reducible apply Kept.foldlPair2)
      | (refine Kept.of_pair (by with_reducible assumption) ?_) | (intro _) | split | (dsimp only))

theorem doSealStep_kept {r0 : State} (c : CtxId) (s : State)
    (k0 : Kept r0 s) : Kept r0 (doSealStep c s) := by
  unfold doSealStep
  repeat' (first
      | (with_reducible assumption) | (with_reducible simp only [Kept.upd_iff])
      | (with_reducible apply readRefLayers_kept) | (with_reducible apply sealRecord_kept)
      | (with_reducible apply State.each_kept) | (with_reducible apply saturationEvent_kept)
      | (with_reducible apply State.modCtx_kept) | (with_reducible apply afterSeal_kept)
      | (with_reducible apply Kept.foldl) | (with_reducible apply Kept.foldlPair)
      | (with_reducible apply Kept.foldlPair2)
      | (refine Kept.of_pair (p := readRefLayers _ _ _) (by with_reducible assumption) ?_)
      | (refine Kept.of_pair (p := sealRecord _ _ _ _) (by with_reducible assumption) ?_)
      | (refine Kept.of_pair (by with_reducible assumption) ?_) | (intro _) | split | (dsimp only))

theorem execSealStep_kept (c : CtxId) (s : State) :
    KeptOut s (execSealStep c s) := by
  have k0 := Kept.refl s
  unfold execSealStep
  repeat' (first
      | (with_reducible assumption) | (with_reducible simp only [Kept.upd_iff]) | (with_reducible apply KeptOut.next)
      | (with_reducible apply KeptOut.refused) | (with_reducible apply doSealStep_kept)
      | (with_reducible apply Kept.foldl) | (with_reducible apply Kept.foldlPair)
      | (with_reducible apply Kept.foldlPair2) | (refine Kept.of_pair (by with_reducible assumption) ?_) | (intro _)
      | split | (dsimp only))

theorem doGenerationSwitch_kept {r0 : State} (c : CtxId) (s : State)
    (k0 : Kept r0 s) : Kept r0 (doGenerationSwitch c s) := by
  unfold doGenerationSwitch
  repeat' (first
      | (with_reducible assumption) | (with_reducible simp only [Kept.upd_iff]) | (with_reducible apply doChores_kept)
      | (with_reducible apply kick_kept) | (with_reducible apply State.setCtx_kept)
      | (with_reducible apply Kept.foldl) | (with_reducible apply Kept.foldlPair)
      | (with_reducible apply Kept.foldlPair2) | (refine Kept.of_pair (by with_reducible assumption) ?_) | (intro _)
      | split | (dsimp only))

theorem execGenerationSwitch_kept (c : CtxId) (s : State) :
    KeptOut s (execGenerationSwitch c s) := by
  have k0 := Kept.refl s
  unfold execGenerationSwitch
  repeat' (first
      | (with_reducible assumption) | (with_reducible simp only [Kept.upd_iff]) | (with_reducible apply KeptOut.next)
      | (with_reducible apply KeptOut.refused) | (with_reducible apply doGenerationSwitch_kept)
      | (with_reducible apply Kept.foldl) | (with_reducible apply Kept.foldlPair)
      | (with_reducible apply Kept.foldlPair2) | (refine Kept.of_pair (by with_reducible assumption) ?_) | (intro _)
      | split | (dsimp only))

theorem doRelease_kept {r0 : State} (c : CtxId) (s : State)
    (k0 : Kept r0 s) : Kept r0 (doRelease c s) := by
  unfold doRelease
  repeat' (first
      | (with_reducible assumption) | (with_reducible simp only [Kept.upd_iff])
      | (with_reducible apply commitOrWait_kept) | (with_reducible apply State.modCtx_kept)
      | (with_reducible apply violate_kept) | (with_reducible apply Kept.foldl)
      | (with_reducible apply Kept.foldlPair) | (with_reducible apply Kept.foldlPair2)
      | (refine Kept.of_pair (by with_reducible assumption) ?_) | (intro _) | split | (dsimp only))

theorem execRelease_kept (fn : FnId) (c : CtxId) (s : State) :
    KeptOut s (execRelease fn c s) := by
  have k0 := Kept.refl s
  unfold execRelease
  repeat' (first
      | (with_reducible assumption) | (with_reducible simp only [Kept.upd_iff]) | (with_reducible apply KeptOut.next)
      | (with_reducible apply KeptOut.refused) | (with_reducible apply ctxPort_kept)
      | (with_reducible apply doRelease_kept) | (with_reducible apply Kept.foldl)
      | (with_reducible apply Kept.foldlPair) | (with_reducible apply Kept.foldlPair2)
      | (refine Kept.of_pair (by with_reducible assumption) ?_) | (intro _) | split | (dsimp only))

theorem doDiscard_kept {r0 : State} (c : CtxId) (s : State)
    (k0 : Kept r0 s) : Kept r0 (doDiscard c s) := by
  unfold doDiscard
  repeat' (first
      | (with_reducible assumption) | (with_reducible simp only [Kept.upd_iff])
      | (with_reducible apply State.modCtx_kept) | (with_reducible apply violate_kept)
      | (with_reducible apply Kept.foldl) | (with_reducible apply Kept.foldlPair)
      | (with_reducible apply Kept.foldlPair2) | (refine Kept.of_pair (by with_reducible assumption) ?_) | (intro _)
      | split | (dsimp only))

theorem execDiscard_kept (fn : FnId) (c : CtxId) (s : State) :
    KeptOut s (execDiscard fn c s) := by
  have k0 := Kept.refl s
  unfold execDiscard
  repeat' (first
      | (with_reducible assumption) | (with_reducible simp only [Kept.upd_iff]) | (with_reducible apply KeptOut.next)
      | (with_reducible apply KeptOut.refused) | (with_reducible apply ctxPort_kept)
      | (with_reducible apply doDiscard_kept) | (with_reducible apply Kept.foldl)
      | (with_reducible apply Kept.foldlPair) | (with_reducible apply Kept.foldlPair2)
      | (refine Kept.of_pair (by with_reducible assumption) ?_) | (intro _) | split | (dsimp only))

end Sys2Proof.Machine
end

