-- ==== Sys2Proof/Laws/KeptSync.lean ====
section
/-! SUPPORT. What the operations of Sync keep. -/

namespace Sys2Proof.Machine

open Sys2Proof

set_option linter.unusedSimpArgs false

theorem releaseWaiter_kept {r0 : State} (c : CtxId) (q : SemId) (w : Waiter) (s : State)
    (k0 : Kept r0 s) : Kept r0 (releaseWaiter c q w s) := by
  unfold releaseWaiter
  repeat' (first
      | (with_reducible assumption) | (with_reducible simp only [Kept.upd_iff]) | (with_reducible apply ctxEvent_kept)
      | (with_reducible apply State.modCtx_kept) | (with_reducible apply Kept.foldl)
      | (with_reducible apply Kept.foldlPair) | (with_reducible apply Kept.foldlPair2)
      | (refine Kept.of_pair (by with_reducible assumption) ?_) | (intro _) | split | (dsimp only))

theorem serveQueue_kept {r0 : State} (c : CtxId) (q : SemId) :
    ∀ (y0 : List (U16 × Waiter)) (y1 : State), Kept r0 y1 → Kept r0 (serveQueue c q y0 y1) := by
  intro y0
  induction y0 with
  | nil =>
    intro y1 k0
    unfold serveQueue
    repeat' (first
        | (with_reducible assumption) | (with_reducible simp only [Kept.upd_iff])
        | (with_reducible apply releaseWaiter_kept) | (with_reducible apply State.modCtx_kept)
        | (with_reducible apply Kept.foldl) | (with_reducible apply Kept.foldlPair)
        | (with_reducible apply Kept.foldlPair2) | (refine Kept.of_pair (by with_reducible assumption) ?_) | (intro _)
        | split | (dsimp only))
  | cons z zs ih =>
    intro y1 k0
    unfold serveQueue
    repeat' (first
        | (with_reducible assumption) | (with_reducible simp only [Kept.upd_iff]) | (with_reducible apply ih)
        | (with_reducible apply releaseWaiter_kept) | (with_reducible apply State.modCtx_kept)
        | (with_reducible apply Kept.foldl) | (with_reducible apply Kept.foldlPair)
        | (with_reducible apply Kept.foldlPair2) | (refine Kept.of_pair (by with_reducible assumption) ?_) | (intro _)
        | split | (dsimp only))

theorem serveSem_kept {r0 : State} (c : CtxId) (q : SemId) (s : State)
    (k0 : Kept r0 s) : Kept r0 (serveSem c q s) := by
  unfold serveSem
  repeat' (first
      | (with_reducible assumption) | (with_reducible simp only [Kept.upd_iff])
      | (with_reducible apply serveQueue_kept) | (with_reducible apply Kept.foldl)
      | (with_reducible apply Kept.foldlPair) | (with_reducible apply Kept.foldlPair2)
      | (refine Kept.of_pair (by with_reducible assumption) ?_) | (intro _) | split | (dsimp only))

theorem signalSem_kept {r0 : State} (c : CtxId) (q : SemId) (v : U16) (s : State)
    (k0 : Kept r0 s) : Kept r0 (signalSem c q v s) := by
  unfold signalSem
  repeat' (first
      | (with_reducible assumption) | (with_reducible simp only [Kept.upd_iff]) | (with_reducible apply violate_kept)
      | (with_reducible apply serveSem_kept) | (with_reducible apply State.modCtx_kept)
      | (with_reducible apply Kept.foldl) | (with_reducible apply Kept.foldlPair)
      | (with_reducible apply Kept.foldlPair2) | (refine Kept.of_pair (by with_reducible assumption) ?_) | (intro _)
      | split | (dsimp only))

theorem decSem_kept {r0 : State} (c : CtxId) (q : SemId) (v : U16) (s : State)
    (k0 : Kept r0 s) : Kept r0 (decSem c q v s) := by
  unfold decSem
  repeat' (first
      | (with_reducible assumption) | (with_reducible simp only [Kept.upd_iff]) | (with_reducible apply serveSem_kept)
      | (with_reducible apply State.modCtx_kept) | (with_reducible apply violate_kept)
      | (with_reducible apply Kept.foldl) | (with_reducible apply Kept.foldlPair)
      | (with_reducible apply Kept.foldlPair2) | (refine Kept.of_pair (by with_reducible assumption) ?_) | (intro _)
      | split | (dsimp only))

theorem waitSem_kept {r0 : State} (c : CtxId) (q : SemId) (v : U16) (w : Waiter) (s : State)
    (k0 : Kept r0 s) : Kept r0 (waitSem c q v w s) := by
  unfold waitSem
  repeat' (first
      | (with_reducible assumption) | (with_reducible simp only [Kept.upd_iff]) | (with_reducible apply serveSem_kept)
      | (with_reducible apply State.modCtx_kept) | (with_reducible apply Kept.foldl)
      | (with_reducible apply Kept.foldlPair) | (with_reducible apply Kept.foldlPair2)
      | (refine Kept.of_pair (by with_reducible assumption) ?_) | (intro _) | split | (dsimp only))

theorem ifAssigned_kept {r0 : State} (c : CtxId) (act : State → State) (s : State)
    (k0 : Kept r0 s) (h_act : ∀ t, Kept r0 t → Kept r0 (act t)) : Kept r0 (ifAssigned c act s) := by
  unfold ifAssigned
  repeat' (first
      | (with_reducible assumption) | (with_reducible simp only [Kept.upd_iff]) | (with_reducible apply h_act)
      | (with_reducible apply Kept.foldl) | (with_reducible apply Kept.foldlPair)
      | (with_reducible apply Kept.foldlPair2) | (refine Kept.of_pair (by with_reducible assumption) ?_) | (intro _)
      | split | (dsimp only))

theorem execSemSignal_kept (fn : FnId) (c : CtxId) (sem : SemId) (v : U16) (rel : Bool) (s : State) :
    KeptOut s (execSemSignal fn c sem v rel s) := by
  have k0 := Kept.refl s
  unfold execSemSignal
  repeat' (first
      | (with_reducible assumption) | (with_reducible simp only [Kept.upd_iff]) | (with_reducible apply KeptOut.next)
      | (with_reducible apply KeptOut.refused) | (with_reducible apply ctxPort_kept)
      | (with_reducible apply ifAssigned_kept) | (with_reducible apply signalSem_kept)
      | (with_reducible apply Kept.foldl) | (with_reducible apply Kept.foldlPair)
      | (with_reducible apply Kept.foldlPair2) | (refine Kept.of_pair (by with_reducible assumption) ?_) | (intro _)
      | split | (dsimp only))

theorem execSemDec_kept (fn : FnId) (c : CtxId) (sem : SemId) (v : U16) (s : State) :
    KeptOut s (execSemDec fn c sem v s) := by
  have k0 := Kept.refl s
  unfold execSemDec
  repeat' (first
      | (with_reducible assumption) | (with_reducible simp only [Kept.upd_iff]) | (with_reducible apply KeptOut.next)
      | (with_reducible apply KeptOut.refused) | (with_reducible apply ctxPort_kept)
      | (with_reducible apply ifAssigned_kept) | (with_reducible apply decSem_kept)
      | (with_reducible apply Kept.foldl) | (with_reducible apply Kept.foldlPair)
      | (with_reducible apply Kept.foldlPair2) | (refine Kept.of_pair (by with_reducible assumption) ?_) | (intro _)
      | split | (dsimp only))

theorem doSemWaitArm_kept {r0 : State} (c : CtxId) (q : SemId) (v tag : U16) (s : State)
    (k0 : Kept r0 s) : Kept r0 (doSemWaitArm c q v tag s) := by
  unfold doSemWaitArm
  repeat' (first
      | (with_reducible assumption) | (with_reducible simp only [Kept.upd_iff]) | (with_reducible apply violate_kept)
      | (with_reducible apply waitSem_kept) | (with_reducible apply State.modCtx_kept)
      | (with_reducible apply Kept.foldl) | (with_reducible apply Kept.foldlPair)
      | (with_reducible apply Kept.foldlPair2) | (refine Kept.of_pair (by with_reducible assumption) ?_) | (intro _)
      | split | (dsimp only))

theorem execSemWaitArm_kept (fn : FnId) (c : CtxId) (sem : SemId) (v tag : U16) (s : State) :
    KeptOut s (execSemWaitArm fn c sem v tag s) := by
  have k0 := Kept.refl s
  unfold execSemWaitArm
  repeat' (first
      | (with_reducible assumption) | (with_reducible simp only [Kept.upd_iff]) | (with_reducible apply KeptOut.next)
      | (with_reducible apply KeptOut.refused) | (with_reducible apply ctxPort_kept)
      | (with_reducible apply ifAssigned_kept) | (with_reducible apply doSemWaitArm_kept)
      | (with_reducible apply Kept.foldl) | (with_reducible apply Kept.foldlPair)
      | (with_reducible apply Kept.foldlPair2) | (refine Kept.of_pair (by with_reducible assumption) ?_) | (intro _)
      | split | (dsimp only))

theorem settleSeq_kept {r0 : State} (uid : U64) (w : U32) (s : State)
    (k0 : Kept r0 s) : Kept r0 (settleSeq uid w s) := by
  unfold settleSeq
  repeat' (first
      | (with_reducible assumption) | (with_reducible simp only [Kept.upd_iff])
      | (with_reducible apply State.modGlb_kept) | (with_reducible apply Kept.foldl)
      | (with_reducible apply Kept.foldlPair) | (with_reducible apply Kept.foldlPair2)
      | (refine Kept.of_pair (by with_reducible assumption) ?_) | (intro _) | split | (dsimp only))

theorem noteSeq_kept {r0 : State} (gid : U32) (rank : U16) (w : U32) (s : State)
    (k0 : Kept r0 s) : Kept r0 (noteSeq gid rank w s) := by
  unfold noteSeq
  repeat' (first
      | (with_reducible assumption) | (with_reducible simp only [Kept.upd_iff])
      | (with_reducible apply settleSeq_kept) | (with_reducible apply Kept.foldl)
      | (with_reducible apply Kept.foldlPair) | (with_reducible apply Kept.foldlPair2)
      | (refine Kept.of_pair (by with_reducible assumption) ?_) | (intro _) | split | (dsimp only))

theorem nextWseq_kept {r0 : State} (c : CtxId) (uid : U64) (s : State)
    (k0 : Kept r0 s) : Kept r0 (nextWseq c uid s).2 := by
  unfold nextWseq
  repeat' (first
      | (with_reducible assumption) | (with_reducible simp only [Kept.upd_iff])
      | (with_reducible apply State.modCtx_kept) | (with_reducible apply Kept.foldl)
      | (with_reducible apply Kept.foldlPair) | (with_reducible apply Kept.foldlPair2)
      | (refine Kept.of_pair (by with_reducible assumption) ?_) | (intro _) | split | (dsimp only))

theorem sendSync_kept {r0 : State} (c : CtxId) (g : GroupSlot) (r type : Nat) (p : SyncPkt) (s : State)
    (k0 : Kept r0 s) : Kept r0 (sendSync c g r type p s) := by
  unfold sendSync
  repeat' (first
      | (with_reducible assumption) | (with_reducible simp only [Kept.upd_iff]) | (with_reducible apply nextWseq_kept)
      | (with_reducible apply sendPacket_kept) | (with_reducible apply Kept.foldl)
      | (with_reducible apply Kept.foldlPair) | (with_reducible apply Kept.foldlPair2)
      | (refine Kept.of_pair (p := nextWseq _ _ _) (by with_reducible assumption) ?_)
      | (refine Kept.of_pair (by with_reducible assumption) ?_) | (intro _) | split | (dsimp only))

theorem sendSignal_kept {r0 : State} (c : CtxId) (g : GroupSlot) (r sem v : U16) (rel : Bool) (s : State)
    (k0 : Kept r0 s) : Kept r0 (sendSignal c g r sem v rel s) := by
  unfold sendSignal
  repeat' (first
      | (with_reducible assumption) | (with_reducible simp only [Kept.upd_iff]) | (with_reducible apply sendSync_kept)
      | (with_reducible apply Kept.foldl) | (with_reducible apply Kept.foldlPair)
      | (with_reducible apply Kept.foldlPair2) | (refine Kept.of_pair (by with_reducible assumption) ?_) | (intro _)
      | split | (dsimp only))

theorem doSyncSignal_kept {r0 : State} (p : SyncPkt) (s : State)
    (k0 : Kept r0 s) : Kept r0 (doSyncSignal p s) := by
  unfold doSyncSignal
  repeat' (first
      | (with_reducible assumption) | (with_reducible simp only [Kept.upd_iff]) | (with_reducible apply withRank_kept)
      | (with_reducible apply State.modCtx_kept) | (with_reducible apply signalSem_kept)
      | (with_reducible apply countStray_kept) | (with_reducible apply Kept.foldl)
      | (with_reducible apply Kept.foldlPair) | (with_reducible apply Kept.foldlPair2)
      | (refine Kept.of_pair (by with_reducible assumption) ?_) | (intro _) | split | (dsimp only))

theorem doHeldSignalApply_kept {r0 : State} (c : CtxId) (i : Nat) (s : State)
    (k0 : Kept r0 s) : Kept r0 (doHeldSignalApply c i s) := by
  unfold doHeldSignalApply
  repeat' (first
      | (with_reducible assumption) | (with_reducible simp only [Kept.upd_iff])
      | (with_reducible apply signalSem_kept) | (with_reducible apply State.modCtx_kept)
      | (with_reducible apply Kept.foldl) | (with_reducible apply Kept.foldlPair)
      | (with_reducible apply Kept.foldlPair2) | (refine Kept.of_pair (by with_reducible assumption) ?_) | (intro _)
      | split | (dsimp only))

theorem execHeldSignalApply_kept (c : CtxId) (i : Nat) (s : State) :
    KeptOut s (execHeldSignalApply c i s) := by
  have k0 := Kept.refl s
  unfold execHeldSignalApply
  repeat' (first
      | (with_reducible assumption) | (with_reducible simp only [Kept.upd_iff]) | (with_reducible apply KeptOut.next)
      | (with_reducible apply KeptOut.refused) | (with_reducible apply doHeldSignalApply_kept)
      | (with_reducible apply Kept.foldl) | (with_reducible apply Kept.foldlPair)
      | (with_reducible apply Kept.foldlPair2) | (refine Kept.of_pair (by with_reducible assumption) ?_) | (intro _)
      | split | (dsimp only))

theorem completeBarrier_kept {r0 : State} (k : BarId) :
    ∀ (y0 : Nat) (y1 : State), Kept r0 y1 → Kept r0 (completeBarrier k y0 y1) := by
  intro y0
  induction y0 with
  | zero =>
    intro y1 k0
    unfold completeBarrier
    repeat' (first
        | (with_reducible assumption) | (with_reducible simp only [Kept.upd_iff])
        | (with_reducible apply State.each_kept) | (with_reducible apply signalSem_kept)
        | (with_reducible apply State.modBarrier_kept) | (with_reducible apply Kept.foldl)
        | (with_reducible apply Kept.foldlPair) | (with_reducible apply Kept.foldlPair2)
        | (refine Kept.of_pair (by with_reducible assumption) ?_) | (intro _) | split | (dsimp only))
  | succ n ih =>
    intro y1 k0
    unfold completeBarrier
    repeat' (first
        | (with_reducible assumption) | (with_reducible simp only [Kept.upd_iff]) | (with_reducible apply ih)
        | (with_reducible apply State.each_kept) | (with_reducible apply signalSem_kept)
        | (with_reducible apply State.modBarrier_kept) | (with_reducible apply Kept.foldl)
        | (with_reducible apply Kept.foldlPair) | (with_reducible apply Kept.foldlPair2)
        | (refine Kept.of_pair (by with_reducible assumption) ?_) | (intro _) | split | (dsimp only))

theorem putArrival_kept {r0 : State} (k : BarId) (b : Barrier) (s : State)
    (k0 : Kept r0 s) : Kept r0 (putArrival k b s) := by
  unfold putArrival
  repeat' (first
      | (with_reducible assumption) | (with_reducible simp only [Kept.upd_iff])
      | (with_reducible apply completeBarrier_kept) | (with_reducible apply State.setBarrier_kept)
      | (with_reducible apply Kept.foldl) | (with_reducible apply Kept.foldlPair)
      | (with_reducible apply Kept.foldlPair2) | (refine Kept.of_pair (by with_reducible assumption) ?_) | (intro _)
      | split | (dsimp only))

theorem doBarArrive_kept {r0 : State} (c : CtxId) (k : BarId) (slot : BenchId) (epoch : U32) (notify : Option SemId) (s : State)
    (k0 : Kept r0 s) : Kept r0 (doBarArrive c k slot epoch notify s) := by
  unfold doBarArrive
  repeat' (first
      | (with_reducible assumption) | (with_reducible simp only [Kept.upd_iff]) | (with_reducible apply violate_kept)
      | (with_reducible apply putArrival_kept) | (with_reducible apply State.each_kept)
      | (with_reducible apply sendSync_kept) | (with_reducible apply Kept.foldl)
      | (with_reducible apply Kept.foldlPair) | (with_reducible apply Kept.foldlPair2)
      | (refine Kept.of_pair (by with_reducible assumption) ?_) | (intro _) | split | (dsimp only))

theorem execBarArrive_kept (fn : FnId) (c : CtxId) (k : BarId) (slot : BenchId) (epoch : U32) (notify : Option SemId) (s : State) :
    KeptOut s (execBarArrive fn c k slot epoch notify s) := by
  have k0 := Kept.refl s
  unfold execBarArrive
  repeat' (first
      | (with_reducible assumption) | (with_reducible simp only [Kept.upd_iff]) | (with_reducible apply KeptOut.next)
      | (with_reducible apply KeptOut.refused) | (with_reducible apply ctxPort_kept)
      | (with_reducible apply ifAssigned_kept) | (with_reducible apply doBarArrive_kept)
      | (with_reducible apply Kept.foldl) | (with_reducible apply Kept.foldlPair)
      | (with_reducible apply Kept.foldlPair2) | (refine Kept.of_pair (by with_reducible assumption) ?_) | (intro _)
      | split | (dsimp only))

theorem doArrive_kept {r0 : State} (p : SyncPkt) (s : State)
    (k0 : Kept r0 s) : Kept r0 (doArrive p s) := by
  unfold doArrive
  repeat' (first
      | (with_reducible assumption) | (with_reducible simp only [Kept.upd_iff])
      | (with_reducible apply countStray_kept) | (with_reducible apply State.each_kept)
      | (with_reducible apply putArrival_kept) | (with_reducible apply Kept.foldl)
      | (with_reducible apply Kept.foldlPair) | (with_reducible apply Kept.foldlPair2)
      | (refine Kept.of_pair (by with_reducible assumption) ?_) | (intro _) | split | (dsimp only))

theorem writeBarrier_kept {r0 : State} (k : BarId) (enable scope : Bool) (owner : CtxId) (tag : U16) (s : State)
    (k0 : Kept r0 s) : Kept r0 (writeBarrier k enable scope owner tag s) := by
  unfold writeBarrier
  repeat' (first
      | (with_reducible assumption) | (with_reducible simp only [Kept.upd_iff])
      | (with_reducible apply State.setBarrier_kept) | (with_reducible apply violate_kept)
      | (with_reducible apply Kept.foldl) | (with_reducible apply Kept.foldlPair)
      | (with_reducible apply Kept.foldlPair2) | (refine Kept.of_pair (by with_reducible assumption) ?_) | (intro _)
      | split | (dsimp only))

theorem execBarrierEnable_kept (fn : FnId) (k : BarId) (scope : Bool) (owner : CtxId) (tag : U16) (s : State) :
    KeptOut s (execBarrierEnable fn k scope owner tag s) := by
  have k0 := Kept.refl s
  unfold execBarrierEnable
  repeat' (first
      | (with_reducible assumption) | (with_reducible simp only [Kept.upd_iff]) | (with_reducible apply KeptOut.next)
      | (with_reducible apply KeptOut.refused) | (with_reducible apply glbPort_kept)
      | (with_reducible apply writeBarrier_kept) | (with_reducible apply Kept.foldl)
      | (with_reducible apply Kept.foldlPair) | (with_reducible apply Kept.foldlPair2)
      | (refine Kept.of_pair (by with_reducible assumption) ?_) | (intro _) | split | (dsimp only))

theorem execBarrierDisable_kept (fn : FnId) (k : BarId) (s : State) :
    KeptOut s (execBarrierDisable fn k s) := by
  have k0 := Kept.refl s
  unfold execBarrierDisable
  repeat' (first
      | (with_reducible assumption) | (with_reducible simp only [Kept.upd_iff]) | (with_reducible apply KeptOut.next)
      | (with_reducible apply KeptOut.refused) | (with_reducible apply glbPort_kept)
      | (with_reducible apply writeBarrier_kept) | (with_reducible apply Kept.foldl)
      | (with_reducible apply Kept.foldlPair) | (with_reducible apply Kept.foldlPair2)
      | (refine Kept.of_pair (by with_reducible assumption) ?_) | (intro _) | split | (dsimp only))

theorem configBarrier_kept {r0 : State} (k : BarId) (f : Barrier → Barrier) (s : State)
    (k0 : Kept r0 s) : Kept r0 (configBarrier k f s) := by
  unfold configBarrier
  repeat' (first
      | (with_reducible assumption) | (with_reducible simp only [Kept.upd_iff]) | (with_reducible apply violate_kept)
      | (with_reducible apply State.setBarrier_kept) | (with_reducible apply Kept.foldl)
      | (with_reducible apply Kept.foldlPair) | (with_reducible apply Kept.foldlPair2)
      | (refine Kept.of_pair (by with_reducible assumption) ?_) | (intro _) | split | (dsimp only))

end Sys2Proof.Machine
end

