-- ==== Sys2Proof/Laws/KeptDma.lean ====
section
/-! SUPPORT. What the operations of Dma keep. -/

namespace Sys2Proof.Machine

open Sys2Proof

set_option linter.unusedSimpArgs false

theorem fillFree_kept {r0 : State} : ∀ (y0 : List (Option Byte)) (y1 : State), Kept r0 y1 → Kept r0 (fillFree y0 y1).2 := by
  intro y0
  induction y0 with
  | nil => intro _ k0; exact k0
  | cons z zs ih =>
    intro y1 k0
    cases z with
    | none => exact ih _ (drawNat_kept y1 k0)
    | some b => exact ih _ k0

theorem putPattern_kept {r0 : State} (c : CtxId) (req : FaultReq) (ws : List (Nat × List Byte)) (s : State)
    (k0 : Kept r0 s) : Kept r0 (putPattern c req ws s).2 := by
  unfold putPattern
  repeat' (first
      | (with_reducible assumption) | (with_reducible simp only [Kept.upd_iff]) | (with_reducible apply access_kept)
      | (with_reducible apply keepMark_kept) | (with_reducible apply patchRuns_kept)
      | (with_reducible apply Kept.foldl) | (with_reducible apply Kept.foldlPair)
      | (with_reducible apply Kept.foldlPair2)
      | (refine Kept.of_pair (p := access _ _ _ _ _ _) (by with_reducible assumption) ?_)
      | (refine Kept.of_pair (by with_reducible assumption) ?_) | (intro _) | split | (dsimp only))

theorem readMoved_kept {r0 : State} (c : CtxId) (req : FaultReq) (sps : List Span) (s : State)
    (k0 : Kept r0 s) : Kept r0 (readMoved c req sps s).2 := by
  unfold readMoved
  repeat' (first
      | (with_reducible assumption) | (with_reducible simp only [Kept.upd_iff]) | (with_reducible apply access_kept)
      | (with_reducible apply fillFree_kept) | (with_reducible apply keepMark_kept)
      | (with_reducible apply chargeRead_kept) | (with_reducible apply Kept.foldl)
      | (with_reducible apply Kept.foldlPair) | (with_reducible apply Kept.foldlPair2)
      | (refine Kept.of_pair (p := access _ _ _ _ _ _) (by with_reducible assumption) ?_)
      | (refine Kept.of_pair (p := fillFree _ _) (by with_reducible assumption) ?_)
      | (refine Kept.of_pair (by with_reducible assumption) ?_) | (intro _) | split | (dsimp only))

theorem descSignal_kept {r0 : State} (c : CtxId) (b : List Byte) (s : State)
    (k0 : Kept r0 s) : Kept r0 (descSignal c b s) := by
  unfold descSignal
  repeat' (first
      | (with_reducible assumption) | (with_reducible simp only [Kept.upd_iff])
      | (with_reducible apply sendSignal_kept) | (with_reducible apply signalSem_kept)
      | (with_reducible apply Kept.foldl) | (with_reducible apply Kept.foldlPair)
      | (with_reducible apply Kept.foldlPair2) | (refine Kept.of_pair (by with_reducible assumption) ?_) | (intro _)
      | split | (dsimp only))

theorem finishDesc_kept {r0 : State} (c : CtxId) (i : Nat) (s : State)
    (k0 : Kept r0 s) : Kept r0 (finishDesc c i s) := by
  unfold finishDesc
  repeat' (first
      | (with_reducible assumption) | (with_reducible simp only [Kept.upd_iff]) | (with_reducible apply putVa_kept)
      | (with_reducible apply descSignal_kept) | (with_reducible apply State.modCtx_kept)
      | (with_reducible apply ctxEvent_kept) | (with_reducible apply Kept.foldl)
      | (with_reducible apply Kept.foldlPair) | (with_reducible apply Kept.foldlPair2)
      | (refine Kept.of_pair (p := putVa _ _ _ _ _ _) (by with_reducible assumption) ?_)
      | (refine Kept.of_pair (by with_reducible assumption) ?_) | (intro _) | split | (dsimp only))

theorem endDesc_kept {r0 : State} (c : CtxId) (i result : Nat) (s : State)
    (k0 : Kept r0 s) : Kept r0 (endDesc c i result s) := by
  unfold endDesc
  repeat' (first
      | (with_reducible assumption) | (with_reducible simp only [Kept.upd_iff])
      | (with_reducible apply finishDesc_kept) | (with_reducible apply resumeCommit_kept)
      | (with_reducible apply State.modCtx_kept) | (with_reducible apply Kept.foldl)
      | (with_reducible apply Kept.foldlPair) | (with_reducible apply Kept.foldlPair2)
      | (refine Kept.of_pair (by with_reducible assumption) ?_) | (intro _) | split | (dsimp only))

theorem abortDesc_kept {r0 : State} (c : CtxId) (i : Nat) (s : State)
    (k0 : Kept r0 s) : Kept r0 (abortDesc c i s) := by
  unfold abortDesc
  repeat' (first
      | (with_reducible assumption) | (with_reducible simp only [Kept.upd_iff]) | (with_reducible apply endDesc_kept)
      | (with_reducible apply State.modCtx_kept) | (with_reducible apply Kept.foldl)
      | (with_reducible apply Kept.foldlPair) | (with_reducible apply Kept.foldlPair2)
      | (refine Kept.of_pair (by with_reducible assumption) ?_) | (intro _) | split | (dsimp only))

theorem moveGranules_kept {r0 : State} (c : CtxId) (i total : Nat) (b : List Byte) (read : List Nat → State → Option (List Byte) × State) (h_read : ∀ a0 t, Kept r0 t → Kept r0 (read a0 t).2) :
    ∀ (y0 : Nat) (y1 : State), Kept r0 y1 → Kept r0 (moveGranules c i total b read y0 y1) := by
  intro y0
  induction y0 with
  | zero =>
    intro y1 k0
    unfold moveGranules
    repeat' (first
        | (with_reducible assumption) | (with_reducible simp only [Kept.upd_iff]) | (with_reducible apply h_read)
        | (with_reducible apply endDesc_kept) | (with_reducible apply putPattern_kept)
        | (with_reducible apply putMany_kept) | (with_reducible apply State.modCtx_kept)
        | (with_reducible apply Kept.foldl) | (with_reducible apply Kept.foldlPair)
        | (with_reducible apply Kept.foldlPair2)
        | (refine Kept.of_pair (p := putPattern _ _ _ _) (by with_reducible assumption) ?_)
        | (refine Kept.of_pair (p := putMany _ _ _ _ _) (by with_reducible assumption) ?_)
        | (refine Kept.of_pair (by with_reducible assumption) ?_) | (intro _) | split | (dsimp only))
  | succ n ih =>
    intro y1 k0
    unfold moveGranules
    repeat' (first
        | (with_reducible assumption) | (with_reducible simp only [Kept.upd_iff]) | (with_reducible apply ih)
        | (with_reducible apply h_read) | (with_reducible apply endDesc_kept) | (with_reducible apply putPattern_kept)
        | (with_reducible apply putMany_kept) | (with_reducible apply State.modCtx_kept)
        | (with_reducible apply Kept.foldl) | (with_reducible apply Kept.foldlPair)
        | (with_reducible apply Kept.foldlPair2)
        | (refine Kept.of_pair (p := putPattern _ _ _ _) (by with_reducible assumption) ?_)
        | (refine Kept.of_pair (p := putMany _ _ _ _ _) (by with_reducible assumption) ?_)
        | (refine Kept.of_pair (by with_reducible assumption) ?_) | (intro _) | split | (dsimp only))

theorem runCopy_kept {r0 : State} (c : CtxId) (i : Nat) (d : DescState) (s : State)
    (k0 : Kept r0 s) : Kept r0 (runCopy c i d s) := by
  unfold runCopy
  repeat' (first
      | (with_reducible assumption) | (with_reducible simp only [Kept.upd_iff])
      | (with_reducible apply moveGranules_kept) | (with_reducible apply readMoved_kept)
      | (with_reducible apply Kept.foldl) | (with_reducible apply Kept.foldlPair)
      | (with_reducible apply Kept.foldlPair2)
      | (refine Kept.of_pair (p := readMoved _ _ _ _) (by with_reducible assumption) ?_)
      | (refine Kept.of_pair (by with_reducible assumption) ?_) | (intro _) | split | (dsimp only))

theorem readBuddy_kept {r0 : State} (c : CtxId) (offs : List Nat) (s : State)
    (k0 : Kept r0 s) : Kept r0 (readBuddy c offs s).2 := by
  unfold readBuddy
  repeat' (first
      | (with_reducible assumption) | (with_reducible simp only [Kept.upd_iff]) | (with_reducible apply fillFree_kept)
      | (with_reducible apply keepMark_kept) | (with_reducible apply eccRead_kept) | (with_reducible apply Kept.foldl)
      | (with_reducible apply Kept.foldlPair) | (with_reducible apply Kept.foldlPair2)
      | (refine Kept.of_pair (p := fillFree _ _) (by with_reducible assumption) ?_)
      | (refine Kept.of_pair (by with_reducible assumption) ?_) | (intro _) | split | (dsimp only))

theorem runBuddyRead_kept {r0 : State} (c : CtxId) (i : Nat) (d : DescState) (s : State)
    (k0 : Kept r0 s) : Kept r0 (runBuddyRead c i d s) := by
  unfold runBuddyRead
  repeat' (first
      | (with_reducible assumption) | (with_reducible simp only [Kept.upd_iff])
      | (with_reducible apply moveGranules_kept) | (with_reducible apply readBuddy_kept)
      | (with_reducible apply Kept.foldl) | (with_reducible apply Kept.foldlPair)
      | (with_reducible apply Kept.foldlPair2)
      | (refine Kept.of_pair (p := readBuddy _ _ _) (by with_reducible assumption) ?_)
      | (refine Kept.of_pair (by with_reducible assumption) ?_) | (intro _) | split | (dsimp only))

theorem noteSent_kept {r0 : State} (c : CtxId) (i : Nat) (uid : U64) (w : U32) (s : State)
    (k0 : Kept r0 s) : Kept r0 (noteSent c i uid w s) := by
  unfold noteSent
  repeat' (first
      | (with_reducible assumption) | (with_reducible simp only [Kept.upd_iff])
      | (with_reducible apply State.modCtx_kept) | (with_reducible apply Kept.foldl)
      | (with_reducible apply Kept.foldlPair) | (with_reducible apply Kept.foldlPair2)
      | (refine Kept.of_pair (by with_reducible assumption) ?_) | (intro _) | split | (dsimp only))

theorem sendRemote_kept {r0 : State} (c : CtxId) (i : Nat) (g : GroupSlot) (b : List Byte) (off : Nat) (bs : List Byte) (s : State)
    (k0 : Kept r0 s) : Kept r0 (sendRemote c i g b off bs s) := by
  unfold sendRemote
  repeat' (first
      | (with_reducible assumption) | (with_reducible simp only [Kept.upd_iff]) | (with_reducible apply nextWseq_kept)
      | (with_reducible apply noteSent_kept) | (with_reducible apply sendPacket_kept)
      | (with_reducible apply Kept.foldl) | (with_reducible apply Kept.foldlPair)
      | (with_reducible apply Kept.foldlPair2)
      | (refine Kept.of_pair (p := nextWseq _ _ _) (by with_reducible assumption) ?_)
      | (refine Kept.of_pair (by with_reducible assumption) ?_) | (intro _) | split | (dsimp only))

theorem sendPackets_kept {r0 : State} (c : CtxId) (i : Nat) (g : GroupSlot) (b : List Byte) :
    ∀ (y0 : Nat) (y1 : State), Kept r0 y1 → Kept r0 (sendPackets c i g b y0 y1) := by
  intro y0
  induction y0 with
  | zero =>
    intro y1 k0
    unfold sendPackets
    repeat' (first
        | (with_reducible assumption) | (with_reducible simp only [Kept.upd_iff])
        | (with_reducible apply readMoved_kept) | (with_reducible apply sendRemote_kept)
        | (with_reducible apply Kept.foldl) | (with_reducible apply Kept.foldlPair)
        | (with_reducible apply Kept.foldlPair2)
        | (refine Kept.of_pair (p := readMoved _ _ _ _) (by with_reducible assumption) ?_)
        | (refine Kept.of_pair (by with_reducible assumption) ?_) | (intro _) | split | (dsimp only))
  | succ n ih =>
    intro y1 k0
    unfold sendPackets
    repeat' (first
        | (with_reducible assumption) | (with_reducible simp only [Kept.upd_iff]) | (with_reducible apply ih)
        | (with_reducible apply readMoved_kept) | (with_reducible apply sendRemote_kept)
        | (with_reducible apply Kept.foldl) | (with_reducible apply Kept.foldlPair)
        | (with_reducible apply Kept.foldlPair2)
        | (refine Kept.of_pair (p := readMoved _ _ _ _) (by with_reducible assumption) ?_)
        | (refine Kept.of_pair (by with_reducible assumption) ?_) | (intro _) | split | (dsimp only))

theorem runRemote_kept {r0 : State} (c : CtxId) (i : Nat) (d : DescState) (s : State)
    (k0 : Kept r0 s) : Kept r0 (runRemote c i d s) := by
  unfold runRemote
  repeat' (first
      | (with_reducible assumption) | (with_reducible simp only [Kept.upd_iff])
      | (with_reducible apply sendPackets_kept) | (with_reducible apply endDesc_kept)
      | (with_reducible apply Kept.foldl) | (with_reducible apply Kept.foldlPair)
      | (with_reducible apply Kept.foldlPair2) | (refine Kept.of_pair (by with_reducible assumption) ?_) | (intro _)
      | split | (dsimp only))

theorem sendBuddy_kept {r0 : State} (c : CtxId) (i : Nat) (l : LinkId) (rel : Bool) (off : Nat) (bs : List Byte) (s : State)
    (k0 : Kept r0 s) : Kept r0 (sendBuddy c i l rel off bs s) := by
  unfold sendBuddy
  repeat' (first
      | (with_reducible assumption) | (with_reducible simp only [Kept.upd_iff]) | (with_reducible apply nextWseq_kept)
      | (with_reducible apply noteSent_kept) | (with_reducible apply State.modLink_kept)
      | (with_reducible apply Kept.foldl) | (with_reducible apply Kept.foldlPair)
      | (with_reducible apply Kept.foldlPair2)
      | (refine Kept.of_pair (p := nextWseq _ _ _) (by with_reducible assumption) ?_)
      | (refine Kept.of_pair (by with_reducible assumption) ?_) | (intro _) | split | (dsimp only))

theorem streamRegions_kept {r0 : State} (c : CtxId) (i : Nat) (regions : List (Nat × Nat)) (total : Nat) :
    ∀ (y0 : Nat) (y1 : State), Kept r0 y1 → Kept r0 (streamRegions c i regions total y0 y1) := by
  intro y0
  induction y0 with
  | zero =>
    intro y1 k0
    unfold streamRegions
    repeat' (first
        | (with_reducible assumption) | (with_reducible simp only [Kept.upd_iff])
        | (with_reducible apply resumeCommit_kept) | (with_reducible apply State.modCtx_kept)
        | (with_reducible apply sendBuddy_kept) | (with_reducible apply readMoved_kept)
        | (with_reducible apply Kept.foldl) | (with_reducible apply Kept.foldlPair)
        | (with_reducible apply Kept.foldlPair2)
        | (refine Kept.of_pair (p := readMoved _ _ _ _) (by with_reducible assumption) ?_)
        | (refine Kept.of_pair (by with_reducible assumption) ?_) | (intro _) | split | (dsimp only))
  | succ n ih =>
    intro y1 k0
    unfold streamRegions
    repeat' (first
        | (with_reducible assumption) | (with_reducible simp only [Kept.upd_iff]) | (with_reducible apply ih)
        | (with_reducible apply resumeCommit_kept) | (with_reducible apply State.modCtx_kept)
        | (with_reducible apply sendBuddy_kept) | (with_reducible apply readMoved_kept)
        | (with_reducible apply Kept.foldl) | (with_reducible apply Kept.foldlPair)
        | (with_reducible apply Kept.foldlPair2)
        | (refine Kept.of_pair (p := readMoved _ _ _ _) (by with_reducible assumption) ?_)
        | (refine Kept.of_pair (by with_reducible assumption) ?_) | (intro _) | split | (dsimp only))

theorem streamOn_kept {r0 : State} (c : CtxId) (i : Nat) (s : State)
    (k0 : Kept r0 s) : Kept r0 (streamOn c i s) := by
  unfold streamOn
  repeat' (first
      | (with_reducible assumption) | (with_reducible simp only [Kept.upd_iff])
      | (with_reducible apply streamRegions_kept) | (with_reducible apply sendBuddy_kept)
      | (with_reducible apply endDesc_kept) | (with_reducible apply Kept.foldl)
      | (with_reducible apply Kept.foldlPair) | (with_reducible apply Kept.foldlPair2)
      | (refine Kept.of_pair (by with_reducible assumption) ?_) | (intro _) | split | (dsimp only))

theorem runCheckpoint_kept {r0 : State} (c : CtxId) (i : Nat) (d : DescState) (s : State)
    (k0 : Kept r0 s) : Kept r0 (runCheckpoint c i d s) := by
  unfold runCheckpoint
  repeat' (first
      | (with_reducible assumption) | (with_reducible simp only [Kept.upd_iff]) | (with_reducible apply streamOn_kept)
      | (with_reducible apply readMoved_kept) | (with_reducible apply State.modCtx_kept)
      | (with_reducible apply Kept.foldl) | (with_reducible apply Kept.foldlPair)
      | (with_reducible apply Kept.foldlPair2)
      | (refine Kept.of_pair (p := readMoved _ _ _ _) (by with_reducible assumption) ?_)
      | (refine Kept.of_pair (by with_reducible assumption) ?_) | (intro _) | split | (dsimp only))

theorem runDesc_kept {r0 : State} (c : CtxId) (i : Nat) (s : State)
    (k0 : Kept r0 s) : Kept r0 (runDesc c i s) := by
  unfold runDesc
  repeat' (first
      | (with_reducible assumption) | (with_reducible simp only [Kept.upd_iff]) | (with_reducible apply runCopy_kept)
      | (with_reducible apply runRemote_kept) | (with_reducible apply endDesc_kept)
      | (with_reducible apply runCheckpoint_kept) | (with_reducible apply runBuddyRead_kept)
      | (with_reducible apply Kept.foldl) | (with_reducible apply Kept.foldlPair)
      | (with_reducible apply Kept.foldlPair2) | (refine Kept.of_pair (by with_reducible assumption) ?_) | (intro _)
      | split | (dsimp only))

theorem startDesc_kept {r0 : State} (c : CtxId) (i : Nat) (s : State)
    (k0 : Kept r0 s) : Kept r0 (startDesc c i s) := by
  unfold startDesc
  repeat' (first
      | (with_reducible assumption) | (with_reducible simp only [Kept.upd_iff]) | (with_reducible apply runDesc_kept)
      | (with_reducible apply State.modCtx_kept) | (with_reducible apply Kept.foldl)
      | (with_reducible apply Kept.foldlPair) | (with_reducible apply Kept.foldlPair2)
      | (refine Kept.of_pair (by with_reducible assumption) ?_) | (intro _) | split | (dsimp only))

theorem openDesc_kept {r0 : State} (c : CtxId) (i : Nat) (d : DescState) (s : State)
    (k0 : Kept r0 s) : Kept r0 (openDesc c i d s) := by
  unfold openDesc
  repeat' (first
      | (with_reducible assumption) | (with_reducible simp only [Kept.upd_iff]) | (with_reducible apply endDesc_kept)
      | (with_reducible apply violate_kept) | (with_reducible apply waitSem_kept)
      | (with_reducible apply State.modCtx_kept) | (with_reducible apply startDesc_kept)
      | (with_reducible apply Kept.foldl) | (with_reducible apply Kept.foldlPair)
      | (with_reducible apply Kept.foldlPair2) | (refine Kept.of_pair (by with_reducible assumption) ?_) | (intro _)
      | split | (dsimp only))

theorem goOn_kept {r0 : State} (c : CtxId) (i : Nat) (s : State)
    (k0 : Kept r0 s) : Kept r0 (goOn c i s) := by
  unfold goOn
  repeat' (first
      | (with_reducible assumption) | (with_reducible simp only [Kept.upd_iff])
      | (with_reducible apply finishDesc_kept) | (with_reducible apply runDesc_kept)
      | (with_reducible apply openDesc_kept) | (with_reducible apply Kept.foldl)
      | (with_reducible apply Kept.foldlPair) | (with_reducible apply Kept.foldlPair2)
      | (refine Kept.of_pair (by with_reducible assumption) ?_) | (intro _) | split | (dsimp only))

theorem doDesc_kept {r0 : State} (accepts : Nat → Bool) (c : CtxId) (i : Nat) (s : State)
    (k0 : Kept r0 s) : Kept r0 (doDesc accepts c i s) := by
  unfold doDesc
  repeat' (first
      | (with_reducible assumption) | (with_reducible simp only [Kept.upd_iff]) | (with_reducible apply goOn_kept)
      | (with_reducible apply readMoved_kept) | (with_reducible apply State.modCtx_kept)
      | (with_reducible apply Kept.foldl) | (with_reducible apply Kept.foldlPair)
      | (with_reducible apply Kept.foldlPair2)
      | (refine Kept.of_pair (p := readMoved _ _ _ _) (by with_reducible assumption) ?_)
      | (refine Kept.of_pair (by with_reducible assumption) ?_) | (intro _) | split | (dsimp only))

theorem execCopy_kept (c : CtxId) (i : Nat) (s : State) :
    KeptOut s (execCopy c i s) := by
  have k0 := Kept.refl s
  unfold execCopy
  repeat' (first
      | (with_reducible assumption) | (with_reducible simp only [Kept.upd_iff]) | (with_reducible apply KeptOut.next)
      | (with_reducible apply KeptOut.refused) | (with_reducible apply doDesc_kept)
      | (with_reducible apply Kept.foldl) | (with_reducible apply Kept.foldlPair)
      | (with_reducible apply Kept.foldlPair2) | (refine Kept.of_pair (by with_reducible assumption) ?_) | (intro _)
      | split | (dsimp only))

theorem execPatternCopy_kept (c : CtxId) (i : Nat) (s : State) :
    KeptOut s (execPatternCopy c i s) := by
  have k0 := Kept.refl s
  unfold execPatternCopy
  repeat' (first
      | (with_reducible assumption) | (with_reducible simp only [Kept.upd_iff]) | (with_reducible apply KeptOut.next)
      | (with_reducible apply KeptOut.refused) | (with_reducible apply doDesc_kept)
      | (with_reducible apply Kept.foldl) | (with_reducible apply Kept.foldlPair)
      | (with_reducible apply Kept.foldlPair2) | (refine Kept.of_pair (by with_reducible assumption) ?_) | (intro _)
      | split | (dsimp only))

theorem execRemote_kept (c : CtxId) (i : Nat) (s : State) :
    KeptOut s (execRemote c i s) := by
  have k0 := Kept.refl s
  unfold execRemote
  repeat' (first
      | (with_reducible assumption) | (with_reducible simp only [Kept.upd_iff]) | (with_reducible apply KeptOut.next)
      | (with_reducible apply KeptOut.refused) | (with_reducible apply doDesc_kept)
      | (with_reducible apply Kept.foldl) | (with_reducible apply Kept.foldlPair)
      | (with_reducible apply Kept.foldlPair2) | (refine Kept.of_pair (by with_reducible assumption) ?_) | (intro _)
      | split | (dsimp only))

theorem execSyncDesc_kept (c : CtxId) (i : Nat) (s : State) :
    KeptOut s (execSyncDesc c i s) := by
  have k0 := Kept.refl s
  unfold execSyncDesc
  repeat' (first
      | (with_reducible assumption) | (with_reducible simp only [Kept.upd_iff]) | (with_reducible apply KeptOut.next)
      | (with_reducible apply KeptOut.refused) | (with_reducible apply doDesc_kept)
      | (with_reducible apply Kept.foldl) | (with_reducible apply Kept.foldlPair)
      | (with_reducible apply Kept.foldlPair2) | (refine Kept.of_pair (by with_reducible assumption) ?_) | (intro _)
      | split | (dsimp only))

theorem execCheckpoint_kept (c : CtxId) (i : Nat) (s : State) :
    KeptOut s (execCheckpoint c i s) := by
  have k0 := Kept.refl s
  unfold execCheckpoint
  repeat' (first
      | (with_reducible assumption) | (with_reducible simp only [Kept.upd_iff]) | (with_reducible apply KeptOut.next)
      | (with_reducible apply KeptOut.refused) | (with_reducible apply doDesc_kept)
      | (with_reducible apply Kept.foldl) | (with_reducible apply Kept.foldlPair)
      | (with_reducible apply Kept.foldlPair2) | (refine Kept.of_pair (by with_reducible assumption) ?_) | (intro _)
      | split | (dsimp only))

theorem execBuddyRead_kept (c : CtxId) (i : Nat) (s : State) :
    KeptOut s (execBuddyRead c i s) := by
  have k0 := Kept.refl s
  unfold execBuddyRead
  repeat' (first
      | (with_reducible assumption) | (with_reducible simp only [Kept.upd_iff]) | (with_reducible apply KeptOut.next)
      | (with_reducible apply KeptOut.refused) | (with_reducible apply doDesc_kept)
      | (with_reducible apply Kept.foldl) | (with_reducible apply Kept.foldlPair)
      | (with_reducible apply Kept.foldlPair2) | (refine Kept.of_pair (by with_reducible assumption) ?_) | (intro _)
      | split | (dsimp only))

theorem doDmaTail_kept {r0 : State} (c : CtxId) (index : U16) (s : State)
    (k0 : Kept r0 s) : Kept r0 (doDmaTail c index s) := by
  unfold doDmaTail
  repeat' (first
      | (with_reducible assumption) | (with_reducible simp only [Kept.upd_iff]) | (with_reducible apply violate_kept)
      | (with_reducible apply State.setCtx_kept) | (with_reducible apply Kept.foldl)
      | (with_reducible apply Kept.foldlPair) | (with_reducible apply Kept.foldlPair2)
      | (refine Kept.of_pair (by with_reducible assumption) ?_) | (intro _) | split | (dsimp only))

theorem execDmaTail_kept (fn : FnId) (c : CtxId) (index : U16) (s : State) :
    KeptOut s (execDmaTail fn c index s) := by
  have k0 := Kept.refl s
  unfold execDmaTail
  repeat' (first
      | (with_reducible assumption) | (with_reducible simp only [Kept.upd_iff]) | (with_reducible apply KeptOut.next)
      | (with_reducible apply KeptOut.refused) | (with_reducible apply ctxPort_kept)
      | (with_reducible apply doDmaTail_kept) | (with_reducible apply Kept.foldl)
      | (with_reducible apply Kept.foldlPair) | (with_reducible apply Kept.foldlPair2)
      | (refine Kept.of_pair (by with_reducible assumption) ?_) | (intro _) | split | (dsimp only))

theorem countDmaStray_kept {r0 : State} (s : State)
    (k0 : Kept r0 s) : Kept r0 (countDmaStray s) := by
  unfold countDmaStray
  repeat' (first
      | (with_reducible assumption) | (with_reducible simp only [Kept.upd_iff])
      | (with_reducible apply State.modGlb_kept) | (with_reducible apply Kept.foldl)
      | (with_reducible apply Kept.foldlPair) | (with_reducible apply Kept.foldlPair2)
      | (refine Kept.of_pair (by with_reducible assumption) ?_) | (intro _) | split | (dsimp only))

theorem sendAck_kept {r0 : State} (uid : U64) (h : RemoteHdr) (s : State)
    (k0 : Kept r0 s) : Kept r0 (sendAck uid h s) := by
  unfold sendAck
  repeat' (first
      | (with_reducible assumption) | (with_reducible simp only [Kept.upd_iff])
      | (with_reducible apply sendPacket_kept) | (with_reducible apply Kept.foldl)
      | (with_reducible apply Kept.foldlPair) | (with_reducible apply Kept.foldlPair2)
      | (refine Kept.of_pair (by with_reducible assumption) ?_) | (intro _) | split | (dsimp only))

theorem holdRemote_kept {r0 : State} (c : CtxId) (i : Instr) (s : State)
    (k0 : Kept r0 s) : Kept r0 (holdRemote c i s) := by
  unfold holdRemote
  repeat' (first
      | (with_reducible assumption) | (with_reducible simp only [Kept.upd_iff])
      | (with_reducible apply State.modCtx_kept) | (with_reducible apply Kept.foldl)
      | (with_reducible apply Kept.foldlPair) | (with_reducible apply Kept.foldlPair2)
      | (refine Kept.of_pair (by with_reducible assumption) ?_) | (intro _) | split | (dsimp only))

theorem commitRemote_kept {r0 : State} (c : CtxId) (l : LinkId) (h : RemoteHdr) (bs : List Byte) (s : State)
    (k0 : Kept r0 s) : Kept r0 (commitRemote c l h bs s) := by
  unfold commitRemote
  repeat' (first
      | (with_reducible assumption) | (with_reducible simp only [Kept.upd_iff])
      | (with_reducible apply holdRemote_kept) | (with_reducible apply putVa_kept)
      | (with_reducible apply sendAck_kept) | (with_reducible apply settleSeq_kept)
      | (with_reducible apply Kept.foldl) | (with_reducible apply Kept.foldlPair)
      | (with_reducible apply Kept.foldlPair2)
      | (refine Kept.of_pair (p := putVa _ _ _ _ _ _) (by with_reducible assumption) ?_)
      | (refine Kept.of_pair (by with_reducible assumption) ?_) | (intro _) | split | (dsimp only))

theorem putBuddy_kept {r0 : State} :
    ∀ (y0 : Nat) (y1 : Nat) (y2 : List Byte) (y3 : State), Kept r0 y3 → Kept r0 (putBuddy y0 y1 y2 y3) := by
  intro y0
  induction y0 with
  | zero =>
    intro y1 y2 y3 k0
    unfold putBuddy
    repeat' (first
        | (with_reducible assumption) | (with_reducible simp only [Kept.upd_iff])
        | (with_reducible apply devWrite_kept) | (with_reducible apply Kept.foldl)
        | (with_reducible apply Kept.foldlPair) | (with_reducible apply Kept.foldlPair2)
        | (refine Kept.of_pair (by with_reducible assumption) ?_) | (intro _) | split | (dsimp only))
  | succ n ih =>
    intro y1 y2 y3 k0
    unfold putBuddy
    repeat' (first
        | (with_reducible assumption) | (with_reducible simp only [Kept.upd_iff]) | (with_reducible apply ih)
        | (with_reducible apply devWrite_kept) | (with_reducible apply Kept.foldl)
        | (with_reducible apply Kept.foldlPair) | (with_reducible apply Kept.foldlPair2)
        | (refine Kept.of_pair (by with_reducible assumption) ?_) | (intro _) | split | (dsimp only))

theorem commitBuddy_kept {r0 : State} (l : LinkId) (h : RemoteHdr) (bs : List Byte) (s : State)
    (k0 : Kept r0 s) : Kept r0 (commitBuddy l h bs s) := by
  unfold commitBuddy
  repeat' (first
      | (with_reducible assumption) | (with_reducible simp only [Kept.upd_iff]) | (with_reducible apply sendAck_kept)
      | (with_reducible apply settleSeq_kept) | (with_reducible apply putBuddy_kept)
      | (with_reducible apply Kept.foldl) | (with_reducible apply Kept.foldlPair)
      | (with_reducible apply Kept.foldlPair2) | (refine Kept.of_pair (by with_reducible assumption) ?_) | (intro _)
      | split | (dsimp only))

theorem retryBuddy_kept {r0 : State} (s : State)
    (k0 : Kept r0 s) : Kept r0 (retryBuddy s) := by
  unfold retryBuddy
  repeat' (first
      | (with_reducible assumption) | (with_reducible simp only [Kept.upd_iff])
      | (with_reducible apply commitBuddy_kept) | (with_reducible apply Kept.foldl)
      | (with_reducible apply Kept.foldlPair) | (with_reducible apply Kept.foldlPair2)
      | (refine Kept.of_pair (by with_reducible assumption) ?_) | (intro _) | split | (dsimp only))

theorem retryWrites_kept {r0 : State} (c : CtxId) (s : State)
    (k0 : Kept r0 s) : Kept r0 (retryWrites c s) := by
  unfold retryWrites
  repeat' (first
      | (with_reducible assumption) | (with_reducible simp only [Kept.upd_iff])
      | (with_reducible apply commitRemote_kept) | (with_reducible apply State.modCtx_kept)
      | (with_reducible apply Kept.foldl) | (with_reducible apply Kept.foldlPair)
      | (with_reducible apply Kept.foldlPair2) | (refine Kept.of_pair (by with_reducible assumption) ?_) | (intro _)
      | split | (dsimp only))

theorem retryHeld_kept {r0 : State} :
    ∀ (y0 : Nat) (y1 : State), Kept r0 y1 → Kept r0 (retryHeld y0 y1) := by
  intro y0
  induction y0 with
  | zero =>
    intro y1 k0
    unfold retryHeld
    repeat' (first
        | (with_reducible assumption) | (with_reducible simp only [Kept.upd_iff])
        | (with_reducible apply retryBuddy_kept) | (with_reducible apply State.each_kept)
        | (with_reducible apply retryWrites_kept) | (with_reducible apply Kept.foldl)
        | (with_reducible apply Kept.foldlPair) | (with_reducible apply Kept.foldlPair2)
        | (refine Kept.of_pair (by with_reducible assumption) ?_) | (intro _) | split | (dsimp only))
  | succ n ih =>
    intro y1 k0
    unfold retryHeld
    repeat' (first
        | (with_reducible assumption) | (with_reducible simp only [Kept.upd_iff]) | (with_reducible apply ih)
        | (with_reducible apply retryBuddy_kept) | (with_reducible apply State.each_kept)
        | (with_reducible apply retryWrites_kept) | (with_reducible apply Kept.foldl)
        | (with_reducible apply Kept.foldlPair) | (with_reducible apply Kept.foldlPair2)
        | (refine Kept.of_pair (by with_reducible assumption) ?_) | (intro _) | split | (dsimp only))

theorem thenHeld_kept {r0 : State} (s : State)
    (k0 : Kept r0 s) : Kept r0 (thenHeld s) := by
  unfold thenHeld
  repeat' (first
      | (with_reducible assumption) | (with_reducible simp only [Kept.upd_iff])
      | (with_reducible apply retryHeld_kept) | (with_reducible apply Kept.foldl)
      | (with_reducible apply Kept.foldlPair) | (with_reducible apply Kept.foldlPair2)
      | (refine Kept.of_pair (by with_reducible assumption) ?_) | (intro _) | split | (dsimp only))

theorem doRemoteWrite_kept {r0 : State} (l : LinkId) (h : RemoteHdr) (bs : List Byte) (s : State)
    (k0 : Kept r0 s) : Kept r0 (doRemoteWrite l h bs s) := by
  unfold doRemoteWrite
  repeat' (first
      | (with_reducible assumption) | (with_reducible simp only [Kept.upd_iff])
      | (with_reducible apply countDmaStray_kept) | (with_reducible apply holdRemote_kept)
      | (with_reducible apply thenHeld_kept) | (with_reducible apply commitRemote_kept)
      | (with_reducible apply Kept.foldl) | (with_reducible apply Kept.foldlPair)
      | (with_reducible apply Kept.foldlPair2) | (refine Kept.of_pair (by with_reducible assumption) ?_) | (intro _)
      | split | (dsimp only))

theorem execRemoteWrite_kept (l : LinkId) (h : RemoteHdr) (bytes : List Byte) (s : State) :
    KeptOut s (execRemoteWrite l h bytes s) := by
  have k0 := Kept.refl s
  unfold execRemoteWrite
  repeat' (first
      | (with_reducible assumption) | (with_reducible simp only [Kept.upd_iff]) | (with_reducible apply KeptOut.next)
      | (with_reducible apply KeptOut.refused) | (with_reducible apply doRemoteWrite_kept)
      | (with_reducible apply Kept.foldl) | (with_reducible apply Kept.foldlPair)
      | (with_reducible apply Kept.foldlPair2) | (refine Kept.of_pair (by with_reducible assumption) ?_) | (intro _)
      | split | (dsimp only))

theorem doBuddyWrite_kept {r0 : State} (l : LinkId) (h : RemoteHdr) (bs : List Byte) (s : State)
    (k0 : Kept r0 s) : Kept r0 (doBuddyWrite l h bs s) := by
  unfold doBuddyWrite
  repeat' (first
      | (with_reducible assumption) | (with_reducible simp only [Kept.upd_iff])
      | (with_reducible apply countDmaStray_kept) | (with_reducible apply thenHeld_kept)
      | (with_reducible apply commitBuddy_kept) | (with_reducible apply Kept.foldl)
      | (with_reducible apply Kept.foldlPair) | (with_reducible apply Kept.foldlPair2)
      | (refine Kept.of_pair (by with_reducible assumption) ?_) | (intro _) | split | (dsimp only))

theorem execBuddyWrite_kept (l : LinkId) (h : RemoteHdr) (bytes : List Byte) (s : State) :
    KeptOut s (execBuddyWrite l h bytes s) := by
  have k0 := Kept.refl s
  unfold execBuddyWrite
  repeat' (first
      | (with_reducible assumption) | (with_reducible simp only [Kept.upd_iff]) | (with_reducible apply KeptOut.next)
      | (with_reducible apply KeptOut.refused) | (with_reducible apply doBuddyWrite_kept)
      | (with_reducible apply Kept.foldl) | (with_reducible apply Kept.foldlPair)
      | (with_reducible apply Kept.foldlPair2) | (refine Kept.of_pair (by with_reducible assumption) ?_) | (intro _)
      | split | (dsimp only))

theorem retryRemote_kept {r0 : State} (c : CtxId) (s : State)
    (k0 : Kept r0 s) : Kept r0 (retryRemote c s) := by
  unfold retryRemote
  repeat' (first
      | (with_reducible assumption) | (with_reducible simp only [Kept.upd_iff]) | (with_reducible apply thenHeld_kept)
      | (with_reducible apply retryWrites_kept) | (with_reducible apply Kept.foldl)
      | (with_reducible apply Kept.foldlPair) | (with_reducible apply Kept.foldlPair2)
      | (refine Kept.of_pair (by with_reducible assumption) ?_) | (intro _) | split | (dsimp only))

theorem execSyncSignal_kept (u1 : LinkId) (p : SyncPkt) (s : State) :
    KeptOut s (execSyncSignal u1 p s) := by
  have k0 := Kept.refl s
  unfold execSyncSignal
  repeat' (first
      | (with_reducible assumption) | (with_reducible simp only [Kept.upd_iff]) | (with_reducible apply KeptOut.next)
      | (with_reducible apply KeptOut.refused) | (with_reducible apply thenHeld_kept)
      | (with_reducible apply doSyncSignal_kept) | (with_reducible apply noteSeq_kept)
      | (with_reducible apply Kept.foldl) | (with_reducible apply Kept.foldlPair)
      | (with_reducible apply Kept.foldlPair2) | (refine Kept.of_pair (by with_reducible assumption) ?_) | (intro _)
      | split | (dsimp only))

theorem execArrive_kept (u1 : LinkId) (p : SyncPkt) (s : State) :
    KeptOut s (execArrive u1 p s) := by
  have k0 := Kept.refl s
  unfold execArrive
  repeat' (first
      | (with_reducible assumption) | (with_reducible simp only [Kept.upd_iff]) | (with_reducible apply KeptOut.next)
      | (with_reducible apply KeptOut.refused) | (with_reducible apply thenHeld_kept)
      | (with_reducible apply doArrive_kept) | (with_reducible apply noteSeq_kept) | (with_reducible apply Kept.foldl)
      | (with_reducible apply Kept.foldlPair) | (with_reducible apply Kept.foldlPair2)
      | (refine Kept.of_pair (by with_reducible assumption) ?_) | (intro _) | split | (dsimp only))

theorem doRemoteAck_kept {r0 : State} (uid : U64) (c : CtxId) (wseq : U32) (s : State)
    (k0 : Kept r0 s) : Kept r0 (doRemoteAck uid c wseq s) := by
  unfold doRemoteAck
  repeat' (first
      | (with_reducible assumption) | (with_reducible simp only [Kept.upd_iff])
      | (with_reducible apply State.modCtx_kept) | (with_reducible apply goOn_kept)
      | (with_reducible apply Kept.foldl) | (with_reducible apply Kept.foldlPair)
      | (with_reducible apply Kept.foldlPair2) | (refine Kept.of_pair (by with_reducible assumption) ?_) | (intro _)
      | split | (dsimp only))

theorem execRemoteAck_kept (u1 : LinkId) (uid : U64) (c : CtxId) (wseq : U32) (s : State) :
    KeptOut s (execRemoteAck u1 uid c wseq s) := by
  have k0 := Kept.refl s
  unfold execRemoteAck
  repeat' (first
      | (with_reducible assumption) | (with_reducible simp only [Kept.upd_iff]) | (with_reducible apply KeptOut.next)
      | (with_reducible apply KeptOut.refused) | (with_reducible apply doRemoteAck_kept)
      | (with_reducible apply Kept.foldl) | (with_reducible apply Kept.foldlPair)
      | (with_reducible apply Kept.foldlPair2) | (refine Kept.of_pair (by with_reducible assumption) ?_) | (intro _)
      | split | (dsimp only))

end Sys2Proof.Machine
end

