-- ==== Sys2Proof/Laws/KeptForming.lean ====
section
/-! SUPPORT. What the operations of Forming keep. -/

namespace Sys2Proof.Machine

open Sys2Proof

set_option linter.unusedSimpArgs false

theorem formEvent_kept {r0 : State} (c : CtxId) (g : SlotId) (s : State)
    (k0 : Kept r0 s) : Kept r0 (formEvent c g s) := by
  unfold formEvent
  repeat' (first
      | (with_reducible assumption) | (with_reducible simp only [Kept.upd_iff]) | (with_reducible apply ctxEvent_kept)
      | (with_reducible apply Kept.foldl) | (with_reducible apply Kept.foldlPair)
      | (with_reducible apply Kept.foldlPair2) | (refine Kept.of_pair (by with_reducible assumption) ?_) | (intro _)
      | split | (dsimp only))

theorem refuseSlot_kept {r0 : State} (c : CtxId) (g : SlotId) (reason who : Nat) (s : State)
    (k0 : Kept r0 s) : Kept r0 (refuseSlot c g reason who s) := by
  unfold refuseSlot
  repeat' (first
      | (with_reducible assumption) | (with_reducible simp only [Kept.upd_iff])
      | (with_reducible apply formEvent_kept) | (with_reducible apply State.modCtx_kept)
      | (with_reducible apply Kept.foldl) | (with_reducible apply Kept.foldlPair)
      | (with_reducible apply Kept.foldlPair2) | (refine Kept.of_pair (by with_reducible assumption) ?_) | (intro _)
      | split | (dsimp only))

theorem formSlot_kept {r0 : State} (c : CtxId) (g : SlotId) (s : State)
    (k0 : Kept r0 s) : Kept r0 (formSlot c g s) := by
  unfold formSlot
  repeat' (first
      | (with_reducible assumption) | (with_reducible simp only [Kept.upd_iff])
      | (with_reducible apply formEvent_kept) | (with_reducible apply State.modCtx_kept)
      | (with_reducible apply Kept.foldl) | (with_reducible apply Kept.foldlPair)
      | (with_reducible apply Kept.foldlPair2) | (refine Kept.of_pair (by with_reducible assumption) ?_) | (intro _)
      | split | (dsimp only))

theorem refuseLost_kept {r0 : State} (s : State)
    (k0 : Kept r0 s) : Kept r0 (refuseLost s) := by
  unfold refuseLost
  repeat' (first
      | (with_reducible assumption) | (with_reducible simp only [Kept.upd_iff])
      | (with_reducible apply State.each_kept) | (with_reducible apply refuseSlot_kept)
      | (with_reducible apply Kept.foldl) | (with_reducible apply Kept.foldlPair)
      | (with_reducible apply Kept.foldlPair2) | (refine Kept.of_pair (by with_reducible assumption) ?_) | (intro _)
      | split | (dsimp only))

theorem sendToken_kept {r0 : State} (c : CtxId) (g : SlotId) (r : Nat) (s : State)
    (k0 : Kept r0 s) : Kept r0 (sendToken c g r s) := by
  unfold sendToken
  repeat' (first
      | (with_reducible assumption) | (with_reducible simp only [Kept.upd_iff])
      | (with_reducible apply sendPacket_kept) | (with_reducible apply Kept.foldl)
      | (with_reducible apply Kept.foldlPair) | (with_reducible apply Kept.foldlPair2)
      | (refine Kept.of_pair (by with_reducible assumption) ?_) | (intro _) | split | (dsimp only))

theorem tablePages_kept {r0 : State} (c : CtxId) (g : SlotId) :
    ∀ (y0 : List Nat) (y1 : List PageMap) (y2 : State), Kept r0 y2 → Kept r0 (tablePages c g y0 y1 y2).2 := by
  intro y0
  induction y0 with
  | nil =>
    intro y1 y2 k0
    unfold tablePages
    repeat' (first
        | (with_reducible assumption) | (with_reducible simp only [Kept.upd_iff])
        | (with_reducible apply lookupPage_kept) | (with_reducible apply hostWait_kept)
        | (with_reducible apply Kept.foldl) | (with_reducible apply Kept.foldlPair)
        | (with_reducible apply Kept.foldlPair2)
        | (refine Kept.of_pair (p := lookupPage _ _ _) (by with_reducible assumption) ?_)
        | (refine Kept.of_pair (by with_reducible assumption) ?_) | (intro _) | split | (dsimp only))
  | cons z zs ih =>
    intro y1 y2 k0
    unfold tablePages
    repeat' (first
        | (with_reducible assumption) | (with_reducible simp only [Kept.upd_iff]) | (with_reducible apply ih)
        | (with_reducible apply lookupPage_kept) | (with_reducible apply hostWait_kept)
        | (with_reducible apply Kept.foldl) | (with_reducible apply Kept.foldlPair)
        | (with_reducible apply Kept.foldlPair2)
        | (refine Kept.of_pair (p := lookupPage _ _ _) (by with_reducible assumption) ?_)
        | (refine Kept.of_pair (p := tablePages _ _ _ _ _) (by with_reducible assumption) ?_)
        | (refine Kept.of_pair (by with_reducible assumption) ?_) | (intro _) | split | (dsimp only))

theorem takeMembers_kept {r0 : State} (c : CtxId) (g : SlotId) (us : List U64) (digest : U64) (s : State)
    (k0 : Kept r0 s) : Kept r0 (takeMembers c g us digest s) := by
  unfold takeMembers
  repeat' (first
      | (with_reducible assumption) | (with_reducible simp only [Kept.upd_iff])
      | (with_reducible apply State.modCtx_kept) | (with_reducible apply refuseSlot_kept)
      | (with_reducible apply formSlot_kept) | (with_reducible apply State.each_kept)
      | (with_reducible apply sendToken_kept) | (with_reducible apply Kept.foldl)
      | (with_reducible apply Kept.foldlPair) | (with_reducible apply Kept.foldlPair2)
      | (refine Kept.of_pair (by with_reducible assumption) ?_) | (intro _) | split | (dsimp only))

theorem readMembers_kept {r0 : State} (c : CtxId) (g : SlotId) (s : State)
    (k0 : Kept r0 s) : Kept r0 (readMembers c g s) := by
  unfold readMembers
  repeat' (first
      | (with_reducible assumption) | (with_reducible simp only [Kept.upd_iff])
      | (with_reducible apply tablePages_kept) | (with_reducible apply refuseSlot_kept)
      | (with_reducible apply chargeRead_kept) | (with_reducible apply takeMembers_kept)
      | (with_reducible apply Kept.foldl) | (with_reducible apply Kept.foldlPair)
      | (with_reducible apply Kept.foldlPair2)
      | (refine Kept.of_pair (p := tablePages _ _ _ _ _) (by with_reducible assumption) ?_)
      | (refine Kept.of_pair (by with_reducible assumption) ?_) | (intro _) | split | (dsimp only))

theorem retryForms_kept {r0 : State} (c : CtxId) (s : State)
    (k0 : Kept r0 s) : Kept r0 (retryForms c s) := by
  unfold retryForms
  repeat' (first
      | (with_reducible assumption) | (with_reducible simp only [Kept.upd_iff])
      | (with_reducible apply State.each_kept) | (with_reducible apply readMembers_kept)
      | (with_reducible apply Kept.foldl) | (with_reducible apply Kept.foldlPair)
      | (with_reducible apply Kept.foldlPair2) | (refine Kept.of_pair (by with_reducible assumption) ?_) | (intro _)
      | split | (dsimp only))

theorem doForm_kept {r0 : State} (c : CtxId) (g : SlotId) (s : State)
    (k0 : Kept r0 s) : Kept r0 (doForm c g s) := by
  unfold doForm
  repeat' (first
      | (with_reducible assumption) | (with_reducible simp only [Kept.upd_iff]) | (with_reducible apply violate_kept)
      | (with_reducible apply readMembers_kept) | (with_reducible apply State.setCtx_kept)
      | (with_reducible apply Kept.foldl) | (with_reducible apply Kept.foldlPair)
      | (with_reducible apply Kept.foldlPair2) | (refine Kept.of_pair (by with_reducible assumption) ?_) | (intro _)
      | split | (dsimp only))

theorem execForm_kept (fn : FnId) (c : CtxId) (g : SlotId) (s : State) :
    KeptOut s (execForm fn c g s) := by
  have k0 := Kept.refl s
  unfold execForm
  repeat' (first
      | (with_reducible assumption) | (with_reducible simp only [Kept.upd_iff]) | (with_reducible apply KeptOut.next)
      | (with_reducible apply KeptOut.refused) | (with_reducible apply ctxPort_kept)
      | (with_reducible apply doForm_kept) | (with_reducible apply Kept.foldl) | (with_reducible apply Kept.foldlPair)
      | (with_reducible apply Kept.foldlPair2) | (refine Kept.of_pair (by with_reducible assumption) ?_) | (intro _)
      | split | (dsimp only))

theorem doDissolve_kept {r0 : State} (c : CtxId) (g : SlotId) (s : State)
    (k0 : Kept r0 s) : Kept r0 (doDissolve c g s) := by
  unfold doDissolve
  repeat' (first
      | (with_reducible assumption) | (with_reducible simp only [Kept.upd_iff]) | (with_reducible apply violate_kept)
      | (with_reducible apply State.modCtx_kept) | (with_reducible apply Kept.foldl)
      | (with_reducible apply Kept.foldlPair) | (with_reducible apply Kept.foldlPair2)
      | (refine Kept.of_pair (by with_reducible assumption) ?_) | (intro _) | split | (dsimp only))

theorem execDissolve_kept (fn : FnId) (c : CtxId) (g : SlotId) (s : State) :
    KeptOut s (execDissolve fn c g s) := by
  have k0 := Kept.refl s
  unfold execDissolve
  repeat' (first
      | (with_reducible assumption) | (with_reducible simp only [Kept.upd_iff]) | (with_reducible apply KeptOut.next)
      | (with_reducible apply KeptOut.refused) | (with_reducible apply ctxPort_kept)
      | (with_reducible apply doDissolve_kept) | (with_reducible apply Kept.foldl)
      | (with_reducible apply Kept.foldlPair) | (with_reducible apply Kept.foldlPair2)
      | (refine Kept.of_pair (by with_reducible assumption) ?_) | (intro _) | split | (dsimp only))

theorem doTokenRepeat_kept {r0 : State} (c : CtxId) (g : SlotId) (rank : Nat) (s : State)
    (k0 : Kept r0 s) : Kept r0 (doTokenRepeat c g rank s) := by
  unfold doTokenRepeat
  repeat' (first
      | (with_reducible assumption) | (with_reducible simp only [Kept.upd_iff])
      | (with_reducible apply refuseSlot_kept) | (with_reducible apply sendToken_kept)
      | (with_reducible apply Kept.foldl) | (with_reducible apply Kept.foldlPair)
      | (with_reducible apply Kept.foldlPair2) | (refine Kept.of_pair (by with_reducible assumption) ?_) | (intro _)
      | split | (dsimp only))

theorem execTokenRepeat_kept (c : CtxId) (g : SlotId) (rank : Nat) (s : State) :
    KeptOut s (execTokenRepeat c g rank s) := by
  have k0 := Kept.refl s
  unfold execTokenRepeat
  repeat' (first
      | (with_reducible assumption) | (with_reducible simp only [Kept.upd_iff]) | (with_reducible apply KeptOut.next)
      | (with_reducible apply KeptOut.refused) | (with_reducible apply doTokenRepeat_kept)
      | (with_reducible apply Kept.foldl) | (with_reducible apply Kept.foldlPair)
      | (with_reducible apply Kept.foldlPair2) | (refine Kept.of_pair (by with_reducible assumption) ?_) | (intro _)
      | split | (dsimp only))

theorem takeToken_kept {r0 : State} (c : CtxId) (g : SlotId) (t : Token) (s : State)
    (k0 : Kept r0 s) : Kept r0 (takeToken c g t s) := by
  unfold takeToken
  repeat' (first
      | (with_reducible assumption) | (with_reducible simp only [Kept.upd_iff])
      | (with_reducible apply State.modCtx_kept) | (with_reducible apply formSlot_kept)
      | (with_reducible apply sendToken_kept) | (with_reducible apply refuseSlot_kept)
      | (with_reducible apply countStray_kept) | (with_reducible apply Kept.foldl)
      | (with_reducible apply Kept.foldlPair) | (with_reducible apply Kept.foldlPair2)
      | (refine Kept.of_pair (by with_reducible assumption) ?_) | (intro _) | split | (dsimp only))

theorem doCompatibilityToken_kept {r0 : State} (t : Token) (s : State)
    (k0 : Kept r0 s) : Kept r0 (doCompatibilityToken t s) := by
  unfold doCompatibilityToken
  repeat' (first
      | (with_reducible assumption) | (with_reducible simp only [Kept.upd_iff])
      | (with_reducible apply countStray_kept) | (with_reducible apply takeToken_kept)
      | (with_reducible apply Kept.foldl) | (with_reducible apply Kept.foldlPair)
      | (with_reducible apply Kept.foldlPair2) | (refine Kept.of_pair (by with_reducible assumption) ?_) | (intro _)
      | split | (dsimp only))

theorem execCompatibilityToken_kept (u1 : LinkId) (t : Token) (s : State) :
    KeptOut s (execCompatibilityToken u1 t s) := by
  have k0 := Kept.refl s
  unfold execCompatibilityToken
  repeat' (first
      | (with_reducible assumption) | (with_reducible simp only [Kept.upd_iff]) | (with_reducible apply KeptOut.next)
      | (with_reducible apply KeptOut.refused) | (with_reducible apply doCompatibilityToken_kept)
      | (with_reducible apply Kept.foldl) | (with_reducible apply Kept.foldlPair)
      | (with_reducible apply Kept.foldlPair2) | (refine Kept.of_pair (by with_reducible assumption) ?_) | (intro _)
      | split | (dsimp only))

end Sys2Proof.Machine
end

