-- ==== Sys2Proof/Laws/KeptGroups.lean ====
section
/-! SUPPORT. What the operations of Groups keep. -/

namespace Sys2Proof.Machine

open Sys2Proof

set_option linter.unusedSimpArgs false

theorem doAgCommit_kept {r0 : State} (c : CtxId) (bits : BitVec 6) (s : State)
    (k0 : Kept r0 s) : Kept r0 (doAgCommit c bits s) := by
  unfold doAgCommit
  repeat' (first
      | (with_reducible assumption) | (with_reducible simp only [Kept.upd_iff])
      | (with_reducible apply State.setCtx_kept) | (with_reducible apply Kept.foldl)
      | (with_reducible apply Kept.foldlPair) | (with_reducible apply Kept.foldlPair2)
      | (refine Kept.of_pair (by with_reducible assumption) ?_) | (intro _) | split | (dsimp only))

theorem execAgCommit_kept (fn : FnId) (c : CtxId) (groups : BitVec 6) (s : State) :
    KeptOut s (execAgCommit fn c groups s) := by
  have k0 := Kept.refl s
  unfold execAgCommit
  repeat' (first
      | (with_reducible assumption) | (with_reducible simp only [Kept.upd_iff]) | (with_reducible apply KeptOut.next)
      | (with_reducible apply KeptOut.refused) | (with_reducible apply ctxPort_kept)
      | (with_reducible apply doAgCommit_kept) | (with_reducible apply Kept.foldl)
      | (with_reducible apply Kept.foldlPair) | (with_reducible apply Kept.foldlPair2)
      | (refine Kept.of_pair (by with_reducible assumption) ?_) | (intro _) | split | (dsimp only))

theorem doAgVisible_kept {r0 : State} (c : CtxId) (g : Fin 6) (s : State)
    (k0 : Kept r0 s) : Kept r0 (doAgVisible c g s) := by
  unfold doAgVisible
  repeat' (first
      | (with_reducible assumption) | (with_reducible simp only [Kept.upd_iff])
      | (with_reducible apply State.setCtx_kept) | (with_reducible apply compelMoves_kept)
      | (with_reducible apply Kept.foldl) | (with_reducible apply Kept.foldlPair)
      | (with_reducible apply Kept.foldlPair2) | (refine Kept.of_pair (by with_reducible assumption) ?_) | (intro _)
      | split | (dsimp only))

theorem execAgVisible_kept (c : CtxId) (group : Fin 6) (s : State) :
    KeptOut s (execAgVisible c group s) := by
  have k0 := Kept.refl s
  unfold execAgVisible
  repeat' (first
      | (with_reducible assumption) | (with_reducible simp only [Kept.upd_iff]) | (with_reducible apply KeptOut.next)
      | (with_reducible apply KeptOut.refused) | (with_reducible apply doAgVisible_kept)
      | (with_reducible apply Kept.foldl) | (with_reducible apply Kept.foldlPair)
      | (with_reducible apply Kept.foldlPair2) | (refine Kept.of_pair (by with_reducible assumption) ?_) | (intro _)
      | split | (dsimp only))

theorem execLiveFieldWrite_kept (fn : FnId) (c : CtxId) (field : LiveField) (value : U32) (s : State) :
    KeptOut s (execLiveFieldWrite fn c field value s) := by
  have k0 := Kept.refl s
  unfold execLiveFieldWrite
  repeat' (first
      | (with_reducible assumption) | (with_reducible simp only [Kept.upd_iff]) | (with_reducible apply KeptOut.next)
      | (with_reducible apply KeptOut.refused) | (with_reducible apply ctxPort_kept)
      | (with_reducible apply State.modCtx_kept) | (with_reducible apply Kept.foldl)
      | (with_reducible apply Kept.foldlPair) | (with_reducible apply Kept.foldlPair2)
      | (refine Kept.of_pair (by with_reducible assumption) ?_) | (intro _) | split | (dsimp only))

end Sys2Proof.Machine
end

