-- ==== Sys2Proof/Laws/KeptHost.lean ====
section
/-! SUPPORT. What the operations of Host keep. -/

namespace Sys2Proof.Machine

open Sys2Proof

set_option linter.unusedSimpArgs false

theorem assignCtx_kept {r0 : State} (c : CtxId) (valid : Bool) (func : FnId) (q : BitVec 4) (s : State)
    (k0 : Kept r0 s) : Kept r0 (assignCtx c valid func q s) := by
  unfold assignCtx
  repeat' (first
      | (with_reducible assumption) | (with_reducible simp only [Kept.upd_iff])
      | (with_reducible apply State.modCtx_kept) | (with_reducible apply updatePlls_kept)
      | (with_reducible apply requestCtxReset_kept) | (with_reducible apply placeSems_kept)
      | (with_reducible apply Kept.foldl) | (with_reducible apply Kept.foldlPair)
      | (with_reducible apply Kept.foldlPair2) | (refine Kept.of_pair (by with_reducible assumption) ?_) | (intro _)
      | split | (dsimp only))

theorem writeAssign_kept {r0 : State} (c : CtxId) (valid : Bool) (func : FnId) (q : BitVec 4) (s : State)
    (k0 : Kept r0 s) : Kept r0 (writeAssign c valid func q s) := by
  unfold writeAssign
  repeat' (first
      | (with_reducible assumption) | (with_reducible simp only [Kept.upd_iff]) | (with_reducible apply violate_kept)
      | (with_reducible apply assignCtx_kept) | (with_reducible apply Kept.foldl)
      | (with_reducible apply Kept.foldlPair) | (with_reducible apply Kept.foldlPair2)
      | (refine Kept.of_pair (by with_reducible assumption) ?_) | (intro _) | split | (dsimp only))

theorem execGlbCtxAssign_kept (fn : FnId) (c : CtxId) (valid : Bool) (func : FnId) (qmask : BitVec 4) (s : State) :
    KeptOut s (execGlbCtxAssign fn c valid func qmask s) := by
  have k0 := Kept.refl s
  unfold execGlbCtxAssign
  repeat' (first
      | (with_reducible assumption) | (with_reducible simp only [Kept.upd_iff]) | (with_reducible apply KeptOut.next)
      | (with_reducible apply KeptOut.refused) | (with_reducible apply glbPort_kept)
      | (with_reducible apply writeAssign_kept) | (with_reducible apply Kept.foldl)
      | (with_reducible apply Kept.foldlPair) | (with_reducible apply Kept.foldlPair2)
      | (refine Kept.of_pair (by with_reducible assumption) ?_) | (intro _) | split | (dsimp only))

theorem writeEvtCtrl_kept {r0 : State} (fn : FnId) (en irq : Bool) (log2 : BitVec 5) (mod : U16) (s : State)
    (k0 : Kept r0 s) : Kept r0 (writeEvtCtrl fn en irq log2 mod s) := by
  unfold writeEvtCtrl
  repeat' (first
      | (with_reducible assumption) | (with_reducible simp only [Kept.upd_iff])
      | (with_reducible apply drainRing_kept) | (with_reducible apply State.modFunc_kept)
      | (with_reducible apply Kept.foldl) | (with_reducible apply Kept.foldlPair)
      | (with_reducible apply Kept.foldlPair2) | (refine Kept.of_pair (by with_reducible assumption) ?_) | (intro _)
      | split | (dsimp only))

theorem execEventRingEnable_kept (fn : FnId) (irq : Bool) (log2 : BitVec 5) (mod : U16) (s : State) :
    KeptOut s (execEventRingEnable fn irq log2 mod s) := by
  have k0 := Kept.refl s
  unfold execEventRingEnable
  repeat' (first
      | (with_reducible assumption) | (with_reducible simp only [Kept.upd_iff]) | (with_reducible apply KeptOut.next)
      | (with_reducible apply KeptOut.refused) | (with_reducible apply fnPort_kept)
      | (with_reducible apply writeEvtCtrl_kept) | (with_reducible apply Kept.foldl)
      | (with_reducible apply Kept.foldlPair) | (with_reducible apply Kept.foldlPair2)
      | (refine Kept.of_pair (by with_reducible assumption) ?_) | (intro _) | split | (dsimp only))

theorem writeEvtHead_kept {r0 : State} (fn : FnId) (index : U32) (s : State)
    (k0 : Kept r0 s) : Kept r0 (writeEvtHead fn index s) := by
  unfold writeEvtHead
  repeat' (first
      | (with_reducible assumption) | (with_reducible simp only [Kept.upd_iff])
      | (with_reducible apply drainRing_kept) | (with_reducible apply State.setFunc_kept)
      | (with_reducible apply Kept.foldl) | (with_reducible apply Kept.foldlPair)
      | (with_reducible apply Kept.foldlPair2) | (refine Kept.of_pair (by with_reducible assumption) ?_) | (intro _)
      | split | (dsimp only))

theorem execEvtHeadWrite_kept (fn : FnId) (index : U32) (s : State) :
    KeptOut s (execEvtHeadWrite fn index s) := by
  have k0 := Kept.refl s
  unfold execEvtHeadWrite
  repeat' (first
      | (with_reducible assumption) | (with_reducible simp only [Kept.upd_iff]) | (with_reducible apply KeptOut.next)
      | (with_reducible apply KeptOut.refused) | (with_reducible apply fnPort_kept)
      | (with_reducible apply writeEvtHead_kept) | (with_reducible apply Kept.foldl)
      | (with_reducible apply Kept.foldlPair) | (with_reducible apply Kept.foldlPair2)
      | (refine Kept.of_pair (by with_reducible assumption) ?_) | (intro _) | split | (dsimp only))

theorem execMsixModerationEnd_kept (fn : FnId) (s : State) :
    KeptOut s (execMsixModerationEnd fn s) := by
  have k0 := Kept.refl s
  unfold execMsixModerationEnd
  repeat' (first
      | (with_reducible assumption) | (with_reducible simp only [Kept.upd_iff]) | (with_reducible apply KeptOut.next)
      | (with_reducible apply KeptOut.refused) | (with_reducible apply sendMsg_kept)
      | (with_reducible apply State.modFunc_kept) | (with_reducible apply Kept.foldl)
      | (with_reducible apply Kept.foldlPair) | (with_reducible apply Kept.foldlPair2)
      | (refine Kept.of_pair (by with_reducible assumption) ?_) | (intro _) | split | (dsimp only))

theorem busPort_kept {r0 : State} (act : Mgt → Mgt) (s : State)
    (k0 : Kept r0 s) : Kept r0 (busPort act s) := by
  unfold busPort
  repeat' (first
      | (with_reducible assumption) | (with_reducible simp only [Kept.upd_iff])
      | (with_reducible apply State.modMgt_kept) | (with_reducible apply Kept.foldl)
      | (with_reducible apply Kept.foldlPair) | (with_reducible apply Kept.foldlPair2)
      | (refine Kept.of_pair (by with_reducible assumption) ?_) | (intro _) | split | (dsimp only))

theorem execEntdaa_kept (da : BitVec 7) (s : State) :
    KeptOut s (execEntdaa da s) := by
  have k0 := Kept.refl s
  unfold execEntdaa
  repeat' (first
      | (with_reducible assumption) | (with_reducible simp only [Kept.upd_iff]) | (with_reducible apply KeptOut.next)
      | (with_reducible apply KeptOut.refused) | (with_reducible apply busPort_kept)
      | (with_reducible apply Kept.foldl) | (with_reducible apply Kept.foldlPair)
      | (with_reducible apply Kept.foldlPair2) | (refine Kept.of_pair (by with_reducible assumption) ?_) | (intro _)
      | split | (dsimp only))

theorem execRstdaa_kept (s : State) :
    KeptOut s (execRstdaa s) := by
  have k0 := Kept.refl s
  unfold execRstdaa
  repeat' (first
      | (with_reducible assumption) | (with_reducible simp only [Kept.upd_iff]) | (with_reducible apply KeptOut.next)
      | (with_reducible apply KeptOut.refused) | (with_reducible apply busPort_kept)
      | (with_reducible apply Kept.foldl) | (with_reducible apply Kept.foldlPair)
      | (with_reducible apply Kept.foldlPair2) | (refine Kept.of_pair (by with_reducible assumption) ?_) | (intro _)
      | split | (dsimp only))

theorem execDisec_kept (s : State) :
    KeptOut s (execDisec s) := by
  have k0 := Kept.refl s
  unfold execDisec
  repeat' (first
      | (with_reducible assumption) | (with_reducible simp only [Kept.upd_iff]) | (with_reducible apply KeptOut.next)
      | (with_reducible apply KeptOut.refused) | (with_reducible apply busPort_kept)
      | (with_reducible apply Kept.foldl) | (with_reducible apply Kept.foldlPair)
      | (with_reducible apply Kept.foldlPair2) | (refine Kept.of_pair (by with_reducible assumption) ?_) | (intro _)
      | split | (dsimp only))

theorem execHotJoin_kept (s : State) :
    KeptOut s (execHotJoin s) := by
  have k0 := Kept.refl s
  unfold execHotJoin
  repeat' (first
      | (with_reducible assumption) | (with_reducible simp only [Kept.upd_iff]) | (with_reducible apply KeptOut.next)
      | (with_reducible apply KeptOut.refused) | (with_reducible apply busPort_kept)
      | (with_reducible apply Kept.foldl) | (with_reducible apply Kept.foldlPair)
      | (with_reducible apply Kept.foldlPair2) | (refine Kept.of_pair (by with_reducible assumption) ?_) | (intro _)
      | split | (dsimp only))

theorem doScrubRead_kept {r0 : State} (k : StackId) (w : Nat) (s : State)
    (k0 : Kept r0 s) : Kept r0 (doScrubRead k w s) := by
  unfold doScrubRead
  repeat' (first
      | (with_reducible assumption) | (with_reducible simp only [Kept.upd_iff]) | (with_reducible apply eccRead_kept)
      | (with_reducible apply Kept.foldl) | (with_reducible apply Kept.foldlPair)
      | (with_reducible apply Kept.foldlPair2) | (refine Kept.of_pair (by with_reducible assumption) ?_) | (intro _)
      | split | (dsimp only))

theorem execScrubRead_kept (k : StackId) (w : Nat) (s : State) :
    KeptOut s (execScrubRead k w s) := by
  have k0 := Kept.refl s
  unfold execScrubRead
  repeat' (first
      | (with_reducible assumption) | (with_reducible simp only [Kept.upd_iff]) | (with_reducible apply KeptOut.next)
      | (with_reducible apply KeptOut.refused) | (with_reducible apply doScrubRead_kept)
      | (with_reducible apply Kept.foldl) | (with_reducible apply Kept.foldlPair)
      | (with_reducible apply Kept.foldlPair2) | (refine Kept.of_pair (by with_reducible assumption) ?_) | (intro _)
      | split | (dsimp only))

theorem clearBenchRetire_kept {r0 : State} (n : Fin 16) (mask : U32) (s : State)
    (k0 : Kept r0 s) : Kept r0 (clearBenchRetire n mask s) := by
  unfold clearBenchRetire
  repeat' (first
      | (with_reducible assumption) | (with_reducible simp only [Kept.upd_iff])
      | (with_reducible apply State.modGlb_kept) | (with_reducible apply Kept.foldl)
      | (with_reducible apply Kept.foldlPair) | (with_reducible apply Kept.foldlPair2)
      | (refine Kept.of_pair (by with_reducible assumption) ?_) | (intro _) | split | (dsimp only))

theorem execBenchRetireClear_kept (fn : FnId) (n : Fin 16) (mask : U32) (s : State) :
    KeptOut s (execBenchRetireClear fn n mask s) := by
  have k0 := Kept.refl s
  unfold execBenchRetireClear
  repeat' (first
      | (with_reducible assumption) | (with_reducible simp only [Kept.upd_iff]) | (with_reducible apply KeptOut.next)
      | (with_reducible apply KeptOut.refused) | (with_reducible apply glbPort_kept)
      | (with_reducible apply clearBenchRetire_kept) | (with_reducible apply Kept.foldl)
      | (with_reducible apply Kept.foldlPair) | (with_reducible apply Kept.foldlPair2)
      | (refine Kept.of_pair (by with_reducible assumption) ?_) | (intro _) | split | (dsimp only))

theorem clearLinkRetire_kept {r0 : State} (mask : U32) (s : State)
    (k0 : Kept r0 s) : Kept r0 (clearLinkRetire mask s) := by
  unfold clearLinkRetire
  repeat' (first
      | (with_reducible assumption) | (with_reducible simp only [Kept.upd_iff])
      | (with_reducible apply State.each_kept) | (with_reducible apply State.modGlb_kept)
      | (with_reducible apply State.modLink_kept) | (with_reducible apply Kept.foldl)
      | (with_reducible apply Kept.foldlPair) | (with_reducible apply Kept.foldlPair2)
      | (refine Kept.of_pair (by with_reducible assumption) ?_) | (intro _) | split | (dsimp only))

theorem execLinkRetireClear_kept (fn : FnId) (mask : U32) (s : State) :
    KeptOut s (execLinkRetireClear fn mask s) := by
  have k0 := Kept.refl s
  unfold execLinkRetireClear
  repeat' (first
      | (with_reducible assumption) | (with_reducible simp only [Kept.upd_iff]) | (with_reducible apply KeptOut.next)
      | (with_reducible apply KeptOut.refused) | (with_reducible apply glbPort_kept)
      | (with_reducible apply clearLinkRetire_kept) | (with_reducible apply Kept.foldl)
      | (with_reducible apply Kept.foldlPair) | (with_reducible apply Kept.foldlPair2)
      | (refine Kept.of_pair (by with_reducible assumption) ?_) | (intro _) | split | (dsimp only))

end Sys2Proof.Machine
end

