-- ==== Sys2Proof/Laws/KeptLinks.lean ====
section
/-! SUPPORT. What the operations of Links keep. -/

namespace Sys2Proof.Machine

open Sys2Proof

set_option linter.unusedSimpArgs false

theorem onUpLink_kept {r0 : State} (l : LinkId) (f : Link → Link) (s : State)
    (k0 : Kept r0 s) : Kept r0 (onUpLink l f s) := by
  unfold onUpLink
  repeat' (first
      | (with_reducible assumption) | (with_reducible simp only [Kept.upd_iff])
      | (with_reducible apply State.modLink_kept) | (with_reducible apply Kept.foldl)
      | (with_reducible apply Kept.foldlPair) | (with_reducible apply Kept.foldlPair2)
      | (refine Kept.of_pair (by with_reducible assumption) ?_) | (intro _) | split | (dsimp only))

theorem passOn_kept {r0 : State} (l : LinkId) (n : Nat) (s : State)
    (k0 : Kept r0 s) : Kept r0 (passOn l n s) := by
  unfold passOn
  repeat' (first
      | (with_reducible assumption) | (with_reducible simp only [Kept.upd_iff])
      | (with_reducible apply State.each_kept) | (with_reducible apply State.setLink_kept)
      | (with_reducible apply sendPacket_kept) | (with_reducible apply Kept.foldl)
      | (with_reducible apply Kept.foldlPair) | (with_reducible apply Kept.foldlPair2)
      | (refine Kept.of_pair (by with_reducible assumption) ?_) | (intro _) | split | (dsimp only))

theorem doDataFlit_kept {r0 : State} (l : LinkId) (bytes : List Byte) (s : State)
    (k0 : Kept r0 s) : Kept r0 (doDataFlit l bytes s) := by
  unfold doDataFlit
  repeat' (first
      | (with_reducible assumption) | (with_reducible simp only [Kept.upd_iff])
      | (with_reducible apply refuseLost_kept) | (with_reducible apply passOn_kept)
      | (with_reducible apply onUpLink_kept) | (with_reducible apply Kept.foldl)
      | (with_reducible apply Kept.foldlPair) | (with_reducible apply Kept.foldlPair2)
      | (refine Kept.of_pair (by with_reducible assumption) ?_) | (intro _) | split | (dsimp only))

theorem execDataFlit_kept (l : LinkId) (bytes : List Byte) (s : State) :
    KeptOut s (execDataFlit l bytes s) := by
  have k0 := Kept.refl s
  unfold execDataFlit
  repeat' (first
      | (with_reducible assumption) | (with_reducible simp only [Kept.upd_iff]) | (with_reducible apply KeptOut.next)
      | (with_reducible apply KeptOut.refused) | (with_reducible apply doDataFlit_kept)
      | (with_reducible apply Kept.foldl) | (with_reducible apply Kept.foldlPair)
      | (with_reducible apply Kept.foldlPair2) | (refine Kept.of_pair (by with_reducible assumption) ?_) | (intro _)
      | split | (dsimp only))

theorem execIdleFlit_kept (l : LinkId) (bytes : List Byte) (s : State) :
    KeptOut s (execIdleFlit l bytes s) := by
  have k0 := Kept.refl s
  unfold execIdleFlit
  repeat' (first
      | (with_reducible assumption) | (with_reducible simp only [Kept.upd_iff]) | (with_reducible apply KeptOut.next)
      | (with_reducible apply KeptOut.refused) | (with_reducible apply refuseLost_kept)
      | (with_reducible apply onUpLink_kept) | (with_reducible apply Kept.foldl)
      | (with_reducible apply Kept.foldlPair) | (with_reducible apply Kept.foldlPair2)
      | (refine Kept.of_pair (by with_reducible assumption) ?_) | (intro _) | split | (dsimp only))

theorem doFlitSlot_kept {r0 : State} (l : LinkId) (vc : Fin 4) (s : State)
    (k0 : Kept r0 s) : Kept r0 (doFlitSlot l vc s) := by
  unfold doFlitSlot
  repeat' (first
      | (with_reducible assumption) | (with_reducible simp only [Kept.upd_iff])
      | (with_reducible apply readStores_kept) | (with_reducible apply State.modLink_kept)
      | (with_reducible apply Kept.foldl) | (with_reducible apply Kept.foldlPair)
      | (with_reducible apply Kept.foldlPair2)
      | (refine Kept.of_pair (p := readStores _ _ _) (by with_reducible assumption) ?_)
      | (refine Kept.of_pair (by with_reducible assumption) ?_) | (intro _) | split | (dsimp only))

theorem execFlitSlot_kept (l : LinkId) (vc : Fin 4) (s : State) :
    KeptOut s (execFlitSlot l vc s) := by
  have k0 := Kept.refl s
  unfold execFlitSlot
  repeat' (first
      | (with_reducible assumption) | (with_reducible simp only [Kept.upd_iff]) | (with_reducible apply KeptOut.next)
      | (with_reducible apply KeptOut.refused) | (with_reducible apply doFlitSlot_kept)
      | (with_reducible apply Kept.foldl) | (with_reducible apply Kept.foldlPair)
      | (with_reducible apply Kept.foldlPair2) | (refine Kept.of_pair (by with_reducible assumption) ?_) | (intro _)
      | split | (dsimp only))

theorem execLinkNoFlitTimeout_kept (l : LinkId) (s : State) :
    KeptOut s (execLinkNoFlitTimeout l s) := by
  have k0 := Kept.refl s
  unfold execLinkNoFlitTimeout
  repeat' (first
      | (with_reducible assumption) | (with_reducible simp only [Kept.upd_iff]) | (with_reducible apply KeptOut.next)
      | (with_reducible apply KeptOut.refused) | (with_reducible apply refuseLost_kept)
      | (with_reducible apply onUpLink_kept) | (with_reducible apply Kept.foldl)
      | (with_reducible apply Kept.foldlPair) | (with_reducible apply Kept.foldlPair2)
      | (refine Kept.of_pair (by with_reducible assumption) ?_) | (intro _) | split | (dsimp only))

theorem retrainLink_kept {r0 : State} (l : LinkId) (s : State)
    (k0 : Kept r0 s) : Kept r0 (retrainLink l s) := by
  unfold retrainLink
  repeat' (first
      | (with_reducible assumption) | (with_reducible simp only [Kept.upd_iff])
      | (with_reducible apply refuseLost_kept) | (with_reducible apply State.setLink_kept)
      | (with_reducible apply Kept.foldl) | (with_reducible apply Kept.foldlPair)
      | (with_reducible apply Kept.foldlPair2) | (refine Kept.of_pair (by with_reducible assumption) ?_) | (intro _)
      | split | (dsimp only))

theorem execLnkRetrain_kept (fn : FnId) (l : LinkId) (s : State) :
    KeptOut s (execLnkRetrain fn l s) := by
  have k0 := Kept.refl s
  unfold execLnkRetrain
  repeat' (first
      | (with_reducible assumption) | (with_reducible simp only [Kept.upd_iff]) | (with_reducible apply KeptOut.next)
      | (with_reducible apply KeptOut.refused) | (with_reducible apply glbPort_kept)
      | (with_reducible apply retrainLink_kept) | (with_reducible apply Kept.foldl)
      | (with_reducible apply Kept.foldlPair) | (with_reducible apply Kept.foldlPair2)
      | (refine Kept.of_pair (by with_reducible assumption) ?_) | (intro _) | split | (dsimp only))

theorem disableLink_kept {r0 : State} (l : LinkId) (s : State)
    (k0 : Kept r0 s) : Kept r0 (disableLink l s) := by
  unfold disableLink
  repeat' (first
      | (with_reducible assumption) | (with_reducible simp only [Kept.upd_iff])
      | (with_reducible apply refuseLost_kept) | (with_reducible apply stopLink_kept)
      | (with_reducible apply State.modLink_kept) | (with_reducible apply Kept.foldl)
      | (with_reducible apply Kept.foldlPair) | (with_reducible apply Kept.foldlPair2)
      | (refine Kept.of_pair (by with_reducible assumption) ?_) | (intro _) | split | (dsimp only))

theorem execLnkDisable_kept (fn : FnId) (l : LinkId) (s : State) :
    KeptOut s (execLnkDisable fn l s) := by
  have k0 := Kept.refl s
  unfold execLnkDisable
  repeat' (first
      | (with_reducible assumption) | (with_reducible simp only [Kept.upd_iff]) | (with_reducible apply KeptOut.next)
      | (with_reducible apply KeptOut.refused) | (with_reducible apply glbPort_kept)
      | (with_reducible apply disableLink_kept) | (with_reducible apply Kept.foldl)
      | (with_reducible apply Kept.foldlPair) | (with_reducible apply Kept.foldlPair2)
      | (refine Kept.of_pair (by with_reducible assumption) ?_) | (intro _) | split | (dsimp only))

theorem enableLink_kept {r0 : State} (l : LinkId) (s : State)
    (k0 : Kept r0 s) : Kept r0 (enableLink l s) := by
  unfold enableLink
  repeat' (first
      | (with_reducible assumption) | (with_reducible simp only [Kept.upd_iff])
      | (with_reducible apply State.setLink_kept) | (with_reducible apply Kept.foldl)
      | (with_reducible apply Kept.foldlPair) | (with_reducible apply Kept.foldlPair2)
      | (refine Kept.of_pair (by with_reducible assumption) ?_) | (intro _) | split | (dsimp only))

theorem doFarEndDetect_kept {r0 : State} (l : LinkId) (s : State)
    (k0 : Kept r0 s) : Kept r0 (doFarEndDetect l s) := by
  unfold doFarEndDetect
  repeat' (first
      | (with_reducible assumption) | (with_reducible simp only [Kept.upd_iff])
      | (with_reducible apply State.setLink_kept) | (with_reducible apply Kept.foldl)
      | (with_reducible apply Kept.foldlPair) | (with_reducible apply Kept.foldlPair2)
      | (refine Kept.of_pair (by with_reducible assumption) ?_) | (intro _) | split | (dsimp only))

theorem execFarEndDetect_kept (l : LinkId) (s : State) :
    KeptOut s (execFarEndDetect l s) := by
  have k0 := Kept.refl s
  unfold execFarEndDetect
  repeat' (first
      | (with_reducible assumption) | (with_reducible simp only [Kept.upd_iff]) | (with_reducible apply KeptOut.next)
      | (with_reducible apply KeptOut.refused) | (with_reducible apply doFarEndDetect_kept)
      | (with_reducible apply Kept.foldl) | (with_reducible apply Kept.foldlPair)
      | (with_reducible apply Kept.foldlPair2) | (refine Kept.of_pair (by with_reducible assumption) ?_) | (intro _)
      | split | (dsimp only))

theorem linkPacket_kept {r0 : State} (l : LinkId) (key : List Nat) (s : State)
    (k0 : Kept r0 s) : Kept r0 (linkPacket l key s) := by
  unfold linkPacket
  repeat' (first
      | (with_reducible assumption) | (with_reducible simp only [Kept.upd_iff])
      | (with_reducible apply State.modLink_kept) | (with_reducible apply Kept.foldl)
      | (with_reducible apply Kept.foldlPair) | (with_reducible apply Kept.foldlPair2)
      | (refine Kept.of_pair (by with_reducible assumption) ?_) | (intro _) | split | (dsimp only))

theorem doTrainingComplete_kept {r0 : State} (l : LinkId) (s : State)
    (k0 : Kept r0 s) : Kept r0 (doTrainingComplete l s) := by
  unfold doTrainingComplete
  repeat' (first
      | (with_reducible assumption) | (with_reducible simp only [Kept.upd_iff])
      | (with_reducible apply State.setLink_kept) | (with_reducible apply retryWaiting_kept)
      | (with_reducible apply linkPacket_kept) | (with_reducible apply Kept.foldl)
      | (with_reducible apply Kept.foldlPair) | (with_reducible apply Kept.foldlPair2)
      | (refine Kept.of_pair (by with_reducible assumption) ?_) | (intro _) | split | (dsimp only))

theorem execTrainingComplete_kept (l : LinkId) (s : State) :
    KeptOut s (execTrainingComplete l s) := by
  have k0 := Kept.refl s
  unfold execTrainingComplete
  repeat' (first
      | (with_reducible assumption) | (with_reducible simp only [Kept.upd_iff]) | (with_reducible apply KeptOut.next)
      | (with_reducible apply KeptOut.refused) | (with_reducible apply doTrainingComplete_kept)
      | (with_reducible apply Kept.foldl) | (with_reducible apply Kept.foldlPair)
      | (with_reducible apply Kept.foldlPair2) | (refine Kept.of_pair (by with_reducible assumption) ?_) | (intro _)
      | split | (dsimp only))

theorem doTrainingFailed_kept {r0 : State} (l : LinkId) (s : State)
    (k0 : Kept r0 s) : Kept r0 (doTrainingFailed l s) := by
  unfold doTrainingFailed
  repeat' (first
      | (with_reducible assumption) | (with_reducible simp only [Kept.upd_iff])
      | (with_reducible apply State.setLink_kept) | (with_reducible apply refuseLost_kept)
      | (with_reducible apply raise_kept) | (with_reducible apply stopLink_kept) | (with_reducible apply Kept.foldl)
      | (with_reducible apply Kept.foldlPair) | (with_reducible apply Kept.foldlPair2)
      | (refine Kept.of_pair (by with_reducible assumption) ?_) | (intro _) | split | (dsimp only))

theorem execTrainingFailed_kept (l : LinkId) (s : State) :
    KeptOut s (execTrainingFailed l s) := by
  have k0 := Kept.refl s
  unfold execTrainingFailed
  repeat' (first
      | (with_reducible assumption) | (with_reducible simp only [Kept.upd_iff]) | (with_reducible apply KeptOut.next)
      | (with_reducible apply KeptOut.refused) | (with_reducible apply doTrainingFailed_kept)
      | (with_reducible apply Kept.foldl) | (with_reducible apply Kept.foldlPair)
      | (with_reducible apply Kept.foldlPair2) | (refine Kept.of_pair (by with_reducible assumption) ?_) | (intro _)
      | split | (dsimp only))

theorem putRoute_kept {r0 : State} (uid : U64) (d : Nat) (l : LinkId) (s : State)
    (k0 : Kept r0 s) : Kept r0 (putRoute uid d l s) := by
  unfold putRoute
  repeat' (first
      | (with_reducible assumption) | (with_reducible simp only [Kept.upd_iff]) | (with_reducible apply Kept.foldl)
      | (with_reducible apply Kept.foldlPair) | (with_reducible apply Kept.foldlPair2)
      | (refine Kept.of_pair (by with_reducible assumption) ?_) | (intro _) | split | (dsimp only))

theorem doIdent_kept {r0 : State} (l : LinkId) (uid : U64) (slot : BitVec 3) (peerLink : BitVec 4) (s : State)
    (k0 : Kept r0 s) : Kept r0 (doIdent l uid slot peerLink s) := by
  unfold doIdent
  repeat' (first
      | (with_reducible assumption) | (with_reducible simp only [Kept.upd_iff])
      | (with_reducible apply State.modLink_kept) | (with_reducible apply retryWaiting_kept)
      | (with_reducible apply putRoute_kept) | (with_reducible apply Kept.foldl)
      | (with_reducible apply Kept.foldlPair) | (with_reducible apply Kept.foldlPair2)
      | (refine Kept.of_pair (by with_reducible assumption) ?_) | (intro _) | split | (dsimp only))

theorem execIdent_kept (l : LinkId) (uid : U64) (slot : BitVec 3) (peerLink : BitVec 4) (s : State) :
    KeptOut s (execIdent l uid slot peerLink s) := by
  have k0 := Kept.refl s
  unfold execIdent
  repeat' (first
      | (with_reducible assumption) | (with_reducible simp only [Kept.upd_iff]) | (with_reducible apply KeptOut.next)
      | (with_reducible apply KeptOut.refused) | (with_reducible apply doIdent_kept)
      | (with_reducible apply Kept.foldl) | (with_reducible apply Kept.foldlPair)
      | (with_reducible apply Kept.foldlPair2) | (refine Kept.of_pair (by with_reducible assumption) ?_) | (intro _)
      | split | (dsimp only))

theorem doDistanceAdvert_kept {r0 : State} (s : State)
    (k0 : Kept r0 s) : Kept r0 (doDistanceAdvert s) := by
  unfold doDistanceAdvert
  repeat' (first
      | (with_reducible assumption) | (with_reducible simp only [Kept.upd_iff])
      | (with_reducible apply State.each_kept) | (with_reducible apply linkPacket_kept)
      | (with_reducible apply Kept.foldl) | (with_reducible apply Kept.foldlPair)
      | (with_reducible apply Kept.foldlPair2) | (refine Kept.of_pair (by with_reducible assumption) ?_) | (intro _)
      | split | (dsimp only))

theorem execDistanceAdvert_kept (s : State) :
    KeptOut s (execDistanceAdvert s) := by
  have k0 := Kept.refl s
  unfold execDistanceAdvert
  repeat' (first
      | (with_reducible assumption) | (with_reducible simp only [Kept.upd_iff]) | (with_reducible apply KeptOut.next)
      | (with_reducible apply KeptOut.refused) | (with_reducible apply doDistanceAdvert_kept)
      | (with_reducible apply Kept.foldl) | (with_reducible apply Kept.foldlPair)
      | (with_reducible apply Kept.foldlPair2) | (refine Kept.of_pair (by with_reducible assumption) ?_) | (intro _)
      | split | (dsimp only))

theorem doDistancePacket_kept {r0 : State} (l : LinkId) (entries : List (U64 × Nat)) (s : State)
    (k0 : Kept r0 s) : Kept r0 (doDistancePacket l entries s) := by
  unfold doDistancePacket
  repeat' (first
      | (with_reducible assumption) | (with_reducible simp only [Kept.upd_iff])
      | (with_reducible apply refuseLost_kept) | (with_reducible apply retryWaiting_kept)
      | (with_reducible apply State.each_kept) | (with_reducible apply putRoute_kept)
      | (with_reducible apply Kept.foldl) | (with_reducible apply Kept.foldlPair)
      | (with_reducible apply Kept.foldlPair2) | (refine Kept.of_pair (by with_reducible assumption) ?_) | (intro _)
      | split | (dsimp only))

theorem execDistancePacket_kept (l : LinkId) (entries : List (U64 × Nat)) (s : State) :
    KeptOut s (execDistancePacket l entries s) := by
  have k0 := Kept.refl s
  unfold execDistancePacket
  repeat' (first
      | (with_reducible assumption) | (with_reducible simp only [Kept.upd_iff]) | (with_reducible apply KeptOut.next)
      | (with_reducible apply KeptOut.refused) | (with_reducible apply doDistancePacket_kept)
      | (with_reducible apply Kept.foldl) | (with_reducible apply Kept.foldlPair)
      | (with_reducible apply Kept.foldlPair2) | (refine Kept.of_pair (by with_reducible assumption) ?_) | (intro _)
      | split | (dsimp only))

end Sys2Proof.Machine
end

