-- ==== Sys2Proof/Laws/KeptPower.lean ====
section
/-! SUPPORT. What the operations of Power keep. -/

namespace Sys2Proof.Machine

open Sys2Proof

set_option linter.unusedSimpArgs false

theorem mainOff_kept {r0 : State} (s : State) (k0 : Kept r0 s) : Kept r0 (mainOff s) :=
  ⟨fun _ => rfl, k0.hostMem, k0.pending, k0.svn, k0.rma⟩

theorem powerDown_kept {r0 : State} (cause : Nat) (s : State)
    (k0 : Kept r0 s) : Kept r0 (powerDown cause s) := by
  unfold powerDown
  repeat' (first
      | (with_reducible assumption) | (with_reducible simp only [Kept.upd_iff])
      | (with_reducible apply State.modPwr_kept) | (with_reducible apply mainOff_kept)
      | (with_reducible apply Kept.foldl) | (with_reducible apply Kept.foldlPair)
      | (with_reducible apply Kept.foldlPair2) | (refine Kept.of_pair (by with_reducible assumption) ?_) | (intro _)
      | split | (dsimp only))

theorem finishBoot_kept {r0 : State} (s : State)
    (k0 : Kept r0 s) : Kept r0 (finishBoot s) := by
  unfold finishBoot
  repeat' (first
      | (with_reducible assumption) | (with_reducible simp only [Kept.upd_iff])
      | (with_reducible apply updatePlls_kept) | (with_reducible apply State.modPwr_kept)
      | (with_reducible apply raiseAlert_kept) | (with_reducible apply Kept.foldl)
      | (with_reducible apply Kept.foldlPair) | (with_reducible apply Kept.foldlPair2)
      | (refine Kept.of_pair (by with_reducible assumption) ?_) | (intro _) | split | (dsimp only))

theorem bootOn_kept {r0 : State} (s : State)
    (k0 : Kept r0 s) : Kept r0 (bootOn s) := by
  unfold bootOn
  repeat' (first
      | (with_reducible assumption) | (with_reducible simp only [Kept.upd_iff])
      | (with_reducible apply State.modPwr_kept) | (with_reducible apply finishBoot_kept)
      | (with_reducible apply Kept.foldl) | (with_reducible apply Kept.foldlPair)
      | (with_reducible apply Kept.foldlPair2) | (refine Kept.of_pair (by with_reducible assumption) ?_) | (intro _)
      | split | (dsimp only))

theorem Sec.boot_keeps (k : Sec) : k.boot.svn = k.svn ∧ k.boot.debugState = k.debugState ∧ k.boot.debugNext = k.debugNext := by
  unfold Sec.boot Sec.run
  dsimp only
  split
  · exact ⟨rfl, rfl, rfl⟩
  · split <;> exact ⟨rfl, rfl, rfl⟩

theorem doPgoodRise_kept {r0 : State} (pins : EdgePins) (s : State) (k0 : Kept r0 s) : Kept r0 (doPgoodRise pins s) := by
  unfold doPgoodRise
  dsimp only
  split
  · exact k0
  · split
    · exact State.modPwr_kept _ _ k0
    · have h := Sec.boot_keeps (((s.modPwr (fun p => { p with pgood := true, forceLow := pins.forceLow })).modPwr
        (fun p => { p with mainOn := true, bootEvent := 2 })).modGlb (fun g => { g with slot := pins.straps })).sec
      exact bootOn_kept _ (State.modSec_kept _ _ (State.modGlb_kept _ _ (State.modPwr_kept _ _ (State.modPwr_kept _ _ k0))) h.1 h.2.1
        h.2.2)

theorem execPgoodRise_kept (pins : EdgePins) (s : State) :
    KeptOut s (execPgoodRise pins s) := by
  have k0 := Kept.refl s
  unfold execPgoodRise
  repeat' (first
      | (with_reducible assumption) | (with_reducible simp only [Kept.upd_iff]) | (with_reducible apply KeptOut.next)
      | (with_reducible apply KeptOut.refused) | (with_reducible apply doPgoodRise_kept)
      | (with_reducible apply Kept.foldl) | (with_reducible apply Kept.foldlPair)
      | (with_reducible apply Kept.foldlPair2) | (refine Kept.of_pair (by with_reducible assumption) ?_) | (intro _)
      | split | (dsimp only))

theorem doRefclkValid_kept {r0 : State} (s : State)
    (k0 : Kept r0 s) : Kept r0 (doRefclkValid s) := by
  unfold doRefclkValid
  repeat' (first
      | (with_reducible assumption) | (with_reducible simp only [Kept.upd_iff])
      | (with_reducible apply State.modPwr_kept) | (with_reducible apply bootOn_kept)
      | (with_reducible apply Kept.foldl) | (with_reducible apply Kept.foldlPair)
      | (with_reducible apply Kept.foldlPair2) | (refine Kept.of_pair (by with_reducible assumption) ?_) | (intro _)
      | split | (dsimp only))

theorem execRefclkValid_kept (s : State) :
    KeptOut s (execRefclkValid s) := by
  have k0 := Kept.refl s
  unfold execRefclkValid
  repeat' (first
      | (with_reducible assumption) | (with_reducible simp only [Kept.upd_iff]) | (with_reducible apply KeptOut.next)
      | (with_reducible apply KeptOut.refused) | (with_reducible apply doRefclkValid_kept)
      | (with_reducible apply Kept.foldl) | (with_reducible apply Kept.foldlPair)
      | (with_reducible apply Kept.foldlPair2) | (refine Kept.of_pair (by with_reducible assumption) ?_) | (intro _)
      | split | (dsimp only))

theorem execReferenceLost_kept (s : State) :
    KeptOut s (execReferenceLost s) := by
  have k0 := Kept.refl s
  unfold execReferenceLost
  repeat' (first
      | (with_reducible assumption) | (with_reducible simp only [Kept.upd_iff]) | (with_reducible apply KeptOut.next)
      | (with_reducible apply KeptOut.refused) | (with_reducible apply State.modPwr_kept)
      | (with_reducible apply Kept.foldl) | (with_reducible apply Kept.foldlPair)
      | (with_reducible apply Kept.foldlPair2) | (refine Kept.of_pair (by with_reducible assumption) ?_) | (intro _)
      | split | (dsimp only))

theorem execPerstDeassert_kept (s : State) :
    KeptOut s (execPerstDeassert s) := by
  have k0 := Kept.refl s
  unfold execPerstDeassert
  repeat' (first
      | (with_reducible assumption) | (with_reducible simp only [Kept.upd_iff]) | (with_reducible apply KeptOut.next)
      | (with_reducible apply KeptOut.refused) | (with_reducible apply State.modPwr_kept)
      | (with_reducible apply Kept.foldl) | (with_reducible apply Kept.foldlPair)
      | (with_reducible apply Kept.foldlPair2) | (refine Kept.of_pair (by with_reducible assumption) ?_) | (intro _)
      | split | (dsimp only))

theorem execPgoodFall_kept (s : State) :
    KeptOut s (execPgoodFall s) := by
  have k0 := Kept.refl s
  unfold execPgoodFall
  repeat' (first
      | (with_reducible assumption) | (with_reducible simp only [Kept.upd_iff]) | (with_reducible apply KeptOut.next)
      | (with_reducible apply KeptOut.refused) | (with_reducible apply State.modPwr_kept)
      | (with_reducible apply powerDown_kept) | (with_reducible apply Kept.foldl)
      | (with_reducible apply Kept.foldlPair) | (with_reducible apply Kept.foldlPair2)
      | (refine Kept.of_pair (by with_reducible assumption) ?_) | (intro _) | split | (dsimp only))

theorem execForceOff_kept (s : State) :
    KeptOut s (execForceOff s) := by
  have k0 := Kept.refl s
  unfold execForceOff
  repeat' (first
      | (with_reducible assumption) | (with_reducible simp only [Kept.upd_iff]) | (with_reducible apply KeptOut.next)
      | (with_reducible apply KeptOut.refused) | (with_reducible apply State.modPwr_kept)
      | (with_reducible apply powerDown_kept) | (with_reducible apply Kept.foldl)
      | (with_reducible apply Kept.foldlPair) | (with_reducible apply Kept.foldlPair2)
      | (refine Kept.of_pair (by with_reducible assumption) ?_) | (intro _) | split | (dsimp only))

theorem conditionEvent_kept {r0 : State} (bit code : Nat) (pl : List Byte) (s : State)
    (k0 : Kept r0 s) : Kept r0 (conditionEvent bit code pl s) := by
  unfold conditionEvent
  repeat' (first
      | (with_reducible assumption) | (with_reducible simp only [Kept.upd_iff])
      | (with_reducible apply raiseAlert_kept) | (with_reducible apply raise_kept) | (with_reducible apply Kept.foldl)
      | (with_reducible apply Kept.foldlPair) | (with_reducible apply Kept.foldlPair2)
      | (refine Kept.of_pair (by with_reducible assumption) ?_) | (intro _) | split | (dsimp only))

theorem doPowerCycle_kept {r0 : State} (s : State) (k0 : Kept r0 s) : Kept r0 (doPowerCycle s) :=
  have k := mainOff_kept s k0
  ⟨k.mem, k.hostMem, k.pending, k.svn, fun w => by
    have h := k.rma w
    refine ⟨?_, rfl⟩
    show (mainOff s).sec.afterCycle.debugState = 2
    have h1 : s.sec.debugState = 2 := h.1
    simp [Sec.afterCycle, mainOff, h1]⟩

theorem doSupplyOutOfBand_kept {r0 : State} (mv us : Nat) (ca : U16) (s : State)
    (k0 : Kept r0 s) : Kept r0 (doSupplyOutOfBand mv us ca s) := by
  unfold doSupplyOutOfBand
  repeat' (first
      | (with_reducible assumption) | (with_reducible simp only [Kept.upd_iff])
      | (with_reducible apply doPowerCycle_kept) | (with_reducible apply State.modPwr_kept)
      | (with_reducible apply powerDown_kept) | (with_reducible apply conditionEvent_kept)
      | (with_reducible apply Kept.foldl) | (with_reducible apply Kept.foldlPair)
      | (with_reducible apply Kept.foldlPair2) | (refine Kept.of_pair (by with_reducible assumption) ?_) | (intro _)
      | split | (dsimp only))

theorem execSupplyOutOfBand_kept (mv us : Nat) (ca : U16) (s : State) :
    KeptOut s (execSupplyOutOfBand mv us ca s) := by
  have k0 := Kept.refl s
  unfold execSupplyOutOfBand
  repeat' (first
      | (with_reducible assumption) | (with_reducible simp only [Kept.upd_iff]) | (with_reducible apply KeptOut.next)
      | (with_reducible apply KeptOut.refused) | (with_reducible apply doSupplyOutOfBand_kept)
      | (with_reducible apply Kept.foldl) | (with_reducible apply Kept.foldlPair)
      | (with_reducible apply Kept.foldlPair2) | (refine Kept.of_pair (by with_reducible assumption) ?_) | (intro _)
      | split | (dsimp only))

theorem execPowerCycle_kept (s : State) :
    KeptOut s (execPowerCycle s) := by
  have k0 := Kept.refl s
  unfold execPowerCycle
  repeat' (first
      | (with_reducible assumption) | (with_reducible simp only [Kept.upd_iff]) | (with_reducible apply KeptOut.next)
      | (with_reducible apply KeptOut.refused) | (with_reducible apply doPowerCycle_kept)
      | (with_reducible apply Kept.foldl) | (with_reducible apply Kept.foldlPair)
      | (with_reducible apply Kept.foldlPair2) | (refine Kept.of_pair (by with_reducible assumption) ?_) | (intro _)
      | split | (dsimp only))

theorem execAlwaysOnStart_kept (s : State) :
    KeptOut s (execAlwaysOnStart s) := by
  have k0 := Kept.refl s
  unfold execAlwaysOnStart
  repeat' (first
      | (with_reducible assumption) | (with_reducible simp only [Kept.upd_iff]) | (with_reducible apply KeptOut.next)
      | (with_reducible apply KeptOut.refused) | (with_reducible apply State.modPwr_kept)
      | (with_reducible apply Kept.foldl) | (with_reducible apply Kept.foldlPair)
      | (with_reducible apply Kept.foldlPair2) | (refine Kept.of_pair (by with_reducible assumption) ?_) | (intro _)
      | split | (dsimp only))

theorem doControlPeriod_kept {r0 : State} (temps : List Int) (mv ca dw : U16) (s : State)
    (k0 : Kept r0 s) : Kept r0 (doControlPeriod temps mv ca dw s) := by
  unfold doControlPeriod
  repeat' (first
      | (with_reducible assumption) | (with_reducible simp only [Kept.upd_iff])
      | (with_reducible apply State.modPwr_kept) | (with_reducible apply conditionEvent_kept)
      | (with_reducible apply powerDown_kept) | (with_reducible apply Kept.foldl)
      | (with_reducible apply Kept.foldlPair) | (with_reducible apply Kept.foldlPair2)
      | (refine Kept.of_pair (by with_reducible assumption) ?_) | (intro _) | split | (dsimp only))

theorem execControlPeriod_kept (temps : List Int) (mv ca dw : U16) (s : State) :
    KeptOut s (execControlPeriod temps mv ca dw s) := by
  have k0 := Kept.refl s
  unfold execControlPeriod
  repeat' (first
      | (with_reducible assumption) | (with_reducible simp only [Kept.upd_iff]) | (with_reducible apply KeptOut.next)
      | (with_reducible apply KeptOut.refused) | (with_reducible apply doControlPeriod_kept)
      | (with_reducible apply Kept.foldl) | (with_reducible apply Kept.foldlPair)
      | (with_reducible apply Kept.foldlPair2) | (refine Kept.of_pair (by with_reducible assumption) ?_) | (intro _)
      | split | (dsimp only))

end Sys2Proof.Machine
end

