-- ==== Sys2Proof/Laws/KeptPredict.lean ====
section
/-! SUPPORT. What the operations of Predict keep. -/

namespace Sys2Proof.Machine

open Sys2Proof

set_option linter.unusedSimpArgs false

theorem checkPredict_kept {r0 : State} (c : CtxId) (i : Nat) (m : Image) (xy : TileXY) (s : State)
    (k0 : Kept r0 s) : Kept r0 (checkPredict c i m xy s) := by
  unfold checkPredict
  repeat' (first
      | (with_reducible assumption) | (with_reducible simp only [Kept.upd_iff])
      | (with_reducible apply checkResidue_kept) | (with_reducible apply Kept.foldl)
      | (with_reducible apply Kept.foldlPair) | (with_reducible apply Kept.foldlPair2)
      | (refine Kept.of_pair (by with_reducible assumption) ?_) | (intro _) | split | (dsimp only))

theorem issueRowSet_kept {r0 : State} (c : CtxId) (i : Nat) (m : Image) (q : PredInfo) (ord : Nat) (xy : TileXY) (s : State)
    (k0 : Kept r0 s) : Kept r0 (issueRowSet c i m q ord xy s) := by
  unfold issueRowSet
  repeat' (first
      | (with_reducible assumption) | (with_reducible simp only [Kept.upd_iff]) | (with_reducible apply access_kept)
      | (with_reducible apply checkPredict_kept) | (with_reducible apply State.modCtx_kept)
      | (with_reducible apply chargeRead_kept) | (with_reducible apply Kept.foldl)
      | (with_reducible apply Kept.foldlPair) | (with_reducible apply Kept.foldlPair2)
      | (refine Kept.of_pair (p := access _ _ _ _ _ _) (by with_reducible assumption) ?_)
      | (refine Kept.of_pair (by with_reducible assumption) ?_) | (intro _) | split | (dsimp only))

theorem doScribePredict_kept {r0 : State} (c : CtxId) (i : Nat) (s : State)
    (k0 : Kept r0 s) : Kept r0 (doScribePredict c i s) := by
  unfold doScribePredict
  repeat' (first
      | (with_reducible assumption) | (with_reducible simp only [Kept.upd_iff])
      | (with_reducible apply withStation_kept) | (with_reducible apply stageHeld_kept)
      | (with_reducible apply issueRowSet_kept) | (with_reducible apply Kept.foldl)
      | (with_reducible apply Kept.foldlPair) | (with_reducible apply Kept.foldlPair2)
      | (refine Kept.of_pair (by with_reducible assumption) ?_) | (intro _) | split | (dsimp only))

theorem execScribePredict_kept (c : CtxId) (st : Nat) (s : State) :
    KeptOut s (execScribePredict c st s) := by
  have k0 := Kept.refl s
  unfold execScribePredict
  repeat' (first
      | (with_reducible assumption) | (with_reducible simp only [Kept.upd_iff]) | (with_reducible apply KeptOut.next)
      | (with_reducible apply KeptOut.refused) | (with_reducible apply doScribePredict_kept)
      | (with_reducible apply Kept.foldl) | (with_reducible apply Kept.foldlPair)
      | (with_reducible apply Kept.foldlPair2) | (refine Kept.of_pair (by with_reducible assumption) ?_) | (intro _)
      | split | (dsimp only))

end Sys2Proof.Machine
end

