-- ==== Sys2Proof/Laws/KeptPreempt.lean ====
section
/-! SUPPORT. What the operations of Preempt keep. -/

namespace Sys2Proof.Machine

open Sys2Proof

set_option linter.unusedSimpArgs false

theorem doSave_kept {r0 : State} (c : CtxId) (s : State)
    (k0 : Kept r0 s) : Kept r0 (doSave c s) := by
  unfold doSave
  repeat' (first
      | (with_reducible assumption) | (with_reducible simp only [Kept.upd_iff]) | (with_reducible apply violate_kept)
      | (with_reducible apply State.setCtx_kept) | (with_reducible apply State.each_kept)
      | (with_reducible apply sendColl_kept) | (with_reducible apply Kept.foldl)
      | (with_reducible apply Kept.foldlPair) | (with_reducible apply Kept.foldlPair2)
      | (refine Kept.of_pair (by with_reducible assumption) ?_) | (intro _) | split | (dsimp only))

theorem execSave_kept (fn : FnId) (c : CtxId) (s : State) :
    KeptOut s (execSave fn c s) := by
  have k0 := Kept.refl s
  unfold execSave
  repeat' (first
      | (with_reducible assumption) | (with_reducible simp only [Kept.upd_iff]) | (with_reducible apply KeptOut.next)
      | (with_reducible apply KeptOut.refused) | (with_reducible apply ctxPort_kept)
      | (with_reducible apply doSave_kept) | (with_reducible apply Kept.foldl) | (with_reducible apply Kept.foldlPair)
      | (with_reducible apply Kept.foldlPair2) | (refine Kept.of_pair (by with_reducible assumption) ?_) | (intro _)
      | split | (dsimp only))

theorem writeSave_kept {r0 : State} (c : CtxId) (s : State)
    (k0 : Kept r0 s) : Kept r0 (writeSave c s).2 := by
  unfold writeSave
  repeat' (first
      | (with_reducible assumption) | (with_reducible simp only [Kept.upd_iff]) | (with_reducible apply putMany_kept)
      | (with_reducible apply drawNat_kept) | (with_reducible apply putVa_kept)
      | (with_reducible apply State.modCtx_kept) | (with_reducible apply Kept.foldl)
      | (with_reducible apply Kept.foldlPair) | (with_reducible apply Kept.foldlPair2)
      | (refine Kept.of_pair (p := putMany _ _ _ _ _) (by with_reducible assumption) ?_)
      | (refine Kept.of_pair (p := drawNat _) (by with_reducible assumption) ?_)
      | (refine Kept.of_pair (p := putVa _ _ _ _ _ _) (by with_reducible assumption) ?_)
      | (refine Kept.of_pair (by with_reducible assumption) ?_) | (intro _) | split | (dsimp only))

theorem doPreemptComplete_kept {r0 : State} (c : CtxId) (s : State)
    (k0 : Kept r0 s) : Kept r0 (doPreemptComplete c s) := by
  unfold doPreemptComplete
  repeat' (first
      | (with_reducible assumption) | (with_reducible simp only [Kept.upd_iff])
      | (with_reducible apply writeSave_kept) | (with_reducible apply State.modCtx_kept)
      | (with_reducible apply askQueued_kept) | (with_reducible apply ctxEvent_kept)
      | (with_reducible apply Kept.foldl) | (with_reducible apply Kept.foldlPair)
      | (with_reducible apply Kept.foldlPair2)
      | (refine Kept.of_pair (p := writeSave _ _) (by with_reducible assumption) ?_)
      | (refine Kept.of_pair (by with_reducible assumption) ?_) | (intro _) | split | (dsimp only))

theorem execPreemptComplete_kept (c : CtxId) (s : State) :
    KeptOut s (execPreemptComplete c s) := by
  have k0 := Kept.refl s
  unfold execPreemptComplete
  repeat' (first
      | (with_reducible assumption) | (with_reducible simp only [Kept.upd_iff]) | (with_reducible apply KeptOut.next)
      | (with_reducible apply KeptOut.refused) | (with_reducible apply doPreemptComplete_kept)
      | (with_reducible apply Kept.foldl) | (with_reducible apply Kept.foldlPair)
      | (with_reducible apply Kept.foldlPair2) | (refine Kept.of_pair (by with_reducible assumption) ?_) | (intro _)
      | split | (dsimp only))

theorem takeWaiting_kept {r0 : State} (c : CtxId) :
    ∀ (y0 : Nat) (y1 : State), Kept r0 y1 → Kept r0 (takeWaiting c y0 y1) := by
  intro y0
  induction y0 with
  | zero =>
    intro y1 k0
    unfold takeWaiting
    repeat' (first
        | (with_reducible assumption) | (with_reducible simp only [Kept.upd_iff])
        | (with_reducible apply pageFault_kept) | (with_reducible apply State.modCtx_kept)
        | (with_reducible apply Kept.foldl) | (with_reducible apply Kept.foldlPair)
        | (with_reducible apply Kept.foldlPair2) | (refine Kept.of_pair (by with_reducible assumption) ?_) | (intro _)
        | split | (dsimp only))
  | succ n ih =>
    intro y1 k0
    unfold takeWaiting
    repeat' (first
        | (with_reducible assumption) | (with_reducible simp only [Kept.upd_iff]) | (with_reducible apply ih)
        | (with_reducible apply pageFault_kept) | (with_reducible apply State.modCtx_kept)
        | (with_reducible apply Kept.foldl) | (with_reducible apply Kept.foldlPair)
        | (with_reducible apply Kept.foldlPair2) | (refine Kept.of_pair (by with_reducible assumption) ?_) | (intro _)
        | split | (dsimp only))

theorem abortReqs_kept {r0 : State} (c : CtxId) (rs : List FaultReq) (s : State)
    (k0 : Kept r0 s) : Kept r0 (abortReqs c rs s) := by
  unfold abortReqs
  repeat' (first
      | (with_reducible assumption) | (with_reducible simp only [Kept.upd_iff])
      | (with_reducible apply State.each_kept) | (with_reducible apply abortDesc_kept)
      | (with_reducible apply requestCtxReset_kept) | (with_reducible apply Kept.foldl)
      | (with_reducible apply Kept.foldlPair) | (with_reducible apply Kept.foldlPair2)
      | (refine Kept.of_pair (by with_reducible assumption) ?_) | (intro _) | split | (dsimp only))

theorem endFault_kept {r0 : State} (c : CtxId) (id : U16) (retry : Bool) (s : State)
    (k0 : Kept r0 s) : Kept r0 (endFault c id retry s) := by
  unfold endFault
  repeat' (first
      | (with_reducible assumption) | (with_reducible simp only [Kept.upd_iff]) | (with_reducible apply violate_kept)
      | (with_reducible apply State.modCtx_kept) | (with_reducible apply abortReqs_kept)
      | (with_reducible apply takeWaiting_kept) | (with_reducible apply Kept.foldl)
      | (with_reducible apply Kept.foldlPair) | (with_reducible apply Kept.foldlPair2)
      | (refine Kept.of_pair (by with_reducible assumption) ?_) | (intro _) | split | (dsimp only))

theorem feedPacket_kept {r0 : State} (c : CtxId) (i : Instr) (s : State)
    (k0 : Kept r0 s) : Kept r0 (feedPacket c i s) := by
  unfold feedPacket
  repeat' (first
      | (with_reducible assumption) | (with_reducible simp only [Kept.upd_iff]) | (with_reducible apply acceptIn_kept)
      | (with_reducible apply scaleIn_kept) | (with_reducible apply dataIn_kept)
      | (with_reducible apply gatherIn_kept) | (with_reducible apply Kept.foldl)
      | (with_reducible apply Kept.foldlPair) | (with_reducible apply Kept.foldlPair2)
      | (refine Kept.of_pair (by with_reducible assumption) ?_) | (intro _) | split | (dsimp only))

theorem feedArea_kept {r0 : State} (c : CtxId) (s : State)
    (k0 : Kept r0 s) : Kept r0 (feedArea c s) := by
  unfold feedArea
  repeat' (first
      | (with_reducible assumption) | (with_reducible simp only [Kept.upd_iff])
      | (with_reducible apply State.setCtx_kept) | (with_reducible apply State.each_kept)
      | (with_reducible apply feedPacket_kept) | (with_reducible apply joinIn_kept)
      | (with_reducible apply State.modCtx_kept) | (with_reducible apply Kept.foldl)
      | (with_reducible apply Kept.foldlPair) | (with_reducible apply Kept.foldlPair2)
      | (refine Kept.of_pair (by with_reducible assumption) ?_) | (intro _) | split | (dsimp only))

theorem placeRestored_kept {r0 : State} (c : CtxId) (s : State)
    (k0 : Kept r0 s) : Kept r0 (placeRestored c s) := by
  unfold placeRestored
  repeat' (first
      | (with_reducible assumption) | (with_reducible simp only [Kept.upd_iff])
      | (with_reducible apply State.setCtx_kept) | (with_reducible apply compelMoves_kept)
      | (with_reducible apply feedArea_kept) | (with_reducible apply State.each_kept)
      | (with_reducible apply sendColl_kept) | (with_reducible apply endFault_kept)
      | (with_reducible apply serveSem_kept) | (with_reducible apply kick_kept)
      | (with_reducible apply retryForms_kept) | (with_reducible apply retryRemote_kept)
      | (with_reducible apply Kept.foldl) | (with_reducible apply Kept.foldlPair)
      | (with_reducible apply Kept.foldlPair2) | (refine Kept.of_pair (by with_reducible assumption) ?_) | (intro _)
      | split | (dsimp only))

theorem readSave_kept {r0 : State} (c : CtxId) (s : State)
    (k0 : Kept r0 s) : Kept r0 (readSave c s) := by
  unfold readSave
  repeat' (first
      | (with_reducible assumption) | (with_reducible simp only [Kept.upd_iff]) | (with_reducible apply fetchVa_kept)
      | (with_reducible apply State.modCtx_kept) | (with_reducible apply placeRestored_kept)
      | (with_reducible apply violate_kept) | (with_reducible apply Kept.foldl)
      | (with_reducible apply Kept.foldlPair) | (with_reducible apply Kept.foldlPair2)
      | (refine Kept.of_pair (p := fetchVa _ _ _ _ _) (by with_reducible assumption) ?_)
      | (refine Kept.of_pair (by with_reducible assumption) ?_) | (intro _) | split | (dsimp only))

theorem doRestore_kept {r0 : State} (c : CtxId) (s : State)
    (k0 : Kept r0 s) : Kept r0 (doRestore c s) := by
  unfold doRestore
  repeat' (first
      | (with_reducible assumption) | (with_reducible simp only [Kept.upd_iff]) | (with_reducible apply violate_kept)
      | (with_reducible apply readSave_kept) | (with_reducible apply Kept.foldl)
      | (with_reducible apply Kept.foldlPair) | (with_reducible apply Kept.foldlPair2)
      | (refine Kept.of_pair (by with_reducible assumption) ?_) | (intro _) | split | (dsimp only))

theorem execRestore_kept (fn : FnId) (c : CtxId) (s : State) :
    KeptOut s (execRestore fn c s) := by
  have k0 := Kept.refl s
  unfold execRestore
  repeat' (first
      | (with_reducible assumption) | (with_reducible simp only [Kept.upd_iff]) | (with_reducible apply KeptOut.next)
      | (with_reducible apply KeptOut.refused) | (with_reducible apply ctxPort_kept)
      | (with_reducible apply doRestore_kept) | (with_reducible apply Kept.foldl)
      | (with_reducible apply Kept.foldlPair) | (with_reducible apply Kept.foldlPair2)
      | (refine Kept.of_pair (by with_reducible assumption) ?_) | (intro _) | split | (dsimp only))

theorem resumeStopped_kept {r0 : State} (c : CtxId) (s : State)
    (k0 : Kept r0 s) : Kept r0 (resumeStopped c s) := by
  unfold resumeStopped
  repeat' (first
      | (with_reducible assumption) | (with_reducible simp only [Kept.upd_iff]) | (with_reducible apply readSave_kept)
      | (with_reducible apply kick_kept) | (with_reducible apply retryForms_kept)
      | (with_reducible apply retryRemote_kept) | (with_reducible apply Kept.foldl)
      | (with_reducible apply Kept.foldlPair) | (with_reducible apply Kept.foldlPair2)
      | (refine Kept.of_pair (by with_reducible assumption) ?_) | (intro _) | split | (dsimp only))

theorem faultResume_kept {r0 : State} (c : CtxId) (id : U16) (retry : Bool) (s : State)
    (k0 : Kept r0 s) : Kept r0 (faultResume c id retry s) := by
  unfold faultResume
  repeat' (first
      | (with_reducible assumption) | (with_reducible simp only [Kept.upd_iff]) | (with_reducible apply violate_kept)
      | (with_reducible apply State.setCtx_kept) | (with_reducible apply resumeStopped_kept)
      | (with_reducible apply endFault_kept) | (with_reducible apply Kept.foldl)
      | (with_reducible apply Kept.foldlPair) | (with_reducible apply Kept.foldlPair2)
      | (refine Kept.of_pair (by with_reducible assumption) ?_) | (intro _) | split | (dsimp only))

theorem execFaultRetry_kept (fn : FnId) (c : CtxId) (id : U16) (s : State) :
    KeptOut s (execFaultRetry fn c id s) := by
  have k0 := Kept.refl s
  unfold execFaultRetry
  repeat' (first
      | (with_reducible assumption) | (with_reducible simp only [Kept.upd_iff]) | (with_reducible apply KeptOut.next)
      | (with_reducible apply KeptOut.refused) | (with_reducible apply ctxPort_kept)
      | (with_reducible apply faultResume_kept) | (with_reducible apply Kept.foldl)
      | (with_reducible apply Kept.foldlPair) | (with_reducible apply Kept.foldlPair2)
      | (refine Kept.of_pair (by with_reducible assumption) ?_) | (intro _) | split | (dsimp only))

theorem execFaultAbort_kept (fn : FnId) (c : CtxId) (id : U16) (s : State) :
    KeptOut s (execFaultAbort fn c id s) := by
  have k0 := Kept.refl s
  unfold execFaultAbort
  repeat' (first
      | (with_reducible assumption) | (with_reducible simp only [Kept.upd_iff]) | (with_reducible apply KeptOut.next)
      | (with_reducible apply KeptOut.refused) | (with_reducible apply ctxPort_kept)
      | (with_reducible apply faultResume_kept) | (with_reducible apply Kept.foldl)
      | (with_reducible apply Kept.foldlPair) | (with_reducible apply Kept.foldlPair2)
      | (refine Kept.of_pair (by with_reducible assumption) ?_) | (intro _) | split | (dsimp only))

theorem doMmuInval_kept {r0 : State} (c : CtxId) (page : BitVec 48) (scope : BitVec 2) (s : State)
    (k0 : Kept r0 s) : Kept r0 (doMmuInval c page scope s) := by
  unfold doMmuInval
  repeat' (first
      | (with_reducible assumption) | (with_reducible simp only [Kept.upd_iff]) | (with_reducible apply violate_kept)
      | (with_reducible apply State.modCtx_kept) | (with_reducible apply Kept.foldl)
      | (with_reducible apply Kept.foldlPair) | (with_reducible apply Kept.foldlPair2)
      | (refine Kept.of_pair (by with_reducible assumption) ?_) | (intro _) | split | (dsimp only))

theorem execMmuInval_kept (fn : FnId) (c : CtxId) (page : BitVec 48) (scope : BitVec 2) (s : State) :
    KeptOut s (execMmuInval fn c page scope s) := by
  have k0 := Kept.refl s
  unfold execMmuInval
  repeat' (first
      | (with_reducible assumption) | (with_reducible simp only [Kept.upd_iff]) | (with_reducible apply KeptOut.next)
      | (with_reducible apply KeptOut.refused) | (with_reducible apply ctxPort_kept)
      | (with_reducible apply doMmuInval_kept) | (with_reducible apply Kept.foldl)
      | (with_reducible apply Kept.foldlPair) | (with_reducible apply Kept.foldlPair2)
      | (refine Kept.of_pair (by with_reducible assumption) ?_) | (intro _) | split | (dsimp only))

theorem failWait_kept {r0 : State} (c : CtxId) (w : HostWait) (s : State)
    (k0 : Kept r0 s) : Kept r0 (failWait c w s) := by
  unfold failWait
  repeat' (first
      | (with_reducible assumption) | (with_reducible simp only [Kept.upd_iff])
      | (with_reducible apply refuseSlot_kept) | (with_reducible apply pageFault_kept)
      | (with_reducible apply Kept.foldl) | (with_reducible apply Kept.foldlPair)
      | (with_reducible apply Kept.foldlPair2) | (refine Kept.of_pair (by with_reducible assumption) ?_) | (intro _)
      | split | (dsimp only))

theorem doAtsCompletion_kept {r0 : State} (c : CtxId) (t : AtsCompletion) (s : State)
    (k0 : Kept r0 s) : Kept r0 (doAtsCompletion c t s) := by
  unfold doAtsCompletion
  repeat' (first
      | (with_reducible assumption) | (with_reducible simp only [Kept.upd_iff])
      | (with_reducible apply State.setCtx_kept) | (with_reducible apply State.each_kept)
      | (with_reducible apply failWait_kept) | (with_reducible apply resumeStopped_kept)
      | (with_reducible apply Kept.foldl) | (with_reducible apply Kept.foldlPair)
      | (with_reducible apply Kept.foldlPair2) | (refine Kept.of_pair (by with_reducible assumption) ?_) | (intro _)
      | split | (dsimp only))

theorem execAtsTranslationCompletion_kept (c : CtxId) (t : AtsCompletion) (s : State) :
    KeptOut s (execAtsTranslationCompletion c t s) := by
  have k0 := Kept.refl s
  unfold execAtsTranslationCompletion
  repeat' (first
      | (with_reducible assumption) | (with_reducible simp only [Kept.upd_iff]) | (with_reducible apply KeptOut.next)
      | (with_reducible apply KeptOut.refused) | (with_reducible apply doAtsCompletion_kept)
      | (with_reducible apply Kept.foldl) | (with_reducible apply Kept.foldlPair)
      | (with_reducible apply Kept.foldlPair2) | (refine Kept.of_pair (by with_reducible assumption) ?_) | (intro _)
      | split | (dsimp only))

theorem doPriSuccess_kept {r0 : State} (c : CtxId) (hostPage : U64) (s : State)
    (k0 : Kept r0 s) : Kept r0 (doPriSuccess c hostPage s) := by
  unfold doPriSuccess
  repeat' (first
      | (with_reducible assumption) | (with_reducible simp only [Kept.upd_iff])
      | (with_reducible apply askQueued_kept) | (with_reducible apply State.setCtx_kept)
      | (with_reducible apply Kept.foldl) | (with_reducible apply Kept.foldlPair)
      | (with_reducible apply Kept.foldlPair2) | (refine Kept.of_pair (by with_reducible assumption) ?_) | (intro _)
      | split | (dsimp only))

theorem execPriSuccess_kept (c : CtxId) (hostPage : U64) (s : State) :
    KeptOut s (execPriSuccess c hostPage s) := by
  have k0 := Kept.refl s
  unfold execPriSuccess
  repeat' (first
      | (with_reducible assumption) | (with_reducible simp only [Kept.upd_iff]) | (with_reducible apply KeptOut.next)
      | (with_reducible apply KeptOut.refused) | (with_reducible apply doPriSuccess_kept)
      | (with_reducible apply Kept.foldl) | (with_reducible apply Kept.foldlPair)
      | (with_reducible apply Kept.foldlPair2) | (refine Kept.of_pair (by with_reducible assumption) ?_) | (intro _)
      | split | (dsimp only))

theorem denyWaits_kept {r0 : State} (c : CtxId) (hit : HostWait → Bool) (s : State)
    (k0 : Kept r0 s) : Kept r0 (denyWaits c hit s) := by
  unfold denyWaits
  repeat' (first
      | (with_reducible assumption) | (with_reducible simp only [Kept.upd_iff])
      | (with_reducible apply askQueued_kept) | (with_reducible apply State.each_kept)
      | (with_reducible apply State.setCtx_kept) | (with_reducible apply failWait_kept)
      | (with_reducible apply Kept.foldl) | (with_reducible apply Kept.foldlPair)
      | (with_reducible apply Kept.foldlPair2) | (refine Kept.of_pair (by with_reducible assumption) ?_) | (intro _)
      | split | (dsimp only))

theorem execPriInvalidRequest_kept (c : CtxId) (hostPage : U64) (s : State) :
    KeptOut s (execPriInvalidRequest c hostPage s) := by
  have k0 := Kept.refl s
  unfold execPriInvalidRequest
  repeat' (first
      | (with_reducible assumption) | (with_reducible simp only [Kept.upd_iff]) | (with_reducible apply KeptOut.next)
      | (with_reducible apply KeptOut.refused) | (with_reducible apply denyWaits_kept)
      | (with_reducible apply Kept.foldl) | (with_reducible apply Kept.foldlPair)
      | (with_reducible apply Kept.foldlPair2) | (refine Kept.of_pair (by with_reducible assumption) ?_) | (intro _)
      | split | (dsimp only))

theorem doPriResponseFailure_kept {r0 : State} (fn : FnId) (pasid : BitVec 20) (s : State)
    (k0 : Kept r0 s) : Kept r0 (doPriResponseFailure fn pasid s) := by
  unfold doPriResponseFailure
  repeat' (first
      | (with_reducible assumption) | (with_reducible simp only [Kept.upd_iff])
      | (with_reducible apply State.modFunc_kept) | (with_reducible apply raise_kept)
      | (with_reducible apply State.each_kept) | (with_reducible apply denyWaits_kept)
      | (with_reducible apply Kept.foldl) | (with_reducible apply Kept.foldlPair)
      | (with_reducible apply Kept.foldlPair2) | (refine Kept.of_pair (by with_reducible assumption) ?_) | (intro _)
      | split | (dsimp only))

theorem execPriResponseFailure_kept (fn : FnId) (pasid : BitVec 20) (s : State) :
    KeptOut s (execPriResponseFailure fn pasid s) := by
  have k0 := Kept.refl s
  unfold execPriResponseFailure
  repeat' (first
      | (with_reducible assumption) | (with_reducible simp only [Kept.upd_iff]) | (with_reducible apply KeptOut.next)
      | (with_reducible apply KeptOut.refused) | (with_reducible apply doPriResponseFailure_kept)
      | (with_reducible apply Kept.foldl) | (with_reducible apply Kept.foldlPair)
      | (with_reducible apply Kept.foldlPair2) | (refine Kept.of_pair (by with_reducible assumption) ?_) | (intro _)
      | split | (dsimp only))

theorem doAtsInvalidate_kept {r0 : State} (fn : FnId) (hostPage : U64) (s : State)
    (k0 : Kept r0 s) : Kept r0 (doAtsInvalidate fn hostPage s) := by
  unfold doAtsInvalidate
  repeat' (first
      | (with_reducible assumption) | (with_reducible simp only [Kept.upd_iff])
      | (with_reducible apply State.each_kept) | (with_reducible apply State.modCtx_kept)
      | (with_reducible apply Kept.foldl) | (with_reducible apply Kept.foldlPair)
      | (with_reducible apply Kept.foldlPair2) | (refine Kept.of_pair (by with_reducible assumption) ?_) | (intro _)
      | split | (dsimp only))

theorem execAtsInvalidate_kept (fn : FnId) (hostPage : U64) (s : State) :
    KeptOut s (execAtsInvalidate fn hostPage s) := by
  have k0 := Kept.refl s
  unfold execAtsInvalidate
  repeat' (first
      | (with_reducible assumption) | (with_reducible simp only [Kept.upd_iff]) | (with_reducible apply KeptOut.next)
      | (with_reducible apply KeptOut.refused) | (with_reducible apply doAtsInvalidate_kept)
      | (with_reducible apply Kept.foldl) | (with_reducible apply Kept.foldlPair)
      | (with_reducible apply Kept.foldlPair2) | (refine Kept.of_pair (by with_reducible assumption) ?_) | (intro _)
      | split | (dsimp only))

end Sys2Proof.Machine
end

