-- ==== Sys2Proof/Laws/KeptSecurity.lean ====
section
/-! SUPPORT. What the operations of Security keep. -/

namespace Sys2Proof.Machine

open Sys2Proof

set_option linter.unusedSimpArgs false

theorem doSvnCommit_kept {r0 : State} (s : State) (k0 : Kept r0 s) : Kept r0 (doSvnCommit s) := by
  unfold doSvnCommit
  dsimp only
  split
  · exact violateGlb_kept _ _ k0
  · rename_i h
    refine ⟨k0.mem, k0.hostMem, k0.pending, Nat.le_trans k0.svn ?_, k0.rma⟩
    show s.sec.svn.toNat ≤ (BitVec.ofNat 6 s.sec.fwSvn.toNat).toNat
    rw [BitVec.toNat_ofNat, Nat.mod_eq_of_lt (by omega)]
    omega

theorem execSecSvnCommit_kept (fn : FnId) (s : State) :
    KeptOut s (execSecSvnCommit fn s) := by
  have k0 := Kept.refl s
  unfold execSecSvnCommit
  repeat' (first
      | (with_reducible assumption) | (with_reducible simp only [Kept.upd_iff]) | (with_reducible apply KeptOut.next)
      | (with_reducible apply KeptOut.refused) | (with_reducible apply glbPort_kept)
      | (with_reducible apply doSvnCommit_kept) | (with_reducible apply Kept.foldl)
      | (with_reducible apply Kept.foldlPair) | (with_reducible apply Kept.foldlPair2)
      | (refine Kept.of_pair (by with_reducible assumption) ?_) | (intro _) | split | (dsimp only))

theorem doCertVa_kept {r0 : State} (v : U64) (s : State) (k0 : Kept r0 s) : Kept r0 (doCertVa v s) :=
  Kept.updHost (State.modSec_kept s _ k0 rfl rfl rfl)

theorem execSecCertVa_kept (fn : FnId) (value : U64) (s : State) :
    KeptOut s (execSecCertVa fn value s) := by
  have k0 := Kept.refl s
  unfold execSecCertVa
  repeat' (first
      | (with_reducible assumption) | (with_reducible simp only [Kept.upd_iff]) | (with_reducible apply KeptOut.next)
      | (with_reducible apply KeptOut.refused) | (with_reducible apply glbPort_kept)
      | (with_reducible apply doCertVa_kept) | (with_reducible apply Kept.foldl)
      | (with_reducible apply Kept.foldlPair) | (with_reducible apply Kept.foldlPair2)
      | (refine Kept.of_pair (by with_reducible assumption) ?_) | (intro _) | split | (dsimp only))

theorem doAttest_kept {r0 : State} (c : CtxId) (kind : BitVec 2) (s : State)
    (k0 : Kept r0 s) : Kept r0 (doAttest c kind s) := by
  unfold doAttest
  repeat' (first
      | (with_reducible assumption) | (with_reducible simp only [Kept.upd_iff]) | (with_reducible apply violate_kept)
      | (with_reducible apply State.modSec_kept) | (with_reducible apply State.setCtx_kept)
      | (with_reducible apply Kept.foldl) | (with_reducible apply Kept.foldlPair)
      | (with_reducible apply Kept.foldlPair2) | (refine Kept.of_pair (by with_reducible assumption) ?_) | (intro _)
      | split | (dsimp only) | (exact rfl))

theorem execAttestFirmware_kept (fn : FnId) (c : CtxId) (s : State) :
    KeptOut s (execAttestFirmware fn c s) := by
  have k0 := Kept.refl s
  unfold execAttestFirmware
  repeat' (first
      | (with_reducible assumption) | (with_reducible simp only [Kept.upd_iff]) | (with_reducible apply KeptOut.next)
      | (with_reducible apply KeptOut.refused) | (with_reducible apply ctxPort_kept)
      | (with_reducible apply doAttest_kept) | (with_reducible apply Kept.foldl)
      | (with_reducible apply Kept.foldlPair) | (with_reducible apply Kept.foldlPair2)
      | (refine Kept.of_pair (by with_reducible assumption) ?_) | (intro _) | split | (dsimp only))

theorem execAttestSeal_kept (fn : FnId) (c : CtxId) (s : State) :
    KeptOut s (execAttestSeal fn c s) := by
  have k0 := Kept.refl s
  unfold execAttestSeal
  repeat' (first
      | (with_reducible assumption) | (with_reducible simp only [Kept.upd_iff]) | (with_reducible apply KeptOut.next)
      | (with_reducible apply KeptOut.refused) | (with_reducible apply ctxPort_kept)
      | (with_reducible apply doAttest_kept) | (with_reducible apply Kept.foldl)
      | (with_reducible apply Kept.foldlPair) | (with_reducible apply Kept.foldlPair2)
      | (refine Kept.of_pair (by with_reducible assumption) ?_) | (intro _) | split | (dsimp only))

theorem endReport_kept {r0 : State} (c : CtxId) (status : AttestStatus) (code : Nat) (s : State)
    (k0 : Kept r0 s) : Kept r0 (endReport c status code s) := by
  unfold endReport
  repeat' (first
      | (with_reducible assumption) | (with_reducible simp only [Kept.upd_iff])
      | (with_reducible apply State.modSec_kept) | (with_reducible apply State.modCtx_kept)
      | (with_reducible apply ctxEvent_kept) | (with_reducible apply Kept.foldl)
      | (with_reducible apply Kept.foldlPair) | (with_reducible apply Kept.foldlPair2)
      | (refine Kept.of_pair (by with_reducible assumption) ?_) | (intro _) | split | (dsimp only) | (exact rfl))

theorem doReportDone_kept {r0 : State} (c : CtxId) (s : State)
    (k0 : Kept r0 s) : Kept r0 (doReportDone c s) := by
  unfold doReportDone
  repeat' (first
      | (with_reducible assumption) | (with_reducible simp only [Kept.upd_iff])
      | (with_reducible apply endReport_kept) | (with_reducible apply fetchVa_kept)
      | (with_reducible apply putVa_kept) | (with_reducible apply Kept.foldl) | (with_reducible apply Kept.foldlPair)
      | (with_reducible apply Kept.foldlPair2)
      | (refine Kept.of_pair (p := fetchVa _ _ _ _ _) (by with_reducible assumption) ?_)
      | (refine Kept.of_pair (p := putVa _ _ _ _ _ _) (by with_reducible assumption) ?_)
      | (refine Kept.of_pair (by with_reducible assumption) ?_) | (intro _) | split | (dsimp only))

theorem execReportDone_kept (c : CtxId) (s : State) :
    KeptOut s (execReportDone c s) := by
  have k0 := Kept.refl s
  unfold execReportDone
  repeat' (first
      | (with_reducible assumption) | (with_reducible simp only [Kept.upd_iff]) | (with_reducible apply KeptOut.next)
      | (with_reducible apply KeptOut.refused) | (with_reducible apply doReportDone_kept)
      | (with_reducible apply Kept.foldl) | (with_reducible apply Kept.foldlPair)
      | (with_reducible apply Kept.foldlPair2) | (refine Kept.of_pair (by with_reducible assumption) ?_) | (intro _)
      | split | (dsimp only))

theorem readNonce_kept {r0 : State} (s : State)
    (k0 : Kept r0 s) : Kept r0 (readNonce s) := by
  unfold readNonce
  repeat' (first
      | (with_reducible assumption) | (with_reducible simp only [Kept.upd_iff])
      | (with_reducible apply State.modSec_kept) | (with_reducible apply Kept.foldl)
      | (with_reducible apply Kept.foldlPair) | (with_reducible apply Kept.foldlPair2)
      | (refine Kept.of_pair (by with_reducible assumption) ?_) | (intro _) | split | (dsimp only) | (exact rfl))

theorem execDebugNonceRead_kept (req : Requester) (s : State) :
    KeptOut s (execDebugNonceRead req s) := by
  have k0 := Kept.refl s
  unfold execDebugNonceRead
  repeat' (first
      | (with_reducible assumption) | (with_reducible simp only [Kept.upd_iff]) | (with_reducible apply KeptOut.next)
      | (with_reducible apply KeptOut.refused) | (with_reducible apply readNonce_kept)
      | (with_reducible apply Kept.foldl) | (with_reducible apply Kept.foldlPair)
      | (with_reducible apply Kept.foldlPair2) | (refine Kept.of_pair (by with_reducible assumption) ?_) | (intro _)
      | split | (dsimp only))

theorem tokenTarget_rma {k : Sec} {uid : U64} {b : List Byte} {n : Nat} (h : tokenTarget k uid b = some n) (hr : k.debugState = 2) :
    n = 2 := by
  unfold tokenTarget at h
  simp_all

theorem doDebugToken_kept {r0 : State} (v : U64) (s : State) (k0 : Kept r0 s) : Kept r0 (doDebugToken v s) := by
  unfold doDebugToken
  dsimp only
  split
  · exact violateGlb_kept _ _ k0
  · exact ⟨k0.mem, k0.hostMem, k0.pending, k0.svn, fun _ => ⟨rfl, rfl⟩⟩
  · rename_i n hn h
    exact ⟨k0.mem, k0.hostMem, k0.pending, k0.svn, fun w => absurd (tokenTarget_rma h (k0.rma w).1) hn⟩

theorem execDebugToken_kept (fn : FnId) (value : U64) (s : State) :
    KeptOut s (execDebugToken fn value s) := by
  have k0 := Kept.refl s
  unfold execDebugToken
  repeat' (first
      | (with_reducible assumption) | (with_reducible simp only [Kept.upd_iff]) | (with_reducible apply KeptOut.next)
      | (with_reducible apply KeptOut.refused) | (with_reducible apply glbPort_kept)
      | (with_reducible apply doDebugToken_kept) | (with_reducible apply Kept.foldl)
      | (with_reducible apply Kept.foldlPair) | (with_reducible apply Kept.foldlPair2)
      | (refine Kept.of_pair (by with_reducible assumption) ?_) | (intro _) | split | (dsimp only))

end Sys2Proof.Machine
end

