-- ==== Sys2Proof/Laws/KeptRegRead.lean ====
section
/-! SUPPORT. What the operations of RegRead keep. -/

namespace Sys2Proof.Machine

open Sys2Proof

set_option linter.unusedSimpArgs false

theorem drawOnRead_kept {r0 : State} (r : Requester) (off n : Nat) (s : State)
    (k0 : Kept r0 s) : Kept r0 (drawOnRead r off n s) := by
  unfold drawOnRead
  repeat' (first
      | (with_reducible assumption) | (with_reducible simp only [Kept.upd_iff])
      | (with_reducible apply readNonce_kept) | (with_reducible apply Kept.foldl)
      | (with_reducible apply Kept.foldlPair) | (with_reducible apply Kept.foldlPair2)
      | (refine Kept.of_pair (by with_reducible assumption) ?_) | (intro _) | split | (dsimp only))

theorem fnRead_kept {r0 : State} (f : FnId) (off n : Nat) (s : State)
    (k0 : Kept r0 s) : Kept r0 (fnRead f off n s) := by
  unfold fnRead
  repeat' (first
      | (with_reducible assumption) | (with_reducible simp only [Kept.upd_iff])
      | (with_reducible apply drawOnRead_kept) | (with_reducible apply State.setFunc_kept)
      | (with_reducible apply Kept.foldl) | (with_reducible apply Kept.foldlPair)
      | (with_reducible apply Kept.foldlPair2) | (refine Kept.of_pair (by with_reducible assumption) ?_) | (intro _)
      | split | (dsimp only))

theorem busRead_kept {r0 : State} (off n : Nat) (s : State)
    (k0 : Kept r0 s) : Kept r0 (busRead off n s) := by
  unfold busRead
  repeat' (first
      | (with_reducible assumption) | (with_reducible simp only [Kept.upd_iff])
      | (with_reducible apply drawOnRead_kept) | (with_reducible apply State.modMgt_kept)
      | (with_reducible apply Kept.foldl) | (with_reducible apply Kept.foldlPair)
      | (with_reducible apply Kept.foldlPair2) | (refine Kept.of_pair (by with_reducible assumption) ?_) | (intro _)
      | split | (dsimp only))

theorem doReadWord_kept {r0 : State} (r : Requester) (off n : Nat) (s : State)
    (k0 : Kept r0 s) : Kept r0 (doReadWord r off n s) := by
  unfold doReadWord
  repeat' (first
      | (with_reducible assumption) | (with_reducible simp only [Kept.upd_iff]) | (with_reducible apply fnRead_kept)
      | (with_reducible apply busRead_kept) | (with_reducible apply Kept.foldl)
      | (with_reducible apply Kept.foldlPair) | (with_reducible apply Kept.foldlPair2)
      | (refine Kept.of_pair (by with_reducible assumption) ?_) | (intro _) | split | (dsimp only))

theorem execReadLowWord_kept (access : ReadAccess) (off : Nat) (s : State) :
    KeptOut s (execReadLowWord access off s) := by
  have k0 := Kept.refl s
  unfold execReadLowWord
  repeat' (first
      | (with_reducible assumption) | (with_reducible simp only [Kept.upd_iff]) | (with_reducible apply KeptOut.next)
      | (with_reducible apply KeptOut.refused) | (with_reducible apply doReadWord_kept)
      | (with_reducible apply Kept.foldl) | (with_reducible apply Kept.foldlPair)
      | (with_reducible apply Kept.foldlPair2) | (refine Kept.of_pair (by with_reducible assumption) ?_) | (intro _)
      | split | (dsimp only))

theorem doPrivateRead_kept {r0 : State} (eight : Bool) (s : State)
    (k0 : Kept r0 s) : Kept r0 (doPrivateRead eight s) := by
  unfold doPrivateRead
  repeat' (first
      | (with_reducible assumption) | (with_reducible simp only [Kept.upd_iff])
      | (with_reducible apply State.modMgt_kept) | (with_reducible apply busRead_kept)
      | (with_reducible apply Kept.foldl) | (with_reducible apply Kept.foldlPair)
      | (with_reducible apply Kept.foldlPair2) | (refine Kept.of_pair (by with_reducible assumption) ?_) | (intro _)
      | split | (dsimp only))

theorem execPrivateRead_kept (eight : Bool) (s : State) :
    KeptOut s (execPrivateRead eight s) := by
  have k0 := Kept.refl s
  unfold execPrivateRead
  repeat' (first
      | (with_reducible assumption) | (with_reducible simp only [Kept.upd_iff]) | (with_reducible apply KeptOut.next)
      | (with_reducible apply KeptOut.refused) | (with_reducible apply doPrivateRead_kept)
      | (with_reducible apply Kept.foldl) | (with_reducible apply Kept.foldlPair)
      | (with_reducible apply Kept.foldlPair2) | (refine Kept.of_pair (by with_reducible assumption) ?_) | (intro _)
      | split | (dsimp only))

end Sys2Proof.Machine
end

