-- ==== Sys2Proof/Laws/KeptReset.lean ====
section
/-! SUPPORT. What the operations of Reset keep. -/

namespace Sys2Proof.Machine

open Sys2Proof

set_option linter.unusedSimpArgs false

theorem completionEvents_kept {r0 : State} (fns : List FnId) (pl : List Byte) (s : State)
    (k0 : Kept r0 s) : Kept r0 (completionEvents fns pl s) := by
  unfold completionEvents
  repeat' (first
      | (with_reducible assumption) | (with_reducible simp only [Kept.upd_iff])
      | (with_reducible apply State.each_kept) | (with_reducible apply raise_kept) | (with_reducible apply Kept.foldl)
      | (with_reducible apply Kept.foldlPair) | (with_reducible apply Kept.foldlPair2)
      | (refine Kept.of_pair (by with_reducible assumption) ?_) | (intro _) | split | (dsimp only))

theorem requestPowerCycle_kept {r0 : State} (reason : Nat) (s : State)
    (k0 : Kept r0 s) : Kept r0 (requestPowerCycle reason s) := by
  unfold requestPowerCycle
  repeat' (first
      | (with_reducible assumption) | (with_reducible simp only [Kept.upd_iff])
      | (with_reducible apply raiseAlert_kept) | (with_reducible apply State.modMgt_kept)
      | (with_reducible apply raise_kept) | (with_reducible apply Kept.foldl) | (with_reducible apply Kept.foldlPair)
      | (with_reducible apply Kept.foldlPair2) | (refine Kept.of_pair (by with_reducible assumption) ?_) | (intro _)
      | split | (dsimp only))

theorem execPowerCycleRequest_kept (fn : FnId) (s : State) :
    KeptOut s (execPowerCycleRequest fn s) := by
  have k0 := Kept.refl s
  unfold execPowerCycleRequest
  repeat' (first
      | (with_reducible assumption) | (with_reducible simp only [Kept.upd_iff]) | (with_reducible apply KeptOut.next)
      | (with_reducible apply KeptOut.refused) | (with_reducible apply rstPort_kept)
      | (with_reducible apply requestPowerCycle_kept) | (with_reducible apply Kept.foldl)
      | (with_reducible apply Kept.foldlPair) | (with_reducible apply Kept.foldlPair2)
      | (refine Kept.of_pair (by with_reducible assumption) ?_) | (intro _) | split | (dsimp only))

theorem requestPartReset_kept {r0 : State} (q : BitVec 4) (cause : Nat) (s : State)
    (k0 : Kept r0 s) : Kept r0 (requestPartReset q cause s) := by
  unfold requestPartReset
  repeat' (first
      | (with_reducible assumption) | (with_reducible simp only [Kept.upd_iff])
      | (with_reducible apply State.modGlb_kept) | (with_reducible apply State.each_kept)
      | (with_reducible apply updatePlls_kept) | (with_reducible apply requestCtxReset_kept)
      | (with_reducible apply Kept.foldl) | (with_reducible apply Kept.foldlPair)
      | (with_reducible apply Kept.foldlPair2) | (refine Kept.of_pair (by with_reducible assumption) ?_) | (intro _)
      | split | (dsimp only))

theorem requestChipReset_kept {r0 : State} (cause : Nat) (s : State)
    (k0 : Kept r0 s) : Kept r0 (requestChipReset cause s) := by
  unfold requestChipReset
  repeat' (first
      | (with_reducible assumption) | (with_reducible simp only [Kept.upd_iff])
      | (with_reducible apply updatePlls_kept) | (with_reducible apply State.modGlb_kept)
      | (with_reducible apply Kept.foldl) | (with_reducible apply Kept.foldlPair)
      | (with_reducible apply Kept.foldlPair2) | (refine Kept.of_pair (by with_reducible assumption) ?_) | (intro _)
      | split | (dsimp only))

theorem execCtxReset_kept (fn : FnId) (c : CtxId) (s : State) :
    KeptOut s (execCtxReset fn c s) := by
  have k0 := Kept.refl s
  unfold execCtxReset
  repeat' (first
      | (with_reducible assumption) | (with_reducible simp only [Kept.upd_iff]) | (with_reducible apply KeptOut.next)
      | (with_reducible apply KeptOut.refused) | (with_reducible apply requestCtxReset_kept)
      | (with_reducible apply Kept.foldl) | (with_reducible apply Kept.foldlPair)
      | (with_reducible apply Kept.foldlPair2) | (refine Kept.of_pair (by with_reducible assumption) ?_) | (intro _)
      | split | (dsimp only))

theorem rstContext_kept {r0 : State} (index : Nat) (s : State)
    (k0 : Kept r0 s) : Kept r0 (rstContext index s) := by
  unfold rstContext
  repeat' (first
      | (with_reducible assumption) | (with_reducible simp only [Kept.upd_iff])
      | (with_reducible apply requestCtxReset_kept) | (with_reducible apply Kept.foldl)
      | (with_reducible apply Kept.foldlPair) | (with_reducible apply Kept.foldlPair2)
      | (refine Kept.of_pair (by with_reducible assumption) ?_) | (intro _) | split | (dsimp only))

theorem execRstContext_kept (fn : FnId) (index : U16) (s : State) :
    KeptOut s (execRstContext fn index s) := by
  have k0 := Kept.refl s
  unfold execRstContext
  repeat' (first
      | (with_reducible assumption) | (with_reducible simp only [Kept.upd_iff]) | (with_reducible apply KeptOut.next)
      | (with_reducible apply KeptOut.refused) | (with_reducible apply rstPort_kept)
      | (with_reducible apply rstContext_kept) | (with_reducible apply Kept.foldl)
      | (with_reducible apply Kept.foldlPair) | (with_reducible apply Kept.foldlPair2)
      | (refine Kept.of_pair (by with_reducible assumption) ?_) | (intro _) | split | (dsimp only))

theorem rstEngine_kept {r0 : State} (kind index : Nat) (s : State)
    (k0 : Kept r0 s) : Kept r0 (rstEngine kind index s) := by
  unfold rstEngine
  repeat' (first
      | (with_reducible assumption) | (with_reducible simp only [Kept.upd_iff])
      | (with_reducible apply requestEngineReset_kept) | (with_reducible apply Kept.foldl)
      | (with_reducible apply Kept.foldlPair) | (with_reducible apply Kept.foldlPair2)
      | (refine Kept.of_pair (by with_reducible assumption) ?_) | (intro _) | split | (dsimp only))

theorem execRstEngine_kept (fn : FnId) (kind : BitVec 2) (index : U16) (s : State) :
    KeptOut s (execRstEngine fn kind index s) := by
  have k0 := Kept.refl s
  unfold execRstEngine
  repeat' (first
      | (with_reducible assumption) | (with_reducible simp only [Kept.upd_iff]) | (with_reducible apply KeptOut.next)
      | (with_reducible apply KeptOut.refused) | (with_reducible apply rstPort_kept)
      | (with_reducible apply rstEngine_kept) | (with_reducible apply Kept.foldl)
      | (with_reducible apply Kept.foldlPair) | (with_reducible apply Kept.foldlPair2)
      | (refine Kept.of_pair (by with_reducible assumption) ?_) | (intro _) | split | (dsimp only))

theorem rstPartition_kept {r0 : State} (index : Nat) (s : State)
    (k0 : Kept r0 s) : Kept r0 (rstPartition index s) := by
  unfold rstPartition
  repeat' (first
      | (with_reducible assumption) | (with_reducible simp only [Kept.upd_iff])
      | (with_reducible apply requestPartReset_kept) | (with_reducible apply Kept.foldl)
      | (with_reducible apply Kept.foldlPair) | (with_reducible apply Kept.foldlPair2)
      | (refine Kept.of_pair (by with_reducible assumption) ?_) | (intro _) | split | (dsimp only))

theorem execRstPartition_kept (fn : FnId) (index : U16) (s : State) :
    KeptOut s (execRstPartition fn index s) := by
  have k0 := Kept.refl s
  unfold execRstPartition
  repeat' (first
      | (with_reducible assumption) | (with_reducible simp only [Kept.upd_iff]) | (with_reducible apply KeptOut.next)
      | (with_reducible apply KeptOut.refused) | (with_reducible apply rstPort_kept)
      | (with_reducible apply rstPartition_kept) | (with_reducible apply Kept.foldl)
      | (with_reducible apply Kept.foldlPair) | (with_reducible apply Kept.foldlPair2)
      | (refine Kept.of_pair (by with_reducible assumption) ?_) | (intro _) | split | (dsimp only))

theorem execRstChip_kept (fn : FnId) (s : State) :
    KeptOut s (execRstChip fn s) := by
  have k0 := Kept.refl s
  unfold execRstChip
  repeat' (first
      | (with_reducible assumption) | (with_reducible simp only [Kept.upd_iff]) | (with_reducible apply KeptOut.next)
      | (with_reducible apply KeptOut.refused) | (with_reducible apply rstPort_kept)
      | (with_reducible apply requestChipReset_kept) | (with_reducible apply Kept.foldl)
      | (with_reducible apply Kept.foldlPair) | (with_reducible apply Kept.foldlPair2)
      | (refine Kept.of_pair (by with_reducible assumption) ?_) | (intro _) | split | (dsimp only))

theorem rstCtrl_kept {r0 : State} (v : Nat) (s : State)
    (k0 : Kept r0 s) : Kept r0 (rstCtrl v s) := by
  unfold rstCtrl
  repeat' (first
      | (with_reducible assumption) | (with_reducible simp only [Kept.upd_iff])
      | (with_reducible apply rstContext_kept) | (with_reducible apply rstEngine_kept)
      | (with_reducible apply rstPartition_kept) | (with_reducible apply requestChipReset_kept)
      | (with_reducible apply requestPowerCycle_kept) | (with_reducible apply Kept.foldl)
      | (with_reducible apply Kept.foldlPair) | (with_reducible apply Kept.foldlPair2)
      | (refine Kept.of_pair (by with_reducible assumption) ?_) | (intro _) | split | (dsimp only))

theorem endAttempt_kept {r0 : State} (c : CtxId) (s : State)
    (k0 : Kept r0 s) : Kept r0 (endAttempt c s) := by
  unfold endAttempt
  repeat' (first
      | (with_reducible assumption) | (with_reducible simp only [Kept.upd_iff])
      | (with_reducible apply State.modCtx_kept) | (with_reducible apply sealRecord_kept)
      | (with_reducible apply Kept.foldl) | (with_reducible apply Kept.foldlPair)
      | (with_reducible apply Kept.foldlPair2)
      | (refine Kept.of_pair (p := sealRecord _ _ _ _) (by with_reducible assumption) ?_)
      | (refine Kept.of_pair (by with_reducible assumption) ?_) | (intro _) | split | (dsimp only))

theorem dropBarriers_kept {r0 : State} (c : CtxId) (s : State)
    (k0 : Kept r0 s) : Kept r0 (dropBarriers c s) := by
  unfold dropBarriers
  repeat' (first
      | (with_reducible assumption) | (with_reducible simp only [Kept.upd_iff])
      | (with_reducible apply State.each_kept) | (with_reducible apply State.setBarrier_kept)
      | (with_reducible apply Kept.foldl) | (with_reducible apply Kept.foldlPair)
      | (with_reducible apply Kept.foldlPair2) | (refine Kept.of_pair (by with_reducible assumption) ?_) | (intro _)
      | split | (dsimp only))

theorem finishCtxReset_kept {r0 : State} (c : CtxId) (s : State)
    (k0 : Kept r0 s) : Kept r0 (finishCtxReset c s) := by
  unfold finishCtxReset
  repeat' (first
      | (with_reducible assumption) | (with_reducible simp only [Kept.upd_iff])
      | (with_reducible apply dropBarriers_kept) | (with_reducible apply endAttempt_kept)
      | (with_reducible apply State.modSec_kept) | (with_reducible apply placeSems_kept)
      | (with_reducible apply askQueued_kept) | (with_reducible apply State.modCtx_kept)
      | (with_reducible apply ctxEvent_kept) | (with_reducible apply retryRemote_kept)
      | (with_reducible apply Kept.foldl) | (with_reducible apply Kept.foldlPair)
      | (with_reducible apply Kept.foldlPair2) | (refine Kept.of_pair (by with_reducible assumption) ?_) | (intro _)
      | split | (dsimp only) | (exact rfl))

theorem unfence_kept {r0 : State} (u : UnitRef) (s : State)
    (k0 : Kept r0 s) : Kept r0 (unfence u s) := by
  unfold unfence
  repeat' (first
      | (with_reducible assumption) | (with_reducible simp only [Kept.upd_iff])
      | (with_reducible apply State.modGlb_kept) | (with_reducible apply Kept.foldl)
      | (with_reducible apply Kept.foldlPair) | (with_reducible apply Kept.foldlPair2)
      | (refine Kept.of_pair (by with_reducible assumption) ?_) | (intro _) | split | (dsimp only))

theorem reportDone_kept {r0 : State} (domain cause : Nat) (s : State)
    (k0 : Kept r0 s) : Kept r0 (reportDone domain cause s) := by
  unfold reportDone
  repeat' (first
      | (with_reducible assumption) | (with_reducible simp only [Kept.upd_iff])
      | (with_reducible apply State.modGlb_kept) | (with_reducible apply Kept.foldl)
      | (with_reducible apply Kept.foldlPair) | (with_reducible apply Kept.foldlPair2)
      | (refine Kept.of_pair (by with_reducible assumption) ?_) | (intro _) | split | (dsimp only))

theorem finishEngine_kept {r0 : State} (p : UnitRef × Nat × List FnId) (s : State)
    (k0 : Kept r0 s) : Kept r0 (finishEngine p s) := by
  unfold finishEngine
  repeat' (first
      | (with_reducible assumption) | (with_reducible simp only [Kept.upd_iff])
      | (with_reducible apply State.modGlb_kept) | (with_reducible apply completionEvents_kept)
      | (with_reducible apply updatePlls_kept) | (with_reducible apply reportDone_kept)
      | (with_reducible apply unfence_kept) | (with_reducible apply Kept.foldl)
      | (with_reducible apply Kept.foldlPair) | (with_reducible apply Kept.foldlPair2)
      | (refine Kept.of_pair (by with_reducible assumption) ?_) | (intro _) | split | (dsimp only))

theorem finishPartition_kept {r0 : State} (p : BitVec 4 × Nat × List FnId) (finish : CtxId → State → State) (s : State)
    (k0 : Kept r0 s) (h_finish : ∀ a0 t, Kept r0 t → Kept r0 (finish a0 t)) : Kept r0 (finishPartition p finish s) := by
  unfold finishPartition
  repeat' (first
      | (with_reducible assumption) | (with_reducible simp only [Kept.upd_iff]) | (with_reducible apply h_finish)
      | (with_reducible apply State.modGlb_kept) | (with_reducible apply State.each_kept)
      | (with_reducible apply State.modCtx_kept) | (with_reducible apply finishEngine_kept)
      | (with_reducible apply unfence_kept) | (with_reducible apply State.modPwr_kept)
      | (with_reducible apply completionEvents_kept) | (with_reducible apply updatePlls_kept)
      | (with_reducible apply reportDone_kept) | (with_reducible apply Kept.foldl)
      | (with_reducible apply Kept.foldlPair) | (with_reducible apply Kept.foldlPair2)
      | (refine Kept.of_pair (by with_reducible assumption) ?_) | (intro _) | split | (dsimp only))

theorem Memory.wf_filter {m : List Host.Cell} (f : Host.Cell → Bool) (h : Memory.wf m = true) : Memory.wf (m.filter f) = true := by
  rw [Memory.wf_iff] at h ⊢
  exact ⟨fun p hp => h.1 p (List.mem_filter.mp hp).1, h.2.filter _⟩

theorem chipMem_kept {r0 : State} (s : State) (k0 : Kept r0 s) : Kept r0 (chipMem s) :=
  ⟨fun w => Memory.wf_filter _ (k0.mem w), k0.hostMem, k0.pending, k0.svn, k0.rma⟩

theorem chipClear_kept {r0 : State} (s : State) (k0 : Kept r0 s) : Kept r0 (chipClear s) :=
  have k := chipMem_kept s k0
  ⟨k.mem, k.hostMem, k.pending, k.svn, fun w => by
    have h := k.rma w
    exact ⟨by show Option.getD _ _ = _; rw [h.2]; exact h.1, rfl⟩⟩

theorem completeReset_kept {r0 : State} (finish : CtxId → State → State) (t : ResetTarget) (s : State)
    (k0 : Kept r0 s) (h_finish : ∀ a0 t, Kept r0 t → Kept r0 (finish a0 t)) : Kept r0 (completeReset finish t s) := by
  unfold completeReset
  repeat' (first
      | (with_reducible assumption) | (with_reducible simp only [Kept.upd_iff]) | (with_reducible apply h_finish)
      | (with_reducible apply finishEngine_kept) | (with_reducible apply finishPartition_kept)
      | (with_reducible apply chipClear_kept) | (with_reducible apply Kept.foldl)
      | (with_reducible apply Kept.foldlPair) | (with_reducible apply Kept.foldlPair2)
      | (refine Kept.of_pair (by with_reducible assumption) ?_) | (intro _) | split | (dsimp only))

theorem doFenceDrainTimeout_kept {r0 : State} (t : ResetTarget) (s : State)
    (k0 : Kept r0 s) : Kept r0 (doFenceDrainTimeout t s) := by
  unfold doFenceDrainTimeout
  repeat' (first
      | (with_reducible assumption) | (with_reducible simp only [Kept.upd_iff])
      | (with_reducible apply askQueued_kept) | (with_reducible apply State.each_kept)
      | (with_reducible apply State.modCtx_kept) | (with_reducible apply Kept.foldl)
      | (with_reducible apply Kept.foldlPair) | (with_reducible apply Kept.foldlPair2)
      | (refine Kept.of_pair (by with_reducible assumption) ?_) | (intro _) | split | (dsimp only))

theorem execFenceDrainTimeout_kept (t : ResetTarget) (s : State) :
    KeptOut s (execFenceDrainTimeout t s) := by
  have k0 := Kept.refl s
  unfold execFenceDrainTimeout
  repeat' (first
      | (with_reducible assumption) | (with_reducible simp only [Kept.upd_iff]) | (with_reducible apply KeptOut.next)
      | (with_reducible apply KeptOut.refused) | (with_reducible apply doFenceDrainTimeout_kept)
      | (with_reducible apply Kept.foldl) | (with_reducible apply Kept.foldlPair)
      | (with_reducible apply Kept.foldlPair2) | (refine Kept.of_pair (by with_reducible assumption) ?_) | (intro _)
      | split | (dsimp only))

theorem escalationEvent_kept {r0 : State} (ctx : Option CtxId) (domain kind index : Nat) (s : State)
    (k0 : Kept r0 s) : Kept r0 (escalationEvent ctx domain kind index s) := by
  unfold escalationEvent
  repeat' (first
      | (with_reducible assumption) | (with_reducible simp only [Kept.upd_iff]) | (with_reducible apply ctxEvent_kept)
      | (with_reducible apply raise_kept) | (with_reducible apply Kept.foldl) | (with_reducible apply Kept.foldlPair)
      | (with_reducible apply Kept.foldlPair2) | (refine Kept.of_pair (by with_reducible assumption) ?_) | (intro _)
      | split | (dsimp only))

theorem escalateChip_kept {r0 : State} (s : State)
    (k0 : Kept r0 s) : Kept r0 (escalateChip s) := by
  unfold escalateChip
  repeat' (first
      | (with_reducible assumption) | (with_reducible simp only [Kept.upd_iff])
      | (with_reducible apply escalationEvent_kept) | (with_reducible apply requestChipReset_kept)
      | (with_reducible apply Kept.foldl) | (with_reducible apply Kept.foldlPair)
      | (with_reducible apply Kept.foldlPair2) | (refine Kept.of_pair (by with_reducible assumption) ?_) | (intro _)
      | split | (dsimp only))

theorem doResetTimeout_kept {r0 : State} (t : ResetTarget) (s : State)
    (k0 : Kept r0 s) : Kept r0 (doResetTimeout t s) := by
  unfold doResetTimeout
  repeat' (first
      | (with_reducible assumption) | (with_reducible simp only [Kept.upd_iff])
      | (with_reducible apply State.each_kept) | (with_reducible apply requestEngineReset_kept)
      | (with_reducible apply escalationEvent_kept) | (with_reducible apply requestPartReset_kept)
      | (with_reducible apply escalateChip_kept) | (with_reducible apply requestPowerCycle_kept)
      | (with_reducible apply Kept.foldl) | (with_reducible apply Kept.foldlPair)
      | (with_reducible apply Kept.foldlPair2) | (refine Kept.of_pair (by with_reducible assumption) ?_) | (intro _)
      | split | (dsimp only))

theorem execResetTimeout_kept (t : ResetTarget) (s : State) :
    KeptOut s (execResetTimeout t s) := by
  have k0 := Kept.refl s
  unfold execResetTimeout
  repeat' (first
      | (with_reducible assumption) | (with_reducible simp only [Kept.upd_iff]) | (with_reducible apply KeptOut.next)
      | (with_reducible apply KeptOut.refused) | (with_reducible apply doResetTimeout_kept)
      | (with_reducible apply Kept.foldl) | (with_reducible apply Kept.foldlPair)
      | (with_reducible apply Kept.foldlPair2) | (refine Kept.of_pair (by with_reducible assumption) ?_) | (intro _)
      | split | (dsimp only))

theorem doWatchdogExpire_kept {r0 : State} (c : CtxId) (cls : Fin 4) (subj : WdtSubject) (s : State)
    (k0 : Kept r0 s) : Kept r0 (doWatchdogExpire c cls subj s) := by
  unfold doWatchdogExpire
  repeat' (first
      | (with_reducible assumption) | (with_reducible simp only [Kept.upd_iff])
      | (with_reducible apply State.setCtx_kept) | (with_reducible apply ctxEvent_kept)
      | (with_reducible apply requestCtxReset_kept) | (with_reducible apply Kept.foldl)
      | (with_reducible apply Kept.foldlPair) | (with_reducible apply Kept.foldlPair2)
      | (refine Kept.of_pair (by with_reducible assumption) ?_) | (intro _) | split | (dsimp only))

theorem execWatchdogExpire_kept (c : CtxId) (cls : Fin 4) (subject : WdtSubject) (s : State) :
    KeptOut s (execWatchdogExpire c cls subject s) := by
  have k0 := Kept.refl s
  unfold execWatchdogExpire
  repeat' (first
      | (with_reducible assumption) | (with_reducible simp only [Kept.upd_iff]) | (with_reducible apply KeptOut.next)
      | (with_reducible apply KeptOut.refused) | (with_reducible apply doWatchdogExpire_kept)
      | (with_reducible apply Kept.foldl) | (with_reducible apply Kept.foldlPair)
      | (with_reducible apply Kept.foldlPair2) | (refine Kept.of_pair (by with_reducible assumption) ?_) | (intro _)
      | split | (dsimp only))

theorem doUnitWatchdog_kept {r0 : State} (u : UnitRef) (s : State)
    (k0 : Kept r0 s) : Kept r0 (doUnitWatchdog u s) := by
  unfold doUnitWatchdog
  repeat' (first
      | (with_reducible assumption) | (with_reducible simp only [Kept.upd_iff])
      | (with_reducible apply State.modGlb_kept) | (with_reducible apply requestEngineReset_kept)
      | (with_reducible apply raise_kept) | (with_reducible apply Kept.foldl) | (with_reducible apply Kept.foldlPair)
      | (with_reducible apply Kept.foldlPair2) | (refine Kept.of_pair (by with_reducible assumption) ?_) | (intro _)
      | split | (dsimp only))

theorem execUnitWatchdog_kept (u : UnitRef) (s : State) :
    KeptOut s (execUnitWatchdog u s) := by
  have k0 := Kept.refl s
  unfold execUnitWatchdog
  repeat' (first
      | (with_reducible assumption) | (with_reducible simp only [Kept.upd_iff]) | (with_reducible apply KeptOut.next)
      | (with_reducible apply KeptOut.refused) | (with_reducible apply doUnitWatchdog_kept)
      | (with_reducible apply Kept.foldl) | (with_reducible apply Kept.foldlPair)
      | (with_reducible apply Kept.foldlPair2) | (refine Kept.of_pair (by with_reducible assumption) ?_) | (intro _)
      | split | (dsimp only))

theorem dropVfs_kept {r0 : State} (s : State)
    (k0 : Kept r0 s) : Kept r0 (dropVfs s) := by
  unfold dropVfs
  repeat' (first
      | (with_reducible assumption) | (with_reducible simp only [Kept.upd_iff])
      | (with_reducible apply State.each_kept) | (with_reducible apply State.setFunc_kept)
      | (with_reducible apply Kept.foldl) | (with_reducible apply Kept.foldlPair)
      | (with_reducible apply Kept.foldlPair2) | (refine Kept.of_pair (by with_reducible assumption) ?_) | (intro _)
      | split | (dsimp only))

theorem setVfs_kept {r0 : State} (enable : Bool) (n : Fin 16) (s : State)
    (k0 : Kept r0 s) : Kept r0 (setVfs enable n s) := by
  unfold setVfs
  repeat' (first
      | (with_reducible assumption) | (with_reducible simp only [Kept.upd_iff]) | (with_reducible apply dropVfs_kept)
      | (with_reducible apply State.modGlb_kept) | (with_reducible apply Kept.foldl)
      | (with_reducible apply Kept.foldlPair) | (with_reducible apply Kept.foldlPair2)
      | (refine Kept.of_pair (by with_reducible assumption) ?_) | (intro _) | split | (dsimp only))

theorem doFlr_kept {r0 : State} (fn : FnId) (s : State)
    (k0 : Kept r0 s) : Kept r0 (doFlr fn s) := by
  unfold doFlr
  repeat' (first
      | (with_reducible assumption) | (with_reducible simp only [Kept.upd_iff])
      | (with_reducible apply State.each_kept) | (with_reducible apply requestCtxReset_kept)
      | (with_reducible apply State.setFunc_kept) | (with_reducible apply setVfs_kept)
      | (with_reducible apply Kept.foldl) | (with_reducible apply Kept.foldlPair)
      | (with_reducible apply Kept.foldlPair2) | (refine Kept.of_pair (by with_reducible assumption) ?_) | (intro _)
      | split | (dsimp only))

theorem execFlr_kept (fn : FnId) (s : State) :
    KeptOut s (execFlr fn s) := by
  have k0 := Kept.refl s
  unfold execFlr
  repeat' (first
      | (with_reducible assumption) | (with_reducible simp only [Kept.upd_iff]) | (with_reducible apply KeptOut.next)
      | (with_reducible apply KeptOut.refused) | (with_reducible apply doFlr_kept) | (with_reducible apply Kept.foldl)
      | (with_reducible apply Kept.foldlPair) | (with_reducible apply Kept.foldlPair2)
      | (refine Kept.of_pair (by with_reducible assumption) ?_) | (intro _) | split | (dsimp only))

theorem execVfEnableWrite_kept (enable : Bool) (numVfs : Fin 16) (s : State) :
    KeptOut s (execVfEnableWrite enable numVfs s) := by
  have k0 := Kept.refl s
  unfold execVfEnableWrite
  repeat' (first
      | (with_reducible assumption) | (with_reducible simp only [Kept.upd_iff]) | (with_reducible apply KeptOut.next)
      | (with_reducible apply KeptOut.refused) | (with_reducible apply setVfs_kept)
      | (with_reducible apply Kept.foldl) | (with_reducible apply Kept.foldlPair)
      | (with_reducible apply Kept.foldlPair2) | (refine Kept.of_pair (by with_reducible assumption) ?_) | (intro _)
      | split | (dsimp only))

theorem doFundamentalReset_kept {r0 : State} (s : State)
    (k0 : Kept r0 s) : Kept r0 (doFundamentalReset s) := by
  unfold doFundamentalReset
  repeat' (first
      | (with_reducible assumption) | (with_reducible simp only [Kept.upd_iff])
      | (with_reducible apply State.modPwr_kept) | (with_reducible apply drawNat_kept)
      | (with_reducible apply requestChipReset_kept) | (with_reducible apply setVfs_kept)
      | (with_reducible apply Kept.foldl) | (with_reducible apply Kept.foldlPair)
      | (with_reducible apply Kept.foldlPair2)
      | (refine Kept.of_pair (p := drawNat _) (by with_reducible assumption) ?_)
      | (refine Kept.of_pair (by with_reducible assumption) ?_) | (intro _) | split | (dsimp only))

theorem execFundamentalReset_kept (s : State) :
    KeptOut s (execFundamentalReset s) := by
  have k0 := Kept.refl s
  unfold execFundamentalReset
  repeat' (first
      | (with_reducible assumption) | (with_reducible simp only [Kept.upd_iff]) | (with_reducible apply KeptOut.next)
      | (with_reducible apply KeptOut.refused) | (with_reducible apply doFundamentalReset_kept)
      | (with_reducible apply Kept.foldl) | (with_reducible apply Kept.foldlPair)
      | (with_reducible apply Kept.foldlPair2) | (refine Kept.of_pair (by with_reducible assumption) ?_) | (intro _)
      | split | (dsimp only))

end Sys2Proof.Machine
end

