-- ==== Sys2Proof/Laws/KeptRegWrite.lean ====
section
/-! SUPPORT. What the operations of RegWrite keep. -/

namespace Sys2Proof.Machine

open Sys2Proof

set_option linter.unusedSimpArgs false

theorem woWrite_kept {r0 : State} (fn : FnId) (off : Nat) (sel : WordSel) (v : U64) (act : U64 → State → State) (s : State)
    (k0 : Kept r0 s) (h_act : ∀ a0 t, Kept r0 t → Kept r0 (act a0 t)) : Kept r0 (woWrite fn off sel v act s) := by
  unfold woWrite
  repeat' (first
      | (with_reducible assumption) | (with_reducible simp only [Kept.upd_iff]) | (with_reducible apply h_act)
      | (with_reducible apply State.modFunc_kept) | (with_reducible apply Kept.foldl)
      | (with_reducible apply Kept.foldlPair) | (with_reducible apply Kept.foldlPair2)
      | (refine Kept.of_pair (by with_reducible assumption) ?_) | (intro _) | split | (dsimp only))

theorem staticWrite_kept {r0 : State} (c : CtxId) (f : Ctx → Ctx) (s : State)
    (k0 : Kept r0 s) : Kept r0 (staticWrite c f s) := by
  unfold staticWrite
  repeat' (first
      | (with_reducible assumption) | (with_reducible simp only [Kept.upd_iff])
      | (with_reducible apply State.modCtx_kept) | (with_reducible apply violate_kept)
      | (with_reducible apply Kept.foldl) | (with_reducible apply Kept.foldlPair)
      | (with_reducible apply Kept.foldlPair2) | (refine Kept.of_pair (by with_reducible assumption) ?_) | (intro _)
      | split | (dsimp only))

theorem shadowWord_kept {r0 : State} (c : CtxId) (id : Nat) (w : U32) (s : State)
    (k0 : Kept r0 s) : Kept r0 (shadowWord c id w s) := by
  unfold shadowWord
  repeat' (first
      | (with_reducible assumption) | (with_reducible simp only [Kept.upd_iff])
      | (with_reducible apply State.modCtx_kept) | (with_reducible apply Kept.foldl)
      | (with_reducible apply Kept.foldlPair) | (with_reducible apply Kept.foldlPair2)
      | (refine Kept.of_pair (by with_reducible assumption) ?_) | (intro _) | split | (dsimp only))

theorem shadowPair_kept {r0 : State} (c : CtxId) (lo : Nat) (sel : WordSel) (v : U64) (s : State)
    (k0 : Kept r0 s) : Kept r0 (shadowPair c lo sel v s) := by
  unfold shadowPair
  repeat' (first
      | (with_reducible assumption) | (with_reducible simp only [Kept.upd_iff])
      | (with_reducible apply shadowWord_kept) | (with_reducible apply Kept.foldl)
      | (with_reducible apply Kept.foldlPair) | (with_reducible apply Kept.foldlPair2)
      | (refine Kept.of_pair (by with_reducible assumption) ?_) | (intro _) | split | (dsimp only))

theorem onBit_kept {r0 : State} (w : U32) (i : Nat) (act : State → State) (s : State)
    (k0 : Kept r0 s) (h_act : ∀ t, Kept r0 t → Kept r0 (act t)) : Kept r0 (onBit w i act s) := by
  unfold onBit
  repeat' (first
      | (with_reducible assumption) | (with_reducible simp only [Kept.upd_iff]) | (with_reducible apply h_act)
      | (with_reducible apply Kept.foldl) | (with_reducible apply Kept.foldlPair)
      | (with_reducible apply Kept.foldlPair2) | (refine Kept.of_pair (by with_reducible assumption) ?_) | (intro _)
      | split | (dsimp only))

theorem writeCarcassCtrl_kept {r0 : State} (c : CtxId) (w : U32) (s : State)
    (k0 : Kept r0 s) : Kept r0 (writeCarcassCtrl c w s) := by
  unfold writeCarcassCtrl
  repeat' (first
      | (with_reducible assumption) | (with_reducible simp only [Kept.upd_iff]) | (with_reducible apply onBit_kept)
      | (with_reducible apply doActivate_kept) | (with_reducible apply doLoad_kept)
      | (with_reducible apply doCarcassDiscard_kept) | (with_reducible apply Kept.foldl)
      | (with_reducible apply Kept.foldlPair) | (with_reducible apply Kept.foldlPair2)
      | (refine Kept.of_pair (by with_reducible assumption) ?_) | (intro _) | split | (dsimp only))

theorem writeRun_kept {r0 : State} (c : CtxId) (w : U32) (s : State)
    (k0 : Kept r0 s) : Kept r0 (writeRun c w s) := by
  unfold writeRun
  repeat' (first
      | (with_reducible assumption) | (with_reducible simp only [Kept.upd_iff])
      | (with_reducible apply State.modCtx_kept) | (with_reducible apply doRunSteps_kept)
      | (with_reducible apply Kept.foldl) | (with_reducible apply Kept.foldlPair)
      | (with_reducible apply Kept.foldlPair2) | (refine Kept.of_pair (by with_reducible assumption) ?_) | (intro _)
      | split | (dsimp only))

theorem writeWdt_kept {r0 : State} (c : CtxId) (i : Fin 4) (w : U32) (s : State)
    (k0 : Kept r0 s) : Kept r0 (writeWdt c i w s) := by
  unfold writeWdt
  repeat' (first
      | (with_reducible assumption) | (with_reducible simp only [Kept.upd_iff]) | (with_reducible apply violate_kept)
      | (with_reducible apply State.modCtx_kept) | (with_reducible apply Kept.foldl)
      | (with_reducible apply Kept.foldlPair) | (with_reducible apply Kept.foldlPair2)
      | (refine Kept.of_pair (by with_reducible assumption) ?_) | (intro _) | split | (dsimp only))

theorem writePreempt_kept {r0 : State} (c : CtxId) (w : U32) (s : State)
    (k0 : Kept r0 s) : Kept r0 (writePreempt c w s) := by
  unfold writePreempt
  repeat' (first
      | (with_reducible assumption) | (with_reducible simp only [Kept.upd_iff]) | (with_reducible apply violate_kept)
      | (with_reducible apply onBit_kept) | (with_reducible apply doRestore_kept) | (with_reducible apply doSave_kept)
      | (with_reducible apply Kept.foldl) | (with_reducible apply Kept.foldlPair)
      | (with_reducible apply Kept.foldlPair2) | (refine Kept.of_pair (by with_reducible assumption) ?_) | (intro _)
      | split | (dsimp only))

theorem writeMaskGen_kept {r0 : State} (c : CtxId) (w : U32) (s : State)
    (k0 : Kept r0 s) : Kept r0 (writeMaskGen c w s) := by
  unfold writeMaskGen
  repeat' (first
      | (with_reducible assumption) | (with_reducible simp only [Kept.upd_iff]) | (with_reducible apply violate_kept)
      | (with_reducible apply kick_kept) | (with_reducible apply State.setCtx_kept)
      | (with_reducible apply Kept.foldl) | (with_reducible apply Kept.foldlPair)
      | (with_reducible apply Kept.foldlPair2) | (refine Kept.of_pair (by with_reducible assumption) ?_) | (intro _)
      | split | (dsimp only))

theorem writeFaultResume_kept {r0 : State} (c : CtxId) (w : U32) (s : State)
    (k0 : Kept r0 s) : Kept r0 (writeFaultResume c w s) := by
  unfold writeFaultResume
  repeat' (first
      | (with_reducible assumption) | (with_reducible simp only [Kept.upd_iff])
      | (with_reducible apply faultResume_kept) | (with_reducible apply violate_kept)
      | (with_reducible apply Kept.foldl) | (with_reducible apply Kept.foldlPair)
      | (with_reducible apply Kept.foldlPair2) | (refine Kept.of_pair (by with_reducible assumption) ?_) | (intro _)
      | split | (dsimp only))

theorem writeHoldCtrl_kept {r0 : State} (c : CtxId) (w : U32) (s : State)
    (k0 : Kept r0 s) : Kept r0 (writeHoldCtrl c w s) := by
  unfold writeHoldCtrl
  repeat' (first
      | (with_reducible assumption) | (with_reducible simp only [Kept.upd_iff])
      | (with_reducible apply doDiscard_kept) | (with_reducible apply onBit_kept)
      | (with_reducible apply doRelease_kept) | (with_reducible apply Kept.foldl)
      | (with_reducible apply Kept.foldlPair) | (with_reducible apply Kept.foldlPair2)
      | (refine Kept.of_pair (by with_reducible assumption) ?_) | (intro _) | split | (dsimp only))

theorem writeSemOp_kept {r0 : State} (c : CtxId) (w : U32) (s : State)
    (k0 : Kept r0 s) : Kept r0 (writeSemOp c w s) := by
  unfold writeSemOp
  repeat' (first
      | (with_reducible assumption) | (with_reducible simp only [Kept.upd_iff])
      | (with_reducible apply signalSem_kept) | (with_reducible apply decSem_kept)
      | (with_reducible apply violate_kept) | (with_reducible apply Kept.foldl)
      | (with_reducible apply Kept.foldlPair) | (with_reducible apply Kept.foldlPair2)
      | (refine Kept.of_pair (by with_reducible assumption) ?_) | (intro _) | split | (dsimp only))

theorem slotWrite_kept {r0 : State} (c : CtxId) (g : SlotId) (f : GroupSlot → GroupSlot) (s : State)
    (k0 : Kept r0 s) : Kept r0 (slotWrite c g f s) := by
  unfold slotWrite
  repeat' (first
      | (with_reducible assumption) | (with_reducible simp only [Kept.upd_iff]) | (with_reducible apply violate_kept)
      | (with_reducible apply State.modCtx_kept) | (with_reducible apply Kept.foldl)
      | (with_reducible apply Kept.foldlPair) | (with_reducible apply Kept.foldlPair2)
      | (refine Kept.of_pair (by with_reducible assumption) ?_) | (intro _) | split | (dsimp only))

theorem writeSlot_kept {r0 : State} (c : CtxId) (g : SlotId) (off : Nat) (w : U32) (s : State)
    (k0 : Kept r0 s) : Kept r0 (writeSlot c g off w s) := by
  unfold writeSlot
  repeat' (first
      | (with_reducible assumption) | (with_reducible simp only [Kept.upd_iff])
      | (with_reducible apply slotWrite_kept) | (with_reducible apply doDissolve_kept)
      | (with_reducible apply onBit_kept) | (with_reducible apply doForm_kept) | (with_reducible apply Kept.foldl)
      | (with_reducible apply Kept.foldlPair) | (with_reducible apply Kept.foldlPair2)
      | (refine Kept.of_pair (by with_reducible assumption) ?_) | (intro _) | split | (dsimp only))

theorem writeCtxBlock_kept {r0 : State} (c : CtxId) (off : Nat) (w : U32) (s : State)
    (k0 : Kept r0 s) : Kept r0 (writeCtxBlock c off w s) := by
  unfold writeCtxBlock
  repeat' (first
      | (with_reducible assumption) | (with_reducible simp only [Kept.upd_iff])
      | (with_reducible apply writeCarcassCtrl_kept) | (with_reducible apply doAgCommit_kept)
      | (with_reducible apply shadowWord_kept) | (with_reducible apply onBit_kept)
      | (with_reducible apply clearCnt_kept) | (with_reducible apply State.modCtx_kept)
      | (with_reducible apply writePreempt_kept) | (with_reducible apply staticWrite_kept)
      | (with_reducible apply writeRun_kept) | (with_reducible apply writeWdt_kept)
      | (with_reducible apply Kept.foldl) | (with_reducible apply Kept.foldlPair)
      | (with_reducible apply Kept.foldlPair2) | (refine Kept.of_pair (by with_reducible assumption) ?_) | (intro _)
      | split | (dsimp only))

theorem writeScrBlock_kept {r0 : State} (c : CtxId) (off : Nat) (w : U32) (s : State)
    (k0 : Kept r0 s) : Kept r0 (writeScrBlock c off w s) := by
  unfold writeScrBlock
  repeat' (first
      | (with_reducible assumption) | (with_reducible simp only [Kept.upd_iff])
      | (with_reducible apply shadowWord_kept) | (with_reducible apply clearCnt_kept)
      | (with_reducible apply State.modCtx_kept) | (with_reducible apply writeMaskGen_kept)
      | (with_reducible apply Kept.foldl) | (with_reducible apply Kept.foldlPair)
      | (with_reducible apply Kept.foldlPair2) | (refine Kept.of_pair (by with_reducible assumption) ?_) | (intro _)
      | split | (dsimp only))

theorem writeGauBlock_kept {r0 : State} (c : CtxId) (off : Nat) (w : U32) (s : State)
    (k0 : Kept r0 s) : Kept r0 (writeGauBlock c off w s) := by
  unfold writeGauBlock
  repeat' (first
      | (with_reducible assumption) | (with_reducible simp only [Kept.upd_iff])
      | (with_reducible apply shadowWord_kept) | (with_reducible apply State.modCtx_kept)
      | (with_reducible apply clearCnt_kept) | (with_reducible apply onBit_kept) | (with_reducible apply Kept.foldl)
      | (with_reducible apply Kept.foldlPair) | (with_reducible apply Kept.foldlPair2)
      | (refine Kept.of_pair (by with_reducible assumption) ?_) | (intro _) | split | (dsimp only))

theorem writeMmuBlock_kept {r0 : State} (c : CtxId) (off : Nat) (w : U32) (s : State)
    (k0 : Kept r0 s) : Kept r0 (writeMmuBlock c off w s) := by
  unfold writeMmuBlock
  repeat' (first
      | (with_reducible assumption) | (with_reducible simp only [Kept.upd_iff])
      | (with_reducible apply staticWrite_kept) | (with_reducible apply writeFaultResume_kept)
      | (with_reducible apply doDmaTail_kept) | (with_reducible apply writeHoldCtrl_kept)
      | (with_reducible apply doAttest_kept) | (with_reducible apply Kept.foldl)
      | (with_reducible apply Kept.foldlPair) | (with_reducible apply Kept.foldlPair2)
      | (refine Kept.of_pair (by with_reducible assumption) ?_) | (intro _) | split | (dsimp only))

theorem writeGluBlock_kept {r0 : State} (c : CtxId) (off : Nat) (w : U32) (s : State)
    (k0 : Kept r0 s) : Kept r0 (writeGluBlock c off w s) := by
  unfold writeGluBlock
  repeat' (first
      | (with_reducible assumption) | (with_reducible simp only [Kept.upd_iff]) | (with_reducible apply clearCnt_kept)
      | (with_reducible apply onBit_kept) | (with_reducible apply ifAssigned_kept)
      | (with_reducible apply writeSemOp_kept) | (with_reducible apply writeSlot_kept)
      | (with_reducible apply shadowWord_kept) | (with_reducible apply Kept.foldl)
      | (with_reducible apply Kept.foldlPair) | (with_reducible apply Kept.foldlPair2)
      | (refine Kept.of_pair (by with_reducible assumption) ?_) | (intro _) | split | (dsimp only))

theorem writeWord_kept {r0 : State} (c : CtxId) (off : Nat) (w : U32) (s : State)
    (k0 : Kept r0 s) : Kept r0 (writeWord c off w s) := by
  unfold writeWord
  repeat' (first
      | (with_reducible assumption) | (with_reducible simp only [Kept.upd_iff])
      | (with_reducible apply writeCtxBlock_kept) | (with_reducible apply writeScrBlock_kept)
      | (with_reducible apply writeGauBlock_kept) | (with_reducible apply writeMmuBlock_kept)
      | (with_reducible apply writeGluBlock_kept) | (with_reducible apply Kept.foldl)
      | (with_reducible apply Kept.foldlPair) | (with_reducible apply Kept.foldlPair2)
      | (refine Kept.of_pair (by with_reducible assumption) ?_) | (intro _) | split | (dsimp only))

theorem writeStatic64_kept {r0 : State} (c : CtxId) (off : Nat) (v : U64) (s : State)
    (k0 : Kept r0 s) : Kept r0 (writeStatic64 c off v s) := by
  unfold writeStatic64
  repeat' (first
      | (with_reducible assumption) | (with_reducible simp only [Kept.upd_iff])
      | (with_reducible apply staticWrite_kept) | (with_reducible apply doWitReplay_kept)
      | (with_reducible apply State.modCtx_kept) | (with_reducible apply slotWrite_kept)
      | (with_reducible apply Kept.foldl) | (with_reducible apply Kept.foldlPair)
      | (with_reducible apply Kept.foldlPair2) | (refine Kept.of_pair (by with_reducible assumption) ?_) | (intro _)
      | split | (dsimp only))

theorem semWaitWord_kept {r0 : State} (c : CtxId) (v : U64) (s : State)
    (k0 : Kept r0 s) : Kept r0 (semWaitWord c v s) := by
  unfold semWaitWord
  repeat' (first
      | (with_reducible assumption) | (with_reducible simp only [Kept.upd_iff])
      | (with_reducible apply ifAssigned_kept) | (with_reducible apply doSemWaitArm_kept)
      | (with_reducible apply Kept.foldl) | (with_reducible apply Kept.foldlPair)
      | (with_reducible apply Kept.foldlPair2) | (refine Kept.of_pair (by with_reducible assumption) ?_) | (intro _)
      | split | (dsimp only))

theorem barArriveWord_kept {r0 : State} (c : CtxId) (v : U64) (s : State)
    (k0 : Kept r0 s) : Kept r0 (barArriveWord c v s) := by
  unfold barArriveWord
  repeat' (first
      | (with_reducible assumption) | (with_reducible simp only [Kept.upd_iff])
      | (with_reducible apply ifAssigned_kept) | (with_reducible apply doBarArrive_kept)
      | (with_reducible apply Kept.foldl) | (with_reducible apply Kept.foldlPair)
      | (with_reducible apply Kept.foldlPair2) | (refine Kept.of_pair (by with_reducible assumption) ?_) | (intro _)
      | split | (dsimp only))

theorem writePair_kept {r0 : State} (fn : FnId) (c : CtxId) (off old : Nat) (sel : WordSel) (v : U64) (s : State)
    (k0 : Kept r0 s) : Kept r0 (writePair fn c off old sel v s) := by
  unfold writePair
  repeat' (first
      | (with_reducible assumption) | (with_reducible simp only [Kept.upd_iff])
      | (with_reducible apply doCtxStepWrite_kept) | (with_reducible apply shadowPair_kept)
      | (with_reducible apply woWrite_kept) | (with_reducible apply doMmuInval_kept)
      | (with_reducible apply semWaitWord_kept) | (with_reducible apply barArriveWord_kept)
      | (with_reducible apply writeStatic64_kept) | (with_reducible apply Kept.foldl)
      | (with_reducible apply Kept.foldlPair) | (with_reducible apply Kept.foldlPair2)
      | (refine Kept.of_pair (by with_reducible assumption) ?_) | (intro _) | split | (dsimp only))

theorem writeBuddyGib_kept {r0 : State} (w : U32) (s : State)
    (k0 : Kept r0 s) : Kept r0 (writeBuddyGib w s) := by
  unfold writeBuddyGib
  repeat' (first
      | (with_reducible assumption) | (with_reducible simp only [Kept.upd_iff])
      | (with_reducible apply violateGlb_kept) | (with_reducible apply State.modGlb_kept)
      | (with_reducible apply Kept.foldl) | (with_reducible apply Kept.foldlPair)
      | (with_reducible apply Kept.foldlPair2) | (refine Kept.of_pair (by with_reducible assumption) ?_) | (intro _)
      | split | (dsimp only))

theorem writeLnkCtrl_kept {r0 : State} (l : LinkId) (w : U32) (s : State)
    (k0 : Kept r0 s) : Kept r0 (writeLnkCtrl l w s) := by
  unfold writeLnkCtrl
  repeat' (first
      | (with_reducible assumption) | (with_reducible simp only [Kept.upd_iff]) | (with_reducible apply onBit_kept)
      | (with_reducible apply retrainLink_kept) | (with_reducible apply disableLink_kept)
      | (with_reducible apply enableLink_kept) | (with_reducible apply Kept.foldl)
      | (with_reducible apply Kept.foldlPair) | (with_reducible apply Kept.foldlPair2)
      | (refine Kept.of_pair (by with_reducible assumption) ?_) | (intro _) | split | (dsimp only))

theorem writeGlbBlock_kept {r0 : State} (off : Nat) (w : U32) (s : State)
    (k0 : Kept r0 s) : Kept r0 (writeGlbBlock off w s) := by
  unfold writeGlbBlock
  repeat' (first
      | (with_reducible assumption) | (with_reducible simp only [Kept.upd_iff])
      | (with_reducible apply writeBuddyGib_kept) | (with_reducible apply State.modGlb_kept)
      | (with_reducible apply rstCtrl_kept) | (with_reducible apply clearLinkRetire_kept)
      | (with_reducible apply writeAssign_kept) | (with_reducible apply clearBenchRetire_kept)
      | (with_reducible apply Kept.foldl) | (with_reducible apply Kept.foldlPair)
      | (with_reducible apply Kept.foldlPair2) | (refine Kept.of_pair (by with_reducible assumption) ?_) | (intro _)
      | split | (dsimp only))

theorem writeBar_kept {r0 : State} (k : BarId) (off : Nat) (w : U32) (s : State)
    (k0 : Kept r0 s) : Kept r0 (writeBar k off w s) := by
  unfold writeBar
  repeat' (first
      | (with_reducible assumption) | (with_reducible simp only [Kept.upd_iff])
      | (with_reducible apply writeBarrier_kept) | (with_reducible apply configBarrier_kept)
      | (with_reducible apply Kept.foldl) | (with_reducible apply Kept.foldlPair)
      | (with_reducible apply Kept.foldlPair2) | (refine Kept.of_pair (by with_reducible assumption) ?_) | (intro _)
      | split | (dsimp only))

theorem writeGlbWord_kept {r0 : State} (off : Nat) (w : U32) (s : State)
    (k0 : Kept r0 s) : Kept r0 (writeGlbWord off w s) := by
  unfold writeGlbWord
  repeat' (first
      | (with_reducible assumption) | (with_reducible simp only [Kept.upd_iff])
      | (with_reducible apply writeGlbBlock_kept) | (with_reducible apply writeLnkCtrl_kept)
      | (with_reducible apply clearLinks_kept) | (with_reducible apply writeBar_kept)
      | (with_reducible apply onBit_kept) | (with_reducible apply clearBarStray_kept)
      | (with_reducible apply State.modPwr_kept) | (with_reducible apply doSvnCommit_kept)
      | (with_reducible apply State.modMgt_kept) | (with_reducible apply clearDmaStray_kept)
      | (with_reducible apply Kept.foldl) | (with_reducible apply Kept.foldlPair)
      | (with_reducible apply Kept.foldlPair2) | (refine Kept.of_pair (by with_reducible assumption) ?_) | (intro _)
      | split | (dsimp only))

theorem writeGlbPair_kept {r0 : State} (fn : FnId) (off : Nat) (sel : WordSel) (v : U64) (s : State)
    (k0 : Kept r0 s) : Kept r0 (writeGlbPair fn off sel v s) := by
  unfold writeGlbPair
  repeat' (first
      | (with_reducible assumption) | (with_reducible simp only [Kept.upd_iff]) | (with_reducible apply doCertVa_kept)
      | (with_reducible apply woWrite_kept) | (with_reducible apply doDebugToken_kept)
      | (with_reducible apply Kept.foldl) | (with_reducible apply Kept.foldlPair)
      | (with_reducible apply Kept.foldlPair2) | (refine Kept.of_pair (by with_reducible assumption) ?_) | (intro _)
      | split | (dsimp only))

theorem writeFnWord_kept {r0 : State} (fn : FnId) (off : Nat) (w : U32) (s : State)
    (k0 : Kept r0 s) : Kept r0 (writeFnWord fn off w s) := by
  unfold writeFnWord
  repeat' (first
      | (with_reducible assumption) | (with_reducible simp only [Kept.upd_iff])
      | (with_reducible apply writeEvtCtrl_kept) | (with_reducible apply writeEvtHead_kept)
      | (with_reducible apply Kept.foldl) | (with_reducible apply Kept.foldlPair)
      | (with_reducible apply Kept.foldlPair2) | (refine Kept.of_pair (by with_reducible assumption) ?_) | (intro _)
      | split | (dsimp only))

theorem writeFnPair_kept {r0 : State} (fn : FnId) (off : Nat) (sel : WordSel) (v : U64) (s : State)
    (k0 : Kept r0 s) : Kept r0 (writeFnPair fn off sel v s) := by
  unfold writeFnPair
  repeat' (first
      | (with_reducible assumption) | (with_reducible simp only [Kept.upd_iff])
      | (with_reducible apply State.modFunc_kept) | (with_reducible apply Kept.foldl)
      | (with_reducible apply Kept.foldlPair) | (with_reducible apply Kept.foldlPair2)
      | (refine Kept.of_pair (by with_reducible assumption) ?_) | (intro _) | split | (dsimp only))

theorem bothWords_kept {r0 : State} (c : Option CtxId) (lo hi : State → State) (s : State)
    (k0 : Kept r0 s) (h_lo : ∀ t, Kept r0 t → Kept r0 (lo t)) (h_hi : ∀ t, Kept r0 t → Kept r0 (hi t)) : Kept r0 (bothWords c lo hi s) := by
  unfold bothWords
  repeat' (first
      | (with_reducible assumption) | (with_reducible simp only [Kept.upd_iff]) | (with_reducible apply h_lo)
      | (with_reducible apply h_hi) | (with_reducible apply State.modCtx_kept) | (with_reducible apply Kept.foldl)
      | (with_reducible apply Kept.foldlPair) | (with_reducible apply Kept.foldlPair2)
      | (refine Kept.of_pair (by with_reducible assumption) ?_) | (intro _) | split | (dsimp only))

theorem writeSplit_kept {r0 : State} (who : State → Nat → Option CtxId) (reg : State → Nat → Option RegVal) (word : Nat → U32 → State → State) (pair : Nat → Nat → WordSel → U64 → State → State) (off size : Nat) (v : U64) (s : State)
    (k0 : Kept r0 s) (h_word : ∀ a0 a1 t, Kept r0 t → Kept r0 (word a0 a1 t)) (h_pair : ∀ a0 a1 a2 a3 t, Kept r0 t → Kept r0 (pair a0 a1 a2 a3 t)) : Kept r0 (writeSplit who reg word pair off size v s) := by
  unfold writeSplit
  repeat' (first
      | (with_reducible assumption) | (with_reducible simp only [Kept.upd_iff]) | (with_reducible apply h_word)
      | (with_reducible apply h_pair) | (with_reducible apply bothWords_kept) | (with_reducible apply Kept.foldl)
      | (with_reducible apply Kept.foldlPair) | (with_reducible apply Kept.foldlPair2)
      | (refine Kept.of_pair (by with_reducible assumption) ?_) | (intro _) | split | (dsimp only))

theorem writeWindow_kept {r0 : State} (fn : FnId) (c : CtxId) (off size : Nat) (v : U64) (s : State)
    (k0 : Kept r0 s) : Kept r0 (writeWindow fn c off size v s) := by
  unfold writeWindow
  repeat' (first
      | (with_reducible assumption) | (with_reducible simp only [Kept.upd_iff])
      | (with_reducible apply writeSplit_kept) | (with_reducible apply writeWord_kept)
      | (with_reducible apply writePair_kept) | (with_reducible apply Kept.foldl)
      | (with_reducible apply Kept.foldlPair) | (with_reducible apply Kept.foldlPair2)
      | (refine Kept.of_pair (by with_reducible assumption) ?_) | (intro _) | split | (dsimp only))

theorem writeGlb_kept {r0 : State} (fn : FnId) (off size : Nat) (v : U64) (s : State)
    (k0 : Kept r0 s) : Kept r0 (writeGlb fn off size v s) := by
  unfold writeGlb
  repeat' (first
      | (with_reducible assumption) | (with_reducible simp only [Kept.upd_iff])
      | (with_reducible apply writeSplit_kept) | (with_reducible apply writeGlbWord_kept)
      | (with_reducible apply writeGlbPair_kept) | (with_reducible apply Kept.foldl)
      | (with_reducible apply Kept.foldlPair) | (with_reducible apply Kept.foldlPair2)
      | (refine Kept.of_pair (by with_reducible assumption) ?_) | (intro _) | split | (dsimp only))

theorem writeFn_kept {r0 : State} (fn : FnId) (off size : Nat) (v : U64) (s : State)
    (k0 : Kept r0 s) : Kept r0 (writeFn fn off size v s) := by
  unfold writeFn
  repeat' (first
      | (with_reducible assumption) | (with_reducible simp only [Kept.upd_iff])
      | (with_reducible apply writeSplit_kept) | (with_reducible apply writeFnWord_kept)
      | (with_reducible apply writeFnPair_kept) | (with_reducible apply Kept.foldl)
      | (with_reducible apply Kept.foldlPair) | (with_reducible apply Kept.foldlPair2)
      | (refine Kept.of_pair (by with_reducible assumption) ?_) | (intro _) | split | (dsimp only))

theorem writeMsixWord_kept {r0 : State} (fn : FnId) (off : Nat) (w : U32) (s : State)
    (k0 : Kept r0 s) : Kept r0 (writeMsixWord fn off w s) := by
  unfold writeMsixWord
  repeat' (first
      | (with_reducible assumption) | (with_reducible simp only [Kept.upd_iff])
      | (with_reducible apply State.modFunc_kept) | (with_reducible apply Kept.foldl)
      | (with_reducible apply Kept.foldlPair) | (with_reducible apply Kept.foldlPair2)
      | (refine Kept.of_pair (by with_reducible assumption) ?_) | (intro _) | split | (dsimp only))

theorem writeMsix_kept {r0 : State} (fn : FnId) (off size : Nat) (v : U64) (s : State)
    (k0 : Kept r0 s) : Kept r0 (writeMsix fn off size v s) := by
  unfold writeMsix
  repeat' (first
      | (with_reducible assumption) | (with_reducible simp only [Kept.upd_iff])
      | (with_reducible apply writeSplit_kept) | (with_reducible apply writeMsixWord_kept)
      | (with_reducible apply Kept.foldl) | (with_reducible apply Kept.foldlPair)
      | (with_reducible apply Kept.foldlPair2) | (refine Kept.of_pair (by with_reducible assumption) ?_) | (intro _)
      | split | (dsimp only))

theorem doRegisterWrite_kept {r0 : State} (fn : FnId) (off size : Nat) (v : U64) (s : State)
    (k0 : Kept r0 s) : Kept r0 (doRegisterWrite fn off size v s) := by
  unfold doRegisterWrite
  repeat' (first
      | (with_reducible assumption) | (with_reducible simp only [Kept.upd_iff]) | (with_reducible apply rstPort_kept)
      | (with_reducible apply writeGlb_kept) | (with_reducible apply glbPort_kept)
      | (with_reducible apply fnPort_kept) | (with_reducible apply writeFn_kept)
      | (with_reducible apply writeMsix_kept) | (with_reducible apply requestCtxReset_kept)
      | (with_reducible apply ctxPort_kept) | (with_reducible apply writeWindow_kept)
      | (with_reducible apply Kept.foldl) | (with_reducible apply Kept.foldlPair)
      | (with_reducible apply Kept.foldlPair2) | (refine Kept.of_pair (by with_reducible assumption) ?_) | (intro _)
      | split | (dsimp only))

theorem execRegisterWrite_kept (fn : FnId) (off size : Nat) (value : U64) (s : State) :
    KeptOut s (execRegisterWrite fn off size value s) := by
  have k0 := Kept.refl s
  unfold execRegisterWrite
  repeat' (first
      | (with_reducible assumption) | (with_reducible simp only [Kept.upd_iff]) | (with_reducible apply KeptOut.next)
      | (with_reducible apply KeptOut.refused) | (with_reducible apply doRegisterWrite_kept)
      | (with_reducible apply Kept.foldl) | (with_reducible apply Kept.foldlPair)
      | (with_reducible apply Kept.foldlPair2) | (refine Kept.of_pair (by with_reducible assumption) ?_) | (intro _)
      | split | (dsimp only))

theorem doPrivateWrite_kept {r0 : State} (off : BitVec 24) (data : List Byte) (s : State)
    (k0 : Kept r0 s) : Kept r0 (doPrivateWrite off data s) := by
  unfold doPrivateWrite
  repeat' (first
      | (with_reducible assumption) | (with_reducible simp only [Kept.upd_iff])
      | (with_reducible apply State.modMgt_kept) | (with_reducible apply writeGlb_kept)
      | (with_reducible apply Kept.foldl) | (with_reducible apply Kept.foldlPair)
      | (with_reducible apply Kept.foldlPair2) | (refine Kept.of_pair (by with_reducible assumption) ?_) | (intro _)
      | split | (dsimp only))

theorem execPrivateWrite_kept (off : BitVec 24) (data : List Byte) (s : State) :
    KeptOut s (execPrivateWrite off data s) := by
  have k0 := Kept.refl s
  unfold execPrivateWrite
  repeat' (first
      | (with_reducible assumption) | (with_reducible simp only [Kept.upd_iff]) | (with_reducible apply KeptOut.next)
      | (with_reducible apply KeptOut.refused) | (with_reducible apply doPrivateWrite_kept)
      | (with_reducible apply Kept.foldl) | (with_reducible apply Kept.foldlPair)
      | (with_reducible apply Kept.foldlPair2) | (refine Kept.of_pair (by with_reducible assumption) ?_) | (intro _)
      | split | (dsimp only))

/-- A command given again leaves what a command leaves. -/
theorem afterExec_kept {r0 s : State} {o : Host.Outcome State Fault Refusal} (k0 : Kept r0 s) (h : KeptOut s o) :
    Kept r0 (afterExec s o) := by
  unfold afterExec
  split
  · exact k0.trans (h.kept _ rfl)
  · exact k0

theorem giveAgain_kept {r0 : State} (i : Instr) (s : State) (k0 : Kept r0 s) : Kept r0 (giveAgain i s) := by
  cases i with
  | runSteps fn c n stop => exact afterExec_kept k0 (execRunSteps_kept fn c n stop s)
  | runStop fn c => exact afterExec_kept k0 (execRunStop_kept fn c s)
  | ctxStepWrite fn c sel v => exact afterExec_kept k0 (execCtxStepWrite_kept fn c sel v s)
  | load fn c => exact afterExec_kept k0 (execLoad_kept fn c s)
  | carcassDiscard fn c => exact afterExec_kept k0 (execCarcassDiscard_kept fn c s)
  | activate fn c => exact afterExec_kept k0 (execActivate_kept fn c s)
  | agCommit fn c b => exact afterExec_kept k0 (execAgCommit_kept fn c b s)
  | liveFieldWrite fn c f w => exact afterExec_kept k0 (execLiveFieldWrite_kept fn c f w s)
  | registerWrite fn off size v => exact afterExec_kept k0 (execRegisterWrite_kept fn off size v s)
  | release fn c => exact afterExec_kept k0 (execRelease_kept fn c s)
  | discard fn c => exact afterExec_kept k0 (execDiscard_kept fn c s)
  | witReplay fn c v => exact afterExec_kept k0 (execWitReplay_kept fn c v s)
  | semSignal fn c q v rel => exact afterExec_kept k0 (execSemSignal_kept fn c q v rel s)
  | semDec fn c q v => exact afterExec_kept k0 (execSemDec_kept fn c q v s)
  | semWaitArm fn c q v tag => exact afterExec_kept k0 (execSemWaitArm_kept fn c q v tag s)
  | barArrive fn c k slot epoch notify => exact afterExec_kept k0 (execBarArrive_kept fn c k slot epoch notify s)
  | mmuInval fn c page scope => exact afterExec_kept k0 (execMmuInval_kept fn c page scope s)
  | faultRetry fn c id => exact afterExec_kept k0 (execFaultRetry_kept fn c id s)
  | faultAbort fn c id => exact afterExec_kept k0 (execFaultAbort_kept fn c id s)
  | dmaTail fn c index => exact afterExec_kept k0 (execDmaTail_kept fn c index s)
  | save fn c => exact afterExec_kept k0 (execSave_kept fn c s)
  | restore fn c => exact afterExec_kept k0 (execRestore_kept fn c s)
  | form fn c g => exact afterExec_kept k0 (execForm_kept fn c g s)
  | dissolve fn c g => exact afterExec_kept k0 (execDissolve_kept fn c g s)
  | attestFirmware fn c => exact afterExec_kept k0 (execAttestFirmware_kept fn c s)
  | attestSeal fn c => exact afterExec_kept k0 (execAttestSeal_kept fn c s)
  | accClearVanish fn c => exact afterExec_kept k0 (execAccClearVanish_kept fn c s)
  | accClearTrunc fn c => exact afterExec_kept k0 (execAccClearTrunc_kept fn c s)
  | accClearWrap fn c => exact afterExec_kept k0 (execAccClearWrap_kept fn c s)
  | scrMetaClearDrop fn c => exact afterExec_kept k0 (execScrMetaClearDrop_kept fn c s)
  | scrMetaClearErr fn c => exact afterExec_kept k0 (execScrMetaClearErr_kept fn c s)
  | scrCountClear fn c bits => exact afterExec_kept k0 (execScrCountClear_kept fn c bits s)
  | ctxTagClear fn c => exact afterExec_kept k0 (execCtxTagClear_kept fn c s)
  | gauClearClass fn c => exact afterExec_kept k0 (execGauClearClass_kept fn c s)
  | gauClearSat fn c => exact afterExec_kept k0 (execGauClearSat_kept fn c s)
  | cutClear fn c => exact afterExec_kept k0 (execCutClear_kept fn c s)
  | gluClearRefuse fn c => exact afterExec_kept k0 (execGluClearRefuse_kept fn c s)
  | gluClearVanish fn c => exact afterExec_kept k0 (execGluClearVanish_kept fn c s)
  | gluUpdClear fn c => exact afterExec_kept k0 (execGluUpdClear_kept fn c s)
  | ctxIntegClear fn c bits => exact afterExec_kept k0 (execCtxIntegClear_kept fn c bits s)
  | gluGroupClear fn c => exact afterExec_kept k0 (execGluGroupClear_kept fn c s)
  | violClearCount fn c => exact afterExec_kept k0 (execViolClearCount_kept fn c s)
  | violClearLast fn c => exact afterExec_kept k0 (execViolClearLast_kept fn c s)
  | barrierEnable fn k scope owner tag => exact afterExec_kept k0 (execBarrierEnable_kept fn k scope owner tag s)
  | barrierDisable fn k => exact afterExec_kept k0 (execBarrierDisable_kept fn k s)
  | lnkRetrain fn l => exact afterExec_kept k0 (execLnkRetrain_kept fn l s)
  | lnkDisable fn l => exact afterExec_kept k0 (execLnkDisable_kept fn l s)
  | secSvnCommit fn => exact afterExec_kept k0 (execSecSvnCommit_kept fn s)
  | secCertVa fn v => exact afterExec_kept k0 (execSecCertVa_kept fn v s)
  | debugToken fn v => exact afterExec_kept k0 (execDebugToken_kept fn v s)
  | glbCtxAssign fn c valid func q => exact afterExec_kept k0 (execGlbCtxAssign_kept fn c valid func q s)
  | eventRingEnable fn irq log2 mod => exact afterExec_kept k0 (execEventRingEnable_kept fn irq log2 mod s)
  | evtHeadWrite fn index => exact afterExec_kept k0 (execEvtHeadWrite_kept fn index s)
  | benchRetireClear fn n mask => exact afterExec_kept k0 (execBenchRetireClear_kept fn n mask s)
  | linkRetireClear fn mask => exact afterExec_kept k0 (execLinkRetireClear_kept fn mask s)
  | lnkClearCrc fn bits => exact afterExec_kept k0 (execLnkClearCrc_kept fn bits s)
  | lnkClearReplay fn bits => exact afterExec_kept k0 (execLnkClearReplay_kept fn bits s)
  | glbIntegClear fn bits => exact afterExec_kept k0 (execGlbIntegClear_kept fn bits s)
  | glbIntegClearRfail fn => exact afterExec_kept k0 (execGlbIntegClearRfail_kept fn s)
  | barClear fn => exact afterExec_kept k0 (execBarClear_kept fn s)
  | dmaStrayClear fn => exact afterExec_kept k0 (execDmaStrayClear_kept fn s)
  | violGlbClearCount fn => exact afterExec_kept k0 (execViolGlbClearCount_kept fn s)
  | violGlbClearLast fn => exact afterExec_kept k0 (execViolGlbClearLast_kept fn s)
  | _ => exact k0

theorem replayWrites_kept {r0 : State} (fn : FnId) (s : State)
    (k0 : Kept r0 s) : Kept r0 (replayWrites fn s) := by
  unfold replayWrites
  repeat' (first
      | (with_reducible assumption) | (with_reducible simp only [Kept.upd_iff])
      | (with_reducible apply giveAgain_kept) | (with_reducible apply State.modFunc_kept)
      | (with_reducible apply Kept.foldl) | (with_reducible apply Kept.foldlPair)
      | (with_reducible apply Kept.foldlPair2) | (refine Kept.of_pair (by with_reducible assumption) ?_) | (intro _)
      | split | (dsimp only))

theorem endCtxReset_kept {r0 : State} (c : CtxId) (s : State)
    (k0 : Kept r0 s) : Kept r0 (endCtxReset c s) := by
  unfold endCtxReset
  repeat' (first
      | (with_reducible assumption) | (with_reducible simp only [Kept.upd_iff])
      | (with_reducible apply resumeStopped_kept) | (with_reducible apply State.each_kept)
      | (with_reducible apply finishCtxReset_kept) | (with_reducible apply replayWrites_kept)
      | (with_reducible apply Kept.foldl) | (with_reducible apply Kept.foldlPair)
      | (with_reducible apply Kept.foldlPair2) | (refine Kept.of_pair (by with_reducible assumption) ?_) | (intro _)
      | split | (dsimp only))

theorem execResetComplete_kept (t : ResetTarget) (s : State) :
    KeptOut s (execResetComplete t s) := by
  have k0 := Kept.refl s
  unfold execResetComplete
  repeat' (first
      | (with_reducible assumption) | (with_reducible simp only [Kept.upd_iff]) | (with_reducible apply KeptOut.next)
      | (with_reducible apply KeptOut.refused) | (with_reducible apply completeReset_kept)
      | (with_reducible apply endCtxReset_kept) | (with_reducible apply Kept.foldl)
      | (with_reducible apply Kept.foldlPair) | (with_reducible apply Kept.foldlPair2)
      | (refine Kept.of_pair (by with_reducible assumption) ?_) | (intro _) | split | (dsimp only))

end Sys2Proof.Machine
end

