-- ==== Sys2Proof/Laws/KeptVector.lean ====
section
/-! SUPPORT. What the operations of Vector keep. -/

namespace Sys2Proof.Machine

open Sys2Proof

set_option linter.unusedSimpArgs false

theorem takeSet_kept {r0 : State} (c : CtxId) (m : Image) (i : Nat) (st : Station) (s : State)
    (k0 : Kept r0 s) : Kept r0 (takeSet c m i st s).2 := by
  unfold takeSet
  repeat' (first
      | (with_reducible assumption) | (with_reducible simp only [Kept.upd_iff]) | (with_reducible apply takeTile_kept)
      | (with_reducible apply Kept.foldl) | (with_reducible apply Kept.foldlPair)
      | (with_reducible apply Kept.foldlPair2)
      | (refine Kept.of_pair (p := takeTile _ _ _ _ _) (by with_reducible assumption) ?_)
      | (refine Kept.of_pair (by with_reducible assumption) ?_) | (intro _) | split | (dsimp only))

theorem registerSet_kept {r0 : State} (c : CtxId) (i : Nat) (m : Image) (st : Station) (ts : List (Option Tile)) (s : State)
    (k0 : Kept r0 s) : Kept r0 (registerSet c i m st ts s) := by
  unfold registerSet
  repeat' (first
      | (with_reducible assumption) | (with_reducible simp only [Kept.upd_iff])
      | (with_reducible apply State.each_kept) | (with_reducible apply violate_kept)
      | (with_reducible apply State.modCtx_kept) | (with_reducible apply Kept.foldl)
      | (with_reducible apply Kept.foldlPair) | (with_reducible apply Kept.foldlPair2)
      | (refine Kept.of_pair (by with_reducible assumption) ?_) | (intro _) | split | (dsimp only))

theorem runBody_kept {r0 : State} (c : CtxId) (i : Nat) (m : Image) (st : Station) (w : Sweep) (s : State)
    (k0 : Kept r0 s) : Kept r0 (runBody c i m st w s) := by
  unfold runBody
  repeat' (first
      | (with_reducible assumption) | (with_reducible simp only [Kept.upd_iff])
      | (with_reducible apply State.modCtx_kept) | (with_reducible apply checkResidue_kept)
      | (with_reducible apply Kept.foldl) | (with_reducible apply Kept.foldlPair)
      | (with_reducible apply Kept.foldlPair2) | (refine Kept.of_pair (by with_reducible assumption) ?_) | (intro _)
      | split | (dsimp only))

theorem doVectorTileSet_kept {r0 : State} (c : CtxId) (i : Nat) (s : State)
    (k0 : Kept r0 s) : Kept r0 (doVectorTileSet c i s) := by
  unfold doVectorTileSet
  repeat' (first
      | (with_reducible assumption) | (with_reducible simp only [Kept.upd_iff])
      | (with_reducible apply withStation_kept) | (with_reducible apply State.modCtx_kept)
      | (with_reducible apply takeSet_kept) | (with_reducible apply registerSet_kept)
      | (with_reducible apply runBody_kept) | (with_reducible apply Kept.foldl)
      | (with_reducible apply Kept.foldlPair) | (with_reducible apply Kept.foldlPair2)
      | (refine Kept.of_pair (p := takeSet _ _ _ _ _) (by with_reducible assumption) ?_)
      | (refine Kept.of_pair (by with_reducible assumption) ?_) | (intro _) | split | (dsimp only))

theorem execVectorTileSet_kept (c : CtxId) (st : Nat) (s : State) :
    KeptOut s (execVectorTileSet c st s) := by
  have k0 := Kept.refl s
  unfold execVectorTileSet
  repeat' (first
      | (with_reducible assumption) | (with_reducible simp only [Kept.upd_iff]) | (with_reducible apply KeptOut.next)
      | (with_reducible apply KeptOut.refused) | (with_reducible apply doVectorTileSet_kept)
      | (with_reducible apply Kept.foldl) | (with_reducible apply Kept.foldlPair)
      | (with_reducible apply Kept.foldlPair2) | (refine Kept.of_pair (by with_reducible assumption) ?_) | (intro _)
      | split | (dsimp only))

theorem doSweepFinal_kept {r0 : State} (c : CtxId) (i : Nat) (out : TileXY) (s : State)
    (k0 : Kept r0 s) : Kept r0 (doSweepFinal c i out s) := by
  unfold doSweepFinal
  repeat' (first
      | (with_reducible assumption) | (with_reducible simp only [Kept.upd_iff])
      | (with_reducible apply withStation_kept) | (with_reducible apply State.modCtx_kept)
      | (with_reducible apply checkResidue_kept) | (with_reducible apply Kept.foldl)
      | (with_reducible apply Kept.foldlPair) | (with_reducible apply Kept.foldlPair2)
      | (refine Kept.of_pair (by with_reducible assumption) ?_) | (intro _) | split | (dsimp only))

theorem execSweepFinal_kept (c : CtxId) (st : Nat) (out : TileXY) (s : State) :
    KeptOut s (execSweepFinal c st out s) := by
  have k0 := Kept.refl s
  unfold execSweepFinal
  repeat' (first
      | (with_reducible assumption) | (with_reducible simp only [Kept.upd_iff]) | (with_reducible apply KeptOut.next)
      | (with_reducible apply KeptOut.refused) | (with_reducible apply doSweepFinal_kept)
      | (with_reducible apply Kept.foldl) | (with_reducible apply Kept.foldlPair)
      | (with_reducible apply Kept.foldlPair2) | (refine Kept.of_pair (by with_reducible assumption) ?_) | (intro _)
      | split | (dsimp only))

theorem doMode1Tile_kept {r0 : State} (c : CtxId) (i p : Nat) (s : State)
    (k0 : Kept r0 s) : Kept r0 (doMode1Tile c i p s) := by
  unfold doMode1Tile
  repeat' (first
      | (with_reducible assumption) | (with_reducible simp only [Kept.upd_iff])
      | (with_reducible apply withStation_kept) | (with_reducible apply takeTile_kept)
      | (with_reducible apply violate_kept) | (with_reducible apply State.modCtx_kept)
      | (with_reducible apply Kept.foldl) | (with_reducible apply Kept.foldlPair)
      | (with_reducible apply Kept.foldlPair2)
      | (refine Kept.of_pair (p := takeTile _ _ _ _ _) (by with_reducible assumption) ?_)
      | (refine Kept.of_pair (by with_reducible assumption) ?_) | (intro _) | split | (dsimp only))

theorem execMode1Tile_kept (c : CtxId) (st : Nat) (port : Fin 3) (s : State) :
    KeptOut s (execMode1Tile c st port s) := by
  have k0 := Kept.refl s
  unfold execMode1Tile
  repeat' (first
      | (with_reducible assumption) | (with_reducible simp only [Kept.upd_iff]) | (with_reducible apply KeptOut.next)
      | (with_reducible apply KeptOut.refused) | (with_reducible apply doMode1Tile_kept)
      | (with_reducible apply Kept.foldl) | (with_reducible apply Kept.foldlPair)
      | (with_reducible apply Kept.foldlPair2) | (refine Kept.of_pair (by with_reducible assumption) ?_) | (intro _)
      | split | (dsimp only))

theorem doLane_kept {r0 : State} (opc : Nat) (c : CtxId) (i : Nat) (j : Fin 16) (r : VecRec) (s : State)
    (k0 : Kept r0 s) : Kept r0 (doLane opc c i j r s) := by
  unfold doLane
  repeat' (first
      | (with_reducible assumption) | (with_reducible simp only [Kept.upd_iff])
      | (with_reducible apply withStation_kept) | (with_reducible apply State.modCtx_kept)
      | (with_reducible apply checkResidue_kept) | (with_reducible apply Kept.foldl)
      | (with_reducible apply Kept.foldlPair) | (with_reducible apply Kept.foldlPair2)
      | (refine Kept.of_pair (by with_reducible assumption) ?_) | (intro _) | split | (dsimp only))

theorem execVNop_kept (c : CtxId) (st : Nat) (j : Fin 16) (r : VecRec) (s : State) :
    KeptOut s (execVNop c st j r s) := by
  have k0 := Kept.refl s
  unfold execVNop
  repeat' (first
      | (with_reducible assumption) | (with_reducible simp only [Kept.upd_iff]) | (with_reducible apply KeptOut.next)
      | (with_reducible apply KeptOut.refused) | (with_reducible apply doLane_kept)
      | (with_reducible apply Kept.foldl) | (with_reducible apply Kept.foldlPair)
      | (with_reducible apply Kept.foldlPair2) | (refine Kept.of_pair (by with_reducible assumption) ?_) | (intro _)
      | split | (dsimp only))

theorem execVld_kept (c : CtxId) (st : Nat) (j : Fin 16) (r : VecRec) (s : State) :
    KeptOut s (execVld c st j r s) := by
  have k0 := Kept.refl s
  unfold execVld
  repeat' (first
      | (with_reducible assumption) | (with_reducible simp only [Kept.upd_iff]) | (with_reducible apply KeptOut.next)
      | (with_reducible apply KeptOut.refused) | (with_reducible apply doLane_kept)
      | (with_reducible apply Kept.foldl) | (with_reducible apply Kept.foldlPair)
      | (with_reducible apply Kept.foldlPair2) | (refine Kept.of_pair (by with_reducible assumption) ?_) | (intro _)
      | split | (dsimp only))

theorem execVst_kept (c : CtxId) (st : Nat) (j : Fin 16) (r : VecRec) (s : State) :
    KeptOut s (execVst c st j r s) := by
  have k0 := Kept.refl s
  unfold execVst
  repeat' (first
      | (with_reducible assumption) | (with_reducible simp only [Kept.upd_iff]) | (with_reducible apply KeptOut.next)
      | (with_reducible apply KeptOut.refused) | (with_reducible apply doLane_kept)
      | (with_reducible apply Kept.foldl) | (with_reducible apply Kept.foldlPair)
      | (with_reducible apply Kept.foldlPair2) | (refine Kept.of_pair (by with_reducible assumption) ?_) | (intro _)
      | split | (dsimp only))

theorem execVmovi_kept (c : CtxId) (st : Nat) (j : Fin 16) (r : VecRec) (s : State) :
    KeptOut s (execVmovi c st j r s) := by
  have k0 := Kept.refl s
  unfold execVmovi
  repeat' (first
      | (with_reducible assumption) | (with_reducible simp only [Kept.upd_iff]) | (with_reducible apply KeptOut.next)
      | (with_reducible apply KeptOut.refused) | (with_reducible apply doLane_kept)
      | (with_reducible apply Kept.foldl) | (with_reducible apply Kept.foldlPair)
      | (with_reducible apply Kept.foldlPair2) | (refine Kept.of_pair (by with_reducible assumption) ?_) | (intro _)
      | split | (dsimp only))

theorem execVidx_kept (c : CtxId) (st : Nat) (j : Fin 16) (r : VecRec) (s : State) :
    KeptOut s (execVidx c st j r s) := by
  have k0 := Kept.refl s
  unfold execVidx
  repeat' (first
      | (with_reducible assumption) | (with_reducible simp only [Kept.upd_iff]) | (with_reducible apply KeptOut.next)
      | (with_reducible apply KeptOut.refused) | (with_reducible apply doLane_kept)
      | (with_reducible apply Kept.foldl) | (with_reducible apply Kept.foldlPair)
      | (with_reducible apply Kept.foldlPair2) | (refine Kept.of_pair (by with_reducible assumption) ?_) | (intro _)
      | split | (dsimp only))

theorem execVsel_kept (c : CtxId) (st : Nat) (j : Fin 16) (r : VecRec) (s : State) :
    KeptOut s (execVsel c st j r s) := by
  have k0 := Kept.refl s
  unfold execVsel
  repeat' (first
      | (with_reducible assumption) | (with_reducible simp only [Kept.upd_iff]) | (with_reducible apply KeptOut.next)
      | (with_reducible apply KeptOut.refused) | (with_reducible apply doLane_kept)
      | (with_reducible apply Kept.foldl) | (with_reducible apply Kept.foldlPair)
      | (with_reducible apply Kept.foldlPair2) | (refine Kept.of_pair (by with_reducible assumption) ?_) | (intro _)
      | split | (dsimp only))

theorem execVperm_kept (c : CtxId) (st : Nat) (j : Fin 16) (r : VecRec) (s : State) :
    KeptOut s (execVperm c st j r s) := by
  have k0 := Kept.refl s
  unfold execVperm
  repeat' (first
      | (with_reducible assumption) | (with_reducible simp only [Kept.upd_iff]) | (with_reducible apply KeptOut.next)
      | (with_reducible apply KeptOut.refused) | (with_reducible apply doLane_kept)
      | (with_reducible apply Kept.foldl) | (with_reducible apply Kept.foldlPair)
      | (with_reducible apply Kept.foldlPair2) | (refine Kept.of_pair (by with_reducible assumption) ?_) | (intro _)
      | split | (dsimp only))

theorem execFadd_kept (c : CtxId) (st : Nat) (j : Fin 16) (r : VecRec) (s : State) :
    KeptOut s (execFadd c st j r s) := by
  have k0 := Kept.refl s
  unfold execFadd
  repeat' (first
      | (with_reducible assumption) | (with_reducible simp only [Kept.upd_iff]) | (with_reducible apply KeptOut.next)
      | (with_reducible apply KeptOut.refused) | (with_reducible apply doLane_kept)
      | (with_reducible apply Kept.foldl) | (with_reducible apply Kept.foldlPair)
      | (with_reducible apply Kept.foldlPair2) | (refine Kept.of_pair (by with_reducible assumption) ?_) | (intro _)
      | split | (dsimp only))

theorem execFsub_kept (c : CtxId) (st : Nat) (j : Fin 16) (r : VecRec) (s : State) :
    KeptOut s (execFsub c st j r s) := by
  have k0 := Kept.refl s
  unfold execFsub
  repeat' (first
      | (with_reducible assumption) | (with_reducible simp only [Kept.upd_iff]) | (with_reducible apply KeptOut.next)
      | (with_reducible apply KeptOut.refused) | (with_reducible apply doLane_kept)
      | (with_reducible apply Kept.foldl) | (with_reducible apply Kept.foldlPair)
      | (with_reducible apply Kept.foldlPair2) | (refine Kept.of_pair (by with_reducible assumption) ?_) | (intro _)
      | split | (dsimp only))

theorem execFmul_kept (c : CtxId) (st : Nat) (j : Fin 16) (r : VecRec) (s : State) :
    KeptOut s (execFmul c st j r s) := by
  have k0 := Kept.refl s
  unfold execFmul
  repeat' (first
      | (with_reducible assumption) | (with_reducible simp only [Kept.upd_iff]) | (with_reducible apply KeptOut.next)
      | (with_reducible apply KeptOut.refused) | (with_reducible apply doLane_kept)
      | (with_reducible apply Kept.foldl) | (with_reducible apply Kept.foldlPair)
      | (with_reducible apply Kept.foldlPair2) | (refine Kept.of_pair (by with_reducible assumption) ?_) | (intro _)
      | split | (dsimp only))

theorem execFfma_kept (c : CtxId) (st : Nat) (j : Fin 16) (r : VecRec) (s : State) :
    KeptOut s (execFfma c st j r s) := by
  have k0 := Kept.refl s
  unfold execFfma
  repeat' (first
      | (with_reducible assumption) | (with_reducible simp only [Kept.upd_iff]) | (with_reducible apply KeptOut.next)
      | (with_reducible apply KeptOut.refused) | (with_reducible apply doLane_kept)
      | (with_reducible apply Kept.foldl) | (with_reducible apply Kept.foldlPair)
      | (with_reducible apply Kept.foldlPair2) | (refine Kept.of_pair (by with_reducible assumption) ?_) | (intro _)
      | split | (dsimp only))

theorem execFmax_kept (c : CtxId) (st : Nat) (j : Fin 16) (r : VecRec) (s : State) :
    KeptOut s (execFmax c st j r s) := by
  have k0 := Kept.refl s
  unfold execFmax
  repeat' (first
      | (with_reducible assumption) | (with_reducible simp only [Kept.upd_iff]) | (with_reducible apply KeptOut.next)
      | (with_reducible apply KeptOut.refused) | (with_reducible apply doLane_kept)
      | (with_reducible apply Kept.foldl) | (with_reducible apply Kept.foldlPair)
      | (with_reducible apply Kept.foldlPair2) | (refine Kept.of_pair (by with_reducible assumption) ?_) | (intro _)
      | split | (dsimp only))

theorem execFmin_kept (c : CtxId) (st : Nat) (j : Fin 16) (r : VecRec) (s : State) :
    KeptOut s (execFmin c st j r s) := by
  have k0 := Kept.refl s
  unfold execFmin
  repeat' (first
      | (with_reducible assumption) | (with_reducible simp only [Kept.upd_iff]) | (with_reducible apply KeptOut.next)
      | (with_reducible apply KeptOut.refused) | (with_reducible apply doLane_kept)
      | (with_reducible apply Kept.foldl) | (with_reducible apply Kept.foldlPair)
      | (with_reducible apply Kept.foldlPair2) | (refine Kept.of_pair (by with_reducible assumption) ?_) | (intro _)
      | split | (dsimp only))

theorem execFabs_kept (c : CtxId) (st : Nat) (j : Fin 16) (r : VecRec) (s : State) :
    KeptOut s (execFabs c st j r s) := by
  have k0 := Kept.refl s
  unfold execFabs
  repeat' (first
      | (with_reducible assumption) | (with_reducible simp only [Kept.upd_iff]) | (with_reducible apply KeptOut.next)
      | (with_reducible apply KeptOut.refused) | (with_reducible apply doLane_kept)
      | (with_reducible apply Kept.foldl) | (with_reducible apply Kept.foldlPair)
      | (with_reducible apply Kept.foldlPair2) | (refine Kept.of_pair (by with_reducible assumption) ?_) | (intro _)
      | split | (dsimp only))

theorem execFneg_kept (c : CtxId) (st : Nat) (j : Fin 16) (r : VecRec) (s : State) :
    KeptOut s (execFneg c st j r s) := by
  have k0 := Kept.refl s
  unfold execFneg
  repeat' (first
      | (with_reducible assumption) | (with_reducible simp only [Kept.upd_iff]) | (with_reducible apply KeptOut.next)
      | (with_reducible apply KeptOut.refused) | (with_reducible apply doLane_kept)
      | (with_reducible apply Kept.foldl) | (with_reducible apply Kept.foldlPair)
      | (with_reducible apply Kept.foldlPair2) | (refine Kept.of_pair (by with_reducible assumption) ?_) | (intro _)
      | split | (dsimp only))

theorem execFcmp_kept (c : CtxId) (st : Nat) (j : Fin 16) (r : VecRec) (s : State) :
    KeptOut s (execFcmp c st j r s) := by
  have k0 := Kept.refl s
  unfold execFcmp
  repeat' (first
      | (with_reducible assumption) | (with_reducible simp only [Kept.upd_iff]) | (with_reducible apply KeptOut.next)
      | (with_reducible apply KeptOut.refused) | (with_reducible apply doLane_kept)
      | (with_reducible apply Kept.foldl) | (with_reducible apply Kept.foldlPair)
      | (with_reducible apply Kept.foldlPair2) | (refine Kept.of_pair (by with_reducible assumption) ?_) | (intro _)
      | split | (dsimp only))

theorem execFdiv_kept (c : CtxId) (st : Nat) (j : Fin 16) (r : VecRec) (s : State) :
    KeptOut s (execFdiv c st j r s) := by
  have k0 := Kept.refl s
  unfold execFdiv
  repeat' (first
      | (with_reducible assumption) | (with_reducible simp only [Kept.upd_iff]) | (with_reducible apply KeptOut.next)
      | (with_reducible apply KeptOut.refused) | (with_reducible apply doLane_kept)
      | (with_reducible apply Kept.foldl) | (with_reducible apply Kept.foldlPair)
      | (with_reducible apply Kept.foldlPair2) | (refine Kept.of_pair (by with_reducible assumption) ?_) | (intro _)
      | split | (dsimp only))

theorem execFsqrt_kept (c : CtxId) (st : Nat) (j : Fin 16) (r : VecRec) (s : State) :
    KeptOut s (execFsqrt c st j r s) := by
  have k0 := Kept.refl s
  unfold execFsqrt
  repeat' (first
      | (with_reducible assumption) | (with_reducible simp only [Kept.upd_iff]) | (with_reducible apply KeptOut.next)
      | (with_reducible apply KeptOut.refused) | (with_reducible apply doLane_kept)
      | (with_reducible apply Kept.foldl) | (with_reducible apply Kept.foldlPair)
      | (with_reducible apply Kept.foldlPair2) | (refine Kept.of_pair (by with_reducible assumption) ?_) | (intro _)
      | split | (dsimp only))

theorem execFrsqrt_kept (c : CtxId) (st : Nat) (j : Fin 16) (r : VecRec) (s : State) :
    KeptOut s (execFrsqrt c st j r s) := by
  have k0 := Kept.refl s
  unfold execFrsqrt
  repeat' (first
      | (with_reducible assumption) | (with_reducible simp only [Kept.upd_iff]) | (with_reducible apply KeptOut.next)
      | (with_reducible apply KeptOut.refused) | (with_reducible apply doLane_kept)
      | (with_reducible apply Kept.foldl) | (with_reducible apply Kept.foldlPair)
      | (with_reducible apply Kept.foldlPair2) | (refine Kept.of_pair (by with_reducible assumption) ?_) | (intro _)
      | split | (dsimp only))

theorem execFexp2_kept (c : CtxId) (st : Nat) (j : Fin 16) (r : VecRec) (s : State) :
    KeptOut s (execFexp2 c st j r s) := by
  have k0 := Kept.refl s
  unfold execFexp2
  repeat' (first
      | (with_reducible assumption) | (with_reducible simp only [Kept.upd_iff]) | (with_reducible apply KeptOut.next)
      | (with_reducible apply KeptOut.refused) | (with_reducible apply doLane_kept)
      | (with_reducible apply Kept.foldl) | (with_reducible apply Kept.foldlPair)
      | (with_reducible apply Kept.foldlPair2) | (refine Kept.of_pair (by with_reducible assumption) ?_) | (intro _)
      | split | (dsimp only))

theorem execFlog2_kept (c : CtxId) (st : Nat) (j : Fin 16) (r : VecRec) (s : State) :
    KeptOut s (execFlog2 c st j r s) := by
  have k0 := Kept.refl s
  unfold execFlog2
  repeat' (first
      | (with_reducible assumption) | (with_reducible simp only [Kept.upd_iff]) | (with_reducible apply KeptOut.next)
      | (with_reducible apply KeptOut.refused) | (with_reducible apply doLane_kept)
      | (with_reducible apply Kept.foldl) | (with_reducible apply Kept.foldlPair)
      | (with_reducible apply Kept.foldlPair2) | (refine Kept.of_pair (by with_reducible assumption) ?_) | (intro _)
      | split | (dsimp only))

theorem execFtoi_kept (c : CtxId) (st : Nat) (j : Fin 16) (r : VecRec) (s : State) :
    KeptOut s (execFtoi c st j r s) := by
  have k0 := Kept.refl s
  unfold execFtoi
  repeat' (first
      | (with_reducible assumption) | (with_reducible simp only [Kept.upd_iff]) | (with_reducible apply KeptOut.next)
      | (with_reducible apply KeptOut.refused) | (with_reducible apply doLane_kept)
      | (with_reducible apply Kept.foldl) | (with_reducible apply Kept.foldlPair)
      | (with_reducible apply Kept.foldlPair2) | (refine Kept.of_pair (by with_reducible assumption) ?_) | (intro _)
      | split | (dsimp only))

theorem execItof_kept (c : CtxId) (st : Nat) (j : Fin 16) (r : VecRec) (s : State) :
    KeptOut s (execItof c st j r s) := by
  have k0 := Kept.refl s
  unfold execItof
  repeat' (first
      | (with_reducible assumption) | (with_reducible simp only [Kept.upd_iff]) | (with_reducible apply KeptOut.next)
      | (with_reducible apply KeptOut.refused) | (with_reducible apply doLane_kept)
      | (with_reducible apply Kept.foldl) | (with_reducible apply Kept.foldlPair)
      | (with_reducible apply Kept.foldlPair2) | (refine Kept.of_pair (by with_reducible assumption) ?_) | (intro _)
      | split | (dsimp only))

theorem execIadd_kept (c : CtxId) (st : Nat) (j : Fin 16) (r : VecRec) (s : State) :
    KeptOut s (execIadd c st j r s) := by
  have k0 := Kept.refl s
  unfold execIadd
  repeat' (first
      | (with_reducible assumption) | (with_reducible simp only [Kept.upd_iff]) | (with_reducible apply KeptOut.next)
      | (with_reducible apply KeptOut.refused) | (with_reducible apply doLane_kept)
      | (with_reducible apply Kept.foldl) | (with_reducible apply Kept.foldlPair)
      | (with_reducible apply Kept.foldlPair2) | (refine Kept.of_pair (by with_reducible assumption) ?_) | (intro _)
      | split | (dsimp only))

theorem execIsub_kept (c : CtxId) (st : Nat) (j : Fin 16) (r : VecRec) (s : State) :
    KeptOut s (execIsub c st j r s) := by
  have k0 := Kept.refl s
  unfold execIsub
  repeat' (first
      | (with_reducible assumption) | (with_reducible simp only [Kept.upd_iff]) | (with_reducible apply KeptOut.next)
      | (with_reducible apply KeptOut.refused) | (with_reducible apply doLane_kept)
      | (with_reducible apply Kept.foldl) | (with_reducible apply Kept.foldlPair)
      | (with_reducible apply Kept.foldlPair2) | (refine Kept.of_pair (by with_reducible assumption) ?_) | (intro _)
      | split | (dsimp only))

theorem execImul_kept (c : CtxId) (st : Nat) (j : Fin 16) (r : VecRec) (s : State) :
    KeptOut s (execImul c st j r s) := by
  have k0 := Kept.refl s
  unfold execImul
  repeat' (first
      | (with_reducible assumption) | (with_reducible simp only [Kept.upd_iff]) | (with_reducible apply KeptOut.next)
      | (with_reducible apply KeptOut.refused) | (with_reducible apply doLane_kept)
      | (with_reducible apply Kept.foldl) | (with_reducible apply Kept.foldlPair)
      | (with_reducible apply Kept.foldlPair2) | (refine Kept.of_pair (by with_reducible assumption) ?_) | (intro _)
      | split | (dsimp only))

theorem execIand_kept (c : CtxId) (st : Nat) (j : Fin 16) (r : VecRec) (s : State) :
    KeptOut s (execIand c st j r s) := by
  have k0 := Kept.refl s
  unfold execIand
  repeat' (first
      | (with_reducible assumption) | (with_reducible simp only [Kept.upd_iff]) | (with_reducible apply KeptOut.next)
      | (with_reducible apply KeptOut.refused) | (with_reducible apply doLane_kept)
      | (with_reducible apply Kept.foldl) | (with_reducible apply Kept.foldlPair)
      | (with_reducible apply Kept.foldlPair2) | (refine Kept.of_pair (by with_reducible assumption) ?_) | (intro _)
      | split | (dsimp only))

theorem execIor_kept (c : CtxId) (st : Nat) (j : Fin 16) (r : VecRec) (s : State) :
    KeptOut s (execIor c st j r s) := by
  have k0 := Kept.refl s
  unfold execIor
  repeat' (first
      | (with_reducible assumption) | (with_reducible simp only [Kept.upd_iff]) | (with_reducible apply KeptOut.next)
      | (with_reducible apply KeptOut.refused) | (with_reducible apply doLane_kept)
      | (with_reducible apply Kept.foldl) | (with_reducible apply Kept.foldlPair)
      | (with_reducible apply Kept.foldlPair2) | (refine Kept.of_pair (by with_reducible assumption) ?_) | (intro _)
      | split | (dsimp only))

theorem execIxor_kept (c : CtxId) (st : Nat) (j : Fin 16) (r : VecRec) (s : State) :
    KeptOut s (execIxor c st j r s) := by
  have k0 := Kept.refl s
  unfold execIxor
  repeat' (first
      | (with_reducible assumption) | (with_reducible simp only [Kept.upd_iff]) | (with_reducible apply KeptOut.next)
      | (with_reducible apply KeptOut.refused) | (with_reducible apply doLane_kept)
      | (with_reducible apply Kept.foldl) | (with_reducible apply Kept.foldlPair)
      | (with_reducible apply Kept.foldlPair2) | (refine Kept.of_pair (by with_reducible assumption) ?_) | (intro _)
      | split | (dsimp only))

theorem execIshl_kept (c : CtxId) (st : Nat) (j : Fin 16) (r : VecRec) (s : State) :
    KeptOut s (execIshl c st j r s) := by
  have k0 := Kept.refl s
  unfold execIshl
  repeat' (first
      | (with_reducible assumption) | (with_reducible simp only [Kept.upd_iff]) | (with_reducible apply KeptOut.next)
      | (with_reducible apply KeptOut.refused) | (with_reducible apply doLane_kept)
      | (with_reducible apply Kept.foldl) | (with_reducible apply Kept.foldlPair)
      | (with_reducible apply Kept.foldlPair2) | (refine Kept.of_pair (by with_reducible assumption) ?_) | (intro _)
      | split | (dsimp only))

theorem execIshr_kept (c : CtxId) (st : Nat) (j : Fin 16) (r : VecRec) (s : State) :
    KeptOut s (execIshr c st j r s) := by
  have k0 := Kept.refl s
  unfold execIshr
  repeat' (first
      | (with_reducible assumption) | (with_reducible simp only [Kept.upd_iff]) | (with_reducible apply KeptOut.next)
      | (with_reducible apply KeptOut.refused) | (with_reducible apply doLane_kept)
      | (with_reducible apply Kept.foldl) | (with_reducible apply Kept.foldlPair)
      | (with_reducible apply Kept.foldlPair2) | (refine Kept.of_pair (by with_reducible assumption) ?_) | (intro _)
      | split | (dsimp only))

theorem execImax_kept (c : CtxId) (st : Nat) (j : Fin 16) (r : VecRec) (s : State) :
    KeptOut s (execImax c st j r s) := by
  have k0 := Kept.refl s
  unfold execImax
  repeat' (first
      | (with_reducible assumption) | (with_reducible simp only [Kept.upd_iff]) | (with_reducible apply KeptOut.next)
      | (with_reducible apply KeptOut.refused) | (with_reducible apply doLane_kept)
      | (with_reducible apply Kept.foldl) | (with_reducible apply Kept.foldlPair)
      | (with_reducible apply Kept.foldlPair2) | (refine Kept.of_pair (by with_reducible assumption) ?_) | (intro _)
      | split | (dsimp only))

theorem execImin_kept (c : CtxId) (st : Nat) (j : Fin 16) (r : VecRec) (s : State) :
    KeptOut s (execImin c st j r s) := by
  have k0 := Kept.refl s
  unfold execImin
  repeat' (first
      | (with_reducible assumption) | (with_reducible simp only [Kept.upd_iff]) | (with_reducible apply KeptOut.next)
      | (with_reducible apply KeptOut.refused) | (with_reducible apply doLane_kept)
      | (with_reducible apply Kept.foldl) | (with_reducible apply Kept.foldlPair)
      | (with_reducible apply Kept.foldlPair2) | (refine Kept.of_pair (by with_reducible assumption) ?_) | (intro _)
      | split | (dsimp only))

theorem execIcmp_kept (c : CtxId) (st : Nat) (j : Fin 16) (r : VecRec) (s : State) :
    KeptOut s (execIcmp c st j r s) := by
  have k0 := Kept.refl s
  unfold execIcmp
  repeat' (first
      | (with_reducible assumption) | (with_reducible simp only [Kept.upd_iff]) | (with_reducible apply KeptOut.next)
      | (with_reducible apply KeptOut.refused) | (with_reducible apply doLane_kept)
      | (with_reducible apply Kept.foldl) | (with_reducible apply Kept.foldlPair)
      | (with_reducible apply Kept.foldlPair2) | (refine Kept.of_pair (by with_reducible assumption) ?_) | (intro _)
      | split | (dsimp only))

theorem execXclr_kept (c : CtxId) (st : Nat) (j : Fin 16) (r : VecRec) (s : State) :
    KeptOut s (execXclr c st j r s) := by
  have k0 := Kept.refl s
  unfold execXclr
  repeat' (first
      | (with_reducible assumption) | (with_reducible simp only [Kept.upd_iff]) | (with_reducible apply KeptOut.next)
      | (with_reducible apply KeptOut.refused) | (with_reducible apply doLane_kept)
      | (with_reducible apply Kept.foldl) | (with_reducible apply Kept.foldlPair)
      | (with_reducible apply Kept.foldlPair2) | (refine Kept.of_pair (by with_reducible assumption) ?_) | (intro _)
      | split | (dsimp only))

theorem execXacc_kept (c : CtxId) (st : Nat) (j : Fin 16) (r : VecRec) (s : State) :
    KeptOut s (execXacc c st j r s) := by
  have k0 := Kept.refl s
  unfold execXacc
  repeat' (first
      | (with_reducible assumption) | (with_reducible simp only [Kept.upd_iff]) | (with_reducible apply KeptOut.next)
      | (with_reducible apply KeptOut.refused) | (with_reducible apply doLane_kept)
      | (with_reducible apply Kept.foldl) | (with_reducible apply Kept.foldlPair)
      | (with_reducible apply Kept.foldlPair2) | (refine Kept.of_pair (by with_reducible assumption) ?_) | (intro _)
      | split | (dsimp only))

theorem execXacci_kept (c : CtxId) (st : Nat) (j : Fin 16) (r : VecRec) (s : State) :
    KeptOut s (execXacci c st j r s) := by
  have k0 := Kept.refl s
  unfold execXacci
  repeat' (first
      | (with_reducible assumption) | (with_reducible simp only [Kept.upd_iff]) | (with_reducible apply KeptOut.next)
      | (with_reducible apply KeptOut.refused) | (with_reducible apply doLane_kept)
      | (with_reducible apply Kept.foldl) | (with_reducible apply Kept.foldlPair)
      | (with_reducible apply Kept.foldlPair2) | (refine Kept.of_pair (by with_reducible assumption) ?_) | (intro _)
      | split | (dsimp only))

theorem execXsum_kept (c : CtxId) (st : Nat) (j : Fin 16) (r : VecRec) (s : State) :
    KeptOut s (execXsum c st j r s) := by
  have k0 := Kept.refl s
  unfold execXsum
  repeat' (first
      | (with_reducible assumption) | (with_reducible simp only [Kept.upd_iff]) | (with_reducible apply KeptOut.next)
      | (with_reducible apply KeptOut.refused) | (with_reducible apply doLane_kept)
      | (with_reducible apply Kept.foldl) | (with_reducible apply Kept.foldlPair)
      | (with_reducible apply Kept.foldlPair2) | (refine Kept.of_pair (by with_reducible assumption) ?_) | (intro _)
      | split | (dsimp only))

theorem execXrnd_kept (c : CtxId) (st : Nat) (j : Fin 16) (r : VecRec) (s : State) :
    KeptOut s (execXrnd c st j r s) := by
  have k0 := Kept.refl s
  unfold execXrnd
  repeat' (first
      | (with_reducible assumption) | (with_reducible simp only [Kept.upd_iff]) | (with_reducible apply KeptOut.next)
      | (with_reducible apply KeptOut.refused) | (with_reducible apply doLane_kept)
      | (with_reducible apply Kept.foldl) | (with_reducible apply Kept.foldlPair)
      | (with_reducible apply Kept.foldlPair2) | (refine Kept.of_pair (by with_reducible assumption) ?_) | (intro _)
      | split | (dsimp only))

theorem execFrmax_kept (c : CtxId) (st : Nat) (j : Fin 16) (r : VecRec) (s : State) :
    KeptOut s (execFrmax c st j r s) := by
  have k0 := Kept.refl s
  unfold execFrmax
  repeat' (first
      | (with_reducible assumption) | (with_reducible simp only [Kept.upd_iff]) | (with_reducible apply KeptOut.next)
      | (with_reducible apply KeptOut.refused) | (with_reducible apply doLane_kept)
      | (with_reducible apply Kept.foldl) | (with_reducible apply Kept.foldlPair)
      | (with_reducible apply Kept.foldlPair2) | (refine Kept.of_pair (by with_reducible assumption) ?_) | (intro _)
      | split | (dsimp only))

theorem execFrmin_kept (c : CtxId) (st : Nat) (j : Fin 16) (r : VecRec) (s : State) :
    KeptOut s (execFrmin c st j r s) := by
  have k0 := Kept.refl s
  unfold execFrmin
  repeat' (first
      | (with_reducible assumption) | (with_reducible simp only [Kept.upd_iff]) | (with_reducible apply KeptOut.next)
      | (with_reducible apply KeptOut.refused) | (with_reducible apply doLane_kept)
      | (with_reducible apply Kept.foldl) | (with_reducible apply Kept.foldlPair)
      | (with_reducible apply Kept.foldlPair2) | (refine Kept.of_pair (by with_reducible assumption) ?_) | (intro _)
      | split | (dsimp only))

theorem execVscan_kept (c : CtxId) (st : Nat) (j : Fin 16) (r : VecRec) (s : State) :
    KeptOut s (execVscan c st j r s) := by
  have k0 := Kept.refl s
  unfold execVscan
  repeat' (first
      | (with_reducible assumption) | (with_reducible simp only [Kept.upd_iff]) | (with_reducible apply KeptOut.next)
      | (with_reducible apply KeptOut.refused) | (with_reducible apply doLane_kept)
      | (with_reducible apply Kept.foldl) | (with_reducible apply Kept.foldlPair)
      | (with_reducible apply Kept.foldlPair2) | (refine Kept.of_pair (by with_reducible assumption) ?_) | (intro _)
      | split | (dsimp only))

theorem execIscan_kept (c : CtxId) (st : Nat) (j : Fin 16) (r : VecRec) (s : State) :
    KeptOut s (execIscan c st j r s) := by
  have k0 := Kept.refl s
  unfold execIscan
  repeat' (first
      | (with_reducible assumption) | (with_reducible simp only [Kept.upd_iff]) | (with_reducible apply KeptOut.next)
      | (with_reducible apply KeptOut.refused) | (with_reducible apply doLane_kept)
      | (with_reducible apply Kept.foldl) | (with_reducible apply Kept.foldlPair)
      | (with_reducible apply Kept.foldlPair2) | (refine Kept.of_pair (by with_reducible assumption) ?_) | (intro _)
      | split | (dsimp only))

theorem execQand_kept (c : CtxId) (st : Nat) (j : Fin 16) (r : VecRec) (s : State) :
    KeptOut s (execQand c st j r s) := by
  have k0 := Kept.refl s
  unfold execQand
  repeat' (first
      | (with_reducible assumption) | (with_reducible simp only [Kept.upd_iff]) | (with_reducible apply KeptOut.next)
      | (with_reducible apply KeptOut.refused) | (with_reducible apply doLane_kept)
      | (with_reducible apply Kept.foldl) | (with_reducible apply Kept.foldlPair)
      | (with_reducible apply Kept.foldlPair2) | (refine Kept.of_pair (by with_reducible assumption) ?_) | (intro _)
      | split | (dsimp only))

theorem execQor_kept (c : CtxId) (st : Nat) (j : Fin 16) (r : VecRec) (s : State) :
    KeptOut s (execQor c st j r s) := by
  have k0 := Kept.refl s
  unfold execQor
  repeat' (first
      | (with_reducible assumption) | (with_reducible simp only [Kept.upd_iff]) | (with_reducible apply KeptOut.next)
      | (with_reducible apply KeptOut.refused) | (with_reducible apply doLane_kept)
      | (with_reducible apply Kept.foldl) | (with_reducible apply Kept.foldlPair)
      | (with_reducible apply Kept.foldlPair2) | (refine Kept.of_pair (by with_reducible assumption) ?_) | (intro _)
      | split | (dsimp only))

theorem execQnot_kept (c : CtxId) (st : Nat) (j : Fin 16) (r : VecRec) (s : State) :
    KeptOut s (execQnot c st j r s) := by
  have k0 := Kept.refl s
  unfold execQnot
  repeat' (first
      | (with_reducible assumption) | (with_reducible simp only [Kept.upd_iff]) | (with_reducible apply KeptOut.next)
      | (with_reducible apply KeptOut.refused) | (with_reducible apply doLane_kept)
      | (with_reducible apply Kept.foldl) | (with_reducible apply Kept.foldlPair)
      | (with_reducible apply Kept.foldlPair2) | (refine Kept.of_pair (by with_reducible assumption) ?_) | (intro _)
      | split | (dsimp only))

theorem execQset_kept (c : CtxId) (st : Nat) (j : Fin 16) (r : VecRec) (s : State) :
    KeptOut s (execQset c st j r s) := by
  have k0 := Kept.refl s
  unfold execQset
  repeat' (first
      | (with_reducible assumption) | (with_reducible simp only [Kept.upd_iff]) | (with_reducible apply KeptOut.next)
      | (with_reducible apply KeptOut.refused) | (with_reducible apply doLane_kept)
      | (with_reducible apply Kept.foldl) | (with_reducible apply Kept.foldlPair)
      | (with_reducible apply Kept.foldlPair2) | (refine Kept.of_pair (by with_reducible assumption) ?_) | (intro _)
      | split | (dsimp only))

theorem execVend_kept (c : CtxId) (st : Nat) (j : Fin 16) (r : VecRec) (s : State) :
    KeptOut s (execVend c st j r s) := by
  have k0 := Kept.refl s
  unfold execVend
  repeat' (first
      | (with_reducible assumption) | (with_reducible simp only [Kept.upd_iff]) | (with_reducible apply KeptOut.next)
      | (with_reducible apply KeptOut.refused) | (with_reducible apply doLane_kept)
      | (with_reducible apply Kept.foldl) | (with_reducible apply Kept.foldlPair)
      | (with_reducible apply Kept.foldlPair2) | (refine Kept.of_pair (by with_reducible assumption) ?_) | (intro _)
      | split | (dsimp only))

end Sys2Proof.Machine
end

