-- ==== Sys2Proof/Laws/KeptStep.lean ====
section
/-! SUPPORT. What every command and every step keeps. -/

namespace Sys2Proof.Machine

open Sys2Proof

theorem exec_kept (i : Instr) (s : State) : KeptOut s (exec i s) := by
  cases i with
  | runSteps fn c steps stop => exact execRunSteps_kept fn c steps stop s
  | runStop fn c => exact execRunStop_kept fn c s
  | ctxStepWrite fn c sel value => exact execCtxStepWrite_kept fn c sel value s
  | closeStep c => exact execCloseStep_kept c s
  | sealStep c => exact execSealStep_kept c s
  | generationSwitch c => exact execGenerationSwitch_kept c s
  | load fn c => exact execLoad_kept fn c s
  | loadDone c => exact execLoadDone_kept c s
  | carcassDiscard fn c => exact execCarcassDiscard_kept fn c s
  | activate fn c => exact execActivate_kept fn c s
  | agCommit fn c groups => exact execAgCommit_kept fn c groups s
  | agVisible c group => exact execAgVisible_kept c group s
  | liveFieldWrite fn c field value => exact execLiveFieldWrite_kept fn c field value s
  | registerWrite fn off size value => exact execRegisterWrite_kept fn off size value s
  | readLowWord access off => exact execReadLowWord_kept access off s
  | fetchTile c st => exact execFetchTile_kept c st s
  | convertTile c st => exact execConvertTile_kept c st s
  | spreadTile c st => exact execSpreadTile_kept c st s
  | matmulPass c st out blk => exact execMatmulPass_kept c st out blk s
  | stationaryTileLoad c st tile => exact execStationaryTileLoad_kept c st tile s
  | accumSegment c st => exact execAccumSegment_kept c st s
  | chainJoin c st out => exact execChainJoin_kept c st out s
  | vectorTileSet c st => exact execVectorTileSet_kept c st s
  | sweepFinal c st out => exact execSweepFinal_kept c st out s
  | mode1Tile c st port => exact execMode1Tile_kept c st port s
  | vNop c st j r => exact execVNop_kept c st j r s
  | vld c st j r => exact execVld_kept c st j r s
  | vst c st j r => exact execVst_kept c st j r s
  | vmovi c st j r => exact execVmovi_kept c st j r s
  | vidx c st j r => exact execVidx_kept c st j r s
  | vsel c st j r => exact execVsel_kept c st j r s
  | vperm c st j r => exact execVperm_kept c st j r s
  | fadd c st j r => exact execFadd_kept c st j r s
  | fsub c st j r => exact execFsub_kept c st j r s
  | fmul c st j r => exact execFmul_kept c st j r s
  | ffma c st j r => exact execFfma_kept c st j r s
  | fmax c st j r => exact execFmax_kept c st j r s
  | fmin c st j r => exact execFmin_kept c st j r s
  | fabs c st j r => exact execFabs_kept c st j r s
  | fneg c st j r => exact execFneg_kept c st j r s
  | fcmp c st j r => exact execFcmp_kept c st j r s
  | fdiv c st j r => exact execFdiv_kept c st j r s
  | fsqrt c st j r => exact execFsqrt_kept c st j r s
  | frsqrt c st j r => exact execFrsqrt_kept c st j r s
  | fexp2 c st j r => exact execFexp2_kept c st j r s
  | flog2 c st j r => exact execFlog2_kept c st j r s
  | ftoi c st j r => exact execFtoi_kept c st j r s
  | itof c st j r => exact execItof_kept c st j r s
  | iadd c st j r => exact execIadd_kept c st j r s
  | isub c st j r => exact execIsub_kept c st j r s
  | imul c st j r => exact execImul_kept c st j r s
  | iand c st j r => exact execIand_kept c st j r s
  | ior c st j r => exact execIor_kept c st j r s
  | ixor c st j r => exact execIxor_kept c st j r s
  | ishl c st j r => exact execIshl_kept c st j r s
  | ishr c st j r => exact execIshr_kept c st j r s
  | imax c st j r => exact execImax_kept c st j r s
  | imin c st j r => exact execImin_kept c st j r s
  | icmp c st j r => exact execIcmp_kept c st j r s
  | xclr c st j r => exact execXclr_kept c st j r s
  | xacc c st j r => exact execXacc_kept c st j r s
  | xacci c st j r => exact execXacci_kept c st j r s
  | xsum c st j r => exact execXsum_kept c st j r s
  | xrnd c st j r => exact execXrnd_kept c st j r s
  | frmax c st j r => exact execFrmax_kept c st j r s
  | frmin c st j r => exact execFrmin_kept c st j r s
  | vscan c st j r => exact execVscan_kept c st j r s
  | iscan c st j r => exact execIscan_kept c st j r s
  | qand c st j r => exact execQand_kept c st j r s
  | qor c st j r => exact execQor_kept c st j r s
  | qnot c st j r => exact execQnot_kept c st j r s
  | qset c st j r => exact execQset_kept c st j r s
  | vend c st j r => exact execVend_kept c st j r s
  | storeTile c st => exact execStoreTile_kept c st s
  | scribePredict c st => exact execScribePredict_kept c st s
  | regrowthScan c st => exact execRegrowthScan_kept c st s
  | pruneUnit c st u => exact execPruneUnit_kept c st u s
  | transposeMeta c st => exact execTransposeMeta_kept c st s
  | reduceInputTile c st => exact execReduceInputTile_kept c st s
  | joinRepeat c st rank => exact execJoinRepeat_kept c st rank s
  | join l dst h => exact execJoin_kept l dst h s
  | accept l dst h => exact execAccept_kept l dst h s
  | scale l dst h recs => exact execScale_kept l dst h recs s
  | data l dst h sums => exact execData_kept l dst h sums s
  | gather l dst h bytes => exact execGather_kept l dst h bytes s
  | pause l dst h => exact execPause_kept l dst h s
  | resume l dst h => exact execResume_kept l dst h s
  | digest l dst h shardDigest attempt => exact execDigest_kept l dst h shardDigest attempt s
  | updateBlock c st b => exact execUpdateBlock_kept c st b s
  | release fn c => exact execRelease_kept fn c s
  | discard fn c => exact execDiscard_kept fn c s
  | witReplay fn c value => exact execWitReplay_kept fn c value s
  | scrubRead k w => exact execScrubRead_kept k w s
  | stationMigrate c st b => exact execStationMigrate_kept c st b s
  | benchGate b => exact execBenchGate_kept b s
  | semSignal fn c sem v rel => exact execSemSignal_kept fn c sem v rel s
  | semDec fn c sem v => exact execSemDec_kept fn c sem v s
  | semWaitArm fn c sem v tag => exact execSemWaitArm_kept fn c sem v tag s
  | syncSignal l p => exact execSyncSignal_kept l p s
  | heldSignalApply c idx => exact execHeldSignalApply_kept c idx s
  | arrive l p => exact execArrive_kept l p s
  | barArrive fn c k slot epoch notify => exact execBarArrive_kept fn c k slot epoch notify s
  | barrierEnable fn k scope owner tag => exact execBarrierEnable_kept fn k scope owner tag s
  | barrierDisable fn k => exact execBarrierDisable_kept fn k s
  | mmuInval fn c page scope => exact execMmuInval_kept fn c page scope s
  | faultRetry fn c id => exact execFaultRetry_kept fn c id s
  | faultAbort fn c id => exact execFaultAbort_kept fn c id s
  | atsInvalidate fn hostPage => exact execAtsInvalidate_kept fn hostPage s
  | priSuccess c hostPage => exact execPriSuccess_kept c hostPage s
  | priInvalidRequest c hostPage => exact execPriInvalidRequest_kept c hostPage s
  | priResponseFailure fn pasid => exact execPriResponseFailure_kept fn pasid s
  | dmaTail fn c index => exact execDmaTail_kept fn c index s
  | copy c idx => exact execCopy_kept c idx s
  | patternCopy c idx => exact execPatternCopy_kept c idx s
  | remote c idx => exact execRemote_kept c idx s
  | syncDesc c idx => exact execSyncDesc_kept c idx s
  | checkpoint c idx => exact execCheckpoint_kept c idx s
  | buddyRead c idx => exact execBuddyRead_kept c idx s
  | remoteWrite l h bytes => exact execRemoteWrite_kept l h bytes s
  | buddyWrite l h bytes => exact execBuddyWrite_kept l h bytes s
  | remoteAck l uid c wseq => exact execRemoteAck_kept l uid c wseq s
  | save fn c => exact execSave_kept fn c s
  | preemptComplete c => exact execPreemptComplete_kept c s
  | restore fn c => exact execRestore_kept fn c s
  | ctxReset fn c => exact execCtxReset_kept fn c s
  | rstContext fn index => exact execRstContext_kept fn index s
  | rstEngine fn kind index => exact execRstEngine_kept fn kind index s
  | rstPartition fn index => exact execRstPartition_kept fn index s
  | rstChip fn => exact execRstChip_kept fn s
  | powerCycleRequest fn => exact execPowerCycleRequest_kept fn s
  | fenceDrainTimeout t => exact execFenceDrainTimeout_kept t s
  | resetComplete t => exact execResetComplete_kept t s
  | resetTimeout t => exact execResetTimeout_kept t s
  | watchdogExpire c cls subject => exact execWatchdogExpire_kept c cls subject s
  | unitWatchdog u => exact execUnitWatchdog_kept u s
  | flr fn => exact execFlr_kept fn s
  | fundamentalReset => exact execFundamentalReset_kept s
  | dataFlit l bytes => exact execDataFlit_kept l bytes s
  | idleFlit l bytes => exact execIdleFlit_kept l bytes s
  | linkNoFlitTimeout l => exact execLinkNoFlitTimeout_kept l s
  | lnkRetrain fn l => exact execLnkRetrain_kept fn l s
  | lnkDisable fn l => exact execLnkDisable_kept fn l s
  | farEndDetect l => exact execFarEndDetect_kept l s
  | trainingComplete l => exact execTrainingComplete_kept l s
  | trainingFailed l => exact execTrainingFailed_kept l s
  | ident l uid slot peerLink => exact execIdent_kept l uid slot peerLink s
  | distanceAdvert => exact execDistanceAdvert_kept s
  | distancePacket l entries => exact execDistancePacket_kept l entries s
  | form fn c g => exact execForm_kept fn c g s
  | dissolve fn c g => exact execDissolve_kept fn c g s
  | tokenRepeat c g rank => exact execTokenRepeat_kept c g rank s
  | compatibilityToken l t => exact execCompatibilityToken_kept l t s
  | glbCtxAssign fn c valid func qmask => exact execGlbCtxAssign_kept fn c valid func qmask s
  | eventRingEnable fn irq log2 mod => exact execEventRingEnable_kept fn irq log2 mod s
  | evtHeadWrite fn index => exact execEvtHeadWrite_kept fn index s
  | msixModerationEnd fn => exact execMsixModerationEnd_kept fn s
  | entdaa da => exact execEntdaa_kept da s
  | rstdaa => exact execRstdaa_kept s
  | disec => exact execDisec_kept s
  | hotJoin => exact execHotJoin_kept s
  | privateWrite off data => exact execPrivateWrite_kept off data s
  | privateRead eight => exact execPrivateRead_kept eight s
  | attestFirmware fn c => exact execAttestFirmware_kept fn c s
  | attestSeal fn c => exact execAttestSeal_kept fn c s
  | reportDone c => exact execReportDone_kept c s
  | secSvnCommit fn => exact execSecSvnCommit_kept fn s
  | secCertVa fn value => exact execSecCertVa_kept fn value s
  | debugToken fn value => exact execDebugToken_kept fn value s
  | debugNonceRead req => exact execDebugNonceRead_kept req s
  | pgoodRise pins => exact execPgoodRise_kept pins s
  | refclkValid => exact execRefclkValid_kept s
  | perstDeassert => exact execPerstDeassert_kept s
  | pgoodFall => exact execPgoodFall_kept s
  | forceOff => exact execForceOff_kept s
  | supplyOutOfBand mv us ca => exact execSupplyOutOfBand_kept mv us ca s
  | powerCycle => exact execPowerCycle_kept s
  | controlPeriod temps mv ca dw => exact execControlPeriod_kept temps mv ca dw s
  | benchRetireClear fn n mask => exact execBenchRetireClear_kept fn n mask s
  | linkRetireClear fn mask => exact execLinkRetireClear_kept fn mask s
  | accClearVanish fn c => exact execAccClearVanish_kept fn c s
  | accClearTrunc fn c => exact execAccClearTrunc_kept fn c s
  | accClearWrap fn c => exact execAccClearWrap_kept fn c s
  | scrMetaClearDrop fn c => exact execScrMetaClearDrop_kept fn c s
  | scrMetaClearErr fn c => exact execScrMetaClearErr_kept fn c s
  | scrCountClear fn c bits => exact execScrCountClear_kept fn c bits s
  | ctxTagClear fn c => exact execCtxTagClear_kept fn c s
  | gauClearClass fn c => exact execGauClearClass_kept fn c s
  | gauClearSat fn c => exact execGauClearSat_kept fn c s
  | cutClear fn c => exact execCutClear_kept fn c s
  | lnkClearCrc fn bits => exact execLnkClearCrc_kept fn bits s
  | lnkClearReplay fn bits => exact execLnkClearReplay_kept fn bits s
  | gluClearRefuse fn c => exact execGluClearRefuse_kept fn c s
  | gluClearVanish fn c => exact execGluClearVanish_kept fn c s
  | gluUpdClear fn c => exact execGluUpdClear_kept fn c s
  | glbIntegClear fn bits => exact execGlbIntegClear_kept fn bits s
  | glbIntegClearRfail fn => exact execGlbIntegClearRfail_kept fn s
  | ctxIntegClear fn c bits => exact execCtxIntegClear_kept fn c bits s
  | barClear fn => exact execBarClear_kept fn s
  | dmaStrayClear fn => exact execDmaStrayClear_kept fn s
  | gluGroupClear fn c => exact execGluGroupClear_kept fn c s
  | violClearCount fn c => exact execViolClearCount_kept fn c s
  | violClearLast fn c => exact execViolClearLast_kept fn c s
  | violGlbClearCount fn => exact execViolGlbClearCount_kept fn s
  | violGlbClearLast fn => exact execViolGlbClearLast_kept fn s
  | flitSlot l vc => exact execFlitSlot_kept l vc s
  | atsTranslationCompletion c t => exact execAtsTranslationCompletion_kept c t s
  | referenceLost => exact execReferenceLost_kept s
  | alwaysOnStart => exact execAlwaysOnStart_kept s
  | vfEnableWrite enable numVfs => exact execVfEnableWrite_kept enable numVfs s

/-- What a step keeps but the queue, from which it takes the front. -/
theorem step_kept {s t : State} (h : step s = .next t) : Kept { s with pending := s.pending.tail } t := by
  cases hp : s.pending with
  | nil =>
    simp only [step, hp] at h
    cases h
    have k := idle_kept s (Kept.refl s)
    exact ⟨k.mem, k.hostMem, k.pending.trans hp, k.svn, k.rma⟩
  | cons i rest =>
    simp only [step, hp] at h
    exact (exec_kept i _).kept t h

end Sys2Proof.Machine
end

