-- ==== Sys2Proof/Laws/Lanes.lean ====
section
/-! SUPPORT. Vector rows: what the mask leaves, and what one instruction does to the unit of an acting station. -/

namespace Sys2Proof.Machine

open Sys2Proof

theorem countLoads_nil (x : Ctx) : countLoads [] x = x := by
  simp [countLoads, Ctx.count, gaugeClasses, gaugeAdd, List.range, List.range.loop]

theorem tapHits_sound {s : State} {taps : List Nat} (h : Sound s taps) : tapHits taps s.upsets = [] := by
  rw [tapHits, List.filterMap_eq_nil_iff]
  intro u hu
  cases u with
  | residue t lane vrow e d =>
    have k := h t lane vrow e d hu
    simp only [tapsMeet, Bool.or_eq_false_iff] at k
    have q : tapsSee taps t e d = false := by
      have := k.2
      simp only [tapsSee, k.1, Bool.false_and, Bool.false_or]
      rw [this, Bool.false_and]
    simp [q]
  | sram => rfl

theorem upsets_sound {s : State} {taps : List Nat} (h : Sound s taps) :
    s.upsets.filter (staysAt taps) = s.upsets := by
  rw [List.filter_eq_self]
  intro u hu
  cases u with
  | residue t lane vrow e d => simp [staysAt, h t lane vrow e d hu]
  | sram => rfl

/-- An operation that meets no failure changes nothing by being checked. -/
theorem checkResidue_sound {s : State} {taps : List Nat} (h : Sound s taps) (c : CtxId) (site : CheckSite) (op : CheckOp) :
    checkResidue c site op taps [] s = s := by
  unfold checkResidue checkSides
  simp only [tapHits_sound h, State.each, List.flatMap_nil, List.foldl_nil, upsets_sound h]

theorem doLane_acting {s : State} {c : CtxId} {i : Nat} {m : Image} {st : Station} (h : Acting s c i kVECTOR m st) (opc : Nat) (j : Fin 16) (r : VecRec)
   (u : VecUnit) (hs : Sound s (laneTaps opc)) (e : laneOp (vecEnv m st (stationUnit s c i) j.val) opc r (stationUnit s c i) = (u, [])) :
   doLane opc c i j r s = putUnit s c i u := by
  unfold doLane putUnit
  rw [withStation_acting h]
  unfold stationUnit at e
  simp only [State.modCtx, e, countLoads_nil]
  exact checkResidue_sound (s := s.setCtx c _) hs ..

theorem doLane_acting' {s : State} {c : CtxId} {i : Nat} {m : Image} {st : Station} (h : Acting s c i kVECTOR m st) (opc : Nat) (j : Fin 16) (r : VecRec)
   (u : VecUnit) (hs : Sound s (laneTaps opc)) (cs) (e : laneOp (vecEnv m st (stationUnit s c i) j.val) opc r (stationUnit s c i) = (u, cs)) :
   doLane opc c i j r s = putUnit (s.modCtx c (fun x => x.count (gaugeClasses fFP32 (cs.map some)))) c i u := by
  unfold doLane putUnit
  rw [withStation_acting h, modCtx_modCtx]
  unfold stationUnit at e
  simp only [State.modCtx, e, countLoads]
  exact checkResidue_sound (s := s.setCtx c _) hs ..

theorem putUnit_self (s : State) (c i) : putUnit s c i (stationUnit s c i) = s := by
  have h : ((s.ctx c).stns.set i ((s.ctx c).stn i)) = (s.ctx c).stns := by
    apply List.ext_getElem? 
    intro k
    simp [List.getElem?_set, Ctx.stn, List.getD_eq_getElem?_getD]
    intro e
    subst e
    by_cases hk : i < (s.ctx c).stns.length <;> simp [hk]
  unfold putUnit stationUnit State.modCtx Ctx.modStn Ctx.setStn
  dsimp only
  rw [h]
  exact setCtx_self s c

theorem maskLanes_are {α : Type} (zero : Bool) (act : List Bool) (old : List α) (z : α) (f : Nat → α) :
    LanesAre zero act old z f (maskLanes zero act old (lanes64.map f) z) := by
  refine ⟨by simp [maskLanes, lanes64], fun l hl => ?_⟩
  simp [maskLanes, lanes64, List.getD_eq_getElem?_getD, hl]

theorem maskLanes_are' {α : Type} (zero : Bool) (act : List Bool) (old : List α) (z : α) (f g : Nat → α) (h : ∀ l, l < 64 → f l = g l) :
    LanesAre zero act old z f (maskLanes zero act old (lanes64.map g) z) := by
  have k := maskLanes_are zero act old z g
  exact ⟨k.1, fun l hl => by rw [h l hl]; exact k.2 l hl⟩

theorem fmCongr {f g : Nat → Option Nat} : ∀ L : List Nat, (∀ l ∈ L, f l = g l) → L.filterMap f = L.filterMap g := by
  intro L h
  induction L with
  | nil => rfl
  | cons a L ih =>
    rw [List.filterMap_cons, List.filterMap_cons, h a (by simp), ih fun l hl => h l (by simp [hl])]

theorem scanLane_foldl (int excl : Bool) (a act seg) (start : XLane) (b n : Nat) :
   let r := ((List.range n).map (b + ·)).foldl (scanLane int excl a act seg) ⟨start, []⟩
   r.run = scanAfter int a act seg start b n ∧
   r.out.reverse = (List.range n).map (fun k => if act.getD (b + k) false then
     (if int then BitVec.ofInt 32 (if excl then scanIn seg (b+k) (scanAfter int a act seg start b k) else scanAfter int a act seg start b (k+1)).1
      else xRound false (if excl then scanIn seg (b+k) (scanAfter int a act seg start b k) else scanAfter int a act seg start b (k+1))) else 0) := by
  induction n with
  | zero => exact ⟨rfl, rfl⟩
  | succ n ih =>
    obtain ⟨h1, h2⟩ := ih
    dsimp only at h1 h2 ⊢
    rw [List.range_succ, List.map_append, List.foldl_append, List.map_append]
    generalize hR : ((List.range n).map (b + ·)).foldl (scanLane int excl a act seg) ⟨start, []⟩ = R at h1 h2 ⊢
    simp only [List.map_cons, List.map_nil, List.foldl_cons, List.foldl_nil]
    by_cases ha : act.getD (b + n) false = true
    · refine ⟨?_, ?_⟩
      · simp only [scanLane, ha, if_true, scanAfter, scanIn, h1]
      · rw [← h2]
        simp only [scanLane, ha, if_true, scanAfter, scanIn, h1, List.reverse_cons]
    · refine ⟨?_, ?_⟩
      · simp only [scanLane, ha, scanAfter, h1]; simp
      · rw [← h2]
        simp only [scanLane, ha, h1]; simp

theorem scanGroup_out (int excl : Bool) (a : List U32) (act seg : List Bool) (x : List XLane) (b n : Nat) (hn : 0 < n) :
    scanGroup int excl a act seg x ((List.range n).map (b + ·)) =
      ⟨scanAfter int a act seg (scanStart int (x.getD b (0, 0))) b n,
       (List.range n).map (fun k => if act.getD (b + k) false then
        (if int then BitVec.ofInt 32 (if excl then scanIn seg (b+k) (scanAfter int a act seg (scanStart int (x.getD b (0, 0))) b k) else scanAfter int a act seg (scanStart int (x.getD b (0, 0))) b (k+1)).1
         else xRound false (if excl then scanIn seg (b+k) (scanAfter int a act seg (scanStart int (x.getD b (0, 0))) b k) else scanAfter int a act seg (scanStart int (x.getD b (0, 0))) b (k+1))) else 0)⟩ := by
  have hh : ((List.range n).map (b + ·)).headD 0 = b := by
    cases n with
    | zero => omega
    | succ n => simp [List.range_succ_eq_map]
  have k := scanLane_foldl int excl a act seg (scanStart int (x.getD b (0, 0))) b n
  unfold scanGroup
  dsimp only at k ⊢
  rw [hh]
  exact congr (congrArg ScanRun.mk k.1) k.2

theorem scan_index (r : VecRec) (l : Nat) (hl : l < 64) : groupBase r l ≤ l ∧ l < groupBase r l + groupSize r := by
  unfold groupBase groupSize; split <;> omega

end Sys2Proof.Machine
end

