-- ==== Sys2Proof/Laws/Queues.lean ====
section
/-! SUPPORT. The wait queue of a semaphore: what serving it does, and that it leaves the barriers. -/

namespace Sys2Proof.Machine

open Sys2Proof

theorem releaseWaiter_sem (c : CtxId) (q p : SemId) (w : Waiter) (s : State) : semOf (releaseWaiter c q w s) c p = semOf s c p := by
  cases w <;> simp [releaseWaiter, semOf]

theorem semOf_violate (c q code) (s : State) : semOf (violate c code s) c q = semOf s c q := by
  unfold semOf violate; rw [modCtx_ctx]; rfl

theorem serveQueue_spec (c : CtxId) (q : SemId) : ∀ (l : List (U16 × Waiter)) (s : State), (semOf s c q).queue = l →
    ∃ served, l = served ++ (semOf (serveQueue c q l s) c q).queue ∧
      (semOf (serveQueue c q l s) c q).count.toNat + (served.map (fun w => w.1.toNat)).sum = (semOf s c q).count.toNat ∧
      ∀ w ∈ (semOf (serveQueue c q l s) c q).queue.head?, (semOf (serveQueue c q l s) c q).count < w.1 := by
  intro l
  induction l with
  | nil => intro s h; exact ⟨[], by simp [serveQueue, h]⟩
  | cons a l ih =>
    intro s h
    obtain ⟨v, w⟩ := a
    unfold serveQueue
    by_cases hv : v ≤ (semOf s c q).count
    · have hv' : v ≤ (s.ctx c).sems[q].count := hv
      simp only [hv', if_true]
      obtain ⟨served, h1, h2, h3⟩ := ih (releaseWaiter c q w (s.modCtx c (fun x => x.modSem q (fun k => { k with count := k.count - v, queue := l })))) (by
        rw [releaseWaiter_sem]; simp [semOf, Ctx.modSem])
      refine ⟨(v, w) :: served, by rw [List.cons_append, ← h1], ?_, h3⟩
      rw [List.map_cons, List.sum_cons]
      rw [releaseWaiter_sem] at h2
      have : (semOf (s.modCtx c (fun x => x.modSem q (fun k => { k with count := k.count - v, queue := l }))) c q).count = (semOf s c q).count - v := by simp [semOf, Ctx.modSem]
      rw [this] at h2
      have e : ((semOf s c q).count - v).toNat = (semOf s c q).count.toNat - v.toNat := BitVec.toNat_sub_of_le hv
      have e2 : v.toNat ≤ (semOf s c q).count.toNat := hv
      have e3 : (v, w).1.toNat = v.toNat := rfl
      omega
    · have hv' : ¬ v ≤ (s.ctx c).sems[q].count := hv
      simp only [hv', if_false]
      refine ⟨[], by simp [h], by simp, ?_⟩
      rw [h]
      intro w hw
      simp at hw
      subst hw
      exact BitVec.not_le.mp hv

theorem serveSem_spec (c : CtxId) (q : SemId) (s : State) (h : (s.ctx c).parked = false) :
    ServedInOrder (serveSem c q s) c q (semOf s c q).queue (semOf s c q).count.toNat := by
  simp only [serveSem, h, Bool.false_eq_true, if_false]
  exact serveQueue_spec c q _ s rfl

theorem serveSem_empty {c q} {s : State} (h : (semOf s c q).queue = []) : serveSem c q s = s := by
  unfold serveSem
  unfold semOf at h
  rw [h]
  split <;> rfl

theorem releaseWaiter_barriers (c : CtxId) (q : SemId) (w : Waiter) (s : State) : (releaseWaiter c q w s).barriers = s.barriers := by
  cases w <;> simp [releaseWaiter]

theorem serveQueue_barriers (c : CtxId) (q : SemId) : ∀ (l : List (U16 × Waiter)) (s : State), (serveQueue c q l s).barriers = s.barriers := by
  intro l
  induction l with
  | nil => intro s; rfl
  | cons a l ih =>
    intro s
    obtain ⟨v, w⟩ := a
    unfold serveQueue
    split
    · rw [ih, releaseWaiter_barriers]; rfl
    · rfl

theorem signalSem_barriers (c : CtxId) (q : SemId) (v : U16) (s : State) : (signalSem c q v s).barriers = s.barriers := by
  have h : ∀ t : State, (serveSem c q t).barriers = t.barriers := by
    intro t; unfold serveSem; split
    · rfl
    · rw [serveQueue_barriers]
  unfold signalSem
  dsimp only
  rw [h]
  split <;> rfl

theorem signals_barriers (c : CtxId) (v : U16) : ∀ (l : List SemId) (s : State), (s.each l (fun q t => signalSem c q v t)).barriers = s.barriers := by
  intro l
  induction l with
  | nil => intro s; rfl
  | cons a l ih => intro s; exact (ih _).trans (signalSem_barriers c a v s)

theorem complete_no (k : BarId) (n : Nat) (s : State) (h : (s.barrier k).full = false) : completeBarrier k n s = s := by
  cases n with
  | zero => rfl
  | succ n => unfold completeBarrier; simp [h]

end Sys2Proof.Machine
end

