-- ==== Sys2Proof/Laws/Received.lean ====
section
/-! SUPPORT. Received writes: what committing one, acknowledging it and settling its number leave, and that nothing more happens
where no write is held. -/

namespace Sys2Proof.Machine

open Sys2Proof

theorem heldCount_none {s : State} (h : NoneHeld s) : heldCount s = 0 := by
  have e : allCtx.map (fun c => (s.ctx c).heldRemote.length) = allCtx.map (fun _ => 0) := List.map_congr_left fun c _ => by simp [h.2 c]
  unfold heldCount
  rw [e, h.1]
  decide

theorem thenHeld_none {s : State} (h : NoneHeld s) : thenHeld s = s := by unfold thenHeld; rw [heldCount_none h]; rfl

@[simp] theorem sendPacket_ctxs (dst : U64) (vc : Fin 4) (bytes : List Byte) (s : State) : (sendPacket dst vc bytes s).ctxs = s.ctxs := by
  unfold sendPacket; split
  · rfl
  · split <;> rfl

@[simp] theorem sendPacket_heldBuddy (dst : U64) (vc : Fin 4) (bytes : List Byte) (s : State) :
    (sendPacket dst vc bytes s).heldBuddy = s.heldBuddy := by
  unfold sendPacket; split
  · rfl
  · split <;> rfl

@[simp] theorem sendAck_ctxs (uid : U64) (h : RemoteHdr) (s : State) : (sendAck uid h s).ctxs = s.ctxs := by simp [sendAck]
@[simp] theorem sendAck_heldBuddy (uid : U64) (h : RemoteHdr) (s : State) : (sendAck uid h s).heldBuddy = s.heldBuddy := by simp [sendAck]

@[simp] theorem settleSeq_ctxs (uid : U64) (w : U32) (s : State) : (settleSeq uid w s).ctxs = s.ctxs := by
  unfold settleSeq; dsimp only; split <;> rfl

@[simp] theorem settleSeq_heldBuddy (uid : U64) (w : U32) (s : State) : (settleSeq uid w s).heldBuddy = s.heldBuddy := by
  unfold settleSeq; dsimp only; split <;> rfl

/-- `t` has the memory and the held writes of `s`, and the contexts of `s` but for the counts, marks and the like of `who`. -/
structure ReadOnly (who : Option CtxId) (s t : State) : Prop where
  mem : t.mem = s.mem
  heldBuddy : t.heldBuddy = s.heldBuddy
  others : ∀ d, some d ≠ who → t.ctx d = s.ctx d
  groups : ∀ d, (t.ctx d).groups = (s.ctx d).groups
  heldRemote : ∀ d, (t.ctx d).heldRemote = (s.ctx d).heldRemote

theorem ReadOnly.of_ctxs {who : Option CtxId} {s t : State} (hm : t.mem = s.mem) (hb : t.heldBuddy = s.heldBuddy) (hc : t.ctxs = s.ctxs) :
    ReadOnly who s t := by
  have e : ∀ d, t.ctx d = s.ctx d := fun d => by unfold State.ctx; rw [hc]
  exact ⟨hm, hb, fun d _ => e d, fun d => by rw [e], fun d => by rw [e]⟩

theorem ReadOnly.trans {who : Option CtxId} {s t u : State} (h : ReadOnly who s t) (k : ReadOnly who t u) : ReadOnly who s u :=
  ⟨k.mem.trans h.mem, k.heldBuddy.trans h.heldBuddy, fun d e => (k.others d e).trans (h.others d e),
    fun d => (k.groups d).trans (h.groups d), fun d => (k.heldRemote d).trans (h.heldRemote d)⟩

theorem countStkCe_each (ws : List Nat) (s : State) :
    let t := s.each ws (fun w u => countStkCe (stackOf (32 * w)) 1 u)
    t.ctxs = s.ctxs ∧ t.mem = s.mem ∧ t.heldBuddy = s.heldBuddy := by
  induction ws generalizing s with
  | nil => exact ⟨rfl, rfl, rfl⟩
  | cons w ws ih => exact ih (countStkCe (stackOf (32 * w)) 1 s)

theorem correctWords_readOnly (who : Option CtxId) (ws : List Nat) (s : State) :
    ReadOnly who s (correctWords ws s) ∧ (correctWords ws s).ctxs = s.ctxs := by
  have h := countStkCe_each (s.correctable.filter (fun w => ws.contains w)) s
  unfold correctWords
  exact ⟨.of_ctxs h.2.1 h.2.2 h.1, h.1⟩

theorem reportUe_readOnly (who : Option CtxId) (bad : List Nat) (s : State) : ReadOnly who s (reportUe who bad s) := by
  unfold reportUe
  split
  · exact .of_ctxs rfl rfl rfl
  · cases who with
    | none => exact .of_ctxs (by simp [countStkUe]) (by simp [countStkUe]) (by simp [countStkUe])
    | some c =>
      dsimp only
      refine ⟨by simp [countStkUe], by simp [countStkUe], fun d hd => ?_, fun d => ?_, fun d => ?_⟩
      · have e : d ≠ c := fun e => hd (by rw [e])
        rw [ctxEvent_ctx, State.modCtx, setCtx_ctx_ne _ _ e]
        rfl
      all_goals
        rw [ctxEvent_ctx]
        by_cases e : d = c
        · subst e; rw [State.modCtx, setCtx_ctx]; unfold Ctx.markEcc Ctx.count; dsimp only; split <;> rfl
        · rw [State.modCtx, setCtx_ctx_ne _ _ e]; rfl

/-- A read of stack words, with its corrections and reports. -/
theorem eccRead_readOnly (who : Option CtxId) (ws : List Nat) (s : State) : ReadOnly who s (eccRead who ws s) :=
  (correctWords_readOnly who ws s).1.trans (reportUe_readOnly who _ _)

/-- A write to the stacks leaves its bytes; it reads the words that it covers in part. -/
theorem devWrite_mem (who : Option CtxId) (a : Nat) (bs : List Byte) (s : State) : (devWrite who a bs s).mem = memWrite s.mem a bs := by
  show memWrite (eccRead who ((wordsOf a bs.length).filter (fun w => !wholeWord a bs.length w)) s).mem a bs = _
  rw [(eccRead_readOnly who _ s).mem]

theorem devWrite_heldBuddy (who : Option CtxId) (a : Nat) (bs : List Byte) (s : State) : (devWrite who a bs s).heldBuddy = s.heldBuddy :=
  (eccRead_readOnly who ((wordsOf a bs.length).filter (fun w => !wholeWord a bs.length w)) s).heldBuddy

theorem devWrite_others {who : Option CtxId} {d : CtxId} (h : some d ≠ who) (a : Nat) (bs : List Byte) (s : State) :
    (devWrite who a bs s).ctx d = s.ctx d :=
  (eccRead_readOnly who ((wordsOf a bs.length).filter (fun w => !wholeWord a bs.length w)) s).others d h

theorem devWrite_groups (who : Option CtxId) (d : CtxId) (a : Nat) (bs : List Byte) (s : State) :
    ((devWrite who a bs s).ctx d).groups = (s.ctx d).groups :=
  (eccRead_readOnly who ((wordsOf a bs.length).filter (fun w => !wholeWord a bs.length w)) s).groups d

theorem devWrite_heldRemote (who : Option CtxId) (d : CtxId) (a : Nat) (bs : List Byte) (s : State) :
    ((devWrite who a bs s).ctx d).heldRemote = (s.ctx d).heldRemote :=
  (eccRead_readOnly who ((wordsOf a bs.length).filter (fun w => !wholeWord a bs.length w)) s).heldRemote d

theorem devWrite_none_ctxs (a : Nat) (bs : List Byte) (s : State) : (devWrite none a bs s).ctxs = s.ctxs := by
  unfold devWrite devPut eccRead reportUe
  dsimp only
  split
  · exact (correctWords_readOnly none _ s).2
  · simpa [countStkUe] using (correctWords_readOnly none _ s).2

end Sys2Proof.Machine
end

