-- ==== Sys2Proof/WellFormed.lean ====
section
/-! DEFINITION. Which terms of Instr are commands that can be given. -/

namespace Sys2Proof

/-- The bytes of a flit are 280 (R252). -/
def flitLength (bytes : List Byte) : Bool := bytes.length == 280

/-- The data of a remote write: what 16 flits hold after the 32-byte header (R376). -/
def writeLength (bytes : List Byte) : Bool := decide (bytes.length ≤ 4064)

/-- A command that can be given: the shape of each list operand. The other operands are bounded by their types. -/
def Instr.wellFormed : Instr → Bool
  | .runSteps _ _ _ _ => true
  | .runStop _ _ => true
  | .ctxStepWrite _ _ _ _ => true
  | .closeStep _ => true
  | .sealStep _ => true
  | .generationSwitch _ => true
  | .load _ _ => true
  | .loadDone _ => true
  | .carcassDiscard _ _ => true
  | .activate _ _ => true
  | .agCommit _ _ _ => true
  | .agVisible _ _ => true
  | .liveFieldWrite _ _ _ _ => true
  | .registerWrite _ _ _ _ => true
  | .readLowWord _ _ => true
  | .fetchTile _ _ => true
  | .convertTile _ _ => true
  | .spreadTile _ _ => true
  | .matmulPass _ _ _ _ => true
  | .stationaryTileLoad _ _ _ => true
  | .accumSegment _ _ => true
  | .chainJoin _ _ _ => true
  | .vectorTileSet _ _ => true
  | .sweepFinal _ _ _ => true
  | .mode1Tile _ _ _ => true
  | .vNop _ _ _ _ => true
  | .vld _ _ _ _ => true
  | .vst _ _ _ _ => true
  | .vmovi _ _ _ _ => true
  | .vidx _ _ _ _ => true
  | .vsel _ _ _ _ => true
  | .vperm _ _ _ _ => true
  | .fadd _ _ _ _ => true
  | .fsub _ _ _ _ => true
  | .fmul _ _ _ _ => true
  | .ffma _ _ _ _ => true
  | .fmax _ _ _ _ => true
  | .fmin _ _ _ _ => true
  | .fabs _ _ _ _ => true
  | .fneg _ _ _ _ => true
  | .fcmp _ _ _ _ => true
  | .fdiv _ _ _ _ => true
  | .fsqrt _ _ _ _ => true
  | .frsqrt _ _ _ _ => true
  | .fexp2 _ _ _ _ => true
  | .flog2 _ _ _ _ => true
  | .ftoi _ _ _ _ => true
  | .itof _ _ _ _ => true
  | .iadd _ _ _ _ => true
  | .isub _ _ _ _ => true
  | .imul _ _ _ _ => true
  | .iand _ _ _ _ => true
  | .ior _ _ _ _ => true
  | .ixor _ _ _ _ => true
  | .ishl _ _ _ _ => true
  | .ishr _ _ _ _ => true
  | .imax _ _ _ _ => true
  | .imin _ _ _ _ => true
  | .icmp _ _ _ _ => true
  | .xclr _ _ _ _ => true
  | .xacc _ _ _ _ => true
  | .xacci _ _ _ _ => true
  | .xsum _ _ _ _ => true
  | .xrnd _ _ _ _ => true
  | .frmax _ _ _ _ => true
  | .frmin _ _ _ _ => true
  | .vscan _ _ _ _ => true
  | .iscan _ _ _ _ => true
  | .qand _ _ _ _ => true
  | .qor _ _ _ _ => true
  | .qnot _ _ _ _ => true
  | .qset _ _ _ _ => true
  | .vend _ _ _ _ => true
  | .storeTile _ _ => true
  | .scribePredict _ _ => true
  | .regrowthScan _ _ => true
  | .pruneUnit _ _ _ => true
  | .transposeMeta _ _ => true
  | .reduceInputTile _ _ => true
  | .joinRepeat _ _ _ => true
  | .join _ _ _ => true
  | .accept _ _ _ => true
  | .scale _ _ h recs => recs.length == h.blocks.toNat
  | .data _ _ h sums => sums.length == 32 * h.blocks.toNat
  | .gather _ _ _ _ => true
  | .pause _ _ _ => true
  | .resume _ _ _ => true
  | .digest _ _ _ _ _ => true
  | .updateBlock _ _ _ => true
  | .release _ _ => true
  | .discard _ _ => true
  | .witReplay _ _ _ => true
  | .scrubRead _ _ => true
  | .stationMigrate _ _ _ => true
  | .benchGate _ => true
  | .semSignal _ _ _ _ _ => true
  | .semDec _ _ _ _ => true
  | .semWaitArm _ _ _ _ _ => true
  | .syncSignal _ _ => true
  | .heldSignalApply _ _ => true
  | .arrive _ _ => true
  | .barArrive _ _ _ _ _ _ => true
  | .barrierEnable _ _ _ _ _ => true
  | .barrierDisable _ _ => true
  | .mmuInval _ _ _ _ => true
  | .faultRetry _ _ _ => true
  | .faultAbort _ _ _ => true
  | .atsInvalidate _ _ => true
  | .priSuccess _ _ => true
  | .priInvalidRequest _ _ => true
  | .priResponseFailure _ _ => true
  | .dmaTail _ _ _ => true
  | .copy _ _ => true
  | .patternCopy _ _ => true
  | .remote _ _ => true
  | .syncDesc _ _ => true
  | .checkpoint _ _ => true
  | .buddyRead _ _ => true
  | .remoteWrite _ _ bytes => writeLength bytes
  | .buddyWrite _ _ bytes => writeLength bytes
  | .remoteAck _ _ _ _ => true
  | .save _ _ => true
  | .preemptComplete _ => true
  | .restore _ _ => true
  | .ctxReset _ _ => true
  | .rstContext _ _ => true
  | .rstEngine _ _ _ => true
  | .rstPartition _ _ => true
  | .rstChip _ => true
  | .powerCycleRequest _ => true
  | .fenceDrainTimeout _ => true
  | .resetComplete _ => true
  | .resetTimeout _ => true
  | .watchdogExpire _ _ _ => true
  | .unitWatchdog _ => true
  | .flr _ => true
  | .fundamentalReset => true
  | .dataFlit _ bytes => flitLength bytes
  | .idleFlit _ bytes => flitLength bytes
  | .linkNoFlitTimeout _ => true
  | .lnkRetrain _ _ => true
  | .lnkDisable _ _ => true
  | .farEndDetect _ => true
  | .trainingComplete _ => true
  | .trainingFailed _ => true
  | .ident _ _ _ _ => true
  | .distanceAdvert => true
  | .distancePacket _ _ => true
  | .form _ _ _ => true
  | .dissolve _ _ _ => true
  | .tokenRepeat _ _ _ => true
  | .compatibilityToken _ t => t.carcassHash.length == 32
  | .glbCtxAssign _ _ _ _ _ => true
  | .eventRingEnable _ _ _ _ => true
  | .evtHeadWrite _ _ => true
  | .msixModerationEnd _ => true
  | .entdaa _ => true
  | .rstdaa => true
  | .disec => true
  | .hotJoin => true
  | .privateWrite _ _ => true
  | .privateRead _ => true
  | .attestFirmware _ _ => true
  | .attestSeal _ _ => true
  | .reportDone _ => true
  | .secSvnCommit _ => true
  | .secCertVa _ _ => true
  | .debugToken _ _ => true
  | .debugNonceRead _ => true
  | .pgoodRise _ => true
  | .refclkValid => true
  | .perstDeassert => true
  | .pgoodFall => true
  | .forceOff => true
  | .supplyOutOfBand _ _ _ => true
  | .powerCycle => true
  | .controlPeriod temps _ _ _ => temps.length == 40
  | .benchRetireClear _ _ _ => true
  | .linkRetireClear _ _ => true
  | .accClearVanish _ _ => true
  | .accClearTrunc _ _ => true
  | .accClearWrap _ _ => true
  | .scrMetaClearDrop _ _ => true
  | .scrMetaClearErr _ _ => true
  | .scrCountClear _ _ _ => true
  | .ctxTagClear _ _ => true
  | .gauClearClass _ _ => true
  | .gauClearSat _ _ => true
  | .cutClear _ _ => true
  | .lnkClearCrc _ _ => true
  | .lnkClearReplay _ _ => true
  | .gluClearRefuse _ _ => true
  | .gluClearVanish _ _ => true
  | .gluUpdClear _ _ => true
  | .glbIntegClear _ _ => true
  | .glbIntegClearRfail _ => true
  | .ctxIntegClear _ _ _ => true
  | .barClear _ => true
  | .dmaStrayClear _ => true
  | .gluGroupClear _ _ => true
  | .violClearCount _ _ => true
  | .violClearLast _ _ => true
  | .violGlbClearCount _ => true
  | .violGlbClearLast _ => true
  | .flitSlot _ _ => true
  | .atsTranslationCompletion _ _ => true
  | .referenceLost => true
  | .alwaysOnStart => true
  | .vfEnableWrite _ _ => true

end Sys2Proof
end

