-- ==== Sys2Proof/Tests/Slice0.lean ====
section
/-! SUPPORT. Small tests: ill-formed commands are refused, and for every statement of Certificates/Slice0 that has
hypotheses a state and operands that meet them. -/

namespace Sys2Proof.Tests

open Sys2Proof Machine

set_option Elab.async false

/-! ## Small states -/

/-- The state at reset with context 0 as given. -/
def on0 (x : Ctx) : State := State.reset.setCtx 0 x

/-- An image of one station of kind `k` with options `o`, on the tensors `ts`. -/
def oneStation (k : Nat) (o : List Byte) (ts : List TensorRec) : Image :=
  { generation := 1, qmask := 1, hash := List.replicate 32 0, stations := [⟨k, 0, 0, 0, 0xFFFF, o⟩], tensors := ts }

/-- A context in a step of image `m`, every station at its start on bench 0. -/
def stepping (m : Image) : Ctx :=
  { phase := .running, active := some m, assigned := true, qmask := 1, stns := m.stations.map (fun _ => {})
    streams := m.streams.map (fun _ => []) }

theorem window_open (x : Ctx) (h : x.busy = false) : WindowOpen (on0 x) 0 0 := ⟨rfl, rfl, h, rfl⟩

theorem global_open (x : Ctx) : GlobalOpen (on0 x) 0 := ⟨rfl, rfl, rfl⟩

theorem block_open (x : Ctx) : BlockOpen (on0 x) 0 := ⟨rfl, rfl, rfl⟩

/-- Context 0 as given, with the first two pages of its space mapped to the first two frames of stack 0. -/
def mapped (x : Ctx) : Ctx :=
  { x with assigned := true, qmask := 1, mmu := { x.mmu with tlb := [⟨0, 0, true, false⟩, ⟨1, 1, true, false⟩] } }

theorem of_some {α β : Type} (P : α → β → Prop) (r : Option α × β) (h : ∃ a, r.1 = some a ∧ P a r.2) : ∃ a b, r = (some a, b) ∧ P a b := by
  obtain ⟨_ | a, b⟩ := r
  · obtain ⟨_, h, _⟩ := h; cases h
  · obtain ⟨a', h, p⟩ := h; cases h; exact ⟨_, _, rfl, p⟩

theorem of_isSome {α β : Type} {r : Option α × β} (h : r.1.isSome = true) : ∃ a b, r = (some a, b) := by
  obtain ⟨_ | a, b⟩ := r
  · cases h
  · exact ⟨a, b, rfl⟩

theorem of_isNone {α β : Type} {r : Option α × β} (h : r.1.isNone = true) : ∃ b, r = (none, b) := by
  obtain ⟨_ | a, b⟩ := r
  · exact ⟨b, rfl⟩
  · cases h

theorem of_true {β : Type} {r : Bool × β} (h : r.1 = true) : ∃ b, r = (true, b) := ⟨r.2, Prod.ext h rfl⟩


/-! ## Ill-formed commands are refused -/

theorem test_wf_dataFlit : (Instr.dataFlit 0 (List.replicate 279 0)).wellFormed = false := by decide +kernel
theorem test_wf_idleFlit : (Instr.idleFlit 0 (List.replicate 281 0)).wellFormed = false := by decide +kernel
theorem writeLength_replicate (n : Nat) (h : 4064 < n) : writeLength (List.replicate n 0) = false := by
  simp [writeLength]; omega
theorem test_wf_remoteWrite : (Instr.remoteWrite 0 ⟨false, 0, 0, 0, 0, 0⟩ (List.replicate 4065 0)).wellFormed = false :=
  writeLength_replicate 4065 (by decide)
theorem test_wf_buddyWrite : (Instr.buddyWrite 0 ⟨false, 0, 0, 0, 0, 0⟩ (List.replicate 4065 0)).wellFormed = false :=
  writeLength_replicate 4065 (by decide)
theorem test_wf_scale : (Instr.scale 0 0 ⟨0, 0, 0, 0, 0, 0, 0, 0, 0, 0, 1, 0, 0, 0, 0, 0⟩ []).wellFormed = false := by decide
theorem test_wf_data : (Instr.data 0 0 ⟨0, 0, 0, 0, 0, 0, 0, 0, 0, 0, 1, 0, 0, 0, 0, 0⟩ [1, 2]).wellFormed = false := by decide
theorem test_wf_compatibilityToken :
    (Instr.compatibilityToken 0 ⟨0, 0, 0, 0, 0, 0, 0, 0, List.replicate 31 0, 0⟩).wellFormed = false := by decide
theorem test_wf_controlPeriod : (Instr.controlPeriod [20] 0 0 0).wellFormed = false := by decide

/-! ## Results written out by hand from the spec -/

/-- R196: 1.5 + 2.5 = 4. -/
theorem test_fadd : fadd 0x3FC00000 0x40200000 = 0x40800000 := by decide +kernel
/-- R76, R196: the smallest subnormal reads as zero. -/
theorem test_fadd_subnormal : fadd 0x00000001 0x3F800000 = 0x3F800000 := by decide +kernel
/-- R196: 1 ÷ 3 to nearest. -/
theorem test_fdiv : fdiv 0x3F800000 0x40400000 = 0x3EAAAAAB := by decide +kernel
/-- R196: one rounding, so that (1 + 2^-12)² − 1 is 2^-11 + 2^-24. -/
theorem test_ffma : ffma 0x3F800800 0x3F800800 0xBF800000 = 0x3A000400 := by decide +kernel
/-- The check value of the code of that generator: "123456789". -/
theorem test_crc64 : crc64 [0x31, 0x32, 0x33, 0x34, 0x35, 0x36, 0x37, 0x38, 0x39] = 0x6C40DF5F0B497347 := by decide +kernel
/-- SHA-256 of "abc", its first four bytes (FIPS 180). -/
theorem test_sha256 : (sha256 [0x61, 0x62, 0x63]).take 4 = [0xBA, 0x78, 0x16, 0xBF] := by decide +kernel
/-! ## The queue, and what every command keeps -/

theorem witness_StepKeepsMemoryForm :
    let s : State := { State.reset with pending := [.entdaa 5] }
    Memory.wf s.mem = true ∧ Memory.wf s.hostMem = true ∧ ∃ t, step s = .next t := ⟨rfl, rfl, _, rfl⟩

theorem witness_IdleStepCounts :
    State.reset.pending = [] ∧ State.reset.pwr.aoOn = true ∧
      ({ State.reset with pwr := { State.reset.pwr with aoOn := false } } : State).pending = [] := ⟨rfl, rfl, rfl⟩

theorem witness_ExecLeavesQueue : ∃ t, exec (.entdaa 5) { State.reset with pending := [.disec] } = .next t := ⟨_, rfl⟩

theorem witness_SvnOnlyRises :
    ∃ t, exec (.secSvnCommit 0) { State.reset with sec := { State.reset.sec with svn := 2, fwSvn := 3 } } = .next t ∧ t.sec.svn = 3 :=
  ⟨_, rfl, rfl⟩

theorem witness_RmaIsFinal :
    let s : State := { State.reset with sec := { State.reset.sec with debugState := 2 } }
    s.sec.debugState = 2 ∧ s.sec.debugNext = none ∧ ∃ t, exec (.rstChip 0) s = .next t := ⟨rfl, rfl, _, rfl⟩

/-- PF0 with a write that waits. -/
def waitingWrite : State := State.reset.setFunc 0 { heldWrites := [.load 0 0] }

theorem witness_WindowWrites :
    (let s := on0 { busy := true }
     (Instr.load 0 0).window = some (0, 0) ∧ hostUp s = true ∧ fnReaches s 0 0 = true ∧ (s.ctx 0).busy = true) ∧
    ((Instr.barClear 0).global = some 0 ∧ (Instr.barClear 0).request = false ∧ hostUp waitingWrite = true ∧ fnReaches waitingWrite 0 0 = true ∧
      (waitingWrite.func 0).heldWrites ≠ []) ∧
    ((Instr.load 1 0).window = some (1, 0) ∧ fnReaches State.reset 1 0 = false) ∧
    ((Instr.barClear 1).global = some 1 ∧ (1 : FnId) ≠ 0) := by decide

theorem witness_StationsRest :
    (Instr.fetchTile 0 0).station = some (0, 0) ∧ stationsRun State.reset 0 = false := by decide

theorem witness_DeviceIdentity : hostUp State.reset = true ∧ assocGet 0 (State.reset.func 0).latches = none := ⟨rfl, rfl⟩

/-! ## Vector instructions -/

/-- One VECTOR station at work. -/
def vectorAt : State := on0 (stepping (oneStation kVECTOR [] []))

theorem acting_vector : Acting vectorAt 0 0 kVECTOR (oneStation kVECTOR [] []) ⟨kVECTOR, 0, 0, 0, 0xFFFF, []⟩ :=
  ⟨by decide, rfl, rfl, rfl, by decide, by decide, rfl, by decide⟩

theorem sound_of_none {s : State} (h : s.upsets = []) (taps : List Nat) : Sound s taps := by
  intro t lane vrow e d hm; rw [h] at hm; cases hm

theorem witness_VectorArithmetic :
    ∃ s c i m st, Acting s c i kVECTOR m st ∧ (∀ opc, Sound s (laneTaps opc)) ∧ twoSource ≠ [] ∧ oneSource ≠ [] :=
  ⟨_, _, _, _, _, acting_vector, fun _ => sound_of_none rfl _, by simp [twoSource], by simp [oneSource]⟩

theorem witness_VectorMoves : ∃ s c i m st, Acting s c i kVECTOR m st ∧ ∀ opc, Sound s (laneTaps opc) :=
  ⟨_, _, _, _, _, acting_vector, fun _ => sound_of_none rfl _⟩

theorem witness_VectorPredicates :
    ∃ s c i m st, Acting s c i kVECTOR m st ∧ (∀ opc, Sound s (laneTaps opc)) ∧ compares ≠ [] ∧ predicateOps ≠ [] :=
  ⟨_, _, _, _, _, acting_vector, fun _ => sound_of_none rfl _, by simp [compares], by simp [predicateOps]⟩

theorem witness_VectorAccumulators : ∃ s c i m st, Acting s c i kVECTOR m st ∧ ∀ opc, Sound s (laneTaps opc) :=
  ⟨_, _, _, _, _, acting_vector, fun _ => sound_of_none rfl _⟩

theorem witness_VectorScans : ∃ s c i m st, Acting s c i kVECTOR m st ∧ ∀ opc, Sound s (laneTaps opc) :=
  ⟨_, _, _, _, _, acting_vector, fun _ => sound_of_none rfl _⟩

theorem witness_LanesChangeOneUnit :
    (Instr.fadd 0 0 0 ⟨0, 0, 1, 2, 3, 0, 0⟩).lane = some (0, 0) ∧ (∀ opc, Sound vectorAt (laneTaps opc)) ∧
      ∃ t, exec (.fadd 0 0 0 ⟨0, 0, 1, 2, 3, 0, 0⟩) vectorAt = .next t :=
  ⟨rfl, fun _ => sound_of_none rfl _, _, rfl⟩

/-- The station at work, with a failure of its multiplier that changes a product by 1, or by 127. -/
def upsetAt (by' : Int) : State := { vectorAt with upsets := [.residue 0x11 5 2 0 by'] }

theorem witness_ResidueChecks :
    ({ State.reset with glb := { State.reset.glb with retireLimit := 0 } } : State).glb.retireLimit = 0 ∧ (Tile.coded { xy := ⟨0, 0, 0, 0⟩, payload := .scl [1] [] }).sideFails = [] ∧ (upsetAt 1).upsets = [.residue 0x11 5 2 0 1] ∧
      (∃ p ∈ laneCodes, p.2 = 0x10) ∧ tapsMeet (laneTaps 0x10) 0x11 = true ∧ tapsSee (laneTaps 0x10) 0x11 0 1 = true ∧
      tapsSee (laneTaps 0x10) 0x11 0 127 = false ∧ tapsMeet (laneTaps 0x00) 0x11 = false :=
  ⟨rfl, by decide, rfl, ⟨(.fadd, 0x10), by simp [laneCodes], rfl⟩, by decide, by decide, by decide, by decide⟩

/-! ## Clears, semaphores, runs -/

theorem witness_Clears : WindowOpen State.reset 0 0 ∧ GlobalOpen State.reset 0 := ⟨⟨rfl, rfl, rfl, rfl⟩, rfl, rfl, rfl⟩

/-- Context 0 with semaphore 3 at `n` and `w` host waits armed. -/
def semAt (n : U16) (w : Nat) : State :=
  on0 { assigned := true, hostWaits := w, sems := (Vector.replicate 1024 {}).set 3 { count := n } }

theorem semAt_open (n : U16) (w : Nat) :
    WindowOpen (semAt n w) 0 0 ∧ ((semAt n w).ctx 0).assigned = true ∧ ((semAt n w).ctx 0).parked = false := ⟨⟨rfl, rfl, rfl, rfl⟩, rfl, rfl⟩

theorem witness_WaitQueueIsFifo :
    (semOf (semAt 1 0) 0 3).count.toNat + (0xFFFE : U16).toNat = 0xFFFF ∧ (7 : U16) ≤ (semOf (semAt 7 0) 0 3).count ∧
      ((semAt 0 15).ctx 0).hostWaits < 16 := by decide

theorem witness_SemaphoreOps :
    (semOf (semAt 6 15) 0 3).queue = [] ∧ ((semAt 6 15).ctx 0).hostWaits < 16 ∧ (semOf (semAt 6 15) 0 3).count < (7 : U16) ∧
      (6 : U16) ≤ (semOf (semAt 6 15) 0 3).count ∧ 16 ≤ ((semAt 6 16).ctx 0).hostWaits := by decide

/-- A VECTOR station's image in a context in `p`. -/
def imageIn (p : Phase) : State := on0 { stepping (oneStation kVECTOR [] []) with phase := p }

theorem imageIn_open (p : Phase) : WindowOpen (imageIn p) 0 0 := ⟨rfl, rfl, rfl, rfl⟩

theorem witness_RunAndStepNumber :
    (((imageIn .idle).ctx 0).phase = .idle ∧ (1 : BitVec 24) ≠ 0 ∧ ((imageIn .idle).ctx 0).active.isSome = true ∧
      ((imageIn .idle).ctx 0).startWait = none) ∧ ((imageIn .running).ctx 0).phase ≠ .idle := by decide
/-! ## Images -/

/-- The bytes of an image of a FETCH that feeds a STORE, both on one FP32 element (R43 to R50). -/
def imgBytes : List Byte :=
  [67, 82, 67, 83, 1, 0, 1, 0, 192, 1, 0, 0, 1, 0, 0, 0, 2, 0, 0, 0, 1, 0, 0, 0] ++
  [3, 0, 1] ++
  List.replicate 37 0 ++
  [80, 112, 202, 4, 15, 214, 12, 167, 22, 174, 15, 49, 177, 218, 165, 192, 217, 15, 172, 98, 68, 250, 130, 1] ++
  [158, 194, 82, 112, 66, 39, 158, 14] ++
  List.replicate 32 0 ++
  [1, 0, 64, 0, 192, 0, 0, 0, 2, 0, 0, 0, 0, 0, 0, 0, 2, 0, 16, 0, 64, 1, 0, 0] ++
  [1, 0, 0, 0, 0, 0, 0, 0, 3, 0, 64, 0, 128, 1, 0, 0, 1] ++
  List.replicate 23 0 ++
  [1, 0, 0, 0, 0, 0, 0, 0, 255, 255, 255, 255] ++
  List.replicate 52 0 ++
  [10, 0, 0, 0, 0, 0, 0, 0, 255, 255, 255, 255] ++
  List.replicate 56 0 ++
  [1, 0, 2, 10] ++
  List.replicate 56 0 ++
  [7, 0, 0, 0, 10, 1, 0, 0, 0, 0, 0, 0, 255, 255, 255, 255, 0, 0, 1] ++
  List.replicate 13 0 ++
  [1, 0, 0, 0, 1, 0, 0, 0, 1, 0, 0, 0, 1, 0, 0, 0, 1] ++
  List.replicate 15 0

/-- Context 0 loading that image from address 0. -/
def loadingAt : State := { on0 (mapped { staged := .loading 0 }) with mem := memWrite [] 0 imgBytes }

theorem imgBytes_valid : imageErr none 1 imgBytes = none := by decide +kernel

/-- The same image with another version. -/
def badBytes : List Byte := [0x43, 0x52, 0x43, 0x53, 2]

theorem witness_StagedImages :
    ((loadingAt.ctx 0).staged = .loading 0 ∧ ctxLive loadingAt 0 = true ∧ (loadingAt.ctx 0).assigned = true ∧
      ∃ b t, readImage 0 0 loadingAt = (some b, t) ∧ imageErr ((t.ctx 0).active.map (·.generation)) (t.ctx 0).quarters b = none) ∧
    ∃ b t, readImage 0 0 { loadingAt with mem := memWrite [] 0 badBytes } = (some b, t) ∧
      imageErr ((t.ctx 0).active.map (·.generation)) (t.ctx 0).quarters b = some 0x0201 :=
  ⟨⟨rfl, rfl, rfl, of_some _ _ ⟨imgBytes, by decide +kernel, by decide +kernel⟩⟩, of_some _ _ ⟨badBytes ++ List.replicate 251 0, by decide +kernel, by decide +kernel⟩⟩
/-! ## Steps -/

/-- A context in `p` with the image `m`, and its staged slot. -/
def stagedIn (p : Phase) (g : Staged) (m : Image) : State := on0 { stepping m with phase := p, staged := g }

theorem witness_Activation :
    (((stagedIn .idle (.valid {}) {}).ctx 0).phase = .idle ∧ ((stagedIn .idle (.valid {}) {}).ctx 0).staged = .valid {}) ∧
      ((stagedIn .running (.valid {}) {}).ctx 0).phase ≠ .idle ∧ ∀ m, ((stagedIn .idle .empty {}).ctx 0).staged ≠ .valid m := by
  refine ⟨⟨rfl, rfl⟩, by decide, fun _ => nofun⟩

theorem witness_HeldStep :
    (((imageIn .held).ctx 0).phase = .held ∧ ((imageIn .held).ctx 0).active = some (oneStation kVECTOR [] []) ∧
      mayWork (imageIn .held) = true ∧ mayWork { imageIn .held with mgt := { State.reset.mgt with recReq := true } } = false) ∧
      ((imageIn .running).ctx 0).phase ≠ .held := by decide

/-- A step that awaits its seal. -/
def sealing (suspect : Bool) : State :=
  on0 (mapped { stepping (oneStation kSTORE [] []) with phase := .closing, closing := .recorded, suspEcc := suspect })

theorem seals (b : Bool) : ∃ t, sealRecord 0 (oneStation kSTORE [] []) false (sealing b) = (true, t) ∧
    satSites (t.ctx 0) (oneStation kSTORE [] []) = [] ∧ (t.ctx 0).wit.replaying = false ∧ (t.ctx 0).suspect = b :=
  ⟨(sealRecord 0 (oneStation kSTORE [] []) false (sealing b)).2, Prod.ext rfl rfl, rfl, rfl, by cases b <;> rfl⟩

theorem witness_SealAndCommit :
    (let x := (sealing false).ctx 0
     x.active = some (oneStation kSTORE [] []) ∧ ctxLive (sealing false) 0 = true ∧ x.phase = .closing ∧ x.closing = .recorded ∧
      (∀ r ∈ digestPeers x, r ∈ x.wit.compared) ∧ x.wit.replaying = false ∧
      ∃ t, sealRecord 0 (oneStation kSTORE [] []) false (sealing false) = (true, t) ∧ satSites (t.ctx 0) (oneStation kSTORE [] []) = [] ∧
        (t.ctx 0).wit.replaying = false ∧ (t.ctx 0).suspect = false) ∧
    (let x := (sealing true).ctx 0
     x.active = some (oneStation kSTORE [] []) ∧ ctxLive (sealing true) 0 = true ∧ x.phase = .closing ∧ x.closing = .recorded ∧
      (∀ r ∈ digestPeers x, r ∈ x.wit.compared) ∧ x.wit.replaying = false ∧
      ∃ t, sealRecord 0 (oneStation kSTORE [] []) false (sealing true) = (true, t) ∧ satSites (t.ctx 0) (oneStation kSTORE [] []) = [] ∧
        (t.ctx 0).wit.replaying = false ∧ (t.ctx 0).suspect = true) ∧
    (let x : Ctx := { stepping (oneStation kSTORE [] []) with
       groups := (Vector.replicate 16 {}).set 0 { id := 9, state := .formed, rank := 1, sizeM1 := 1, members := [11, 12] }
       wit := { replicaGroup := 9 } }
     ∃ r ∈ digestPeers ((on0 x).ctx 0), r ∉ ((on0 x).ctx 0).wit.compared) ∧
    ({ masks := [{ edited := true }] } : Ctx).masks[0]? = some { edited := true } :=
  ⟨⟨rfl, rfl, rfl, rfl, by decide, rfl, seals false⟩, ⟨rfl, rfl, rfl, rfl, by decide, rfl, seals true⟩, ⟨0, by decide +kernel, by decide +kernel⟩, rfl⟩

/-- A step of no station, in the phase and the stage of closing given. -/
def stepIn (p : Phase) (k : Closing) (g : Staged) (m : Image) : State := on0 { stepping m with phase := p, closing := k, staged := g }

theorem witness_CloseAndSwitch :
    (ctxLive (stepIn .running .no .empty {}) 0 = true ∧ ((stepIn .running .no .empty {}).ctx 0).active = some {} ∧
      stepDrained ((stepIn .running .no .empty {}).ctx 0) {} = true) ∧
    (let m := oneStation kFETCH [] []
     ctxLive (stepIn .running .no .empty m) 0 = true ∧ ((stepIn .running .no .empty m).ctx 0).active = some m ∧
      stepDrained ((stepIn .running .no .empty m).ctx 0) m = false) ∧
    (((stepIn .closing .open .empty {}).ctx 0).phase = .closing ∧ ((stepIn .closing .open .empty {}).ctx 0).closing = .open) ∧
    (let s := stepIn .committing .sealed (.valid {}) {}
     ctxLive s 0 = true ∧ (s.ctx 0).phase = .committing ∧ (s.ctx 0).closing = .sealed ∧ (s.ctx 0).chores = [] ∧
      (s.ctx 0).active.isSome = true ∧ (s.ctx 0).staged = .valid {}) ∧
    ∀ m, ((stepIn .committing .sealed .invalid {}).ctx 0).staged ≠ .valid m := by
  refine ⟨by decide, by decide, by decide, by decide, fun _ => nofun⟩

/-- Context 0 in IDLE over the first pages, all of memory zero. -/
def mappedIdle : State := on0 (mapped {})

theorem witness_ReplayArming :
    WindowOpen mappedIdle 0 0 ∧ WindowOpen (imageIn .running) 0 0 ∧ ((imageIn .running).ctx 0).phase ≠ .idle ∧
      (mappedIdle.ctx 0).phase = .idle ∧ (BitVec.truncate 2 (0 : U64)) = (0 : BitVec 2) ∧ BitVec.truncate 2 (1 : U64) ≠ (0 : BitVec 2) ∧
      ∃ a t, fetchVa 0 reqGauge false ⟨(BitVec.extractLsb' 12 52 (1 : U64)).toNat * 4096, 4096⟩
          (mappedIdle.setCtx 0 { (mappedIdle.ctx 0).forgetReq reqGauge with
            wit := { (mappedIdle.ctx 0).wit with mode := 1, result := .checking } }) = (some a, t) ∧ (t.ctx 0).wit.refAddr = 0 :=
  ⟨⟨rfl, rfl, rfl, rfl⟩, ⟨rfl, rfl, rfl, rfl⟩, by decide, rfl, by decide, by decide, of_some _ _ ⟨_, rfl, rfl⟩⟩

/-- A context whose SPARSE and SPILL groups both hold a value out of range. -/
def twoBad : State := on0 { shadow := { ({} : AgVals) with pruneK := 0xFFFF, spillLog2 := 31 } }

theorem witness_AgreementGroups :
    (WindowOpen State.reset 0 0 ∧ ∀ g : Fin 6, groupCodes State.reset (State.reset.ctx 0) g.val = []) ∧
    (let s := on0 { shadow := { ({} : AgVals) with pruneK := 0xFFFF } }
     ∃ code, WindowOpen s 0 0 ∧ (fixGroup none 1 (s.ctx 0).shadow).2 = some code ∧ groupCodes s (s.ctx 0) 1 = [code] ∧ code ≠ 0x0B01) ∧
    (mayWork (on0 { agPending := 0x3F }) = true ∧ (∀ g : Fin 6, ((on0 { agPending := 0x3F }).ctx 0).agPending.getLsbD g.val = true) ∧
      ((on0 { agPending := 0x3F }).ctx 0).phase = .idle ∧ ((on0 { agPending := 0x3F }).ctx 0).phase ≠ .preempted) ∧
    (let s := on0 { stepping {} with agPending := 0x3F }
     (s.ctx 0).agPending.getLsbD 4 = true ∧ (s.ctx 0).active = some {} ∧ (s.ctx 0).phase ≠ .preempted ∧ (s.ctx 0).phase ≠ .idle) ∧
    (∀ g : Fin 6, (State.reset.ctx 0).agPending.getLsbD g.val = false) ∧
    (0x22 : BitVec 6).getLsbD 1 = true ∧ (0x22 : BitVec 6).getLsbD 5 = true ∧ groupCodes twoBad (twoBad.ctx 0) 1 = [0x0701] ∧
    groupCodes twoBad (twoBad.ctx 0) 5 = [0x0401] ∧ (0x0401 : U16) ≤ 0x0701 :=
  ⟨⟨⟨rfl, rfl, rfl, rfl⟩, by decide +kernel⟩, ⟨0x0701, ⟨rfl, rfl, rfl, rfl⟩, by decide +kernel⟩, by decide, by decide, by decide,
    by decide, by decide, by decide +kernel, by decide +kernel, by decide⟩

/-- A context in a step with `n` live writes counted and `k` pool entries in its log, in a replay or not. -/
def liveAt (n k : Nat) (replay : Bool) : State :=
  on0 { stepping {} with liveCount := n, wit := { replaying := replay, log := [⟨0x10, 0, List.replicate k (0, none)⟩] } }

theorem witness_LiveFieldWrites :
    liveFix .satThresh 1 = (some 1, none) ∧ (numericLive .satThresh && (State.reset.ctx 0).inProgress) = false ∧
    (∀ b, (numericLive .satThresh && ((liveAt 7 96 b).ctx 0).inProgress) = true ∧ ((liveAt 7 96 b).ctx 0).wit.replaying = b ∧
      ((liveAt 7 96 b).ctx 0).liveCount < 8 ∧ poolUsed ((liveAt 7 96 b).ctx 0).wit + 0 ≤ 96) ∧
    8 ≤ ((liveAt 8 0 false).ctx 0).liveCount ∧ 96 < poolUsed ((liveAt 0 97 false).ctx 0).wit := by decide

/-! ## Barriers -/

/-- A formed slot of three members at rank 1. -/
def threeMembers : GroupSlot := { id := 9, rank := 1, sizeM1 := 2, state := .formed, members := [11, 12, 13] }

/-- Barrier 0 of context 0, with arrivals of slot 0 recorded or not and of slot 0 held or not. -/
def barrierAt (scope : Bool) (mask : U32) (arrived held : List (Nat × Option SemId)) : State :=
  (on0 { assigned := true, groups := (Vector.replicate 16 {}).set 0 threeMembers }).setBarrier 0
    { enable := true, scope := scope, owner := 0, group := 9, mask := (Vector.replicate 16 0).set 0 mask, epoch := 5, arrived := arrived, heldNext := held }

theorem witness_BarrierControl :
    (GlobalOpen State.reset 0 ∧ (State.reset.barrier 0).enable = false) ∧
    (∃ g, formedSlot ((barrierAt true 3 [] []).ctx 0) (9 : U32) = some g ∧ g.sizeM1.toNat < 512) ∧
    (formedSlot (State.reset.ctx 0) (State.reset.barrier 0).group = none) ∧
    (let b := (barrierAt false 3 [] []).barrier 0
     b.enable = true ∧ (b.scope = false ∧ b.owner = 0 ∧ b.tag = 0) ∧ ¬ (b.scope = true ∧ b.owner = 0 ∧ b.tag = 0)) :=
  ⟨⟨⟨rfl, rfl, rfl⟩, rfl⟩, ⟨threeMembers, rfl, by decide⟩, rfl, by decide⟩

theorem witness_BarrierArrivals :
    (let s := barrierAt false 3 [] []
     let b := s.barrier 0
     WindowOpen s 0 0 ∧ (s.ctx 0).assigned = true ∧ b.enable = true ∧ b.owner = 0 ∧ b.takes 1 = true ∧ b.scope = false ∧
      (5 : U32) = b.epoch ∧ (∀ a ∈ b.arrived, a.1 ≠ 1) ∧ ({ b with arrived := b.arrived ++ [(1, none)] } : Barrier).full = false ∧
      (6 : U32) = b.epoch + 1 ∧ (6 : U32) ≠ b.epoch ∧ (∀ a ∈ b.heldNext, a.1 ≠ 1) ∧ b.full = false ∧ (7 : U32) ≠ b.epoch ∧ (7 : U32) ≠ b.epoch + 1) ∧
    (let b := (barrierAt false 3 [(0, none)] []).barrier 0
     b.takes 1 = true ∧ (∀ a ∈ b.arrived, a.1 ≠ 1) ∧ ({ b with arrived := b.arrived ++ [(1, none)] } : Barrier).full = true ∧ b.heldNext = [] ∧
      ∃ a ∈ b.arrived, a.1 = 0) ∧
    (let s := barrierAt true 0 [] []
     ∃ g, ownRank s (s.barrier 0) = some g ∧ g.rank.toNat = 1) ∧
    (State.reset.barrier 0).enable = false :=
  ⟨⟨⟨rfl, rfl, rfl, rfl⟩, by decide +kernel⟩, by decide +kernel, ⟨threeMembers, rfl, rfl⟩, rfl⟩

/-- A packet for semaphore or slot field `sem`, from rank `src`, of epoch `epoch`. -/
def syncAt (sem : U16) (rel : Bool) (src : U16) (epoch : U32) : SyncPkt := ⟨rel, src, 1, sem, 9, 1, 0, 4, epoch⟩

theorem witness_SyncPackets :
    (mayWork (barrierAt true 7 [] []) = true ∧ (syncAt 1023 true 0 0).sem.toNat = 1023 ∧ groupCtx (barrierAt true 7 [] []) 9 1 = some 0) ∧
    (1024 ≤ (syncAt 1024 false 0 0).sem.toNat ∧ groupCtx State.reset 9 1 = none ∧ arriveAt State.reset (syncAt 0 false 0 5) = []) ∧
    (let s := barrierAt true 7 [(2, none)] []
     let b := s.barrier 0
     arriveAt s (syncAt 0 false 0 5) = [0] ∧ b.takes 0 = true ∧ (5 : U32) = b.epoch ∧ (∀ a ∈ b.arrived, a.1 ≠ 0) ∧ (∃ a ∈ b.arrived, a.1 = 2) ∧
      (6 : U32) = b.epoch + 1 ∧ (6 : U32) ≠ b.epoch ∧ (∀ a ∈ b.heldNext, a.1 ≠ 0) ∧ b.takes 3 = false ∧ (7 : U32) ≠ b.epoch ∧ (7 : U32) ≠ b.epoch + 1) ∧
    (let s := on0 { signals := [⟨0, 9, 4, 3, 1⟩], groups := (Vector.replicate 16 {}).set 0 threeMembers }
     (s.ctx 0).signals[0]? = some ⟨0, 9, 4, 3, 1⟩ ∧ signalWaits s ⟨0, 9, 4, 3, 1⟩ = true ∧
      signalWaits { s with glb := { s.glb with wseqIn := [(11, (4, []))] } } ⟨0, 9, 4, 3, 1⟩ = false) ∧
    (let b := (barrierAt true 3 [(1, none)] []).barrier 0
     ({ b with arrived := b.arrived ++ [(0, none)] } : Barrier).full = true ∧ b.heldNext = []) ∧
    seqInOf State.reset 11 = (0, []) := by decide +kernel

theorem noneHeld_reset : NoneHeld (barrierAt true 7 [] []) :=
  ⟨rfl, by
    have : ∀ c : CtxId, (((barrierAt true 7 [] []).ctx c).heldRemote.length) = 0 := by decide +kernel
    exact fun c => List.length_eq_zero_iff.mp (this c)⟩
/-! ## Pages, descriptors, remote writes, pre-emption -/

/-- A context with an outstanding fault of a station, in a phase. -/
def faulted (p : Phase) : State := on0 { phase := p, mmu := { faults := [⟨5, 0, 2, [reqStation 0]⟩], collPages := [⟨3, 3, true, false⟩] } }

theorem witness_Paging :
    (WindowOpen (faulted .idle) 0 0 ∧ WindowOpen (faulted .preempted) 0 0 ∧ WindowOpen (faulted .running) 0 0) ∧
    (let x := (faulted .idle).ctx 0
     x.mmu.faults.find? (fun k => k.id == 5) = some ⟨5, 0, 2, [reqStation 0]⟩ ∧ x.mmu.waiting = [] ∧ x.phase ≠ .preempted ∧
      (∃ r ∈ [reqStation 0], r.kind ≠ 1) ∧ (∀ r ∈ [reqStation 0], r.kind ≠ 1) ∧ (∀ f ∈ x.mmu.faults, f.id ≠ 6)) ∧
    (((faulted .preempted).ctx 0).phase = .preempted ∧ ((faulted .preempted).ctx 0).restoring = false) ∧
    ((faulted .idle).ctx 0).phase = .idle ∧ ((faulted .running).ctx 0).phase ≠ .idle ∧
    ∃ t ∈ ((faulted .running).ctx 0).mmu.collPages, (t.page == (3 : BitVec 48).toNat) = true :=
  ⟨⟨⟨rfl, rfl, rfl, rfl⟩, ⟨rfl, rfl, rfl, rfl⟩, rfl, rfl, rfl, rfl⟩, by decide, by decide, rfl, by decide, by decide⟩

/-- A context that waits for host page 7, for its translation or its page request. -/
def hostWaits (stage : HostStage) : State := on0 { mmu := { ats := [⟨0, 7, 0, false, stage, reqStation 0⟩] } }

theorem witness_HostPages :
    (mayWork (hostWaits .translation) = true ∧ (∃ w ∈ ((hostWaits .translation).ctx 0).mmu.ats, w.hostPage = (7 : U64).toNat ∧ w.stage = .translation) ∧
      ((hostWaits .translation).func (ctxFn (hostWaits .translation) 0)).priStopped = false) ∧
    (let s := (hostWaits .translation).setFunc 0 { priStopped := true }
     mayWork s = true ∧ (∃ w ∈ (s.ctx 0).mmu.ats, w.hostPage = (7 : U64).toNat ∧ w.stage = .translation) ∧ (s.func (ctxFn s 0)).priStopped = true) ∧
    (∃ w ∈ ((hostWaits .asked).ctx 0).mmu.ats, w.hostPage = (7 : U64).toNat ∧ w.stage = .asked) ∧
    ∀ c, (State.reset.ctx c).mmu.ats = [] := by decide +kernel

/-- Context 0 with a COPY in slot 0 of its ring and one more slot to go. -/
def ringAt (d : DescState) : State := on0 (mapped { dma := { tail := 2, descs := [d] } })

/-- A descriptor that needs no start. -/
def copyDesc (op flags : Byte) (started waited : Bool) : DescState :=
  { index := 0, bytes := [op, flags] ++ List.replicate 30 0 ++ [1] ++ List.replicate 31 0, started := started, waited := waited }

theorem copyDesc_runs :
    ∀ op ∈ [(1 : Byte), 3], ∀ flags ∈ [(0 : Byte), 2], ∀ started waited : Bool,
      ringRuns (ringAt (copyDesc op flags started waited)) 0 0 = true ∧
      ((ringAt (copyDesc op flags started waited)).ctx 0).desc 0 = some (copyDesc op flags started waited) ∧
      (copyDesc op flags started waited).ended = false ∧ (copyDesc op flags started waited).waiting = false ∧
      (copyDesc op flags started waited).result = 0 := by decide +kernel

/-- The ring whose next slot is to be read: COPY in memory at slot 1, its predecessor started. -/
def ringNext : State :=
  { on0 (mapped { dma := { tail := 2, descs := [copyDesc 1 0 true false] } }) with mem := [(64, 1)] }

theorem witness_Descriptors :
    (WindowOpen State.reset 0 0 ∧ ((15 : U16) - (State.reset.ctx 0).dma.head).toNat < 2 ^ (State.reset.ctx 0).dma.log2.toNat ∧
      2 ^ (State.reset.ctx 0).dma.log2.toNat ≤ ((16 : U16) - (State.reset.ctx 0).dma.head).toNat) ∧
    (∀ p ∈ descCmds, descOp (copyDesc (BitVec.ofNat 8 p.2.1) 0 true false).bytes = p.2.1) ∧
    (copyDesc 1 0 true false).started = true ∧
    ((copyDesc 1 0 false false).started = false ∧ descFlag (copyDesc 1 0 false false).bytes 0 = false ∧
      descInvalid ((ringAt (copyDesc 1 0 false false)).ctx 0) (copyDesc 1 0 false false).bytes = false ∧
      descFlag (copyDesc 1 0 false false).bytes 1 = false) ∧
    descInvalid ((ringAt (copyDesc 3 0 false false)).ctx 0) (copyDesc 3 0 false false).bytes = true ∧
    (let d := copyDesc 1 2 false false
     let s := ringAt d
     descInvalid (s.ctx 0) d.bytes = false ∧ descFlag d.bytes 1 = true ∧ d.waited = false ∧ natAt d.bytes 4 2 = 0) ∧
    (let s := on0 (mapped { dma := { tail := 2, descs := [{ copyDesc 1 0 true false with index := 0 }, { copyDesc 1 1 false false with index := 1 }] } })
     ringRuns s 0 1 = true ∧ ∃ k ∈ earlier (s.ctx 0) 1, descEnded (s.ctx 0) k = false) ∧
    (ringRuns ringNext 0 1 = true ∧ (ringNext.ctx 0).desc 1 = none ∧ (∀ k ∈ earlier (ringNext.ctx 0) 1, descStarted (ringNext.ctx 0) k = true) ∧
      ∃ b t, readMoved 0 (reqCopy 1) [⟨(ringNext.ctx 0).dma.ringVa.toNat * 64 + 64 * 1, 64⟩] ringNext = (some b, t) ∧ descOp b = 1) ∧
    (let s := ringAt (copyDesc 1 0 true false)
     let u := resumeCommit 0 (s.setCtx 0 ((s.ctx 0).modDesc 0 (fun d =>
       { d with result := 1, started := true, waiting := false, unacked := [], reading := false })))
     (∃ d, (u.ctx 0).desc 0 = some d ∧ relFull u 0 d = false ∧ d.result = 1) ∧
      ∃ t, putVa 0 (reqCopy 0) false ((u.ctx 0).dma.ringVa.toNat * 64 + 64 * 0 + 0x38) [1] u = (true, t)) :=
  ⟨⟨⟨rfl, rfl, rfl, rfl⟩, by decide, by decide⟩, by decide, rfl, by decide +kernel, by decide +kernel, by decide +kernel, by decide +kernel,
    ⟨by decide +kernel, by decide +kernel, by decide +kernel, of_some _ _ ⟨1 :: List.replicate 63 0, by decide +kernel, by decide⟩⟩, ⟨_, rfl, by decide +kernel, rfl⟩, of_true (by decide +kernel)⟩

theorem witness_Descriptors_full :
    let s := (on0 (mapped { groups := (Vector.replicate 16 {}).set 0 threeMembers })).setLink 0 { vc0Out := List.replicate 16 (some 13) }
    let b : List Byte := [1, 0x2C, 0, 0, 0, 0, 0, 0, 0, 0, 2, 0, 9, 0, 0, 0] ++ List.replicate 48 0
    relFull { s with glb := { s.glb with uid := 1 } } 0 { index := 0, bytes := b, result := 1 } = true := by decide +kernel

/-- A remote write of rank 0 to rank 1. -/
def writeHdr : RemoteHdr := ⟨false, 0, 1, 9, 4, 0⟩

/-- Context 0 in the formed group of three, over its first pages or over none. -/
def memberAt (x : Ctx) : State := on0 { mapped x with groups := (Vector.replicate 16 {}).set 0 threeMembers }

theorem witness_RemoteWrites :
    (mayWork State.reset = true ∧ groupCtx State.reset 9 1 = none) ∧
    (groupCtx (memberAt { busy := true }) 9 1 = some 0 ∧ ((memberAt { busy := true }).ctx 0).busy = true) ∧
    (let s := memberAt {}
     mayWork s = true ∧ groupCtx s 9 1 = some 0 ∧ (s.ctx 0).busy = false ∧ sourceHeld s (s.ctx 0) writeHdr = false ∧ relWaits s 11 writeHdr = false ∧
      threeMembers.members[0]? = some 11 ∧ stopped (s.ctx 0) (reqRemote 0) = false ∧
      ((s.ctx 0).mmu.collPages ++ (s.ctx 0).mmu.tlb).find? (fun e => e.page == 0) = some ⟨0, 0, true, false⟩ ∧
      formedSlot (s.ctx 0) 9 = some threeMembers ∧ ∃ t, putVa 0 (reqRemote 0) false 0 [1] s = (true, t) ∧ (t.ctx 0).groups = (s.ctx 0).groups) ∧
    (let s := (memberAt {}).modCtx 0 (fun x => { x with mmu := {} })
     groupCtx s 9 1 = some 0 ∧ ∃ t, putVa 0 (reqRemote 0) false 0 [1] s = (false, t)) ∧
    (State.reset.glb.buddyLinks.getLsbD 0 = false ∧
      buddyTotal State.reset < (0x2000000000 : U64).toNat + [(1 : Byte)].length ∧ (0x1FFFFFFFFF : U64).toNat + [(1 : Byte)].length ≤ buddyTotal State.reset ∧
      ({ State.reset with glb := { State.reset.glb with buddyLinks := 1 } } : State).glb.buddyLinks.getLsbD 0 = true ∧
      (0xFFFFFFFF : U64).toNat % buddyBytes State.reset + [(1 : Byte)].length ≤ buddyBytes State.reset) ∧
    (let s := memberAt {}
     lowerOpen s (writerOf (s.ctx 0) { writeHdr with relHdr := true }) 4 = true ∧ lowerOpen s 0 4 = true) ∧
    (let d : DescState := { copyDesc 3 0 true false with unacked := [(12, 4)], granule := 1 }
     let s := memberAt { dma := { tail := 2, descs := [{ d with bytes := [3, 0, 0, 0, 0, 0, 0, 0, 0, 0, 0, 0, 9, 0, 0, 0] ++ List.replicate 16 0 ++ [1] ++ List.replicate 31 0 }] } }
     ringRuns s 0 0 = true ∧ ∃ d, (s.ctx 0).desc 0 = some d ∧ d.ended = false ∧ d.waiting = false ∧ d.result = 0 ∧ d.started = true ∧ descOp d.bytes = 3 ∧
      formedSlot (s.ctx 0) (descGroup d.bytes) = some threeMembers ∧ ceilDiv (descLen d.bytes) packetData ≤ d.granule ∧
      dropOne (12, 4) d.unacked = []) ∧
    ((on0 { dma := { descs := [{ copyDesc 3 0 true false with unacked := [(12, 4)] }] } }).ctx 0).dma.descs.find?
      (fun d => d.unacked.contains (12, 4)) = some { copyDesc 3 0 true false with unacked := [(12, 4)] } :=
  ⟨by decide, by decide, ⟨by decide, by decide, by decide, by decide, by decide +kernel, by decide, by decide, by decide, by decide,
      _, Prod.ext (by decide +kernel) rfl, rfl⟩,
    ⟨by decide, _, Prod.ext (by decide +kernel) rfl⟩, by decide +kernel, by decide +kernel, ⟨by decide +kernel, _, rfl, by decide +kernel⟩, by decide +kernel⟩

/-! ### The save area -/

theorem memTake_memCells : ∀ (bs : List Byte) (a : Nat), memTake bs.length (memCells a bs) a = bs
  | [], _ => rfl
  | b :: bs, a => by
    have ih := memTake_memCells bs (a + 1)
    by_cases hb : b = memDefault
    · have low : ∀ (cs : List Byte) (k : Nat), a < k → memTake (bs.length + 1) (memCells k cs) a = memDefault :: memTake bs.length (memCells k cs) (a + 1) := by
        intro cs
        induction cs with
        | nil => intro k _; rfl
        | cons c cs ih =>
          intro k hk
          simp only [memCells]
          split
          · exact ih (k + 1) (by omega)
          · simp only [memTake]; rw [if_neg (by omega)]
      simp only [memCells, if_pos hb, List.length_cons]
      rw [low bs (a + 1) (by omega), ih, hb]
    · simp only [memCells, if_neg hb, List.length_cons, memTake, if_true, ih]

/-- A context that the area fits: its header as saved, and its first four pages mapped. -/
def savedCtx (h : List Byte) : Ctx :=
  { phase := .preempted, saveHeader := h, mmu := { tlb := (List.range 5).map (fun p => ⟨p, p, true, false⟩) } }

def savedHead : List Byte := saveHead 0 (savedCtx []) []

/-- The area as a save of no body wrote it. -/
def savedAt (h : List Byte) : State := { on0 (savedCtx h) with mem := memWrite [] 0 savedHead }

theorem savedAt_reads (h : List Byte) :
    ∃ t, fetchVa 0 reqPreempt true ⟨((savedAt h).ctx 0).saveVa.toNat * 64, 64 + ((savedAt h).ctx 0).saveLen⟩ (savedAt h) =
      (some (savedHead, false), t) := by
  have e : (fetchVa 0 reqPreempt true ⟨0, 64⟩ (savedAt h)).1 = some (memRead (memWrite [] 0 savedHead) 0 64 ++ [], false) := rfl
  have r : memRead (memWrite [] 0 savedHead) 0 64 = savedHead := by
    have : savedHead.length = 64 := rfl
    show memTake 64 (List.dropWhile _ (memCells 0 savedHead ++ [])) 0 = savedHead
    rw [List.append_nil]
    have d : ∀ m : List Host.Cell, m.dropWhile (fun p => decide (p.1 < 0)) = m := by intro m; cases m <;> simp [List.dropWhile]
    rw [d, ← this, memTake_memCells]
  rw [r, List.append_nil] at e
  exact ⟨_, Prod.ext e rfl⟩

/-- A context being saved. -/
def savingAt : State := on0 { savedCtx [] with phase := .idle, saving := true }

theorem savingAt_writes : ∃ t, writeSave 0 savingAt = (true, t) := by
  have pages : ∀ L, L ≤ 0x40000 → 0 < L → ∃ n, 1 ≤ n ∧ n ≤ 4 ∧ spanPages [⟨0, L⟩] = spanPages [⟨0, 65536 * n⟩] := by
    intro L h h0
    refine ⟨(L - 1) / 65536 + 1, by omega, by omega, ?_⟩
    have : (0 + 65536 * ((L - 1) / 65536 + 1) - 1) / 65536 + 1 - 0 / 65536 = (0 + L - 1) / 65536 + 1 - 0 / 65536 := by omega
    simp only [spanPages, List.foldl, if_neg (show ¬ L = 0 by omega), if_neg (show ¬ 65536 * ((L - 1) / 65536 + 1) = 0 by omega), this]
  have ok : ∀ (L : Nat) (s : State), (s.ctx 0).mmu = (savedCtx []).mmu → L ≤ 0x40000 → 0 < L → ∃ tab, access 0 reqPreempt true true [⟨0, L⟩] s = (some tab, s) := by
    intro L s hm h h0
    obtain ⟨n, h1, h4, e⟩ := pages L h h0
    have st : stopped (s.ctx 0) reqPreempt = false := by simp only [stopped, hm]; rfl
    have page : ∀ p, p < 5 → ∀ acc vas, getPages 0 reqPreempt true true (65536 * p :: vas) acc s =
        getPages 0 reqPreempt true true vas (⟨p, 65536 * p, false⟩ :: acc) s := by
      intro p hp acc vas
      have l : lookupPage 0 (65536 * p) s = (.ok ⟨p, p, true, false⟩, s) := by
        have : p = 0 ∨ p = 1 ∨ p = 2 ∨ p = 3 ∨ p = 4 := by omega
        rcases this with rfl | rfl | rfl | rfl | rfl <;> (simp only [lookupPage, hm]; rfl)
      have g : getPage 0 reqPreempt true true (65536 * p) s = (some ⟨p, 65536 * p, false⟩, s) := by
        simp only [getPage, l]
        simp [Nat.mul_comm]
      simp only [getPages, g]
    have hn : n = 1 ∨ n = 2 ∨ n = 3 ∨ n = 4 := by omega
    simp only [access, st, e, Bool.false_eq_true, if_false]
    rcases hn with rfl | rfl | rfl | rfl
    · have : spanPages [⟨0, 65536 * 1⟩] = [65536 * 0] := by decide
      rw [this, page 0 (by omega)]; exact ⟨_, by rw [getPages, keepMark_self]⟩
    · have : spanPages [⟨0, 65536 * 2⟩] = [65536 * 0, 65536 * 1] := by decide
      rw [this, page 0 (by omega), page 1 (by omega)]; exact ⟨_, by rw [getPages, keepMark_self]⟩
    · have : spanPages [⟨0, 65536 * 3⟩] = [65536 * 0, 65536 * 1, 65536 * 2] := by decide
      rw [this, page 0 (by omega), page 1 (by omega), page 2 (by omega)]; exact ⟨_, by rw [getPages, keepMark_self]⟩
    · have : spanPages [⟨0, 65536 * 4⟩] = [65536 * 0, 65536 * 1, 65536 * 2, 65536 * 3] := by decide
      rw [this, page 0 (by omega), page 1 (by omega), page 2 (by omega), page 3 (by omega)]; exact ⟨_, by rw [getPages, keepMark_self]⟩
  have len : ∀ body : List Byte, (saveHead 0 (savingAt.ctx 0) body).length = 64 := fun _ => rfl
  have need : saveNeed (savingAt.ctx 0) - 63 = 0x40000 - 63 := rfl
  obtain ⟨body, hb⟩ : ∃ body, (List.range (Config.freeNat 0 % (saveNeed (savingAt.ctx 0) - 63))).map (Config.saveBodyByte 0) = body := ⟨_, rfl⟩
  have small : body.length < 0x40000 - 63 := by
    rw [← hb, List.length_map, List.length_range, need]; exact Nat.mod_lt _ (by omega)
  have total : (saveHead 0 (savingAt.ctx 0) body ++ body).length = 64 + body.length := by rw [List.length_append, len]
  have upper : 64 + body.length ≤ 0x40000 := by omega
  obtain ⟨tab, ht⟩ := ok (64 + body.length) (drawNat savingAt).2 rfl upper (by omega)
  have a : savingAt.draws = 0 := rfl
  have v : (savingAt.ctx 0).saveVa.toNat * 64 = 0 := rfl
  have m : (savingAt.ctx 0).active = none := rfl
  have d : (drawNat savingAt).1 = Config.freeNat 0 := rfl
  refine ⟨_, Prod.ext ?_ rfl⟩
  simp only [writeSave, m, putVa, v, a, d, hb, total, ht]

theorem witness_Preemption :
    (WindowOpen State.reset 0 0 ∧ (State.reset.ctx 0).phase ≠ .preempted ∧ (State.reset.ctx 0).saving = false) ∧
    (let x := savingAt.ctx 0
     mayWork savingAt = true ∧ x.busy = false ∧ inPartReset savingAt x = false ∧ x.saving = true ∧ x.phase ≠ .committing ∧
      ∃ t, writeSave 0 savingAt = (true, t)) ∧
    (∀ h, let s := savedAt h
      let x := s.ctx 0
      WindowOpen s 0 0 ∧ mayWork s = true ∧ x.phase = .preempted ∧ x.restoring = false ∧ inPartReset s x = false ∧
      ∃ t, fetchVa 0 reqPreempt true ⟨x.saveVa.toNat * 64, 64 + x.saveLen⟩ s = (some (savedHead, false), t)) ∧
    (savedHead.take 64 = ((savedAt savedHead).ctx 0).saveHeader ∧
      saveHead 0 ((savedAt savedHead).ctx 0) (savedHead.drop 64) = ((savedAt savedHead).ctx 0).saveHeader) ∧
    savedHead.take 64 ≠ ((savedAt []).ctx 0).saveHeader :=
  ⟨⟨⟨rfl, rfl, rfl, rfl⟩, by decide, rfl⟩, ⟨rfl, rfl, rfl, rfl, by decide, savingAt_writes⟩,
    fun h => ⟨⟨rfl, rfl, rfl, rfl⟩, rfl, rfl, rfl, rfl, savedAt_reads h⟩, ⟨rfl, rfl⟩, fun h => nomatch h⟩
/-! ## Resets -/

/-- Context 0 in reset. -/
def inReset : State := on0 { busy := true }

/-- A context at work of bench 3, in the partition of quarter 0. -/
def onBench : State := on0 { stepping (oneStation kSTORE [] []) with stns := [{ bench := 3 }] }

theorem witness_Resets :
    (hostUp State.reset = true ∧ fnReaches State.reset 0 0 = true ∧ RequestOpen State.reset 0) ∧
    ((31 : U16).toNat = (31 : CtxId).val ∧ 32 ≤ (32 : U16).toNat) ∧
    ((∃ u, unitOf (0 : BitVec 2).toNat (511 : U16).toNat = some u) ∧ (∃ u, unitOf (2 : BitVec 2).toNat (15 : U16).toNat = some u) ∧
      512 ≤ (512 : U16).toNat ∧ 16 ≤ (16 : U16).toNat) ∧
    (partitionOf onBench 0 = some 1 ∧ onBench.glb.partBusy &&& 1 = 0 ∧ (3 : U16).toNat < 4 ∧ 4 ≤ (4 : U16).toNat ∧
      partitionOf State.reset 0 = none ∧ (State.reset.func 0).en = false) ∧
    (let x := inReset.ctx 0
     inReset.pwr.mainOn = true ∧ 6 ≤ inReset.pwr.bootEvent ∧ x.busy = true ∧ inPartReset inReset x = false ∧ inReset.glb.chipBusy = false ∧
      x.heldRemote = [] ∧ x.phase ≠ .closing ∧ x.phase ≠ .held ∧ x.phase ≠ .preempted) ∧
    (let s : State := { State.reset with glb := { State.reset.glb with engBusy := [(.bench 3, 1, [])] } }
     (∃ p, s.glb.engBusy.find? (fun e => e.1 == .bench 3) = some p) ∧ unitInReset s (.bench 3) = false ∧ unitHeld s (.bench 3) = false) ∧
    (let s : State := { State.reset with glb := { State.reset.glb with partBusy := 1, partRst := [(1, 1, [])] } }
     (∃ p, s.glb.partRst.find? (fun e => e.1.getLsbD (0 : QuarterId).val) = some p) ∧ s.glb.chipBusy = false) ∧
    (let s : State := { State.reset with glb := { State.reset.glb with chipBusy := true, buddyGib := 0 } }
     s.glb.chipBusy = true ∧ s.glb.buddyGib ≠ s.glb.buddyGibInForce) :=
  ⟨⟨rfl, rfl, rfl, rfl⟩, by decide, ⟨⟨_, rfl⟩, ⟨_, rfl⟩, by decide, by decide⟩, by decide +kernel, by decide +kernel,
    ⟨⟨_, rfl⟩, by decide +kernel, by decide +kernel⟩, ⟨⟨_, rfl⟩, rfl⟩, rfl, by decide⟩

theorem witness_TimeoutsAndWatchdogs :
    (State.reset.pwr.mainOn = true ∧ 6 ≤ State.reset.pwr.bootEvent ∧ (inReset.ctx 0).busy = true) ∧
    (let s : State := { onBench with glb := { onBench.glb with engBusy := [(.bench 3, 1, [])], partBusy := 1 } }
     (∃ p ∈ s.glb.engBusy, p.1 = .bench 3) ∧ partitionOf s (unitQuarter (.bench 3)) = some 1 ∧ s.glb.partBusy.getLsbD (0 : QuarterId).val = true) ∧
    (let s : State := { State.reset with glb := { State.reset.glb with engBusy := [(.bench 3, 1, [])], chipBusy := true } }
     (∃ p ∈ s.glb.engBusy, p.1 = .bench 3) ∧ partitionOf s (unitQuarter (.bench 3)) = none ∧ s.glb.chipBusy = true ∧
      State.reset.glb.chipBusy = false) ∧
    (let m := oneStation kFETCH [] []
     let s := on0 (stepping m)
     ctxLive s 0 = true ∧ mayWork s = true ∧ (s.ctx 0).busy = false ∧ (s.ctx 0).restoring = false ∧ inPartReset s (s.ctx 0) = false ∧
      (s.ctx 0).phase = .running ∧ ((s.ctx 0).wdt[0]).limit ≠ 0 ∧ wdtArmed s 0 0 (.station 0) = true ∧ ((s.ctx 0).wdt[3]).limit = 0) ∧
    ({ busy := true, lastCause := 2 } : Ctx).lastCause = 2 ∧
    mayWork State.reset = true := by decide +kernel

theorem witness_Functions :
    (let s : State := { State.reset with glb := { State.reset.glb with vfEnable := true, numVfs := 15 } }
     hostUp s = true ∧ (15 : FnId) ≠ 0 ∧ fnExists s 15 = true) ∧
    fnExists State.reset 1 = false ∧ GlobalOpen State.reset 0 ∧
    (let x := State.reset.ctx 0
     x.phase = .idle ∧ x.active = none ∧ x.staged = .empty ∧ (∀ d, d ≠ 0 → (State.reset.ctx d).assigned = true →
      (State.reset.ctx d).qmask = 0xF ∨ (State.reset.ctx d).qmask &&& 0xF = 0)) ∧
    ((onBench.ctx 0).phase ≠ .idle) ∧
    (∃ d : CtxId, d ≠ 1 ∧ (onBench.ctx d).assigned = true ∧ ¬ ((onBench.ctx d).qmask = 3 ∨ (onBench.ctx d).qmask &&& 3 = 0)) ∧
    (let x := (on0 { assigned := true, qmask := 1, semBench := some 127 }).ctx 0
     x.semBench = some 127 ∧ x.quarters.getLsbD ((127 : BenchId).val / 128) = true ∧ x.quarters.getLsbD ((128 : BenchId).val / 128) = false ∧
      benchBit State.reset.glb.benchFenced 127 = false) :=
  ⟨by decide, by decide, ⟨rfl, rfl, rfl⟩, by decide +kernel, by decide, ⟨0, by decide, by decide, by decide⟩, by decide +kernel⟩

/-! ## Links -/

/-- Link 0 as given. -/
def linkAt (k : Link) : State := State.reset.setLink 0 { k with state := .up }

/-- 34 bytes of a flit. -/
def zeros34 : List Byte := List.replicate 34 0

/-- A flit of kind `k` whose other 271 bytes before the CRC are zero (R252, R255). -/
def flit (k : Byte) (crc : Nat) : List Byte :=
  (k :: List.replicate 33 0) ++ zeros34 ++ zeros34 ++ zeros34 ++ zeros34 ++ zeros34 ++ zeros34 ++ zeros34 ++ leBytes 8 crc

theorem crc_5A : crc64 ((0x5A :: List.replicate 33 0) ++ zeros34 ++ zeros34 ++ zeros34 ++ zeros34 ++ zeros34 ++ zeros34 ++ zeros34) = 0xD6BB7BC79405F3F8 := by
  have a : (((0x5A : Byte) :: List.replicate 33 0).foldl crcByte 0) = (0xAB483E365B236DE : U64) := by decide +kernel
  have b0 : zeros34.foldl crcByte 0xAB483E365B236DE = (0xDFF4EBA2003D8130 : U64) := by decide +kernel
  have b1 : zeros34.foldl crcByte 0xDFF4EBA2003D8130 = (0xF235BC55EE7D35C9 : U64) := by decide +kernel
  have b2 : zeros34.foldl crcByte 0xF235BC55EE7D35C9 = (0xD702A1404F122315 : U64) := by decide +kernel
  have b3 : zeros34.foldl crcByte 0xD702A1404F122315 = (0xCF04F1309A241540 : U64) := by decide +kernel
  have b4 : zeros34.foldl crcByte 0xCF04F1309A241540 = (0xA31DDEC6ED1AAE39 : U64) := by decide +kernel
  have b5 : zeros34.foldl crcByte 0xA31DDEC6ED1AAE39 = (0x8618E060065AE448 : U64) := by decide +kernel
  have b6 : zeros34.foldl crcByte 0x8618E060065AE448 = (0xD6BB7BC79405F3F8 : U64) := by decide +kernel
  simp only [crc64, List.foldl_append, a, b0, b1, b2, b3, b4, b5, b6]

theorem flit_5A : flitIntact (flit 0x5A 0xD6BB7BC79405F3F8) = true := by
  have t : (flit 0x5A 0xD6BB7BC79405F3F8).take 0x110 =
      (0x5A :: List.replicate 33 0) ++ zeros34 ++ zeros34 ++ zeros34 ++ zeros34 ++ zeros34 ++ zeros34 ++ zeros34 := by decide +kernel
  simp only [flitIntact, t, crc_5A]
  decide +kernel

theorem crc_A5 : crc64 ((0xA5 :: List.replicate 33 0) ++ zeros34 ++ zeros34 ++ zeros34 ++ zeros34 ++ zeros34 ++ zeros34 ++ zeros34) = 0xD0A75705288D640F := by
  have a : (((0xA5 : Byte) :: List.replicate 33 0).foldl crcByte 0) = (0x61006755D952DE6A : U64) := by decide +kernel
  have b0 : zeros34.foldl crcByte 0x61006755D952DE6A = (0xC0ADDFD2A99C2FCB : U64) := by decide +kernel
  have b1 : zeros34.foldl crcByte 0xC0ADDFD2A99C2FCB = (0xDEA1D28DB90F0690 : U64) := by decide +kernel
  have b2 : zeros34.foldl crcByte 0xDEA1D28DB90F0690 = (0x9E9BD8225D4FC2CE : U64) := by decide +kernel
  have b3 : zeros34.foldl crcByte 0x9E9BD8225D4FC2CE = (0x88376F57182D789 : U64) := by decide +kernel
  have b4 : zeros34.foldl crcByte 0x88376F57182D789 = (0x838391724FAD8F12 : U64) := by decide +kernel
  have b5 : zeros34.foldl crcByte 0x838391724FAD8F12 = (0xF8C0C73F81F167F0 : U64) := by decide +kernel
  have b6 : zeros34.foldl crcByte 0xF8C0C73F81F167F0 = (0xD0A75705288D640F : U64) := by decide +kernel
  simp only [crc64, List.foldl_append, a, b0, b1, b2, b3, b4, b5, b6]

theorem flit_A5 : flitIntact (flit 0xA5 0xD0A75705288D640F) = true := by
  have t : (flit 0xA5 0xD0A75705288D640F).take 0x110 =
      (0xA5 :: List.replicate 33 0) ++ zeros34 ++ zeros34 ++ zeros34 ++ zeros34 ++ zeros34 ++ zeros34 ++ zeros34 := by decide +kernel
  simp only [flitIntact, t, crc_A5]
  decide +kernel

def emptyFlit : TxFlit := ⟨1, true, true, [], 0, []⟩

theorem witness_Flits_taken :
    (linksRun (linkAt {}) = true ∧ ((linkAt {}).link 0).state = .up) ∧
    (let f := (flit 0x5A 0xD6BB7BC79405F3F8)
     f.length = 280 ∧ flitIntact f = true ∧ natAt f 0 1 = 0x5A ∧ BitVec.ofNat 16 (natAt f 2 2) = ((linkAt {}).link 0).rxSeq + 1 ∧
      BitVec.ofNat 16 (natAt f 2 2) ≠ ((linkAt { rxSeq := 7 }).link 0).rxSeq + 1) ∧
    (flitIntact (flit 0xA5 0xD0A75705288D640F) = true ∧ natAt (flit 0xA5 0xD0A75705288D640F) 0 1 = 0xA5) ∧
    (natAt (List.replicate 280 0) 0 1 ≠ 0x5A ∧ (List.replicate 280 (0 : Byte)).length = 280 ∧ ([] : List Byte).length ≠ 280) :=
  ⟨by decide, ⟨by decide +kernel, flit_5A, by decide +kernel, by decide +kernel, by decide +kernel⟩, ⟨flit_A5, by decide +kernel⟩, by decide +kernel⟩

theorem witness_Flits_sent :
    (let k := (linkAt { txq := [[], [emptyFlit], [], []] }).link 0
     k.replayPos = none ∧ k.replay.length < 1024 ∧ k.ready 0 = false ∧ reservedSlot k.slot = true ∧ reservedSlot 1 = false ∧ k.ready 1 = true ∧
      k.queue 1 = emptyFlit :: []) ∧
    (let k := (linkAt { txq := [[{ emptyFlit with vc := 0 }], [], [], []] }).link 0
     k.replayPos = none ∧ k.replay.length < 1024 ∧ k.ready 0 = true ∧ k.ready 1 = false ∧ k.ready 2 = false ∧ k.ready 3 = false) ∧
    (let k := (linkAt { replayPos := some 0, replay := [(0, emptyFlit)], slot := 1 }).link 0
     k.replayPos = some 0 ∧ k.replay[0]? = some (0, emptyFlit) ∧ reservedSlot k.slot = false) ∧
    ((linkAt { delivered := [(1, [7])] }).link 0).delivered.drop 0 = [(1, [7])] := by decide +kernel

theorem witness_Flits_lanes :
    State.reset.upsets = [] ∧ (List.replicate 58 false).length = 58 ∧ (List.replicate 280 (0 : Byte)).length = 280 ∧ 279 < 280 ∧ 7 < 8 := by
  decide +kernel

theorem witness_Flits_full : 1024 ≤ ((linkAt { replay := List.replicate 1024 (0, emptyFlit) }).link 0).replay.length :=
  Nat.le_of_eq (List.length_replicate (n := 1024) (a := ((0 : U16), emptyFlit))).symm

theorem witness_LinksAndRoutes :
    (linksRun (linkAt {}) = true ∧ ((linkAt {}).link 0).state = .up ∧ GlobalOpen (linkAt {}) 0 ∧ ((linkAt {}).link 0).disable = false ∧
      (linkAt {}).glb.linkRetire.getLsbD 0 = false ∧ ((linkAt {}).link 0).unsent = []) ∧
    ((State.reset.link 0).state = .down ∧ (State.reset.link 0).farEnd = false) ∧
    (let k := (State.reset.setLink 0 { state := .training, trainFails := 1 }).link 0
     k.state = .training ∧ k.trainFails.toNat < 2) ∧
    (let k := (State.reset.setLink 0 { state := .training, trainFails := 2 }).link 0
     k.state = .training ∧ 2 ≤ k.trainFails.toNat ∧ k.trainFails = 2) ∧
    (let s := { linkAt { disable := true } with glb := { State.reset.glb with linkRetire := 2 } }
     (s.link 0).disable = true ∧ s.glb.linkRetire.getLsbD 0 = false ∧ s.glb.linkRetire.getLsbD 1 = true) ∧
    (16 ≤ 16 ∧ 16 < 17 ∧ (knownUids State.reset).length < 4096) :=
  ⟨⟨rfl, rfl, ⟨rfl, rfl, rfl⟩, rfl, rfl, rfl⟩, by decide, by decide, by decide, by decide, by decide⟩

/-! ## Groups -/

/-- An idle context with an image and a slot of two members whose table lies at 0. -/
def groupAt (k : GroupSlot) : State :=
  on0 { mapped {} with active := some {}, groups := (Vector.replicate 16 {}).set 0 k }

def twoMembers (st : GroupState) (ms : List U64) (agreed : List Nat) : GroupSlot :=
  { id := 9, rank := 1, sizeM1 := 1, state := st, members := ms, agreed := agreed }

/-- A token of rank 0 for that slot that agrees with it but for its size. -/
def tokenAt (s : State) (size : U16) : Token :=
  { ownToken s (s.ctx 0) ((s.ctx 0).group 0) 0 with srcRank := 0, dstRank := 1, size := size, deviceUid := 11 }

theorem hops_none : ∀ s : State, s.routes = [] → ∀ uid, uid ≠ s.glb.uid → hopsTo s uid = none := by
  intro s h uid hu
  unfold hopsTo routeTo
  rw [if_neg hu, h]
  rfl

theorem witness_GroupForming :
    (let s := groupAt (twoMembers .empty [] [])
     let x := s.ctx 0
     WindowOpen s 0 0 ∧ mayWork s = true ∧ x.phase = .idle ∧ x.active.isSome = true ∧ x.assigned = true ∧ (x.group 0).held = false ∧
      rankTaken s (x.group 0).id (x.group 0).rank = false ∧ x.mmu.ats = [] ∧
      (∃ tab t, tablePages 0 0 (spanPages [⟨0, 16⟩]) [] s = (.ready tab, t) ∧ spanBad tab t ⟨0, 16⟩ = false) ∧
      ∃ t, tablePages 0 0 (spanPages [⟨0, 16⟩]) [] State.reset = (.fails, t)) ∧
    ((State.reset.ctx 0).active.isSome = false ∧ (onBench.ctx 0).phase ≠ .idle) ∧
    (let s := groupAt (twoMembers .forming [11, 12] [])
     let k := (s.ctx 0).group 0
     mayWork s = true ∧ k.state = .forming ∧ k.members ≠ [] ∧ 0 ∈ k.others ∧ 0 ∉ k.agreed ∧ tokenSlot s (tokenAt s 1) = some (0, 0) ∧
      tokenSlot s { tokenAt s 1 with groupId := 8 } = none) ∧
    (let s := groupAt (twoMembers .formed [11, 12] [0])
     ((s.ctx 0).group 0).state = .formed ∧ ((s.ctx 0).group 0).state ≠ .forming) ∧
    (let s : State := { (groupAt (twoMembers .forming [11, 12] [])).setLink 1 { state := .up } with
       glb := { State.reset.glb with uid := 11 }, routes := [(12, 2, 1)] }
     ((s.ctx 0).group 0).members = [11, 12] ∧ (hopsTo s 11).isSome = true ∧ (hopsTo s 12).isSome = true) ∧
    (∃ uid, hopsTo (groupAt (twoMembers .forming [11, 12] [])) uid = none) ∧
    mayWork { State.reset with mgt := { State.reset.mgt with recReq := true } } = false :=
  ⟨⟨⟨rfl, rfl, rfl, rfl⟩, rfl, rfl, rfl, rfl, rfl, by decide +kernel, rfl, ⟨_, _, rfl, rfl⟩, _, rfl⟩, by decide, by decide +kernel, ⟨rfl, by decide⟩, by decide +kernel,
    ⟨(groupAt (twoMembers .forming [11, 12] [])).glb.uid + 1, hops_none _ rfl _ (by intro h; simpa using h)⟩, rfl⟩

theorem witness_GroupForming_tokens (st : GroupState) :
    let s := groupAt (twoMembers st [11, 12] [])
    tokenReason (ownToken s (s.ctx 0) ((s.ctx 0).group 0) 0) (tokenAt s 1) ((s.ctx 0).group 0) = none ∧
      tokenReason (ownToken s (s.ctx 0) ((s.ctx 0).group 0) 0) (tokenAt s 2) ((s.ctx 0).group 0) = some 5 := by
  have g : ((groupAt (twoMembers st [11, 12] [])).ctx 0).group 0 = twoMembers st [11, 12] [] := rfl
  simp only [tokenReason, tokenAt, g]
  simp [ownToken, twoMembers]
/-! ## Registers, rings, the management bus -/

theorem witness_ResetControlNoEffect :
    GlobalOpen State.reset 0 ∧ fieldOf (0 : U64).toNat 31 28 = 0 ∧ 6 ≤ fieldOf (0x60000000 : U64).toNat 31 28 ∧
      fieldOf (0x1C000000 : U64).toNat 27 26 = 3 ∧ (fieldOf (0x10000020 : U64).toNat 31 28 = 1 ∧ 32 ≤ fieldOf (0x10000020 : U64).toNat 15 0) ∧
      (fieldOf (0x20000200 : U64).toNat 31 28 = 2 ∧ fieldOf (0x20000200 : U64).toNat 27 26 = 0 ∧ 512 ≤ fieldOf (0x20000200 : U64).toNat 15 0) ∧
      (fieldOf (0x24000010 : U64).toNat 31 28 = 2 ∧ fieldOf (0x24000010 : U64).toNat 27 26 ≠ 0 ∧ 16 ≤ fieldOf (0x24000010 : U64).toNat 15 0) ∧
      (fieldOf (0x30000004 : U64).toNat 31 28 = 3 ∧ 4 ≤ fieldOf (0x30000004 : U64).toNat 15 0) ∧
      (fieldOf (0x30000003 : U64).toNat 31 28 = 3 ∧ ∀ c, (State.reset.ctx c).assigned = true →
        (State.reset.ctx c).qmask.getLsbD (fieldOf (0x30000003 : U64).toNat 15 0) = false) := ⟨⟨rfl, rfl, rfl⟩, by decide +kernel⟩

theorem witness_RegisterAccess :
    WindowOpen State.reset 0 31 ∧ GlobalOpen State.reset 0 ∧ BlockOpen State.reset 0 ∧ (0xFFFC < 0x10000 ∧ 0xFFFC ≠ 0x70 ∧ 0x1EFFFC < 0x1F0000) ∧
      (0x50014 % 4 = 0 ∧ 0x50014 ≠ 0x50018) ∧
      (let s := State.reset.setFunc 0 { latches := [(4, 9)] }
       hostUp s = true ∧ fnExists s 0 = true ∧ assocGet 4 (s.func 0).latches = some 9) ∧
      (WindowOpen (groupAt (twoMembers .formed [11, 12] [])) 0 0 ∧ (((groupAt (twoMembers .formed [11, 12] [])).ctx 0).group 0).held = true) ∧
      RequestOpen State.reset 0 ∧ (8 ≠ 4 ∧ 0x50010 + 8 ≤ 0x50018 ∧ 0x50018 < 0x50019) ∧
      (State.reset.setFunc 0 { msixPending := true } |>.func 0).msixPending = true ∧
      assocGet 0x200008 (State.reset.func 0).latches = none ∧ (∃ v, regFor State.reset (.fn 0) 0x200008 = some (.r64 v)) ∧
      ∀ v, regFor State.reset (.fn 0) 0 ≠ some (.r64 v) :=
  ⟨⟨rfl, rfl, rfl, rfl⟩, ⟨rfl, rfl, rfl⟩, ⟨rfl, rfl, rfl⟩, by decide, by decide, ⟨rfl, rfl, rfl⟩,
    ⟨⟨rfl, rfl, rfl, rfl⟩, rfl⟩, ⟨rfl, rfl⟩, by decide, rfl, rfl, ⟨0, by decide +kernel⟩, fun _ => nofun⟩

theorem witness_EventRing :
    BlockOpen State.reset 0 ∧ 6 ≤ (6 : BitVec 5).toNat ∧ (16 : BitVec 5).toNat ≤ 16 ∧
      ((State.reset.func 0).tail - (-64 : U32)).toNat ≤ 2 ^ (State.reset.func 0).log2.toNat ∧
      2 ^ (State.reset.func 0).log2.toNat < ((State.reset.func 0).tail - (-65 : U32)).toNat ∧
      (let f : Func := { en := true, tail := 63 }
       f.en = true ∧ (f.tail - f.head).toNat < 2 ^ f.log2.toNat) ∧
      (let f : Func := { en := true, tail := 64 }
       2 ^ f.log2.toNat ≤ (f.tail - f.head).toNat ∧ f.held.length < 256) ∧
      (let f : Func := { en := true, held := [⟨0, false, [], 0⟩] }
       f.held = [⟨0, false, [], 0⟩] ∧ f.lost = 0 ∧ f.en = true ∧ (f.tail - f.head).toNat < 2 ^ f.log2.toNat) ∧
      256 ≤ ({ held := List.replicate 256 ⟨0, false, [], 0⟩ } : Func).held.length :=
  ⟨⟨rfl, rfl, rfl⟩, by decide, by decide, by decide +kernel, by decide +kernel, by decide, by decide, by decide, by decide +kernel⟩

theorem witness_ManagementBus :
    State.reset.pwr.aoOn = true ∧ State.reset.mgt.daValid = false ∧
      (let s : State := { State.reset with mgt := { State.reset.mgt with daValid := true } }
       s.mgt.daValid = true ∧ s.mgt.latch = none ∧ s.mgt.readPtr.toNat + 8 ≤ 0x50018) ∧
      (let m : Mgt := { latch := some (0x5001C, 9), readPtr := 0x5001C }
       m.latch = some (m.readPtr.toNat, 9) ∧ 0x50018 < m.readPtr.toNat) ∧
      ([1] : List Byte) ≠ [] ∧ ([1] : List Byte).length ≠ 4 ∧ ([1] : List Byte).length ≠ 8 ∧
      (0x40002 : BitVec 24).toNat % (List.replicate 4 (0 : Byte)).length ≠ 0 ∧
      ¬ (0x40000 ≤ (0x3FFFC : BitVec 24).toNat ∧ (0x3FFFC : BitVec 24).toNat < 0x50000) ∧
      ¬ (0x60000 ≤ (0x70000 : BitVec 24).toNat ∧ (0x70000 : BitVec 24).toNat < 0x70000) := by decide +kernel

/-! ## Security -/

/-- A 3072-bit modulus, and the signatures under its private key of the two tokens below. -/
def testModulus : Nat := 0xD15A965A0CA057A0D5C8188B84899A1C1D6DB793B7DF67637A6179355A8034AF2CFD695D475DCAA8CDA0F4460B6ED56E069B8DD81E235A536C0A59A94B70233EF5FA43D0444F035F5507EED47160450F50F2EC4611CDC54B5294F5445A6489B882AD8F57839FE7535B883010816095903F963EBD3EF9ED496B6DB5D2D715C32DBDCA6B90AD1A55E06CD16384DE96CA4236289169CA26718C47BFB927EDB43B44DCEA61CA4E92E4C30FD2B4ED5B4A2389A79B4402036C74D326EBC5C5AF137439480581AB268159524F10AF27A3593D1BDB9E1556A3EE09D18C4DE65B5A6E1CF0B3EB38E17D9841CB0DA4B9F8A0A0A07A1D4CC856CADCC74C78EEDD0F4A8BEAF8552ED2CA2BEB0B95C7FDDD7B4CACFCFE4E1D0D4FA3C831528D6789440AD3163E4B862DB6DDD9DE94FEE64AD67570618F71232AEE4F6E5BE20B52EA6CFD3A4B39C5981D99D01655ABA27CA812B88DA98E49FCE00EC0EF0C691DE8756743ACADA3AACC944CAD0EC30669CB6BB9EB0DD9A98C93442A21A1CFA38E34B692ADC7ADCF
def rmaSignature : Nat := 0x6F249846B18BCABCEADF0C452A8E64E18F573A4632B1C690A6BF222D204A656BED08C217F061D6163F491D89917EF2E833065BFF5FDD041267A75F060FBB7B2D82A59EC82C5C2C5D45E6525D2F8C0F5CA260B5E21D6A68B7F36555A8CB701BF3112FD11D07C323BAE6EB193A6068D62C6F02460D7990EA7182AD4ABBBF5985C62E38D0467E44C48E906830563A21A731A6324E88744FC4E8AB9FF36F00D4565936632FFADDCD07A06D51F1527C11C8FCCA5813BB2CF5DCCBC2B247ABC08C4C7CB8A00C43CBC587921905AF1E2D9EFEFFDDC9EA9F6AF3FE65A02DA43A6F59DE18D3BB93D6B975D575EF0F6A5AB73BFCB45AC3FCB08628507B622EFA63E7D4C0CD941707825207C79F5B4746899AFD770CD9C2EF8D028009B691F4505DDE2E72ADF70300FA48A719F08B18735E8DD11B2DC6B4CC791E9402CEB70D86CA2BF005FCCDCE277CB6D29534A7ABDD534B93F74ED62408E5D1A33A81464CBA11547AE4822FF6FD3E3E4C3E5744A6281C78AF30C3DA87B36A5D0D495FDFCD86126195C2A5
def debugSignature : Nat := 0xE29A19C27F399D93D3027CC5CF97BE233F1310733D15ECB8E77026608AF2FDC53FB54E22A38D2CE79998114B32795CB6226B4CE3D44188B1F16318BB6B429DA5073AC6B172E65FC40F16EDF74DE493AADDB6352EDFEF862F6C2952FD7EBA9EC8F2F2A5FCC03453192643AECD91BD296A200A21BDE05D5E9AC15C57F981D946E39D341BCF52233AE1C3E9126CCAB38A62C7581A16EBA2979FF19B96EE9208E02416275677EE39B50003CE635132A2672DF1C71BDFAF537477CF175151024FF8E2C9A251056B8C47E414538D13A1C57D3DA1CB713A036FB38BC87AA147D6B7A60FA319A2E12DA3BF4A3E66EDA914BB191886D8AB28F323A921C358634D32988941FFFF80AFBC66499F94117E67569DD4763C9CC86EB2341375F7C258C2BCDF79121283060D018A40159E38FFC04A5ED89C706DDD5333BA5B712DF38633F0BFFCE0A4ECFB65AF502C5C6F8E93280F5BDB84CDB02AE4B9A15B08E8B4B864B6FC4FED78280A3D89DD2D606333DA67BC592500820F8AA1822C75DD308BBC9300CB44F

def beBytes (n v : Nat) : List Byte := (leBytes n v).reverse

/-- A debug token of device 1 and nonce 5 for the state `target` (R432, R438). -/
def tokenImage (target signature : Nat) : List Byte :=
  leBytes 4 0x4D494843 ++ List.replicate 8 0 ++ leBytes 4 24 ++ List.replicate 48 0 ++ beBytes 0x180 testModulus ++ beBytes 0x180 signature ++
    leBytes 8 1 ++ leBytes 8 target ++ leBytes 8 5

/-- Device 1 with that key in slot 0, nonce 5 read, and a token in host memory. -/
def tokenIn (token : List Byte) : State :=
  { State.reset with
    glb := { State.reset.glb with uid := 1 }
    sec := { State.reset.sec with
      svn := 0
      keyRevoke := 0
      svnBound := 0
      revokeBound := 0
      lastNonce := some 5
      debugState := 0
      rootKeys := Vector.replicate 4 (beBytes 32 0x3D04909D210E6B09C8593677CDDA8D17E0F584BF137C4DFBF66C0BE7C8B6A5A1) }
    hostMem := memWrite [] 0 token }

/-- The token as the security unit reads it. -/
def tokenRead (s : State) : List Byte := memRead s.hostMem 0 (0x340 + natAt (memRead s.hostMem 0 16) 0xC 4 % 2 ^ 25)

theorem witness_Security_tokens :
    GlobalOpen (tokenIn []) 0 ∧
      (let s := tokenIn (tokenImage 2 rmaSignature)
       tokenTarget s.sec s.glb.uid (tokenRead s) = some 2) ∧
      (let s := tokenIn (tokenImage 1 debugSignature)
       tokenTarget s.sec s.glb.uid (tokenRead s) = some 1) ∧
      (let s := tokenIn (tokenImage 2 debugSignature)
       tokenTarget s.sec s.glb.uid (tokenRead s) = none) :=
  ⟨⟨rfl, rfl, rfl⟩, by decide +kernel, by decide +kernel, by decide +kernel⟩

/-- Context 0 with a report asked for, at the head of the queue. -/
def reporting (debug : BitVec 2) : State :=
  { on0 (mapped { attestStatus := .pending }) with sec := { State.reset.sec with queue := [0], debugState := debug } }

theorem witness_Security :
    (WindowOpen State.reset 0 0 ∧ (State.reset.ctx 0).attestStatus ≠ .pending ∧ ((reporting 0).ctx 0).attestStatus = .pending) ∧
    (mayWork (reporting 2) = true ∧ (reporting 2).sec.queue.head? = some 0 ∧ ((reporting 2).ctx 0).busy = false ∧ (reporting 2).sec.debugState = 2) ∧
    ((reporting 0).sec.debugState ≠ 2 ∧ ∃ n t, fetchVa 0 reqAttest false ⟨((reporting 0).ctx 0).attestVa.toNat * 64, 32⟩ (reporting 0) = (some n, t) ∧
      let body := reportBody 0 (t.ctx 0) t.sec t.glb.uid n.1
      ∃ u, putVa 0 reqAttest false ((t.ctx 0).attestVa.toNat * 64) (body ++ identitySignature t.sec body) t = (true, u)) ∧
    (let k : Sec := { svn := 63, fwSvn := 63 }
     k.svn.toNat ≤ k.fwSvn.toNat ∧ k.fwSvn.toNat ≤ 63) ∧
    (let k : Sec := { svn := 63, fwSvn := 62 }
     k.fwSvn.toNat < k.svn.toNat) ∧ 63 < ({ fwSvn := 64 } : Sec).fwSvn.toNat :=
  ⟨⟨⟨rfl, rfl, rfl, rfl⟩, by decide, rfl⟩, by decide, ⟨by decide, of_some _ _ ⟨(List.replicate 32 0, false), by decide +kernel, of_true (by decide +kernel)⟩⟩,
    by decide, by decide, by decide⟩

/-! ## Power and upkeep -/

theorem witness_Power :
    (let s : State := { State.reset with pwr := { State.reset.pwr with pgood := false } }
     s.pwr.aoOn = true ∧ s.pwr.pgood = false) ∧
    (⟨0, true⟩ : EdgePins).forceLow = true ∧ (⟨7, false⟩ : EdgePins).forceLow = false ∧ (29999 < 30000 ∧ 50000 ≤ 50000 ∧ 49999 < 50000 ∧ 30000 ≤ 30000) ∧
    (35999 < 36000 ∧ 20 ≤ 20 ∧ 48000 < 48001 ∧ 36000 ≤ 37999 ∧ 37999 < 38000 ∧ 46000 < 46001 ∧ 100 ≤ 100) ∧
    ((State.reset.func 0).en = false ∧ State.reset.mgt.alert.getLsbD alertSupply = false) ∧
    (State.reset.pwr.mainOn = true ∧ 6 ≤ State.reset.pwr.bootEvent ∧
      ∀ n, n < 40 → (List.replicate 40 (16 * 105 - 1 : Int)).getD n 0 < 16 * State.reset.pwr.alertT.toNat ∧
        (List.replicate 40 (16 * 105 - 1 : Int)).getD n 0 < 16 * 115) ∧
    (let p : Pwr := { overCrit := true :: List.replicate 39 false }
     ∃ n, n < 40 ∧ 16 * 115 ≤ ([16 * 115] : List Int).getD n 0 ∧ p.overCrit[n]? = some true) :=
  ⟨by decide, by decide, by decide, by decide, by decide, by decide, by decide +kernel, 0, by decide⟩

theorem witness_Upkeep :
    (State.reset.pwr.mainOn = true ∧ 6 ≤ State.reset.pwr.bootEvent ∧ State.reset.glb.chipBusy = false ∧ 2 ^ 31 - 1 < 2 ^ 31) ∧
    (let m := oneStation kSTORE [] []
     let s := onBench
     stationsRun s 0 = true ∧ (s.ctx 0).active = some m ∧ 0 < (s.ctx 0).stns.length ∧ (s.ctx 0).atBoundary m 0 = true ∧
      m.stations[0]? = some ⟨kSTORE, 0, 0, 0, 0xFFFF, []⟩ ∧ 0 ∉ idleSet (s.ctx 0) m ∧ stopped (s.ctx 0) (reqStation 0) = false ∧
      usable s.glb (s.ctx 0).qmask ((s.ctx 0).bound m 0) 127 = true ∧ (127 : BenchId).val ≠ ((s.ctx 0).stn 0).bench ∧
      (s.ctx 0).live.cutWeights ≠ 0) ∧
    (let s : State := { onBench with glb := { onBench.glb with benchFenced := (Vector.replicate 16 0).set 0 8 } }
     usable s.glb (s.ctx 0).qmask ((s.ctx 0).bound (oneStation kSTORE [] []) 0) ((s.ctx 0).stn 0).bench = false ∧
      usable s.glb (s.ctx 0).qmask ((s.ctx 0).bound (oneStation kSTORE [] []) 0) 0 = true) ∧
    (let s : State := { onBench with glb := { onBench.glb with benchFenced := Vector.replicate 16 0xFFFFFFFF } }
     ∀ b, b < 513 → usable s.glb (s.ctx 0).qmask ((s.ctx 0).bound (oneStation kSTORE [] []) 0) b = false) ∧
    (State.reset.pwr.gateIdle ≠ 0 ∧ benchEmpty onBench 4 = true ∧ benchEmpty onBench 3 = false) := by decide +kernel
/-! ## Stations -/

/-- A tensor of format `f` and structure `sparse` over extents `e`, packed from address `va`. -/
def ten (f sparse : Nat) (e : List Nat) (va : Nat) : TensorRec :=
  { tensorId := 7, format := f, rank := 2, role := 1, sparse := sparse, modes := 0, seqShard := 0, mask := 0, valueVa := va, scaleVa := 0x8000
    extent := e, stride := [1, e.getD 0 1, 0, 0] }

/-- An image whose station 0 is of kind `k`, fed by the streams `ss` from the FETCH that is station 1. -/
def work (k tensor2 : Nat) (o : List Byte) (ts : List TensorRec) (ss : List StreamRec) : Image :=
  { generation := 1, qmask := 1, hash := List.replicate 32 0, tensors := ts, streams := ss, masks := [⟨0x4000, 0x6000, 1, 1, 0⟩]
    stations := [⟨k, 0, 0, 0, tensor2, o⟩, ⟨kFETCH, 0, 0, 0, noneIx, []⟩] }

/-- A stream from port `a` of the FETCH to port `p` of station 0. -/
def feed (a p f : Nat) : StreamRec := ⟨1, a, p, 0, 2, f⟩

/-- A stream from port `a` of station 0 to the FETCH: it fills the port. -/
def drain (a f : Nat) : StreamRec := ⟨0, a, 0, 1, 2, f⟩

/-- The context that runs `m` with the tiles `q` in its streams, over its first two pages or over none. -/
def running (m : Image) (q : List (List Tile)) (tlb : Bool) (n : StnState) : Ctx :=
  { stepping m with
    streams := q, stns := [n, {}], masks := [{}]
    mmu := { tlb := if tlb then [⟨0, 0, true, false⟩, ⟨1, 1, true, false⟩] else [] } }

/-- A tile of zeros of format `f` at column tile `tc`. -/
def tileOf (f tc : Nat) : Tile := { xy := ⟨0, tc, 0, 0⟩, payload := .val f (List.replicate 1024 0) [] [] [] }

/-- Station 0 of the context acts. -/
def actsB (x : Ctx) (k : Nat) : Bool :=
  let s := on0 x
  match (s.ctx 0).active with
  | some m =>
    (match m.stations[0]? with
      | some st => stationsRun s 0 && st.kind == k && decide (((s.ctx 0).stn 0).bench < 512) && !(idleSet (s.ctx 0) m).contains 0 &&
          !stopped (s.ctx 0) (reqStation 0) && (s.ctx 0).maySit s.glb m 0
      | none => false)
  | none => false

theorem acts {x : Ctx} {k : Nat} (h : actsB x k = true) :
    ∃ m st, x.active = some m ∧ m.stations[0]? = some st ∧ Acting (on0 x) 0 0 k m st := by
  have e : (on0 x).ctx 0 = x := rfl
  simp only [actsB, e] at h
  split at h
  · rename_i m hm
    split at h
    · rename_i st hs
      simp only [Bool.and_eq_true, decide_eq_true_eq, beq_iff_eq, Bool.not_eq_true', List.contains_eq_mem, decide_eq_false_iff_not] at h
      exact ⟨m, st, hm, hs, h.1.1.1.1.1, hm, hs, h.1.1.1.1.2, h.1.1.1.2, h.1.1.2, h.1.2, h.2⟩
    · cases h
  · cases h

/-! ### FETCH and STORE -/

def fp : TensorRec := ten fFP32 0 [1, 1, 1, 1] 0
def t24 : TensorRec := ten fFP32 1 [64, 32, 1, 1] 0
def accT : TensorRec := ten fACC128 0 [1, 1, 1, 1] 0
def ixT : TensorRec := { ten fINT32 0 [1, 1, 1, 1] 0x100 with rank := 1 }

theorem witness_FetchAndStore_fetch :
    (∀ t ∈ [fp, t24, accT], ∀ b, actsB (running (work kFETCH noneIx [] [t] []) [] b {}) kFETCH = true) ∧
    (allUpdates (running (work kFETCH noneIx [] [fp] []) [] true {}) (work kFETCH noneIx [] [fp] [])).length ≤ 0 ∧
    (running (work kFETCH noneIx [] [fp] []) [] true { fin := true }).stns.head?.map (·.fin) = some true ∧
    (let m := work kFETCH noneIx [] [fp] [drain 0 fFP32]
     actsB (running m [[tileOf fFP32 0, tileOf fFP32 0]] true {}) kFETCH = true ∧ fetchRoom (running m [[tileOf fFP32 0, tileOf fFP32 0]] true {}) m 0 = false ∧
      fetchRoom (running m [[tileOf fFP32 0]] true {}) m 0 = true) ∧
    (let m := work kFETCH noneIx [] [t24] []
     let x := running m [] false {}
     t24.sparse ≠ 0 ∧ m.masks[t24.mask]? = some ⟨0x4000, 0x6000, 1, 1, 0⟩ ∧
      (access 0 (reqStation 0) false false (metaSpans x (sparseDim t24 ⟨0x4000, 0x6000, 1, 1, 0⟩) ⟨0x4000, 0x6000, 1, 1, 0⟩ t24.mask) (on0 x)).1.isNone = true) ∧
    (let m := work kFETCH noneIx [] [fp] []
     (gridTiles (viewExtents m (m.station 0) fp) 0)[1]? = none ∧ (gridTiles (viewExtents m (m.station 0) fp) 0)[0]? = some ⟨0, 0, 0, 0⟩) ∧
    (let m := work kFETCH 1 [0, 0, 1] [fp, ixT] []
     actsB (running m [] false {}) kFETCH = true ∧ (gridTiles (viewExtents m (m.station 0) fp) 0)[0]? = some ⟨0, 0, 0, 0⟩ ∧
      (access 0 (reqStation 0) false false (indexSpans ixT) (on0 (running m [] false {}))).1.isNone = true ∧
      (access 0 (reqStation 0) false false (indexSpans ixT) (on0 (running m [] true {}))).1.isSome = true) ∧
    (let m := work kFETCH noneIx [] [fp] []
     let sp := (viewOf (running m [] false {}) m (m.station 0) fp []).spans ⟨0, 0, 0, 0⟩
     (access 0 (reqStation 0) false false sp (on0 (running m [] false {}))).1.isNone = true ∧
      (access 0 (reqStation 0) false false sp (on0 (running m [] true {}))).1.isSome = true) := by decide +kernel

theorem witness_FetchAndStore_store :
    (∀ t ∈ [fp, t24, accT], ∀ b, actsB (running (work kSTORE noneIx [] [t] [feed 0 0 t.format]) [[tileOf t.format 0]] b {}) kSTORE = true) ∧
    (let m := work kSTORE noneIx [] [fp] [feed 0 0 fFP32]
     let x := running m [[tileOf fFP32 0]] true {}
     waitingOn x m 0 2 = 0 ∧ x.peek m 0 0 = some (tileOf fFP32 0) ∧ scaleWaiting x m 0 (tileOf fFP32 0) = true ∧ fp.sparse = 0 ∧
      inGrid (viewExtents m (m.station 0) fp) ⟨0, 0, 0, 0⟩ = true ∧ inGrid (viewExtents m (m.station 0) fp) ⟨0, 1, 0, 0⟩ = false ∧
      (running m [[tileOf fFP32 1]] true {}).peek m 0 0 = some (tileOf fFP32 1) ∧ (running m [[]] true {}).peek m 0 0 = none) ∧
    (let m := work kSTORE noneIx [] [t24] [feed 0 0 fFP32, feed 2 2 fINT8]
     let n : StnState := { stageB := [⟨⟨0, 0, 0, 0⟩, .band ⟨0, 1, [], 0, 0, none, 0, 0⟩, [], 0, [], [], [], []⟩] }
     let x := running m [[tileOf fFP32 0], []] true n
     waitingOn x m 0 2 = 0 ∧ x.peek m 0 0 = some (tileOf fFP32 0) ∧ t24.sparse ≠ 0 ∧ (stagedMetas (x.stn 0)).any (fun b => b.band == 0) = true) ∧
    (let m := work kSTORE 1 [0, 0, 1] [fp, ixT] [feed 0 0 fFP32]
     actsB (running m [[tileOf fFP32 0]] false {}) kSTORE = true ∧
      (access 0 (reqStation 0) false false (indexSpans ixT) (on0 (running m [[tileOf fFP32 0]] false {}))).1.isNone = true) ∧
    (let m := work kSTORE noneIx [] [fp] [feed 0 0 fFP32]
     let sp := (viewOf (running m [] false {}) m (m.station 0) fp []).spans ⟨0, 0, 0, 0⟩
     (access 0 (reqStation 0) false true sp (on0 (running m [[tileOf fFP32 0]] false {}))).1.isNone = true ∧
      (access 0 (reqStation 0) false true sp (on0 (running m [[tileOf fFP32 0]] true {}))).1.isSome = true ∧
      (takeScaled 0 m 0 0 (on0 (running m [[tileOf fFP32 0]] true {}))).1.isSome = true ∧
      ((m.station 0).o 1 1 == 1) = false) ∧
    (let m := work kSTORE noneIx [0, 1] [ten fINT32 0 [1, 1, 1, 1] 0] [feed 0 0 fINT32]
     actsB (running m [[tileOf fINT32 0]] true {}) kSTORE = true ∧ ((m.station 0).o 1 1 == 1) = true ∧
      (takeScaled 0 m 0 0 (on0 (running m [[tileOf fINT32 0]] true {}))).1.isSome = true) := by decide +kernel

/-! ### CONVERT and SPREAD -/

theorem witness_ConvertAndSpread_convert :
    (let m := work kCONVERT noneIx [9] [fp] [feed 0 0 fFP32]
     let x := running m [[tileOf fFP32 0]] true {}
     actsB x kCONVERT = true ∧ x.room m 0 0 = true ∧ x.room m 0 1 = true ∧ isSite (m.station 0) = false ∧
      (takeScaled 0 m 0 0 (on0 x)).1.isSome = true ∧ (takeScaled 0 m 0 0 (on0 (running m [[]] true {}))).1.isNone = true) ∧
    (let m := work kCONVERT noneIx [9] [fp] [feed 0 0 fFP32, drain 0 fBF16]
     let x := running m [[], [tileOf fBF16 0, tileOf fBF16 0]] true {}
     actsB x kCONVERT = true ∧ x.room m 0 0 = false) ∧
    (let m := work kCONVERT noneIx [1, 0, 0, 1] [ten fFP32 0 [64, 1, 1, 1] 0] [feed 0 0 fFP32]
     let at0 (q : List (List Tile)) (fin : Bool) : Ctx :=
       { running m q true {} with stns := [{}, { fin := fin }] }
     let held (q : List (List Tile)) : List Tile := (((stageHeld 0 m 0 (on0 (at0 q false))).ctx 0).stn 0).held
     actsB (at0 [[tileOf fFP32 0]] false) kCONVERT = true ∧ isSite (m.station 0) = true ∧ lowestTile (stationExt m (m.station 0)) (held [[]]) = none ∧
      lowestTile (stationExt m (m.station 0)) (held [[tileOf fFP32 0]]) = some (tileOf fFP32 0).coded ∧
      lowestTile (stationExt m (m.station 0)) (held [[tileOf fFP32 1]]) = some (tileOf fFP32 1).coded ∧
      tileOrdinal (stationExt m (m.station 0)) ⟨0, 0, 0, 0⟩ ≤ 0 ∧ 0 < tileOrdinal (stationExt m (m.station 0)) ⟨0, 1, 0, 0⟩ ∧
      portEnded ((stageHeld 0 m 0 (on0 (at0 [[tileOf fFP32 1]] false))).ctx 0) m 0 0 = false ∧
      portEnded ((stageHeld 0 m 0 (on0 (at0 [[tileOf fFP32 1]] true))).ctx 0) m 0 0 = true) := by decide +kernel

/-- A META tile of the only band of a tensor. -/
def metaTile : Tile := { xy := ⟨0, 0, 0, 0⟩, payload := .band ⟨0, 1, List.replicate 32 [], 0, 0, none, 0, 0⟩ }

/-- A row-set tile of band `tc`. -/
def rowTile (tc : Nat) : Tile := { xy := ⟨0, tc, 0, 0⟩, payload := .rows 0xFFFFFFFF }

theorem witness_ConvertAndSpread_spread :
    (let m := work kSPREAD noneIx [] [ten fFP32 0 [1, 1, 1, 1] 0] [feed 0 0 fFP32, feed 2 2 fINT8]
     let after (q : List (List Tile)) : State :=
       let s := on0 (running m q true {})
       let a := takeMetas 0 m 0 false (waitingOn (s.ctx 0) m 0 2) s
       takeRowSets 0 m 0 (waitingOn (a.ctx 0) m 0 3) a
     actsB (running m [[tileOf fFP32 0], [metaTile]] true {}) kSPREAD = true ∧ ((after [[], [metaTile]]).ctx 0).peek m 0 0 = none ∧
      ((after [[tileOf fFP32 0], []]).ctx 0).peek m 0 0 = some (tileOf fFP32 0) ∧ stagedMetas (((after [[tileOf fFP32 0], []]).ctx 0).stn 0) = [] ∧
      portEnded ((after [[tileOf fFP32 0], []]).ctx 0) m 0 2 = false ∧
      (let u := after [[tileOf fFP32 0], [metaTile]]
       (u.ctx 0).peek m 0 0 = some (tileOf fFP32 0) ∧ (stagedMetas ((u.ctx 0).stn 0)).map (·.bands) = [1] ∧ m.fed 0 3 = false ∧
        (u.ctx 0).room m 0 0 = true ∧ (u.ctx 0).room m 0 1 = true ∧ (takeScaled 0 m 0 0 u).1.isSome = true)) ∧
    (let m := work kSPREAD noneIx [] [ten fFP32 0 [1, 33, 1, 1] 0] [feed 0 0 fFP32, feed 2 2 fINT8, feed 0 3 fINT8]
     let after (q : List (List Tile)) : State :=
       let s := on0 (running m q true {})
       let a := takeMetas 0 m 0 false (waitingOn (s.ctx 0) m 0 2) s
       takeRowSets 0 m 0 (waitingOn (a.ctx 0) m 0 3) a
     let u := after [[tileOf fFP32 0], [metaTile], [rowTile 0]]
     let v := after [[tileOf fFP32 0], [metaTile], [rowTile 0, rowTile 1]]
     actsB (running m [[tileOf fFP32 0], [metaTile], [rowTile 0]] true {}) kSPREAD = true ∧ m.fed 0 3 = true ∧ predBands m 0 = 2 ∧
      (stagedRows ((u.ctx 0).stn 0) 0).length = 1 ∧ portEnded (u.ctx 0) m 0 3 = false ∧ (stagedRows ((v.ctx 0).stn 0) 0).length = 2) := by
  decide +kernel
/-! ### MATMUL -/

/-- A dense W of two block columns, and one that is frozen whole. -/
def wide : TensorRec := ten fBF16 0 [64, 32, 1, 1] 0
def frozenW : TensorRec := { ten fBF16 0 [32, 32, 1, 1] 0 with modes := 8 }

/-- A MATMUL with W = `w` and the options `o`, both operands fed. -/
def matmul (w : TensorRec) (o : List Byte) : Image := work kMATMUL 0 o [w] [feed 0 0 fBF16, feed 0 2 fBF16]

/-- The step with the operand tiles of the block columns `l` staged and stationary tile `cur` loaded. -/
def staged (w : TensorRec) (o : List Byte) (l : List Nat) (cur : Option StatTile) (segs : List SegBuf) : Ctx :=
  running (matmul w o) [[], []] true { stageA := l.map (tileOf fBF16), stageB := l.map (tileOf fBF16), cur := cur, segs := segs }

def outTile : TileXY := ⟨0, 0, 0, 0⟩

/-- The segment that opens at the first pass of two, at 2^k blocks a segment. -/
def openSeg (k : Nat) : SegBuf := emptySeg outTile 0 k 2 false

theorem witness_MatrixUnit_access :
    (let m := matmul t24 []
     let x : Ctx := { running m [[], []] false {} with stns := [{}, {}] }
     let sp := matSpans x m 0 (m.station 0) (matInfoPure x m 0)
     actsB x kMATMUL = true ∧ stopped ((stageOperands 0 m 0 (on0 x)).ctx 0) (reqStation 0) = false ∧ sp.1 ≠ [] ∧
      (access 0 (reqStation 0) false false (sp.1 ++ sp.2) (stageOperands 0 m 0 (on0 x))).1.isNone = true ∧
      m.masks[t24.mask]? = some ⟨0x4000, 0x6000, 1, 1, 0⟩ ∧
      (access 0 (reqStation 0) false false (sp.1 ++ sp.2) (stageOperands 0 m 0 (on0 (running m [[], []] true {})))).1.isSome = true) ∧
    (let m := matmul wide []
     let x := staged wide [] [0, 1] none []
     let sp := matSpans ((stageOperands 0 m 0 (on0 x)).ctx 0) m 0 (m.station 0) (matInfoPure ((stageOperands 0 m 0 (on0 x)).ctx 0) m 0)
     actsB x kMATMUL = true ∧ stopped ((stageOperands 0 m 0 (on0 x)).ctx 0) (reqStation 0) = false ∧ sp.1 = [] ∧ sp.2 = [] ∧
      (access 0 (reqStation 0) false false sp.2 (stageOperands 0 m 0 (on0 x))).1.isSome = true) := by decide +kernel

theorem witness_MatrixUnit_waits :
    (let m := matmul wide []
     let x := (stageOperands 0 m 0 (on0 (staged wide [] [0] none []))).ctx 0
     let q := matInfoPure x m 0
     (matGrid q (x.stn 0)).contains outTile = true ∧ matReady x m 0 q outTile = false ∧ (matGrid q (x.stn 0)).contains ⟨1, 0, 0, 0⟩ = false ∧
      ({ x.stn 0 with emitted := [outTile] } : StnState).emitted.contains outTile = true) ∧
    (let m := matmul frozenW [2]
     let x := (stageOperands 0 m 0 (on0 (staged frozenW [2] [0] none []))).ctx 0
     let q := matInfoPure x m 0
     actsB (staged frozenW [2] [0] none []) kMATMUL = true ∧ (x.stn 0).emitted.contains outTile = false ∧ (matGrid q (x.stn 0)).contains outTile = true ∧
      matReady x m 0 q outTile = true ∧ q.prod = 2 ∧ (dwPositions x q 0 [] outTile).all (·.isNone) = true ∧ x.room m 0 0 = true) := by decide +kernel

/-- The pass on block 0 of the open segment `segs`: the tile is in the grid and ready, and the pass is the first of `n`. -/
def passWith (w : TensorRec) (l : List Nat) (segs : List SegBuf) : Ctx × MatInfo :=
  let m := matmul w []
  let x := (stageOperands 0 m 0 (on0 (staged w [] l (some ⟨outTile, []⟩) segs))).ctx 0
  (useBands 0 false (matInfoPure x m 0).metas x, matInfoPure x m 0)

theorem witness_MatrixUnit_passes :
    (∀ p ∈ [(wide, [0, 1], [openSeg 20]), (wide, [0, 1], [openSeg 0]), (ten fBF16 0 [32, 32, 1, 1] 0, [0], [])],
      let x := (passWith p.1 p.2.1 p.2.2).1
      let q := (passWith p.1 p.2.1 p.2.2).2
      let ps := matPasses x q 0 (x.stn 0) outTile
      actsB (staged p.1 [] p.2.1 (some ⟨outTile, []⟩) p.2.2) kMATMUL = true ∧ (x.stn 0).emitted.contains outTile = false ∧
        (matGrid q (x.stn 0)).contains outTile = true ∧ matReady x (matmul p.1 []) 0 q outTile = true ∧ ps[0]? = some ⟨0, 0, 0⟩ ∧
        (switchStat (statOf q outTile ⟨0, 0, 0⟩) (x.stn 0)).isSome = true ∧ x.room (matmul p.1 []) 0 0 = true) ∧
    (let x := (passWith wide [0, 1] [openSeg 20]).1
     let ps := matPasses x (passWith wide [0, 1] [openSeg 20]).2 0 (x.stn 0) outTile
     (x.stn 0).segs.find? (fun k => k.out == outTile) = some (openSeg 20) ∧ (openSeg 20).blocksDone.contains 0 = false ∧
      (openSeg 20).blocksDone.length + 1 < ps.length ∧ (openSeg 20).inSeg + 1 < 2 ^ (openSeg 20).log2 ∧ 2 ^ (openSeg 0).log2 ≤ (openSeg 0).inSeg + 1) ∧
    (let x := (passWith (ten fBF16 0 [32, 32, 1, 1] 0) [0] []).1
     (matPasses x (passWith (ten fBF16 0 [32, 32, 1, 1] 0) [0] []).2 0 (x.stn 0) outTile).length ≤ 0 + 1) := by decide +kernel

/-- A tile of codebook indices with its codebooks. -/
def codesTile : Tile := { xy := outTile, payload := .codes (List.replicate 1024 0) (List.replicate 32 (List.replicate 16 0)) }

theorem witness_MatrixUnit_load :
    (let m := matmul wide []
     let u := stageOperands 0 m 0 (on0 (staged wide [] [0] none []))
     (m.station 0).o 0 1 ≠ 2 ∧ m.tensor (m.station 0).tensor = some wide ∧ stagedAt ((u.ctx 0).stn 0).stageB outTile = some (tileOf fBF16 0) ∧
      none ∉ tablesOf wide (tileOf fBF16 0) ∧ stagedAt ((u.ctx 0).stn 0).stageB ⟨1, 0, 0, 0⟩ = none) ∧
    (matmul wide [2]).stations.head?.map (fun st => st.o 0 1) = some 2 ∧
    none ∈ tablesOf (ten fCODEBOOK 0 [32, 31, 1, 1] 0) codesTile ∧ none ∉ tablesOf (ten fCODEBOOK 0 [32, 32, 1, 1] 0) codesTile := by decide +kernel

/-! ### ACCUM -/

/-- An ACC128 tile of one segment of `segs`, under anchor `k`. -/
def accTile (k : Int) (segs : Nat) : Tile :=
  { xy := outTile, payload := .acc k segs (List.replicate 1024 1) (List.replicate 1024 0) }

/-- A deep accumulator of `segs` segments that has received `got`. -/
def deep (segs got : Nat) : DeepAcc := ⟨outTile, 0, segs, got, List.replicate 1024 0, List.replicate 1024 0, [], []⟩

def accum (ss : List StreamRec) : Image := work kACCUM noneIx [10] [fp] (feed 0 0 fACC128 :: ss)

theorem witness_AccumulatorStations :
    (let m := accum [drain 0 fACC128]
     let x := running m [[accTile 0 1], [accTile 0 1, accTile 0 1]] true {}
     actsB x kACCUM = true ∧ x.room m 0 0 = false) ∧
    (let m := accum []
     let x := running m [[accTile 0 1]] true {}
     actsB x kACCUM = true ∧ x.room m 0 0 = true ∧ x.room m 0 1 = true ∧ (takeTile 0 m 0 0 (on0 (running m [[]] true {}))).1.isNone = true ∧
      (takeTile 0 m 0 0 (on0 x)).1.map (·.payload) = some (accTile 0 1).payload ∧ chained x m 0 = false ∧ 1 ≤ 0 + 1) ∧
    (let m := accum []
     let x := running m [[accTile 3 2]] true { accs := [deep 2 0] }
     (takeTile 0 m 0 0 (on0 x)).1.map (·.payload) = some (accTile 3 2).payload ∧
      ((x.stn 0).accs.find? (fun a => a.out == outTile && decide (a.got < a.segments))) = some (deep 2 0) ∧ (deep 2 0).got + 1 < (deep 2 0).segments ∧
      ¬ ((3 : Int) = (deep 2 0).anchor) ∧ (0 : Int) = (deep 2 0).anchor) ∧
    (let m := accum [feed 0 1 fACC128]
     let at' (chain : List Tile) (accs : List DeepAcc) (fin : Bool) : State :=
       let x : Ctx := { running m [[], []] true { accs := accs, chain := chain } with stns := [{ accs := accs, chain := chain }, { fin := fin }] }
       takeChain 0 m 0 ((m.tensor 0).map (·.extent)) (waitingOn x m 0 1) (on0 x)
     let full (a : DeepAcc) : Bool := a.out == outTile && decide (a.segments ≤ a.got)
     actsB (running m [[], []] true { accs := [deep 1 1] }) kACCUM = true ∧ (((at' [] [] false).ctx 0).stn 0).accs.find? full = none ∧
      (((at' [accTile 1 1] [deep 1 1] false).ctx 0).stn 0).accs.find? full = some (deep 1 1) ∧
      (((at' [accTile 1 1] [deep 1 1] false).ctx 0).stn 0).chain.find? (fun t => t.xy == outTile) = some (accTile 1 1) ∧
      (((at' [] [deep 1 1] false).ctx 0).stn 0).chain.find? (fun t => t.xy == outTile) = none ∧
      portEnded ((at' [] [deep 1 1] false).ctx 0) m 0 1 = false ∧ portEnded ((at' [] [deep 1 1] true).ctx 0) m 0 1 = true ∧
      ((at' [] [deep 1 1] true).ctx 0).room m 0 0 = true ∧ ((at' [] [deep 1 1] true).ctx 0).room m 0 1 = true) := by decide +kernel
/-! ### VECTOR -/

/-- A VECTOR with the options `o` on a tensor of extents `e`, its ports fed by `ss`, running the program `p`. -/
def vector (o : List Byte) (e : List Nat) (ss : List StreamRec) (p : List U64) : Image :=
  { work kVECTOR noneIx o [ten fFP32 0 e 0] ss with vcode := p }

/-- A sweep of one position with the sets given. -/
def sweepAt (next : Nat) (sets : List (Nat × List (Option Tile))) (late : List TileXY) : Sweep :=
  { newSweep outTile 1 with next := next, sets := sets, late := late }

/-- VEND. -/
def vendWord : U64 := 0xFF00000000000000
/-- VLD V0 from port 1. -/
def vldWord : U64 := 0x0100000100000000

theorem witness_VectorTiles_body :
    (let m := vector [] [1, 1, 1, 1] [feed 0 0 fFP32, drain 0 fFP32] []
     actsB (running m [[], [tileOf fFP32 0, tileOf fFP32 0]] true {}) kVECTOR = true ∧
      (running m [[], [tileOf fFP32 0, tileOf fFP32 0]] true {}).room m 0 0 = false ∧ (running m [[], []] true {}).room m 0 0 = true) ∧
    (let w := sweepAt 1 [] [outTile]
     w.processed = true ∧ w.late ≠ [] ∧ ¬ (sweepAt 0 [] []).processed = true) ∧
    (let m := vector [] [1, 1, 1, 1] [feed 0 0 fFP32] []
     let x := running m [[]] true {}
     setWaiting x m 0 (m.station 0) = false ∧ ((on0 x).ctx 0 |>.stn 0).sweeps.find? (bodyReady m (m.station 0)) = none) ∧
    (let m := vector [] [1, 1, 1, 1] [feed 0 0 fFP32] []
     let w := sweepAt 0 [(0, [some (tileOf fFP32 0), none, none])] []
     let x := running m [[]] true { sweeps := [w] }
     (x.stn 0).sweeps.find? (bodyReady m (m.station 0)) = some w ∧ w.sets.find? (fun e => e.1 == w.next) = some (0, [some (tileOf fFP32 0), none, none]) ∧
      x.room m 0 0 = true ∧ setWaiting (running m [[tileOf fFP32 0]] true {}) m 0 (m.station 0) = true) := by decide +kernel

theorem witness_VectorTiles_late :
    let m := vector [] [1, 1, 1, 1] [feed 0 0 fFP32] []
    let w := sweepAt 1 [] [outTile]
    ((running m [[]] true { sweeps := [w] }).stn 0).sweeps.find? (fun w => w.processed && !w.late.isEmpty) = some w := by decide +kernel

theorem witness_VectorTiles_final :
    let m := vector [0, 0, 0, 0, 1] [1, 1, 1, 1] [feed 0 0 fFP32] [vendWord]
    let x := running m [[]] true { sweeps := [sweepAt 1 [] []] }
    let due (w : Sweep) : Bool := w.out == outTile && w.processed && w.late.isEmpty
    actsB x kVECTOR = true ∧ x.room m 0 1 = true ∧ hasVend m (m.station 0) = true ∧ (x.stn 0).sweeps.find? due = some (sweepAt 1 [] []) ∧
      hasVend (vector [] [1, 1, 1, 1] [] []) ((vector [] [1, 1, 1, 1] [] []).station 0) = false ∧
      ((running m [[]] true {}).stn 0).sweeps.find? due = none := by decide +kernel

theorem witness_VectorTiles_mode1 :
    let o : List Byte := [0, 0, 0, 0, 1, 0, 0, 1, 0, 0, 0, 0, 1, 0]
    let m := vector o [1, 1, 1, 1] [feed 0 0 fFP32, feed 0 1 fFP32] [vldWord]
    let x (t : List Tile) : Ctx := running m [[], t] true {}
    actsB (x [tileOf fFP32 0]) kVECTOR = true ∧ portMode (m.station 0) 2 ≠ 1 ∧ portMode (m.station 0) 1 = 1 ∧
      (takeTile 0 m 0 1 (on0 (x []))).1.isNone = true ∧ (takeTile 0 m 0 1 (on0 (x [tileOf fFP32 0]))).1.map (·.xy) = some outTile ∧
      (takeTile 0 m 0 1 (on0 (x [tileOf fFP32 1]))).1.map (·.xy) = some ⟨0, 1, 0, 0⟩ ∧
      sweepInGrid (m.station 0) (vecExt m 0) outTile = true ∧ sweepInGrid (m.station 0) (vecExt m 0) ⟨0, 1, 0, 0⟩ = false ∧
      readsMode1 m (m.station 0) 1 = true ∧ readsMode1 (vector o [1, 1, 1, 1] [] []) ((vector o [1, 1, 1, 1] [] []).station 0) 1 = false := by decide +kernel

/-! ### SCRIBE -/

/-- A predictor over `n` rows of a W of 32 columns, by factors of rank 1. -/
def predictor (n : Nat) (ss : List StreamRec) : Image :=
  work kSCRIBE 1 [0, 0, 0, 0, 2] [{ ten fBF16 0 [32, n, 1, 1] 0 with modes := 1 }, ten fE2M1 0 [32, 1, 1, 1] 0x100, ten fE2M1 0 [1, n, 1, 1] 0x200]
    (feed 0 0 fBF16 :: ss)

theorem witness_ScribeStations_waits :
    (let m := predictor 32 [drain 0 fINT8]
     actsB (running m [[], [rowTile 0, rowTile 0]] true {}) kSCRIBE = true ∧ (running m [[], [rowTile 0, rowTile 0]] true {}).room m 0 0 = false ∧
      (predInfo m (m.station 0)).isSome = true) ∧
    (let m := predictor 64 []
     let u (q : List Tile) (done : List TileXY) (fin : Bool) : Ctx :=
       let x := running m [q] true { emitted := done }
       (stageHeld 0 m 0 (on0 { x with stns := [{ emitted := done }, { fin := fin }] })).ctx 0
     let q : PredInfo := (predInfo m (m.station 0)).getD ⟨fp, 0, fp, 0, fp, 0, 0⟩
     (running m [[]] true {}).room m 0 0 = true ∧ lowestDue (predDue q ((u [] [] false).stn 0)) = none ∧
      lowestDue (predDue q ((u [tileOf fBF16 0] [outTile] false).stn 0)) = some (1, ⟨0, 1, 0, 0⟩) ∧ portEnded (u [tileOf fBF16 0] [outTile] false) m 0 0 = false ∧
      portEnded (u [tileOf fBF16 0] [outTile] true) m 0 0 = true ∧ lowestDue (predDue q ((u [tileOf fBF16 0] [] false).stn 0)) = some (0, outTile)) := by
  decide +kernel

theorem witness_ScribeStations_score :
    let m := predictor 32 []
    let u (tlb : Bool) : State := stageHeld 0 m 0 (on0 (running m [[tileOf fBF16 0]] tlb {}))
    let q : PredInfo := (predInfo m (m.station 0)).getD ⟨fp, 0, fp, 0, fp, 0, 0⟩
    let x := (u true).ctx 0
    let spans := viewSpans (plainView x m q.layer q.ui q.u) (rowTiles q.u (List.range q.u.nt1)) ++
      viewSpans (plainView x m q.layer q.vi q.v) (rowTiles q.v [0])
    lowestDue (predDue q (x.stn 0)) = some (0, outTile) ∧ (access 0 (reqStation 0) false false spans (u false)).1.isNone = true ∧
      (access 0 (reqStation 0) false false spans (u true)).1.isSome = true ∧ (x.liveAt idShadowShare 0 0).toNat = 0 ∧
      ∀ r, isSampled x q.w 0 0 r = false :=
  ⟨by decide +kernel, by decide +kernel, by decide +kernel, by decide +kernel, fun _ => by simp [isSampled]⟩

/-- The edits of Scribe on a 2:4 tensor that is frozen whole. -/
def edits (op : Byte) (ss : List StreamRec) : Image := work kSCRIBE noneIx [op] [{ t24 with modes := 8 }] ss

/-- The same step as one of the prune schedule (R155). -/
def pruning (x : Ctx) : Ctx := { x with visible := { x.visible with prunePeriod := 1 } }

theorem witness_ScribeStations_edits :
    (let m := edits 2 [feed 0 0 fFP32]
     let x (q : List Tile) (b : Bool) : Ctx := pruning (running m [q] b {})
     let sp := reduceSpans (x [] true) m (m.station 0) { t24 with modes := 8 }
     actsB (x [] true) kSCRIBE = true ∧ m.masks[t24.mask]? = some ⟨0x4000, 0x6000, 1, 1, 0⟩ ∧
      (access 0 (reqStation 0) false false (sp.1 ++ sp.2) (on0 (x [] false))).1.isNone = true ∧
      (access 0 (reqStation 0) false false (sp.1 ++ sp.2) (on0 (x [] true))).1.isSome = true ∧ (takeTile 0 m 0 0 (on0 (x [] true))).1.isNone = true ∧
      (takeTile 0 m 0 0 (on0 (x [tileOf fFP32 0] true))).1.isSome = true) ∧
    (let m := edits 1 [feed 0 0 fFP32, feed 0 1 fINT8]
     let v (b : Bool) (n : StnState) : State := takePruneInputs 0 m 0 (on0 (pruning (running m [[], []] b n)))
     let sp := reduceSpans ((v true {}).ctx 0) m (m.station 0) { t24 with modes := 8 }
     actsB (pruning (running m [[], []] true {})) kSCRIBE = true ∧ (pruneInfo (running m [[], []] true {}) m 0 { t24 with modes := 8 }).isSome = true ∧
      (access 0 (reqStation 0) false false (sp.1 ++ sp.2) (v false {})).1.isNone = true ∧
      (access 0 (reqStation 0) false false (sp.1 ++ sp.2) (v true {})).1.isSome = true ∧
      ((((v true { units := [0] }).ctx 0).stn 0).units.contains 0) = true) ∧
    (let m := edits 3 [feed 0 1 fINT8]
     let x (q : List Tile) (n : StnState) : Ctx := pruning (running m [q] true n)
     actsB (x [metaTile] {}) kSCRIBE = true ∧ m.fed 0 1 = true ∧ (takeTile 0 m 0 1 (on0 (x [metaTile] {}))).1.map (·.payload) = some metaTile.payload ∧
      (takeTile 0 m 0 1 (on0 (x [] {}))).1.isNone = true ∧ ((x [] { fin := true }).stn 0).fin = true) ∧
    (let m := edits 3 []
     let d := sparseDim { t24 with modes := 8 } ⟨0x4000, 0x6000, 1, 1, 0⟩
     let sp : Span := ⟨metaVaOf d ⟨0x4000, 0x6000, 1, 1, 0⟩ 0, d.span⟩
     let x (b : Bool) : Ctx := pruning (running m [] b {})
     m.fed 0 1 = false ∧ (x true).room m 0 0 = true ∧ (access 0 (reqStation 0) false false [sp] (on0 (x false))).1.isNone = true ∧
      (access 0 (reqStation 0) false false [sp] (on0 (x true))).1.isSome = true ∧ ((bandMetas d (zeroBytes d.span) [])[0]?).isSome = true) := by decide +kernel

/-- The last unit of such a tensor, the others edited before: nothing stops the copy of its metadata. -/
theorem witness_ScribeStations_frozen :
    let w : TensorRec := { t24 with modes := 8 }
    let k : MaskRec := ⟨0x4000, 0x6000, 1, 1, 0⟩
    let m := edits 1 [feed 0 0 fFP32, feed 0 1 fINT8]
    let v := takePruneInputs 0 m 0 (on0 (pruning (running m [[], []] true { units := List.range 31 })))
    let sp := reduceSpans (v.ctx 0) m (m.station 0) w
    let r := access 0 (reqStation 0) false false (sp.1 ++ sp.2) v
    let d := sparseDim w k
    let md := readMeta (r.2.ctx 0) (r.1.getD []) r.2 d k w.mask
    let z := chargeRead 0 (r.1.getD []) (sp.1 ++ sp.2) r.2
    let copy := 1 - (z.ctx 0).maskGen w.mask % 2
    r.1.isSome = true ∧ w.mode mFRZA = true ∧ ((z.ctx 0).stn 0).units.contains 31 = false ∧ 31 < unitCount w ∧
      unitCount w ≤ ((z.ctx 0).stn 0).units.length + 1 ∧ (pruneInfo (v.ctx 0) m 0 w).map (fun q => decide (q.w = w)) = some true ∧
      (putMany 0 (reqStation 0) false ((metaVaOf d k copy, md.1) :: (if md.2.isEmpty then [] else [(metaTVaOf d k copy, md.2)])) z).1 = true := by
  decide +kernel

/-! ### REDUCE and the packets of the exchange -/

/-- A formed slot of one member, and one of three. -/
def alone : GroupSlot := { id := 9, rank := 0, sizeM1 := 0, state := .formed, members := [11] }

/-- A REDUCE of `w` in a group of one. -/
def reduceOf (w : TensorRec) (ss : List StreamRec) : Image := { work kREDUCE noneIx [] [w] ss with groups := [⟨9, 1, 0⟩] }

/-- Its step with the tile stream `q`. -/
def reducing (w : TensorRec) (q : List Tile) (tlb : Bool) (n : StnState) : Ctx :=
  { running (reduceOf w [feed 0 0 fFP32]) [q] tlb n with groups := (Vector.replicate 16 {}).set 0 alone }

theorem witness_ReduceInputs :
    (let m := reduceOf fp [feed 0 0 fFP32]
     actsB (reducing fp [] true {}) kREDUCE = true ∧ (reducing fp [] true {}).peek m 0 0 = none ∧
      (reducing fp [tileOf fFP32 0] true {}).peek m 0 0 = some (tileOf fFP32 0)) ∧
    (let m := reduceOf t24 [feed 0 0 fFP32]
     let x := reducing t24 [tileOf fFP32 0] false {}
     let sp := reduceSpans x m (m.station 0) t24
     actsB x kREDUCE = true ∧ (access 0 (reqStation 0) false false (sp.1 ++ sp.2) (on0 x)).1.isNone = true) ∧
    (let m := reduceOf fp [feed 0 0 fFP32]
     let st := m.station 0
     let x (n : StnState) : Ctx := reducing fp [tileOf fFP32 0] true n
     let sp := reduceSpans (x {}) m st fp
     let shape := shapeOf (x {}) m fp [] (on0 (x {}))
     (access 0 (reqStation 0) false false (sp.1 ++ sp.2) (on0 (x {}))).1 = some [] ∧ (x {}).wit.replaying = false ∧
      (takeTile 0 m 0 0 (openStation 0 0 m st fp shape (on0 (x {})))).1.map (·.xy) = some outTile ∧
      (((openStation 0 0 m st fp shape (on0 (x {}))).ctx 0).inst 0 (baseSubject st)).isSome = true ∧
      ((x { seen := [outTile] }).stn 0).seen.contains outTile = true ∧ ((x {}).stn 0).seen.contains outTile = false ∧
      (shape.find? (fun k => k.xy == outTile)).isSome = true) ∧
    (let m := reduceOf fp [feed 0 0 fFP32]
     let x : Ctx := { reducing fp [tileOf fFP32 0] true {} with wit := { replaying := true, mode := 2 } }
     x.wit.replaying = true ∧ x.wit.mode = 2 ∧ (m.station 0).o 0 1 ≠ 2 ∧ (takeTile 0 m 0 0 (on0 x)).1.map (·.xy) = some outTile) := by decide +kernel

theorem witness_ReduceInputs_waits :
    (let m := reduceOf fp [feed 0 0 fFP32]
     let st := m.station 0
     let x : Ctx := reducing fp [] true { held := [tileOf fFP32 0] }
     let shape := shapeOf x m fp [] (on0 x)
     actsB x kREDUCE = true ∧ x.peek m 0 0 = none ∧ (x.stn 0).held ≠ [] ∧ x.wit.replaying = false ∧
      (takeTile 0 m 0 0 (openStation 0 0 m st fp shape (on0 x))).1.isNone = true) ∧
    (let m : Image := { reduceOf fp [⟨2, 0, 0, 0, 2, fFP32⟩] with stations := (reduceOf fp []).stations ++ [⟨kACCUM, 0, 0, 0, noneIx, []⟩] }
     let x (held : List Tile) : Ctx := { running m [[]] true {} with stns := [{}, {}, { held := held }] }
     gradientDone (x [tileOf fFP32 0]) m 0 = false ∧ gradientDone (x []) m 0 = true ∧
      gradientDone (running (reduceOf fp [feed 0 0 fFP32]) [[]] true {}) (reduceOf fp [feed 0 0 fFP32]) 0 = true) := by decide +kernel

theorem witness_ReduceInputs_inst :
    let m := reduceOf fp [feed 0 0 fFP32]
    let st := m.station 0
    let x := reducing fp [tileOf fFP32 0] true {}
    let shape := denseShape fp
    let v2 := (takeTile 0 m 0 0 (openStation 0 0 m st fp shape (on0 x))).2
    let k := (shape.find? (fun k => k.xy == outTile)).getD ⟨outTile, [], []⟩
    (((takeInput 0 0 m st fp k (tileOf fFP32 0) (shapePresent (v2.ctx 0) fp 0 [] k (tileOf fFP32 0)) v2).ctx 0).inst 0 (baseSubject st)).isSome = true := by
  decide +kernel

/-- An instance of station 0 in the group of three. -/
def instAt : Inst :=
  { st := 0, groupId := 9, size := 3, rank := 1, tensorId := 7, subject := 0, coll := 0, step := 0, gen := 1, hash64 := 0, width := 0, rec64 := false
    accepted := [], shape := [], tiles := [], blocks := [], emitted := [], nan := false, complete := false, mat := [], fac := [] }

/-- The same, begun: the tiles of its gradient are all there. -/
def instBegun : Inst := { instAt with begun := true }

theorem witness_ReduceInputs_begun :
    (let m := reduceOf fp [feed 0 0 fFP32]
     let x (n : Inst) (ts : List Tile) : Ctx := { reducing fp [] true { held := ts } with insts := [n] }
     ∀ ts ∈ [[], [tileOf fFP32 0]], gradientDone (x instBegun ts) m 0 = true ∧
      (x instBegun ts).inst 0 (baseSubject (m.station 0)) = some instBegun ∧ instBegun.begun = true ∧ ((x instBegun ts).stn 0).held = ts ∧
      ((denseShape fp).find? (fun k => k.xy == (tileOf fFP32 0).xy)).isSome = true ∧ (tileOf fFP32 0).side = [] ∧
      (x instAt ts).inst 0 (baseSubject (m.station 0)) = some instAt ∧ instAt.begun = false ∧ instAt.nan = false) := by decide +kernel

/-- A packet header of rank `src` for step `step` and generation `gen`. -/
def hdrAt (src : U16) (step : U64) (gen : U32) : CollHdr :=
  ⟨0, 0, 0, src, 2, step, gen, 9, 7, 0, 1, 0, 0, 5, 0, 1⟩

/-- Context 0 in that group with the instance `n`, an image of hash 0, and `f` applied. -/
def exchanging (ns : List Inst) (f : Ctx → Ctx) : State :=
  on0 (f { running (work kREDUCE noneIx [] [fp] []) [] true {} with insts := ns, groups := (Vector.replicate 16 {}).set 0 threeMembers })

theorem witness_CollectivePackets_joins :
    (ctxLive (exchanging [instBegun] id) 0 = true) ∧ (mayWork State.reset = true ∧ groupCtx State.reset 9 1 = none) ∧
    (let s := exchanging [instAt] (fun x => { x with phase := .preempted })
     groupCtx s 9 1 = some 0 ∧ (s.ctx 0).parked = true ∧ (9, 0, 5) ∉ (s.ctx 0).seqIn) ∧
    (let s := exchanging [instBegun] (fun x => { x with seqIn := [(9, 0, 5)] })
     groupCtx s 9 1 = some 0 ∧ (s.ctx 0).parked = false ∧ ((hdrAt 0 0 1).groupId, (hdrAt 0 0 1).srcRank.toNat, (hdrAt 0 0 1).seq) ∈ (s.ctx 0).seqIn) ∧
    (let s := exchanging [instBegun] id
     let found (h : CollHdr) := (s.ctx 0).insts.find? (fun n => joinKey h n && n.begun && !n.nan)
     groupCtx s 9 1 = some 0 ∧ (s.ctx 0).parked = false ∧ (9, 0, 5) ∉ (s.ctx 0).seqIn ∧ found (hdrAt 0 0 1) = some instBegun ∧
      ((hdrAt 0 0 1).generation = instBegun.gen ∧ (hdrAt 0 0 1).hash64 = instBegun.hash64 ∧ (hdrAt 0 0 1).size.toNat + 1 = instBegun.size) ∧
      found (hdrAt 0 0 2) = some instBegun ∧ (hdrAt 0 0 2).generation ≠ instBegun.gen ∧ found (hdrAt 0 1 1) = none ∧
      (s.ctx 0).step ≤ (hdrAt 0 1 1).step ∧ (s.ctx 0).insts.find? (fun n => joinKey (hdrAt 0 0 1) n && !n.nan) = some instBegun ∧
      (s.ctx 0).active.isSome = true ∧ instBegun.accepted.contains 0 = false ∧ instBegun.partners.contains 0 = true ∧
      instBegun.partners.contains 1 = false) ∧
    (let s := exchanging [instAt] id
     (s.ctx 0).insts.find? (fun n => joinKey (hdrAt 0 0 1) n && n.begun && !n.nan) = none) ∧
    (let s := exchanging [instBegun] (fun x => { x with step := 1 })
     let h : CollHdr := { hdrAt 0 0 1 with tensorId := 8 }
     (s.ctx 0).insts.find? (fun n => joinKey h n && n.begun && !n.nan) = none ∧
      (s.ctx 0).insts.find? (fun n => joinKey h n && !n.nan) = none ∧ h.step < (s.ctx 0).step) := by
  decide +kernel

theorem witness_CollectivePackets_data :
    (let s := exchanging [instAt] id
     let x := s.ctx 0
     mayWork s = true ∧ groupCtx s 9 1 = some 0 ∧ x.parked = false ∧ x.seqIn.contains (9, 0, 5) = false ∧ packetInst x (hdrAt 0 0 1) = some instAt ∧
      x.active.isSome = true ∧ (hdrAt 0 1 1).step ≠ instAt.step ∧ packetInst x (hdrAt 0 1 1) = some instAt ∧
      ((hdrAt 0 0 1).step = instAt.step ∧ (hdrAt 0 0 1).generation = instAt.gen ∧ (hdrAt 0 0 1).hash64 = instAt.hash64) ∧
      x.pausedBy.contains (9, 0) = false ∧ (x.active.map (·.generation)) = some 1 ∧ (x.active.map hash64Of) = some 0 ∧
      (hdrAt 0 0 2).generation ≠ 1 ∧ x.step ≤ (hdrAt 0 0 1).step) ∧
    ((exchanging [] (fun x => { x with seqIn := [(9, 0, 5)] })).ctx 0).seqIn.contains (9, 0, 5) = true ∧
    ((exchanging [] (fun x => { x with pausedBy := [(9, 0)] })).ctx 0).pausedBy.contains (9, 0) = true ∧
    (hdrAt 0 0 1).step < ((exchanging [] (fun x => { x with step := 1 })).ctx 0).step ∧
    (let s := exchanging [] (fun x => { x with busy := true })
     groupCtx s 9 1 = some 0 ∧ (s.ctx 0).busy = true) ∧
    (let s := exchanging [] (fun x => { x with phase := .preempted })
     groupCtx s 9 1 = some 0 ∧ (s.ctx 0).parked = true ∧ (s.ctx 0).busy = false ∧ (s.ctx 0).active.isSome = true ∧ (s.ctx 0).step ≤ (hdrAt 0 0 1).step ∧
      (9, 0, 5) ∉ (s.ctx 0).seqIn) ∧
    ((exchanging [] id).ctx 0).wit.replicaGroup = 0xFFFFFFFF := by
  decide +kernel

/-! ### UPDATE -/

/-- An UPDATE of `w` by rule `rule`, fed by the FETCH. -/
def updater (w : TensorRec) (rule : Nat) (flags : Nat := 0) : Image :=
  { work kUPDATE noneIx [] [w] [feed 0 0 fFP32] with
    updates := [{ rule := rule, flags := flags, hpSet := 0, stateWords := 1, program := 0, length := 0, recordVa := 0x1000, statsVa := 0x2000,
                  frozenVa := 0x3000, divergeVa := 0x3400, vspan64 := 1, sspan64 := 0, bcBase := 0 }] }

def updating (w : TensorRec) (rule : Nat) (tlb : Bool) (n : StnState) : Ctx := running (updater w rule) [[]] tlb n

/-- A weight of one row of 32, frozen whole, owned, or neither. -/
def weight (modes : Nat) : TensorRec := { ten fFP32 0 [32, 1, 1, 1] 0 with modes := modes }

/-- One element of that weight, which no gradient tile holds. -/
def absent : Tile := { tileOf fFP32 0 with present := List.replicate 1024 false }

theorem witness_UpdatedBlocks :
    (∀ w ∈ [weight 0, weight 8, t24], ∀ r ∈ [0, 2], actsB (updating w r true {}) kUPDATE = true ∧ (updInfo (updating w r true {}) (updater w r) 0).isSome = true) ∧
    (weight 8).mode mFRZA = true ∧ (weight 0).mode mFRZA = false ∧
    (let x := updating t24 0 false {}
     let sp := reduceSpans x (updater t24 0) ((updater t24 0).station 0) t24
     (access 0 (reqStation 0) false false (sp.1 ++ sp.2) (takeGrads 0 (updater t24 0) 0 true 0 (on0 x))).1.isNone = true) ∧
    (let x := updating (weight 0) 0 true {}
     let sp := reduceSpans x (updater (weight 0) 0) ((updater (weight 0) 0).station 0) (weight 0)
     (access 0 (reqStation 0) false false (sp.1 ++ sp.2) (on0 x)).1.isSome = true ∧ (findBlock (denseShape (weight 0)) 1).isNone = true ∧
      (findBlock (denseShape (weight 0)) 0).map (fun g => (g.k.xy, g.row)) = some (outTile, 0) ∧ (x.stn 0).held.find? (fun t => t.xy == outTile) = none ∧
      ((updating (weight 0) 0 true { held := [tileOf fFP32 0] }).stn 0).held.find? (fun t => t.xy == outTile) = some (tileOf fFP32 0) ∧
      x.updated 0 0 = false ∧ ({ x with updates := [(0, 0, true)] } : Ctx).updated 0 0 = true) ∧
    (∀ r ∈ [0, 2], ∀ b,
      let x := updating (weight 0) r b { held := [tileOf fFP32 0] }
      let q := (updInfo x (updater (weight 0) r) 0).getD ⟨0, 0, (updater (weight 0) r).updates.headD ⟨0, 0, 0, 0, 0, 0, 0, 0, 0, 0, 0, 0, 0⟩, 0, fp, none, 0, 0, 0⟩
      let k := (denseShape (weight 0)).headD ⟨outTile, [], []⟩
      let reads := [(⟨q.recVa x.parity 0, q.rb⟩ : Span)] ++ q.statAccess x.parity 0
      q.u.rule = r ∧ (q.u.rule == 2 && bitOf q.u.flags 0) = false ∧ q.owns 0 = true ∧
        ((List.range 32).any (fun e => eligible q [] k (tileOf fFP32 0) e)) = true ∧ ((List.range 32).any (fun e => eligible q [] k absent e)) = false ∧
        (access 0 (reqStation q.stn) false false reads (on0 x)).1.isSome = b) := by decide +kernel

/-- Rule 2 by the exact column sums: the block waits for the end of the gradients. -/
theorem witness_UpdatedBlocks_exact :
    ∀ fin, let m := updater (weight 0) 2 1
      let x : Ctx := { running m [[]] true { held := [tileOf fFP32 0] } with stns := [{ held := [tileOf fFP32 0] }, { fin := fin }] }
      (updInfo x m 0).map (fun q => (q.stn, q.u.rule == 2 && bitOf q.u.flags 0, x.updated q.ix 0)) = some (0, true, false) ∧
        actsB x kUPDATE = true ∧ portEnded x m 0 0 = fin := by decide +kernel

/-! ## Memory -/

theorem witness_MemoryReadsBack :
    Memory.wf (memWrite [] 0 [1]) = true ∧ ([1, 2] : List Byte)[0]? = some 1 ∧ (0 < 1 ∨ 1 + ([2] : List Byte).length ≤ 0) ∧
      (2 < 1 ∨ 1 + ([2] : List Byte).length ≤ 2) := by decide

end Sys2Proof.Tests
end

section
/-! PROOFS. The queue of waiting commands, the ports of host writes and the clears (O1, O4, O7, O18). -/

namespace Sys2Proof.Machine

open Sys2Proof

/-- Settles O1: the front of the queue is what `step` matches on. -/
theorem stepRunsFront : Obligations.StepRunsFront := fun _ _ => rfl

/-- Settles O4: the queue is one of the parts of the state that every command keeps. -/
theorem execLeavesQueue : Obligations.ExecLeavesQueue := fun i s t h => ((exec_kept i s).kept t h).pending

/-- A command that writes to a context window goes through the port of that window. -/
theorem exec_window {i : Instr} {fn : FnId} {c : CtxId} (h : i.window = some (fn, c)) (s : State) :
    ∃ act, exec i s = .next (ctxPort fn c i act s) := by
  cases i <;> cases h <;> exact ⟨_, rfl⟩

/-- A command that writes to the global region, a request apart, goes through the port of that region. -/
theorem exec_global {i : Instr} {fn : FnId} (h : i.global = some fn) (hr : i.request = false) (s : State) :
    ∃ act, exec i s = .next (glbPort fn i act s) := by
  cases i <;> cases h <;> cases hr <;> exact ⟨_, rfl⟩

/-- A command that asks for a reset or a power cycle goes through the port of requests. -/
theorem exec_request {i : Instr} {fn : FnId} (h : i.global = some fn) (hr : i.request = true) (s : State) :
    ∃ act, exec i s = .next (rstPort fn act s) := by
  cases i <;> cases h <;> cases hr <;> exact ⟨_, rfl⟩

/-- Settles O7: each command is what its port makes of it. -/
theorem windowWrites : Obligations.WindowWrites := by
  unfold Obligations.WindowWrites
  refine ⟨fun i fn c s hw hu hr hb => ?_, fun i s hg hq hu hh => ?_, fun i fn c s hw hr => ?_, fun i fn s hg hn => ?_⟩
  · obtain ⟨act, e⟩ := exec_window hw s
    rw [e, ctxPort_held hu hr hb, holdWrite]
  · obtain ⟨act, e⟩ := exec_global hg hq s
    rw [e, glbPort_held hu rfl hh, holdWrite]
  · obtain ⟨act, e⟩ := exec_window hw s
    rw [e, ctxPort_closed (.inr hr)]
  · cases hq : i.request
    · obtain ⟨act, e⟩ := exec_global hg hq s
      rw [e, glbPort_closed (.inr hn)]
    · obtain ⟨act, e⟩ := exec_request hg hq s
      rw [e, rstPort_closed (.inr hn)]

/-- A clear of a context's counters leaves of them what `counterClears` says. -/
theorem exec_counterClears {s : State} {fn : FnId} {c : CtxId} (h : WindowOpen s fn c) :
    ∀ p ∈ counterClears fn c, exec p.1 s = .next (s.modCtx c (fun x => { x with cnt := p.2 x.cnt })) := by
  unfold counterClears
  repeat refine List.forall_mem_cons.mpr ⟨next_ctxPort h rfl, ?_⟩
  exact fun _ hp => absurd hp List.not_mem_nil

/-- A clear of a device-wide register leaves of the global registers what `deviceClears` says. -/
theorem exec_deviceClears {s : State} {fn : FnId} (h : GlobalOpen s fn) :
    ∀ p ∈ deviceClears fn, exec p.1 s = .next { s with glb := p.2 s.glb } := by
  unfold deviceClears
  repeat refine List.forall_mem_cons.mpr ⟨next_glbPort h rfl, ?_⟩
  exact fun _ hp => absurd hp List.not_mem_nil

/-- An act on the links that a condition names is an act on every link. -/
theorem each_filter (p : LinkId → Bool) (f : Link → Link) (L : List LinkId) (s : State) :
    s.each (L.filter p) (fun l t => t.modLink l f) = s.each L (fun l t => t.modLink l (fun k => if p l then f k else k)) := by
  induction L generalizing s with
  | nil => rfl
  | cons l L ih =>
    cases hp : p l
    · have self : s.modLink l (fun k => k) = s := setLink_self s l
      simpa only [State.each, hp, Bool.false_eq_true, not_false_eq_true, List.filter_cons_of_neg, List.foldl_cons, ↓reduceIte, self]
        using ih s
    · simpa only [State.each, hp, List.filter_cons_of_pos, List.foldl_cons, ↓reduceIte] using ih (s.modLink l f)

theorem clearLinkRetire_eq (mask : U32) (s : State) :
    clearLinkRetire mask s = { s with
      glb := { s.glb with linkRetire := s.glb.linkRetire &&& ~~~mask.truncate 16 }
      links := Vector.ofFn (fun l : Fin 16 => if (s.glb.linkRetire &&& mask.truncate 16).getLsbD l.val
        then { s.links[l] with stayDown := true } else s.links[l]) } := by
  unfold clearLinkRetire
  rw [each_filter, each_links]
  rfl

theorem clearLinks_eq (crc replay : U16) (s : State) :
    clearLinks crc replay s = { s with links := Vector.ofFn (fun l : Fin 16 => { s.links[l] with
      crcCount := zeroWhen (crc.getLsbD l.val) s.links[l].crcCount
      replayCount := zeroWhen (replay.getLsbD l.val) s.links[l].replayCount }) } :=
  each_links (fun l k => { k with
    crcCount := zeroWhen (crc.getLsbD l.val) k.crcCount, replayCount := zeroWhen (replay.getLsbD l.val) k.replayCount }) s

theorem clearLinks_crc (bits : U16) (s : State) :
    clearLinks bits 0 s = { s with links := Vector.ofFn (fun l : Fin 16 =>
      if bits.getLsbD l.val then { s.links[l] with crcCount := 0 } else s.links[l]) } := by
  rw [clearLinks_eq]
  congr 2
  funext l
  have other : (0 : U16).getLsbD l.val = false := BitVec.getLsbD_zero
  rw [other]
  cases bits.getLsbD l.val <;> rfl

theorem clearLinks_replay (bits : U16) (s : State) :
    clearLinks 0 bits s = { s with links := Vector.ofFn (fun l : Fin 16 =>
      if bits.getLsbD l.val then { s.links[l] with replayCount := 0 } else s.links[l]) } := by
  rw [clearLinks_eq]
  congr 2
  funext l
  have other : (0 : U16).getLsbD l.val = false := BitVec.getLsbD_zero
  rw [other]
  cases bits.getLsbD l.val <;> rfl

/-- Settles O18: each clear acts once its port lets it, and its act is the update of the fields that it names. -/
theorem clears : Obligations.Clears := by
  unfold Obligations.Clears
  refine ⟨fun s fn c h => ⟨exec_counterClears h, fun bits => next_ctxPort h rfl, fun bits => next_ctxPort h rfl⟩,
    fun s fn h => ⟨exec_deviceClears h, fun bits => next_glbPort h rfl, fun n mask => next_glbPort h rfl,
      fun mask => next_glbPort h (clearLinkRetire_eq mask s)⟩,
    fun s fn bits h => ⟨next_glbPort h (clearLinks_crc bits s), next_glbPort h (clearLinks_replay bits s)⟩⟩

end Sys2Proof.Machine
end

section
/-! PROOFS. Register writes and reads, and the identity of the device (O45, O10). -/

namespace Sys2Proof.Machine

open Sys2Proof

/-! ## Where a register write goes -/

theorem windowOf_window (c : CtxId) {o : Nat} (ho : o < 0x10000) : windowOf (0x200000 + 0x10000 * c.val + o) = some (c, o) := by
  have hc := c.isLt
  have hwin : Fin.ofNat 32 ((0x200000 + 0x10000 * c.val + o - 0x200000) / 0x10000) = c := by
    apply Fin.ext
    simp only [Fin.val_ofNat]
    omega
  have hoff : (0x200000 + 0x10000 * c.val + o - 0x200000) % 0x10000 = o := by omega
  rw [windowOf, if_pos (by omega), hwin, hoff]

theorem windowOf_below {off : Nat} (h : off < 0x200000) : windowOf off = none := if_neg (by omega)

theorem registerWrite_window {s : State} {fn : FnId} {c : CtxId} (h : WindowOpen s fn c) {o : Nat} (ho : o < 0x10000) (hr : o ≠ 0x70)
    (size : Nat) (v : U64) :
    exec (.registerWrite fn (0x200000 + 0x10000 * c.val + o) size v) s = .next (writeWindow fn c o size v s) := by
  have hreset : coversReset o size = false := by rw [coversReset, beq_false_of_ne hr, Bool.false_and]
  show Host.Outcome.next (doRegisterWrite ..) = _
  simp only [doRegisterWrite, windowOf_window c ho, hreset, ctxPort_open h]
  rw [if_neg (by omega)]
  rfl

theorem registerWrite_ctxReset {s : State} {fn : FnId} {c : CtxId} (h : WindowOpen s fn c) (v : U64) :
    exec (.registerWrite fn (0x200000 + 0x10000 * c.val + 0x70) 4 v) s = if v.getLsbD 0 then exec (.ctxReset fn c) s else .next s := by
  have hreset : coversReset 0x70 4 = true := rfl
  show Host.Outcome.next (doRegisterWrite ..) = if v.getLsbD 0 then Host.Outcome.next (if hostUp s && fnReaches s fn c then _ else _) else _
  simp only [doRegisterWrite, windowOf_window c (show 0x70 < 0x10000 by omega), hreset, h.up, h.reach]
  rw [if_neg (by omega)]
  cases v.getLsbD 0 <;> rfl

theorem registerWrite_glb {s : State} {fn : FnId} (h : GlobalOpen s fn) {off : Nat} (ho : off < 0x1F0000) (size : Nat) (v : U64) :
    exec (.registerWrite fn off size v) s = .next (writeGlb fn off size v s) := by
  show Host.Outcome.next (doRegisterWrite ..) = _
  simp only [doRegisterWrite, glbPort_open h, rstPort_open ⟨h.up, h.pf0⟩, ho, if_true, ite_self]

theorem registerWrite_rstCtrl {s : State} {fn : FnId} (h : RequestOpen s fn) (v : U64) :
    exec (.registerWrite fn 0x20 4 v) s = .next (writeGlb fn 0x20 4 v s) :=
  next_rstPort h rfl

theorem registerWrite_fn {s : State} {fn : FnId} (h : BlockOpen s fn) {o : Nat} (ho : o < 0x10000) (size : Nat) (v : U64) :
    exec (.registerWrite fn (0x1F0000 + o) size v) s = .next (writeFn fn o size v s) := by
  have hb : 0x1F0000 + o < 0x200000 := by omega
  show Host.Outcome.next (doRegisterWrite ..) = _
  simp only [doRegisterWrite, windowOf_below hb, fnPort_open h, hb, if_true, Nat.add_sub_cancel_left]
  rw [if_neg (by omega)]

/-! ## The words that a write covers -/

section
variable {who : State → Nat → Option CtxId} {reg : State → Nat → Option RegVal} {word : Nat → U32 → State → State}
  {pair : Nat → Nat → WordSel → U64 → State → State} {off : Nat} {s : State}

theorem writeSplit_word (hoff : off % 4 = 0) {x : Nat} (hr : reg s off = some (.r32 x)) (v : U64) :
    writeSplit who reg word pair off 4 v s = word off (v.truncate 32) s := by
  simp only [writeSplit, Nat.reduceEqDiff, false_and, ↓reduceIte, hoff, and_self, hr]

theorem writeSplit_pair (hoff : off % 8 = 0) {old : Nat} (hr : reg s off = some (.r64 old)) (v : U64) :
    writeSplit who reg word pair off 8 v s = pair off old .both v s := by
  simp only [writeSplit, hoff, and_self, ↓reduceIte, hr]

theorem writeSplit_words (hoff : off % 8 = 0) {x : Nat} (hr : reg s off = some (.r32 x)) (v : U64) :
    writeSplit who reg word pair off 8 v s =
      bothWords (who s off) (word off (v.truncate 32)) (word (off + 4) (v.extractLsb' 32 32)) s := by
  simp only [writeSplit, hoff, and_self, ↓reduceIte, hr]

end

/-- A 4-byte write of a 32-bit register of an open window. -/
theorem registerWrite_word {s : State} {fn : FnId} {c : CtxId} (h : WindowOpen s fn c) {o : Nat} (ho : o < 0x10000) (hr : o ≠ 0x70)
    (ha : o % 4 = 0) {x : Nat} (hx : ctxReg s c o = some (.r32 x)) (v : U64) :
    exec (.registerWrite fn (0x200000 + 0x10000 * c.val + o) 4 v) s = .next (writeWord c o (v.truncate 32) s) := by
  rw [registerWrite_window h ho hr, writeWindow, writeSplit_word ha hx]

/-- An 8-byte write of a 64-bit register of an open window. -/
theorem registerWrite_pair {s : State} {fn : FnId} {c : CtxId} (h : WindowOpen s fn c) {o : Nat} (ho : o < 0x10000) (hr : o ≠ 0x70)
    (ha : o % 8 = 0) {old : Nat} (hx : ctxReg s c o = some (.r64 old)) (v : U64) :
    exec (.registerWrite fn (0x200000 + 0x10000 * c.val + o) 8 v) s = .next (writePair fn c o old .both v s) := by
  rw [registerWrite_window h ho hr, writeWindow, writeSplit_pair ha hx]

/-- The six registers of a window that stand for a command of their own. -/
theorem registerWrite_commands {s : State} {fn : FnId} {c : CtxId} (h : WindowOpen s fn c) (v : U64) :
    let at' (o : Nat) : Nat := 0x200000 + 0x10000 * c.val + o
    exec (.registerWrite fn (at' 0x70) 4 v) s = (if v.getLsbD 0 then exec (.ctxReset fn c) s else .next s) ∧
    exec (.registerWrite fn (at' 0xA08) 4 v) s = exec (.dmaTail fn c (v.truncate 16)) s ∧
    exec (.registerWrite fn (at' 0x28) 4 v) s = exec (.agCommit fn c (v.truncate 6)) s ∧
    exec (.registerWrite fn (at' 0x318) 4 v) s = exec (.liveFieldWrite fn c .predThresh (v.truncate 32)) s ∧
    exec (.registerWrite fn (at' 0xB50) 8 v) s = exec (.witReplay fn c v) s ∧
    exec (.registerWrite fn (at' 0x910) 8 v) s = exec (.mmuInval fn c (v.extractLsb' 16 48) (v.truncate 2)) s := by
  have low {n : Nat} (hn : n ≤ 32) : (v.truncate 32).truncate n = v.truncate n := BitVec.setWidth_setWidth_of_le v hn
  refine ⟨registerWrite_ctxReset h v, ?_, ?_, ?_, ?_, ?_⟩
  · exact (registerWrite_word h (by decide) (by decide) rfl rfl v).trans
      (next_ctxPort h (congrArg (doDmaTail c · s) (low (by decide)).symm)).symm
  · exact (registerWrite_word h (by decide) (by decide) rfl rfl v).trans
      (next_ctxPort h (congrArg (doAgCommit c · s) (low (by decide)).symm)).symm
  · exact (registerWrite_word h (by decide) (by decide) rfl rfl v).trans (next_ctxPort h rfl).symm
  · exact (registerWrite_pair h (by decide) (by decide) rfl rfl v).trans (next_ctxPort h rfl).symm
  · exact (registerWrite_pair h (by decide) (by decide) rfl rfl v).trans (next_ctxPort h rfl).symm

/-! ## Two words of one write that both charge (R11) -/

theorem chargedBy_violate {c : CtxId} {act : State → State} {code : U16} {s : State}
    (h : ∀ f, act (s.modCtx c (·.count f)) = violate c code (s.modCtx c (·.count f))) : chargedBy c act s = some code := by
  have once : satAdd (0#48) 1 ≠ 0#48 := by decide
  unfold chargedBy
  dsimp only
  rw [h, violate, modCtx_ctx, modCtx_ctx]
  exact if_neg once

theorem bothWords_violate {c : CtxId} {lo hi : State → State} {code : U16} {s : State}
    (hlo : ∀ f, lo (s.modCtx c (·.count f)) = violate c code (s.modCtx c (·.count f)))
    (hhi : ∀ f, hi (s.modCtx c (·.count f)) = violate c code (s.modCtx c (·.count f))) :
    bothWords (some c) lo hi s = violate c code s := by
  have hs : s.modCtx c (·.count id) = s := setCtx_self s c
  have hlo' : lo s = violate c code s := by simpa only [hs] using hlo id
  have hhi' : hi (violate c code s) = violate c code (violate c code s) :=
    hhi (fun k => { k with viol := satAdd k.viol 1, violLast := code })
  have after : ∀ f, hi ((violate c code s).modCtx c (·.count f)) = violate c code ((violate c code s).modCtx c (·.count f)) := by
    intro f
    have e : (violate c code s).modCtx c (·.count f) =
        s.modCtx c (·.count (fun k => f { k with viol := satAdd k.viol 1, violLast := code })) := by
      rw [violate, modCtx_modCtx]
      rfl
    rw [e, hhi]
  simp only [bothWords, hlo', hhi', chargedBy_violate hlo, chargedBy_violate after]
  simp only [violate, State.modCtx, Ctx.violate, Ctx.count, setCtx_ctx, setCtx_setCtx, Nat.lt_irrefl, ↓reduceIte]

/-! ## Group slots (R429) -/

theorem writeWord_slot (c : CtxId) (g : SlotId) {k : Nat} (hk : k < 0x20) (w : U32) (s : State) :
    writeWord c (0x1100 + 0x20 * g.val + k) w s = writeSlot c g k w s := by
  have hg := g.isLt
  have hslot : Fin.ofNat 16 ((0x1100 + 0x20 * g.val + k - 0x1100) / 0x20) = g := by
    apply Fin.ext
    simp only [Fin.val_ofNat]
    omega
  have hoff : (0x1100 + 0x20 * g.val + k - 0x1100) % 0x20 = k := by omega
  have hblock : writeWord c (0x1100 + 0x20 * g.val + k) w s = writeGluBlock c (0x1100 + 0x20 * g.val + k) w s := by
    unfold writeWord
    iterate 4 rw [if_neg (by omega)]
  rw [hblock]
  unfold writeGluBlock
  split
  case h_5 => rw [if_pos (by omega), hslot, hoff]
  all_goals omega

theorem ctxReg_slotId (s : State) (c : CtxId) (g : SlotId) : ∃ x, ctxReg s c (0x1100 + 0x20 * g.val) = some (.r32 x) := by
  have hg := g.isLt
  have hoff : (0x1100 + 0x20 * g.val - 0x1100) % 0x20 = 0 := by omega
  have hblock : ctxReg s c (0x1100 + 0x20 * g.val) = gluBlock s (s.ctx c) (0x1100 + 0x20 * g.val) := by
    unfold ctxReg
    dsimp only
    iterate 4 rw [if_neg (by omega)]
  rw [hblock]
  unfold gluBlock
  split
  case h_12 =>
    dsimp only
    rw [if_pos (by omega), hoff]
    exact ⟨_, rfl⟩
  all_goals omega

theorem registerWrite_heldSlot {s : State} {fn : FnId} {c : CtxId} (h : WindowOpen s fn c) (g : SlotId) (v : U64)
    (hheld : ((s.ctx c).group g).held = true) :
    exec (.registerWrite fn (0x200000 + 0x10000 * c.val + (0x1100 + 0x20 * g.val)) 8 v) s = .next (violate c 0x1305 s) := by
  have hg := g.isLt
  obtain ⟨x, hx⟩ := ctxReg_slotId s c g
  have held : ∀ f, (((s.modCtx c (·.count f)).ctx c).group g).held = true := fun f => by rw [modCtx_ctx]; exact hheld
  rw [registerWrite_window h (by omega) (by omega), writeWindow, writeSplit_words (by omega) hx, bothWords_violate]
  · intro f
    exact (writeWord_slot c g (k := 0) (by decide) _ _).trans (if_pos (held f))
  · intro f
    exact (writeWord_slot c g (k := 4) (by decide) _ _).trans (if_pos (held f))

/-! ## The MSI-X entry (R414) -/

theorem registerWrite_msixMask {s : State} {fn : FnId} (hu : hostUp s = true) (hf : fnExists s fn = true) (v : U64) :
    exec (.registerWrite fn 0x40000C 4 v) s =
      .next (s.modFunc fn (fun f => if v.getLsbD 0 = false ∧ f.msixPending = true
        then { f with msixMask := false, msixPending := false, msgs := f.msgs + 1 } else { f with msixMask := v.getLsbD 0 })) := by
  have bit : (v.truncate 32).getLsbD 0 = v.getLsbD 0 := BitVec.getLsbD_setWidth 32 v 0
  show Host.Outcome.next (writeMsix fn 0xC 4 v s) = _
  rw [writeMsix, if_pos (by rw [hu, hf]; rfl), writeSplit_word rfl rfl]
  simp only [writeMsixWord, bit]
  congr 2
  funext f
  cases v.getLsbD 0 <;> cases f.msixPending <;> rfl

/-! ## Reads (R457, R458) -/

theorem drawOnRead_other {off n : Nat} (h : nonceOff < off ∨ off + n ≤ nonceOff) (r : Requester) (s : State) :
    drawOnRead r off n s = s := if_neg (by omega)

section
variable {s : State} {fn : FnId} {off : Nat} (hu : hostUp s = true) (hf : fnExists s fn = true)
include hu hf

theorem fnRead_bytes {n : Nat} (hn : n ≠ 4 ∨ off % 4 ≠ 0) (ho : nonceOff < off ∨ off + n ≤ nonceOff) :
    fnRead fn off n s = s.modFunc fn (fun f => { f with lastRead := bytesFor s (.fn fn) off n }) := by
  simp only [fnRead, hu, hf, hn, drawOnRead_other ho]
  rfl

theorem fnRead_latched (ha : off % 4 = 0) {w : U32} (hl : assocGet off (s.func fn).latches = some w) :
    fnRead fn off 4 s = s.setFunc fn { s.func fn with
      lastRead := leBytes 4 w.toNat, latches := (s.func fn).latches.filter (fun p => p.1 != off) } := by
  simp only [fnRead, hu, hf, ha, hl, Bool.not_true, Bool.or_self, Bool.false_eq_true, ↓reduceIte, ne_eq, not_true_eq_false, or_self]

theorem fnRead_word (ha : off % 4 = 0) (ho : off ≠ nonceOff) (hl : assocGet off (s.func fn).latches = none) :
    fnRead fn off 4 s = s.setFunc fn { s.func fn with
      lastRead := bytesFor s (.fn fn) off 4
      latches := (highFor s (.fn fn) off).toList.map (fun h => (off + 4, BitVec.ofNat 32 h)) ++
        (s.func fn).latches.filter (fun p => p.1 != off + 4) } := by
  have hn : nonceOff < off ∨ off + 4 ≤ nonceOff := by
    unfold nonceOff at ho ⊢
    omega
  simp only [fnRead, hu, hf, ha, hl, drawOnRead_other hn, Bool.not_true, Bool.or_self, Bool.false_eq_true, ↓reduceIte, ne_eq,
    not_true_eq_false, or_self]

end

theorem highFor_r64 {s : State} {r : Requester} {off v : Nat} (h : regFor s r off = some (.r64 v)) :
    highFor s r off = some (v / 2 ^ 32 % 2 ^ 32) := by
  simp only [highFor, h]

theorem highFor_none {s : State} {r : Requester} {off : Nat} (h : ∀ v, regFor s r off ≠ some (.r64 v)) : highFor s r off = none := by
  unfold highFor
  split
  next v e => exact absurd e (h v)
  next => rfl

/-- Settles O45: the ports and the words that a write covers, then the three ways in which a read answers. -/
theorem registerAccess : Obligations.RegisterAccess := by
  unfold Obligations.RegisterAccess
  intro s fn
  refine ⟨fun c o v h ho hr size => registerWrite_window h ho hr size v, fun c v h => registerWrite_commands h v,
    fun off size v h ho => registerWrite_glb h ho size v, fun o size v h ho => registerWrite_fn h ho size v,
    fun c g v h hg => registerWrite_heldSlot h g v hg, fun v h => registerWrite_rstCtrl h v,
    fun v hu hf => registerWrite_msixMask hu hf v, fun off n hu hf hn ho => congrArg _ (fnRead_bytes hu hf hn ho),
    fun off hu hf ha ho => ⟨fun w hl => congrArg _ (fnRead_latched hu hf ha hl), fun hl v hv => ?_, fun hl hv => ?_⟩⟩
  · refine congrArg _ ((fnRead_word hu hf ha ho hl).trans ?_)
    rw [highFor_r64 hv]
    rfl
  · refine congrArg _ ((fnRead_word hu hf ha ho hl).trans ?_)
    rw [highFor_none hv]
    rfl

theorem wordFor_glbId (s : State) : wordFor s (.fn 0) 0 = 0x4F512100 := by
  have h : regFor s (.fn 0) 0 = some (.r32 0x4F512100) := rfl
  simp only [wordFor, h, Nat.reducePow, Nat.reduceMod]

theorem bytesFor_glbId (s : State) : bytesFor s (.fn 0) 0 4 = [0x00, 0x21, 0x51, 0x4F] := by
  have bus : ¬ (Requester.fn 0 = .bus ∧ busHidden s 0 = true) := nofun
  have byte (i : Nat) (hi : i < 4) : 0 + i - (0 + i) % 4 = 0 := by omega
  have bytes : bytesFor s (.fn 0) 0 4 = (List.range 4).map (fun i => BitVec.ofNat 8 (0x4F512100 / 2 ^ (8 * ((0 + i) % 4)))) := by
    refine List.map_congr_left fun i hi => ?_
    dsimp only
    rw [byte i (List.mem_range.mp hi), if_neg bus, wordFor_glbId]
  rw [bytes]
  rfl

/-- Settles O10: the read answers the four bytes of GLB_ID. -/
theorem deviceIdentity : Obligations.DeviceIdentity := by
  unfold Obligations.DeviceIdentity
  intro s hu hl
  refine ⟨_, congrArg Host.Outcome.next (fnRead_word hu rfl rfl (by decide) hl), ?_⟩
  simp only [setFunc_func, bytesFor_glbId]
  decide

end Sys2Proof.Machine
end

section
/-! PROOFS. Agreement groups: what a commit makes pending and what becomes visible (O28). -/

namespace Sys2Proof.Machine

open Sys2Proof

/-! ## The lowest code of a write (R11) -/

/-- The lower of two codes. -/
def lowerCode (a b : U16) : U16 := if b.toNat < a.toNat then b else a

theorem lowerCode_le_left (a b : U16) : lowerCode a b ≤ a := by
  rw [BitVec.le_def]
  unfold lowerCode
  split <;> omega

theorem lowerCode_le_right (a b : U16) : lowerCode a b ≤ b := by
  rw [BitVec.le_def]
  unfold lowerCode
  split <;> omega

theorem lowerCode_mem (a b : U16) : lowerCode a b = a ∨ lowerCode a b = b := by
  unfold lowerCode
  split
  · exact .inr rfl
  · exact .inl rfl

theorem foldl_lowerCode (cs : List U16) (c : U16) : cs.foldl lowerCode c ∈ c :: cs ∧ ∀ a ∈ c :: cs, cs.foldl lowerCode c ≤ a := by
  induction cs generalizing c with
  | nil => exact ⟨List.mem_cons_self, fun a ha => BitVec.le_of_eq (List.mem_singleton.mp ha).symm⟩
  | cons b cs ih =>
    obtain ⟨hmem, hle⟩ := ih (lowerCode c b)
    rw [List.forall_mem_cons] at hle
    obtain ⟨hlow, hrest⟩ := hle
    refine ⟨?_, ?_⟩
    · rcases List.mem_cons.mp hmem with h | h
      · rw [List.foldl_cons, h]
        rcases lowerCode_mem c b with e | e
        · rw [e]
          exact List.mem_cons_self
        · rw [e]
          exact List.mem_cons_of_mem _ List.mem_cons_self
      · exact List.mem_cons_of_mem _ (List.mem_cons_of_mem _ h)
    · rw [List.forall_mem_cons, List.forall_mem_cons]
      exact ⟨BitVec.le_trans hlow (lowerCode_le_left c b), BitVec.le_trans hlow (lowerCode_le_right c b), hrest⟩

/-- A code that stands among others and below all of them is the lowest; with none there is no lowest. -/
theorem lowestCode_eq {codes : List U16} {low : Option U16} (hmem : ∀ k, low = some k → k ∈ codes)
    (hle : ∀ a ∈ codes, ∃ k, low = some k ∧ k ≤ a) : lowestCode codes = low := by
  cases codes with
  | nil =>
    cases low with
    | none => rfl
    | some k => exact absurd (hmem k rfl) List.not_mem_nil
  | cons c cs =>
    obtain ⟨fmem, fle⟩ := foldl_lowerCode cs c
    obtain ⟨k, rfl, hk⟩ := hle _ fmem
    exact congrArg some (BitVec.le_antisymm (fle k (hmem k rfl)) hk)

/-! ## Groups within the values, the written words and the pending bits -/

theorem group_cases (g : Fin 6) : g = 0 ∨ g = 1 ∨ g = 2 ∨ g = 3 ∨ g = 4 ∨ g = 5 := by omega

/-- Taking one group and then another: the same group is taken once, two groups do not touch each other. -/
theorem copyGroup_copyGroup (g a : Fin 6) (p v q : AgVals) : copyGroup g.val p (copyGroup a.val v q) =
    if g = a then copyGroup g.val p q else copyGroup a.val v (copyGroup g.val p q) := by
  rcases group_cases g with rfl | rfl | rfl | rfl | rfl | rfl <;>
    rcases group_cases a with rfl | rfl | rfl | rfl | rfl | rfl <;> rfl

theorem copyGroup_self (g : Fin 6) (v : AgVals) : copyGroup g.val v v = v := by
  rcases group_cases g with rfl | rfl | rfl | rfl | rfl | rfl <;> rfl

theorem copyGroup_same (g : Fin 6) (p v q : AgVals) : copyGroup g.val p (copyGroup g.val v q) = copyGroup g.val p q := by
  rw [copyGroup_copyGroup, if_pos rfl]

theorem copyGroup_comm {g a : Fin 6} (h : g ≠ a) (p v q : AgVals) :
    copyGroup g.val p (copyGroup a.val v q) = copyGroup a.val v (copyGroup g.val p q) := by
  rw [copyGroup_copyGroup, if_neg h]

theorem half_forget (k : AgWords) (g a : Fin 6) : (k.forget a.val).half g.val = if g = a then false else k.half g.val := by
  rcases group_cases g with rfl | rfl | rfl | rfl | rfl | rfl <;>
    rcases group_cases a with rfl | rfl | rfl | rfl | rfl | rfl <;> rfl

theorem groupBit_getLsbD : ∀ g i : Fin 6, (BitVec.ofNat 6 (2 ^ g.val)).getLsbD i.val = decide (i = g) := by decide

/-! ## Commits (R61, R63) -/

/-- The values that a commit charged with `code` takes for group `g`. -/
def Ctx.taken (x : Ctx) (code : Option U16) (g : Nat) : AgVals :=
  let fix := fixGroup (x.active.map (fun m => m.stations.length)) g x.shadow
  if fix.2.isSome && fix.2 == code then fix.1 else x.shadow

theorem taken_eq (x : Ctx) (code : Option U16) (g : Nat) :
    let fix := fixGroup (x.active.map (fun m => m.stations.length)) g x.shadow
    x.taken code g = if fix.2.isSome = true ∧ fix.2 = code then fix.1 else x.shadow := by
  simp only [Ctx.taken, Bool.and_eq_true, beq_iff_eq]

theorem commitGroup_pend (s : State) (code : Option U16) (x : Ctx) (g : Nat) :
    (commitGroup s code x g).pend = copyGroup g (x.taken code g) x.pend := rfl

theorem commitGroup_agPending (s : State) (code : Option U16) (x : Ctx) (g : Nat) :
    (commitGroup s code x g).agPending = x.agPending ||| BitVec.ofNat 6 (2 ^ g) := rfl

theorem commitGroup_words (s : State) (code : Option U16) (x : Ctx) (g : Nat) :
    (commitGroup s code x g).words = x.words.forget g := rfl

/-- But for 0x0B01 a commit of PLACE keeps no station's bound. -/
theorem commitGroup_keepNext (s : State) {code : Option U16} (hcode : code ≠ some 0x0B01) (x : Ctx) (g : Nat) :
    (commitGroup s code x g).keepNext = if g = 4 then [] else x.keepNext := by
  simp only [commitGroup, if_neg hcode]
  cases x.active <;> rfl

theorem commitGroup_eq (s : State) {code : Option U16} (hcode : code ≠ some 0x0B01) (x : Ctx) (g : Nat) :
    commitGroup s code x g = { x with
      pend := copyGroup g (x.taken code g) x.pend
      agPending := x.agPending ||| BitVec.ofNat 6 (2 ^ g)
      words := x.words.forget g
      keepNext := if g = 4 then [] else x.keepNext } := by
  rw [← commitGroup_keepNext s hcode x g]
  rfl

/-- What `y` is after a commit charged with `code` of the groups `gs` from `x`. -/
structure Committed (code : Option U16) (x : Ctx) (gs : List (Fin 6)) (y : Ctx) : Prop where
  frame : { y with pend := x.pend, agPending := x.agPending, words := x.words, keepNext := x.keepNext } = x
  others : ∀ g ∉ gs, copyGroup g.val x.pend y.pend = y.pend
  takes : ∀ g ∈ gs, copyGroup g.val (x.taken code g.val) y.pend = y.pend
  whole : ∀ g ∈ gs, y.words.half g.val = false
  bits : ∀ i : Fin 6, y.agPending.getLsbD i.val = (x.agPending.getLsbD i.val || decide (i ∈ gs))

theorem Committed.taken {code : Option U16} {x y : Ctx} {gs : List (Fin 6)} (h : Committed code x gs y) (g : Nat) :
    y.taken code g = x.taken code g := by
  have e := congrArg (fun z : Ctx => z.taken code g) h.frame
  exact e

theorem Committed.cnt {code : Option U16} {x y : Ctx} {gs : List (Fin 6)} (h : Committed code x gs y) : y.cnt = x.cnt := by
  have e := congrArg Ctx.cnt h.frame
  exact e

theorem Committed.step {code : Option U16} {x y : Ctx} {gs : List (Fin 6)} (h : Committed code x gs y) (s : State) (a : Fin 6) :
    Committed code x (gs ++ [a]) (commitGroup s code y a.val) where
  frame := h.frame
  others g hg := by
    obtain ⟨hgs, hga⟩ : g ∉ gs ∧ g ≠ a := by
      simpa only [ne_eq, List.mem_append, List.mem_singleton, not_or] using hg
    rw [commitGroup_pend, copyGroup_comm hga, h.others g hgs]
  takes g hg := by
    rw [commitGroup_pend, h.taken, copyGroup_copyGroup]
    by_cases e : g = a
    · rw [if_pos e, e]
    · have hgs : g ∈ gs := by simpa only [List.mem_append, List.mem_singleton, e, or_false] using hg
      rw [if_neg e, h.takes g hgs]
  whole g hg := by
    rw [commitGroup_words, half_forget]
    by_cases e : g = a
    · rw [if_pos e]
    · have hgs : g ∈ gs := by simpa only [List.mem_append, List.mem_singleton, e, or_false] using hg
      rw [if_neg e, h.whole g hgs]
  bits i := by
    rw [commitGroup_agPending, BitVec.getLsbD_or, h.bits, groupBit_getLsbD]
    simp only [List.mem_append, List.mem_singleton, Bool.decide_or, Bool.or_assoc]

theorem Committed.steps {code : Option U16} {x : Ctx} (s : State) (gs : List (Fin 6)) :
    ∀ {done : List (Fin 6)} {y : Ctx}, Committed code x done y →
      Committed code x (done ++ gs) (gs.foldl (fun y g => commitGroup s code y g.val) y) := by
  induction gs with
  | nil =>
    intro done y h
    rw [List.append_nil]
    exact h
  | cons a gs ih =>
    intro done y h
    have k := ih (h.step s a)
    rw [List.append_assoc] at k
    exact k

theorem Committed.none (code : Option U16) (x : Ctx) : Committed code x [] x where
  frame := rfl
  others g _ := copyGroup_self g x.pend
  takes _ hg := absurd hg List.not_mem_nil
  whole _ hg := absurd hg List.not_mem_nil
  bits i := by rw [decide_eq_false List.not_mem_nil, Bool.or_false]

theorem commitGroups_committed (s : State) (code : Option U16) (x : Ctx) (gs : List (Fin 6)) :
    Committed code x gs (gs.foldl (fun y g => commitGroup s code y g.val) x) :=
  (Committed.none code x).steps s gs

/-- The groups that the bits of a commit name. -/
def groupsOf (bits : BitVec 6) : List (Fin 6) := (List.finRange 6).filter (fun g => bits.getLsbD g.val)

theorem mem_groupsOf {bits : BitVec 6} {g : Fin 6} : g ∈ groupsOf bits ↔ bits.getLsbD g.val = true := by
  simp only [groupsOf, List.mem_filter, List.mem_finRange, true_and]

theorem doAgCommit_eq (c : CtxId) (bits : BitVec 6) (s : State) :
    let x := s.ctx c
    let codes := (groupsOf bits).flatMap (fun g => groupCodes s x g.val)
    doAgCommit c bits s =
      s.setCtx c (((groupsOf bits).foldl (fun y g => commitGroup s (lowestCode codes) y g.val) x).charge codes) := by
  have hgs : (List.range 6).filter (fun g => bits.getLsbD g) = (groupsOf bits).map (·.val) := by
    have six : List.range 6 = (List.finRange 6).map (·.val) := by decide
    rw [six, List.filter_map]
    rfl
  simp only [doAgCommit, hgs, List.flatMap_map, List.foldl_map]

theorem agPending_of_bits {x y : Ctx} {bits : BitVec 6}
    (h : ∀ i : Fin 6, y.agPending.getLsbD i.val = (x.agPending.getLsbD i.val || decide (i ∈ groupsOf bits))) :
    y.agPending = x.agPending ||| bits := by
  refine BitVec.eq_of_getLsbD_eq fun i hi => ?_
  rw [h ⟨i, hi⟩, BitVec.getLsbD_or]
  simp only [mem_groupsOf, Bool.decide_eq_true]

/-- A commit of one group that charges nothing, or the one violation of its own values. -/
theorem doAgCommit_one (c : CtxId) (g : Fin 6) (s : State) {codes : List U16} (hc : groupCodes s (s.ctx c) g.val = codes) :
    doAgCommit c (BitVec.ofNat 6 (2 ^ g.val)) s =
      s.setCtx c ((commitGroup s (lowestCode codes) (s.ctx c) g.val).charge codes) := by
  simp only [doAgCommit, groups_of, List.flatMap_cons, List.flatMap_nil, List.append_nil, hc, List.foldl_cons, List.foldl_nil]

theorem agCommit_one_clean {s : State} {fn : FnId} {c : CtxId} (h : WindowOpen s fn c) (g : Fin 6)
    (hc : groupCodes s (s.ctx c) g.val = []) :
    let x := s.ctx c
    exec (.agCommit fn c (BitVec.ofNat 6 (2 ^ g.val))) s = .next (s.setCtx c { x with
      pend := copyGroup g.val x.shadow x.pend
      agPending := x.agPending ||| BitVec.ofNat 6 (2 ^ g.val)
      words := x.words.forget g.val
      keepNext := if g.val = 4 then [] else x.keepNext }) := by
  have hv : (s.ctx c).taken none g.val = (s.ctx c).shadow := by
    rw [taken_eq, if_neg]
    rintro ⟨hsome, hnone⟩
    rw [hnone] at hsome
    cases hsome
  refine next_ctxPort h ((doAgCommit_one c g s hc).trans ?_)
  rw [lowestCode, commitGroup_eq s (Option.some_ne_none 0x0B01).symm, hv]
  rfl

theorem agCommit_one_charged {s : State} {fn : FnId} {c : CtxId} (h : WindowOpen s fn c) (g : Fin 6) {code : U16}
    (hfix : (fixGroup ((s.ctx c).active.map (fun m => m.stations.length)) g.val (s.ctx c).shadow).2 = some code)
    (hc : groupCodes s (s.ctx c) g.val = [code]) (hn : code ≠ 0x0B01) :
    let x := s.ctx c
    exec (.agCommit fn c (BitVec.ofNat 6 (2 ^ g.val))) s = .next (s.setCtx c (Ctx.violate { x with
      pend := copyGroup g.val (fixGroup (x.active.map (fun m => m.stations.length)) g.val x.shadow).1 x.pend
      agPending := x.agPending ||| BitVec.ofNat 6 (2 ^ g.val)
      words := x.words.forget g.val
      keepNext := if g.val = 4 then [] else x.keepNext } code)) := by
  have low : lowestCode [code] = some code := rfl
  have hv : (s.ctx c).taken (some code) g.val =
      (fixGroup ((s.ctx c).active.map (fun m => m.stations.length)) g.val (s.ctx c).shadow).1 := by
    rw [taken_eq, if_pos ⟨congrArg Option.isSome hfix, hfix⟩]
  refine next_ctxPort h ((doAgCommit_one c g s hc).trans ?_)
  rw [low, commitGroup_eq s (fun e => hn (Option.some.inj e)), hv]
  rfl

/-- A commit of any groups, charged with the lowest of their codes. -/
theorem doAgCommit_committed (s : State) (c : CtxId) (groups : BitVec 6) {low : Option U16}
    (hmem : ∀ code, low = some code → ∃ g : Fin 6, groups.getLsbD g.val = true ∧ code ∈ groupCodes s (s.ctx c) g.val)
    (hle : ∀ code, (∃ g : Fin 6, groups.getLsbD g.val = true ∧ code ∈ groupCodes s (s.ctx c) g.val) → ∃ k, low = some k ∧ k ≤ code) :
    ∃ y, Committed low (s.ctx c) (groupsOf groups) y ∧ doAgCommit c groups s = s.setCtx c (low.elim y y.violate) := by
  have mem (code : U16) : code ∈ (groupsOf groups).flatMap (fun g => groupCodes s (s.ctx c) g.val) ↔
      ∃ g : Fin 6, groups.getLsbD g.val = true ∧ code ∈ groupCodes s (s.ctx c) g.val := by
    simp only [List.mem_flatMap, mem_groupsOf]
  have hlow := lowestCode_eq (fun k e => (mem k).mpr (hmem k e)) (fun a ha => hle a ((mem a).mp ha))
  refine ⟨_, commitGroups_committed s low (s.ctx c) (groupsOf groups), (doAgCommit_eq c groups s).trans ?_⟩
  rw [hlow, Ctx.charge, hlow]
  cases low <;> rfl

theorem agCommit_groups {s : State} {fn : FnId} {c : CtxId} (h : WindowOpen s fn c) (groups : BitVec 6) {low : Option U16} :
    let x := s.ctx c
    let fix (g : Fin 6) := fixGroup (x.active.map (fun m => m.stations.length)) g.val x.shadow
    let charged (code : U16) : Prop := ∃ g : Fin 6, groups.getLsbD g.val = true ∧ code ∈ groupCodes s x g.val
    (∀ code, low = some code → charged code) → (∀ code, charged code → ∃ k, low = some k ∧ k ≤ code) →
    ∃ y, exec (.agCommit fn c groups) s = .next (s.setCtx c y) ∧ y.agPending = x.agPending ||| groups ∧
      { y with pend := x.pend, agPending := x.agPending, words := x.words, keepNext := x.keepNext, cnt := x.cnt } = x ∧
      (∀ g : Fin 6, groups.getLsbD g.val = false → copyGroup g.val x.pend y.pend = y.pend) ∧
      (∀ g : Fin 6, groups.getLsbD g.val = true → y.words.half g.val = false ∧
        copyGroup g.val (if (fix g).2.isSome = true ∧ (fix g).2 = low then (fix g).1 else x.shadow) y.pend = y.pend) ∧
      (low = none → y.cnt = x.cnt) ∧
      (∀ code, low = some code → y.cnt = { x.cnt with viol := satAdd x.cnt.viol 1, violLast := code }) := by
  intro x fix charged hmem hle
  obtain ⟨y, hy, hact⟩ := doAgCommit_committed s c groups hmem hle
  have frame := congrArg (fun z : Ctx => { z with cnt := x.cnt }) hy.frame
  have bits := agPending_of_bits hy.bits
  have others (g : Fin 6) (hg : groups.getLsbD g.val = false) : copyGroup g.val x.pend y.pend = y.pend :=
    hy.others g (fun hm => Bool.false_ne_true (hg.symm.trans (mem_groupsOf.mp hm)))
  have takes (g : Fin 6) (hg : groups.getLsbD g.val = true) : y.words.half g.val = false ∧
      copyGroup g.val (if (fix g).2.isSome = true ∧ (fix g).2 = low then (fix g).1 else x.shadow) y.pend = y.pend :=
    ⟨hy.whole g (mem_groupsOf.mpr hg), taken_eq x low g.val ▸ hy.takes g (mem_groupsOf.mpr hg)⟩
  refine ⟨_, next_ctxPort h hact, ?_⟩
  cases low with
  | none => exact ⟨bits, frame, others, takes, fun _ => hy.cnt, nofun⟩
  | some code =>
    refine ⟨bits, frame, others, takes, nofun, fun k e => ?_⟩
    cases e
    rw [← hy.cnt]
    rfl

/-! ## Values that become visible (R62) -/

section
variable {x : Ctx} {g : Fin 6} (hp : x.agPending.getLsbD g.val = true)
include hp

theorem showGroup_other (hg : g.val ≠ 4) : x.showGroup g.val =
    { x with visible := copyGroup g.val x.pend x.visible, agPending := x.agPending &&& ~~~BitVec.ofNat 6 (2 ^ g.val) } := by
  rw [Ctx.showGroup, if_pos hp, if_neg hg]

theorem showGroup_place {m : Image} (hg : g.val = 4) (hm : x.active = some m) : x.showGroup g.val =
    { x with visible := copyGroup g.val x.pend x.visible, agPending := x.agPending &&& ~~~BitVec.ofNat 6 (2 ^ g.val)
             keptPlace := keptBounds x m x.keepNext, keepNext := [] } := by
  rw [Ctx.showGroup, if_pos hp, if_pos hg, hm]

theorem showGroup_fields : (x.showGroup g.val).visible = copyGroup g.val x.pend x.visible ∧
    (x.showGroup g.val).agPending = x.agPending &&& ~~~BitVec.ofNat 6 (2 ^ g.val) ∧ (x.showGroup g.val).pend = x.pend ∧
    (x.showGroup g.val).shadow = x.shadow := by
  by_cases hg : g.val = 4
  · simp only [Ctx.showGroup, if_pos hp, if_pos hg, and_self]
  · simp only [showGroup_other hp hg, and_self]

end

theorem doAgVisible_waits {s : State} {c : CtxId} {g : Fin 6}
    (h : (s.ctx c).agPending.getLsbD g.val = false ∨ g.val < 4 ∧ (s.ctx c).phase ≠ .idle) : doAgVisible c g s = s := by
  unfold doAgVisible
  dsimp only
  rw [if_pos]
  rcases h with h | ⟨hg, hph⟩
  · rw [h]
    simp only [Bool.not_false, Bool.or_true, Bool.true_or]
  · rw [decide_eq_true hg, bne_iff_ne.mpr hph]
    exact Bool.or_true _

/-- A pending group shows where the device works, the context is neither in reset nor PREEMPTED, and IDLE for a numeric one. -/
structure MayShow (s : State) (c : CtxId) (g : Fin 6) : Prop where
  work : mayWork s = true
  ready : (s.ctx c).busy = false
  pending : (s.ctx c).agPending.getLsbD g.val = true
  held : (s.ctx c).phase ≠ .preempted
  numeric : g.val < 4 → (s.ctx c).phase = .idle

theorem doAgVisible_shows {s : State} {c : CtxId} {g : Fin 6} (h : MayShow s c g) :
    let t := s.setCtx c ((s.ctx c).showGroup g.val)
    doAgVisible c g s =
      (s.ctx c).active.elim t (fun m => if g.val = 4 && (s.ctx c).phase.working then compelMoves c m t else t) := by
  have hnum : (decide (g.val < 4) && (s.ctx c).phase != .idle) = false := by
    cases hg : decide (g.val < 4)
    · rfl
    · rw [h.numeric (of_decide_eq_true hg)]
      rfl
  have hheld : ((s.ctx c).phase == .preempted) = false := beq_false_of_ne h.held
  simp only [doAgVisible, h.work, h.ready, h.pending, hheld, hnum]
  cases (s.ctx c).active <;> rfl

theorem doAgVisible_other {s : State} {c : CtxId} {g : Fin 6} (h : MayShow s c g) (hg : g.val ≠ 4) :
    doAgVisible c g s = s.setCtx c ((s.ctx c).showGroup g.val) := by
  rw [doAgVisible_shows h]
  cases (s.ctx c).active with
  | none => rfl
  | some m => rw [Option.elim_some, if_neg (by rw [decide_eq_false hg]; exact Bool.false_ne_true)]

theorem doAgVisible_place {s : State} {c : CtxId} {g : Fin 6} (h : MayShow s c g) (hg : g.val = 4) {m : Image}
    (hm : (s.ctx c).active = some m) :
    let t := s.setCtx c ((s.ctx c).showGroup g.val)
    doAgVisible c g s = if (s.ctx c).phase.working = true then compelMoves c m t else t := by
  rw [doAgVisible_shows h, hm]
  rw [Option.elim_some, decide_eq_true hg, Bool.true_and]

/-! ## What moves leave (R244) -/

/-- Moves of stations of context `c` change its stations and its counters, and no other context and no memory. -/
structure MovesOnly (c : CtxId) (s t : State) : Prop where
  own : { t.ctx c with stns := (s.ctx c).stns, cnt := (s.ctx c).cnt } = s.ctx c
  ctxs : ∀ d, d ≠ c → t.ctx d = s.ctx d
  mem : t.mem = s.mem

theorem MovesOnly.refl (c : CtxId) (s : State) : MovesOnly c s s := ⟨rfl, fun _ _ => rfl, rfl⟩

theorem MovesOnly.trans {c : CtxId} {r s t : State} (h : MovesOnly c r s) (k : MovesOnly c s t) : MovesOnly c r t where
  own := (congrArg (fun x : Ctx => { x with stns := (r.ctx c).stns, cnt := (r.ctx c).cnt }) k.own).trans h.own
  ctxs d hd := (k.ctxs d hd).trans (h.ctxs d hd)
  mem := k.mem.trans h.mem

theorem MovesOnly.fields {c : CtxId} {s t : State} (h : MovesOnly c s t) : (t.ctx c).visible = (s.ctx c).visible ∧
    (t.ctx c).agPending = (s.ctx c).agPending ∧ (t.ctx c).pend = (s.ctx c).pend ∧ (t.ctx c).shadow = (s.ctx c).shadow := by
  rw [← h.own]
  exact ⟨rfl, rfl, rfl, rfl⟩

theorem modCtx_movesOnly (c : CtxId) (s : State) {f : Ctx → Ctx} (h : ∀ x, { f x with stns := x.stns, cnt := x.cnt } = x) :
    MovesOnly c s (s.modCtx c f) where
  own := by rw [modCtx_ctx, h]
  ctxs d hd := modCtx_ctx_ne s f hd
  mem := rfl

theorem modStn_movesOnly (c : CtxId) (i : Nat) (f : StnState → StnState) (s : State) : MovesOnly c s (s.modCtx c (·.modStn i f)) :=
  modCtx_movesOnly c s fun _ => rfl

theorem count_movesOnly (c : CtxId) (f : Counters → Counters) (s : State) : MovesOnly c s (s.modCtx c (·.count f)) :=
  modCtx_movesOnly c s fun _ => rfl

theorem wakeBench_movesOnly (c : CtxId) (b : Nat) (s : State) : MovesOnly c s (wakeBench b s) := by
  unfold wakeBench
  split
  · exact ⟨rfl, fun _ _ => rfl, rfl⟩
  · exact MovesOnly.refl c s

theorem putStation_movesOnly (c : CtxId) (i b : Nat) (s : State) : MovesOnly c s (putStation c i b s) :=
  (wakeBench_movesOnly c b s).trans (modStn_movesOnly c i _ _)

theorem moveStation_movesOnly (c : CtxId) (i b : Nat) (s : State) : MovesOnly c s (moveStation c i b s) :=
  (putStation_movesOnly c i b s).trans (count_movesOnly c _ _)

theorem resettle_movesOnly (c : CtxId) (m : Image) (i : Nat) (s : State) : MovesOnly c s (resettle c m i s) := by
  unfold resettle
  dsimp only
  split
  · exact moveStation_movesOnly ..
  · exact putStation_movesOnly ..

theorem each_movesOnly {α : Type} {c : CtxId} {f : α → State → State} (hf : ∀ a t, MovesOnly c t (f a t)) (L : List α) (s : State) :
    MovesOnly c s (s.each L f) := by
  induction L generalizing s with
  | nil => exact MovesOnly.refl c s
  | cons a L ih => exact (hf a s).trans (ih (f a s))

theorem compelMoves_movesOnly (c : CtxId) (m : Image) (s : State) : MovesOnly c s (compelMoves c m s) := by
  refine each_movesOnly (fun i t => ?_) _ s
  split
  · exact resettle_movesOnly c m i t
  · exact MovesOnly.refl c t

/-- A group that shows changes nothing beside the context but what moves change. -/
theorem doAgVisible_movesOnly {s : State} {c : CtxId} {g : Fin 6} (h : MayShow s c g) :
    MovesOnly c (s.setCtx c ((s.ctx c).showGroup g.val)) (doAgVisible c g s) := by
  rw [doAgVisible_shows h]
  cases (s.ctx c).active with
  | none => exact MovesOnly.refl ..
  | some m =>
    rw [Option.elim_some]
    split
    · exact compelMoves_movesOnly ..
    · exact MovesOnly.refl ..

/-- What a group that shows leaves: its values are visible, and no other group's change. -/
theorem agVisible_shown {s : State} {c : CtxId} {g : Fin 6} (h : MayShow s c g) :
    let x := s.ctx c
    ∃ t, exec (.agVisible c g) s = .next t ∧ copyGroup g.val x.pend (t.ctx c).visible = (t.ctx c).visible ∧
      (t.ctx c).agPending = x.agPending &&& ~~~BitVec.ofNat 6 (2 ^ g.val) ∧ (t.ctx c).pend = x.pend ∧ (t.ctx c).shadow = x.shadow ∧
      (∀ k : Fin 6, k ≠ g → copyGroup k.val x.visible (t.ctx c).visible = (t.ctx c).visible) ∧
      (∀ d, d ≠ c → t.ctx d = s.ctx d) ∧ t.mem = s.mem := by
  have moves := doAgVisible_movesOnly h
  obtain ⟨vis, bits, pend, shadow⟩ := moves.fields
  obtain ⟨vis', bits', pend', shadow'⟩ := showGroup_fields h.pending
  rw [setCtx_ctx] at vis bits pend shadow
  have hvis := vis.trans vis'
  refine ⟨_, rfl, ?_, bits.trans bits', pend.trans pend', shadow.trans shadow', fun k hk => ?_,
    fun d hd => (moves.ctxs d hd).trans (setCtx_ctx_ne s _ hd), moves.mem⟩
  · rw [hvis, copyGroup_same]
  · rw [hvis, copyGroup_comm hk, copyGroup_self]

/-- Settles O28: one group by the equation of its commit, several by the fold of their commits, and a group that shows by what
the moves it compels leave as it is. -/
theorem agreementGroups : Obligations.AgreementGroups := by
  unfold Obligations.AgreementGroups
  refine ⟨fun s fn c g h => ⟨agCommit_one_clean h g, fun code => agCommit_one_charged h g⟩, fun s c g hw hb => ⟨fun hp hg => ?_,
    fun m hg hp hm hph => ?_, fun hn => congrArg _ (doAgVisible_waits hn)⟩, fun s fn c groups low h => agCommit_groups h groups,
    fun s c g hw hb hp hph hnum => agVisible_shown ⟨hw, hb, hp, hph, hnum⟩⟩
  · have may : MayShow s c g := by
      rcases hg with ⟨hg, hi⟩ | ⟨hg, hph⟩
      · exact ⟨hw, hb, hp, by rw [hi]; nofun, fun _ => hi⟩
      · exact ⟨hw, hb, hp, hph, fun hlt => by omega⟩
    have h4 : g.val ≠ 4 := by omega
    exact congrArg _ ((doAgVisible_other may h4).trans (congrArg _ (showGroup_other hp h4)))
  · have hp' : (s.ctx c).agPending.getLsbD g.val = true := by rw [hg]; exact hp
    rw [← showGroup_place hp' hg hm]
    exact congrArg _ (doAgVisible_place ⟨hw, hb, hp', hph, fun hlt => by omega⟩ hg hm)

end Sys2Proof.Machine
end

section
/-! PROOFS. Resets: their requests, and what each completed reset leaves (O38). -/

namespace Sys2Proof.Machine

open Sys2Proof

/-! ## Requests (R33, R393, R397, R399, R404) -/

theorem hostUp_chipBusy {s : State} (h : hostUp s = true) : s.glb.chipBusy = false := by
  simp only [hostUp, Bool.and_eq_true, Bool.not_eq_true'] at h
  exact h.2

theorem requestCtxReset_eq (c : CtxId) (cause : Nat) (s : State) :
    requestCtxReset c cause s =
      if (s.ctx c).busy then s else s.modCtx c (fun x => { x with busy := true, lastCause := BitVec.ofNat 8 cause }) := by
  show s.setCtx c (if (s.ctx c).busy then s.ctx c else _) = _
  split
  · exact setCtx_self s c
  · rfl

theorem rstContext_val (c : CtxId) (s : State) : rstContext c.val s = requestCtxReset c 1 s := dif_pos c.isLt

theorem rstContext_outside {index : Nat} (h : 32 ≤ index) (s : State) : rstContext index s = s := dif_neg (Nat.not_lt.mpr h)

theorem rstEngine_unit {kind index : Nat} {u : UnitRef} (h : unitOf kind index = some u) (s : State) :
    rstEngine kind index s = requestEngineReset u 1 s := by
  simp only [rstEngine, h]

theorem rstEngine_none {kind index : Nat} (h : unitOf kind index = none) (s : State) : rstEngine kind index s = s := by
  simp only [rstEngine, h]

theorem unitOf_outside {kind : BitVec 2} {index : Nat}
    (h : kind = 3 ∨ (kind = 0 ∧ 512 ≤ index) ∨ (kind ≠ 0 ∧ 16 ≤ index)) : unitOf kind.toNat index = none := by
  rcases h with rfl | ⟨rfl, hi⟩ | ⟨hk, hi⟩
  · rfl
  · exact dif_neg (Nat.not_lt.mpr hi)
  · unfold unitOf
    split
    next e => exact absurd (BitVec.eq_of_toNat_eq e) hk
    next => exact dif_neg (Nat.not_lt.mpr hi)
    next => exact dif_neg (Nat.not_lt.mpr hi)
    next => rfl

/-- A unit in reset, or in the reset of a larger domain, joins the reset that runs. -/
theorem requestEngineReset_joins {s : State} {u : UnitRef} (h : unitInReset s u = true ∨ ∃ p ∈ s.glb.engBusy, p.1 = u) (cause : Nat) :
    requestEngineReset u cause s = s :=
  if_pos (by simpa only [Bool.or_eq_true, List.any_eq_true, beq_iff_eq] using h)

theorem requestEngineReset_starts {s : State} {u : UnitRef} (h : ¬ (unitInReset s u = true ∨ ∃ p ∈ s.glb.engBusy, p.1 = u)) (cause : Nat) :
    requestEngineReset u cause s =
      let hit := allCtx.filter (fun c => usesUnit s (s.ctx c) u)
      (updatePlls ((s.modGlb (fun g => { setFenced u true g with engBusy := g.engBusy ++ [(u, cause, hit.map (ctxFn s))] })).modPwr
        (wakeUnit u))).each hit (fun c t => requestCtxReset c 7 t) :=
  if_neg (by simpa only [Bool.or_eq_true, List.any_eq_true, beq_iff_eq] using h)

theorem rstPartition_quarters {index : Nat} {s : State} {q : BitVec 4} (hi : index < 4) (hq : partitionOf s index = some q) :
    rstPartition index s = requestPartReset q 1 s := by
  simp only [rstPartition, hi, hq, ↓reduceIte]

theorem rstPartition_none {index : Nat} {s : State} (h : 4 ≤ index ∨ partitionOf s index = none) : rstPartition index s = s := by
  unfold rstPartition
  rcases h with h | h
  · rw [if_neg (Nat.not_lt.mpr h)]
  · rw [h, ite_self]

theorem requestPartReset_starts {s : State} {q : BitVec 4} (hc : s.glb.chipBusy = false) (hq : s.glb.partBusy &&& q = 0) (cause : Nat) :
    requestPartReset q cause s =
      (updatePlls (s.modGlb (fun g => { g with
        partBusy := g.partBusy ||| q, partRst := g.partRst ++ [(q, cause, (ctxsOf s q).map (ctxFn s))] }))).each
        (ctxsOf s q) (fun c t => requestCtxReset c cause t) :=
  if_neg (by simp [hc, hq])

theorem requestChipReset_starts {s : State} (h : s.glb.chipBusy = false) (cause : Nat) :
    requestChipReset cause s = updatePlls (s.modGlb (fun g => { g with chipBusy := true, chipCause := cause })) :=
  if_neg (by simp [h])

@[simp] theorem raiseAlert_func (n : Nat) (s : State) (f : FnId) : (raiseAlert n s).func f = s.func f := by
  unfold raiseAlert
  split <;> rfl

/-- While the ring of PF0 is out of service a power-cycle request is an alert and no event (R401). -/
theorem requestPowerCycle_quiet {s : State} (h : (s.func 0).en = false) (reason : Nat) :
    requestPowerCycle reason s = raiseAlert alertRecovery (s.modMgt (fun m => { m with recReq := true, recReason := BitVec.ofNat 8 reason })) :=
  if_neg (by rw [raiseAlert_func]; exact Bool.eq_false_iff.mp h)

/-! ## A completed context reset (R354, R390, R393) -/

theorem endAttempt_unrecorded {s : State} {c : CtxId} (hc : (s.ctx c).phase ≠ .closing) (hh : (s.ctx c).phase ≠ .held)
    (hp : (s.ctx c).phase ≠ .preempted) : endAttempt c s = s.modCtx c (·.dropStep) := by
  simp only [endAttempt, if_neg hp]
  split
  next e _ _ => exact absurd e hc
  next e _ => exact absurd e hc
  next e => exact absurd e hh
  next => rfl

theorem dropBarriers_leaves (c : CtxId) (s : State) :
    (∀ k, (dropBarriers c s).barrier k =
      if (s.barrier k).owner = c then { s.barrier k with enable := false, arrived := [], heldNext := [] } else s.barrier k) ∧
    (dropBarriers c s).ctxs = s.ctxs ∧ (dropBarriers c s).mem = s.mem := by
  have h := each_barriers (fun b => decide (b.owner = c)) (fun b => { b with enable := false, arrived := [], heldNext := [] })
    (List.finRange 64) (List.nodup_finRange 64) s
  unfold dropBarriers
  simpa only [decide_eq_true_eq, List.mem_finRange, true_and] using h

/-- A context with no access to host memory under way is left alone where freed page requests go out. -/
theorem askQueued_leaves {s : State} {c : CtxId} (h : (s.ctx c).mmu.ats = []) :
    (askQueued s).ctx c = s.ctx c ∧ (askQueued s).barriers = s.barriers ∧ (askQueued s).mem = s.mem := by
  unfold askQueued State.each
  refine List.foldlRecOn (motive := fun t : State => t.ctx c = s.ctx c ∧ t.barriers = s.barriers ∧ t.mem = s.mem) _ _
    ⟨rfl, rfl, rfl⟩ fun t ⟨own, bars, mem⟩ d _ => ?_
  dsimp only
  split
  next queued =>
    have other : c ≠ d := by
      rintro rfl
      rw [own, h] at queued
      cases queued
    exact ⟨(modCtx_ctx_ne t _ other).trans own, bars, mem⟩
  next => exact ⟨own, bars, mem⟩

theorem placeSems_leaves (c : CtxId) (s : State) : (∃ b, (placeSems c s).ctx c = { s.ctx c with semBench := b }) ∧
    (placeSems c s).barriers = s.barriers ∧ (placeSems c s).mem = s.mem := by
  unfold placeSems
  dsimp only
  split
  · exact ⟨⟨_, (modPwr_ctx ..).trans (modCtx_ctx ..)⟩, rfl, rfl⟩
  · exact ⟨⟨_, modCtx_ctx ..⟩, rfl, rfl⟩

theorem retryRemote_none {s : State} {c : CtxId} (h : (s.ctx c).heldRemote = []) : retryRemote c s = s := by
  rw [retryRemote, h]
  rfl

/-- The state in which a context reset is reported: the attempt is over, the context reset, its barriers disabled. -/
def resetReported (c : CtxId) (s : State) : State :=
  placeSems c (askQueued (((dropBarriers c (endAttempt c s)).modSec (fun k => { k with queue := k.queue.filter (· != c) })).modCtx c
    (fun x => { x.afterReset with busy := false, resets := satAdd x.resets 1 })))

theorem finishCtxReset_eq (c : CtxId) (s : State) : finishCtxReset c s =
    retryRemote c (ctxEvent c 0x1802 false (domainPayload (resetReported c s) c.val 1 0 c.val ((resetReported c s).ctx c).lastCause.toNat
      ((resetReported c s).ctx c).step.toNat) (resetReported c s)) := rfl

/-- What the reset of context `c` leaves where the step that it ends has no record. -/
structure ResetLeaves (c : CtxId) (s t : State) : Prop where
  own : ∃ b, t.ctx c = { (s.ctx c).dropStep.afterReset with busy := false, resets := satAdd (s.ctx c).resets 1, semBench := b }
  barriers : ∀ k, t.barrier k =
    if (s.barrier k).owner = c then { s.barrier k with enable := false, arrived := [], heldNext := [] } else s.barrier k
  mem : t.mem = s.mem

theorem resetReported_leaves {s : State} {c : CtxId} (hc : (s.ctx c).phase ≠ .closing) (hh : (s.ctx c).phase ≠ .held)
    (hp : (s.ctx c).phase ≠ .preempted) : ResetLeaves c s (resetReported c s) := by
  obtain ⟨dropBars, dropCtxs, dropMem⟩ := dropBarriers_leaves c (s.modCtx c (·.dropStep))
  have dropOwn : (dropBarriers c (s.modCtx c (·.dropStep))).ctx c = (s.ctx c).dropStep := by
    rw [State.ctx, dropCtxs]
    exact modCtx_ctx ..
  unfold resetReported
  rw [endAttempt_unrecorded hc hh hp]
  generalize dropBarriers c (s.modCtx c (·.dropStep)) = d at dropBars dropMem dropOwn ⊢
  obtain ⟨u, hu⟩ : ∃ u, u = (d.modSec (fun k => { k with queue := k.queue.filter (· != c) })).modCtx c
    (fun x => { x.afterReset with busy := false, resets := satAdd x.resets 1 }) := ⟨_, rfl⟩
  have own : u.ctx c = { (s.ctx c).dropStep.afterReset with busy := false, resets := satAdd (s.ctx c).resets 1 } := by
    rw [hu, modCtx_ctx, modSec_ctx, dropOwn]
    rfl
  have bars : u.barriers = d.barriers := by rw [hu]; rfl
  have mem : u.mem = d.mem := by rw [hu]; rfl
  rw [← hu]
  obtain ⟨askOwn, askBars, askMem⟩ := askQueued_leaves (s := u) (c := c) (by rw [own]; rfl)
  obtain ⟨⟨b, placeOwn⟩, placeBars, placeMem⟩ := placeSems_leaves c (askQueued u)
  refine ⟨⟨b, ?_⟩, fun k => ?_, placeMem.trans (askMem.trans (mem.trans dropMem))⟩
  · rw [placeOwn, askOwn, own]
  · rw [barrier_eq (placeBars.trans (askBars.trans bars)), dropBars]
    rfl

theorem finishCtxReset_leaves {s : State} {c : CtxId} (hr : (s.ctx c).heldRemote = []) (hc : (s.ctx c).phase ≠ .closing)
    (hh : (s.ctx c).phase ≠ .held) (hp : (s.ctx c).phase ≠ .preempted) : ResetLeaves c s (finishCtxReset c s) := by
  obtain ⟨⟨b, own⟩, bars, mem⟩ := resetReported_leaves hc hh hp
  rw [finishCtxReset_eq, retryRemote_none (by rw [ctxEvent_ctx, own]; exact hr)]
  exact ⟨⟨b, by rw [ctxEvent_ctx, own]⟩, fun k => (barrier_eq (ctxEvent_barriers ..) k).trans (bars k), (ctxEvent_mem ..).trans mem⟩

/-! ## What completes under a target (R388 to R391, R397, R399) -/

theorem exec_resetComplete (t : ResetTarget) (s : State) : exec (.resetComplete t) s = .next (completeReset endCtxReset t s) := rfl

section
variable {s : State} (hm : s.pwr.mainOn = true) (hb : 6 ≤ s.pwr.bootEvent)
include hm hb

theorem completeReset_context {c : CtxId} (hbusy : (s.ctx c).busy = true) (hpart : inPartReset s (s.ctx c) = false)
    (hchip : s.glb.chipBusy = false) (finish : CtxId → State → State) : completeReset finish (.context c) s = finish c s := by
  simp only [completeReset, hm, hb, hbusy, hpart, hchip, decide_true, Bool.and_self, Bool.not_true, Bool.not_false,
    Bool.false_eq_true, ↓reduceIte]

theorem completeReset_engine {u : UnitRef} {p : UnitRef × Nat × List FnId} (hp : s.glb.engBusy.find? (fun e => e.1 == u) = some p)
    (hin : unitInReset s u = false) (hheld : unitHeld s u = false) (finish : CtxId → State → State) :
    completeReset finish (.engine u) s = finishEngine p s := by
  simp only [completeReset, hm, hb, hp, hin, hheld, decide_true, Bool.and_self, Bool.not_true, Bool.or_self,
    Bool.false_eq_true, ↓reduceIte]

theorem completeReset_partition {q : QuarterId} {p : BitVec 4 × Nat × List FnId}
    (hp : s.glb.partRst.find? (fun e => e.1.getLsbD q.val) = some p) (hchip : s.glb.chipBusy = false) (finish : CtxId → State → State) :
    completeReset finish (.partition q) s = finishPartition p finish s := by
  simp only [completeReset, hm, hb, hp, hchip, decide_true, Bool.and_self, Bool.not_true, Bool.false_eq_true, ↓reduceIte]

theorem completeReset_chip (hchip : s.glb.chipBusy = true) (finish : CtxId → State → State) :
    completeReset finish .chip s = chipClear s := by
  simp only [completeReset, hm, hb, hchip, decide_true, Bool.and_self, Bool.not_true, Bool.false_eq_true, ↓reduceIte]

end

/-- A change of GLB_BUDDY_GIB that takes effect at a chip reset leaves no memory (R390). -/
theorem chipClear_resized {s : State} (h : s.glb.buddyGib ≠ s.glb.buddyGibInForce) : (chipClear s).mem = [] ∧ (chipClear s).poison = [] := by
  simp [chipClear, chipMem, h]

/-- Settles O38: each request acts through its port, and each completion is what its target makes of `completeReset`. -/
theorem resets : Obligations.Resets := by
  unfold Obligations.Resets
  refine ⟨fun s fn => ?_, fun s hm hb => ⟨fun c => ?_, fun u p hp hin hheld => ?_, fun q p hp hchip => ?_, fun hchip => ?_⟩⟩
  · intro inReset
    have inReset_eq (c : CtxId) : requestCtxReset c 1 = inReset c := funext (requestCtxReset_eq c 1)
    refine ⟨fun c hu hr => ?_, fun h => ⟨fun c index hi => ?_, fun index hi => ?_, fun kind index u hu => ?_, fun kind index hk => ?_,
      fun index q hi hq hbusy => ?_, fun index hi => ?_, ?_, fun hen => ?_⟩⟩
    · show Host.Outcome.next (if hostUp s && fnReaches s fn c then _ else _) = _
      rw [hu, hr, inReset_eq]
      rfl
    · exact next_rstPort h (by rw [hi, rstContext_val, inReset_eq])
    · exact next_rstPort h (rstContext_outside hi s)
    · refine next_rstPort h ((rstEngine_unit hu s).trans ?_)
      dsimp only
      split
      next hj => exact requestEngineReset_joins hj 1
      next hj => exact requestEngineReset_starts hj 1
    · exact next_rstPort h (rstEngine_none (unitOf_outside hk) s)
    · refine next_rstPort h ((rstPartition_quarters hi hq).trans ?_)
      rw [requestPartReset_starts (hostUp_chipBusy h.up) hbusy]
      simp only [inReset_eq]
      rfl
    · exact next_rstPort h (rstPartition_none hi)
    · exact next_rstPort h (requestChipReset_starts (hostUp_chipBusy h.up) 1)
    · exact next_rstPort h (requestPowerCycle_quiet hen 1)
  · intro x hbusy hpart hchip hr hc hh hp
    obtain ⟨⟨b, own⟩, bars, mem⟩ := finishCtxReset_leaves hr hc hh hp
    refine ⟨finishCtxReset c s, b, ?_, own, bars, mem⟩
    rw [exec_resetComplete, completeReset_context hm hb hbusy hpart hchip, endCtxReset]
  · rw [exec_resetComplete, completeReset_engine hm hb hp hin hheld]
  · rw [exec_resetComplete, completeReset_partition hm hb hp hchip]
  · refine ⟨chipClear s, ?_, rfl, rfl, rfl, rfl, rfl, rfl, rfl, rfl, rfl, rfl, rfl, rfl, rfl, rfl,
      rfl, rfl, rfl, chipClear_resized⟩
    rw [exec_resetComplete, completeReset_chip hm hb hchip]

end Sys2Proof.Machine
end

section
/-! PROOFS. The life of a step: runs and the step number, sealing and commit, closing and the generation switch (O21, O25, O26). -/

namespace Sys2Proof.Machine

open Sys2Proof

/-! ## Runs (R31) -/

/-- RUN_STEPS may start a run. -/
def Ctx.mayRun (x : Ctx) (steps : BitVec 24) : Prop :=
  x.phase = .idle ∧ steps ≠ 0 ∧ x.active.isSome = true ∧ x.startWait = none

/-- The condition under which RUN_STEPS is refused fails exactly where it may start a run. -/
theorem not_refused_iff {x : Ctx} {steps : BitVec 24} :
    (x.phase != .idle || steps == 0 || x.active.isNone || x.startWait.isSome) = false ↔ x.mayRun steps := by
  simp only [Ctx.mayRun, Bool.or_eq_false_iff, bne_eq_false_iff_eq, beq_eq_false_iff_ne, Option.isNone_eq_false_iff,
    Option.isSome_eq_false_iff, Option.isNone_iff_eq_none, and_assoc]

section
variable {s : State} {c : CtxId} {steps : BitVec 24}

theorem doRunSteps_starts (h : (s.ctx c).mayRun steps) :
    doRunSteps c steps false s = kick c (s.setCtx c { s.ctx c with startWait := some steps }) ∧
    doRunSteps c steps true s = kick c ((s.setCtx c { s.ctx c with startWait := some steps }).modCtx c (·.stopRun)) := by
  have ok := not_refused_iff.mpr h
  constructor <;> simp only [doRunSteps, ok, Bool.false_eq_true, ↓reduceIte]

theorem doRunSteps_violates (h : ¬ (s.ctx c).mayRun steps) :
    doRunSteps c steps false s = violate c 0x0102 s ∧ doRunSteps c steps true s = (violate c 0x0102 s).modCtx c (·.stopRun) := by
  have bad := eq_true_of_ne_false (mt not_refused_iff.mp h)
  constructor <;> simp only [doRunSteps, bad, Bool.false_eq_true, ↓reduceIte]

end

/-- A write of CTX_STEP in IDLE (R298, R463). -/
theorem doCtxStepWrite_idle {s : State} {c : CtxId} (h : (s.ctx c).phase = .idle) (sel : WordSel) (v : U64) :
    doCtxStepWrite c sel v s = kick c (s.setCtx c { s.ctx c with
      step := mergeWords sel (s.ctx c).step v, wit := { (s.ctx c).wit with attempt := 0 }
      chores := (s.ctx c).chores.filter (fun k => !isMark k) ++ ((s.ctx c).active.map markChores).getD [] }) :=
  if_neg (not_not_intro h)

theorem doCtxStepWrite_violates {s : State} {c : CtxId} (h : (s.ctx c).phase ≠ .idle) (sel : WordSel) (v : U64) :
    doCtxStepWrite c sel v s = violate c 0x0101 s := if_pos h

/-- Settles O21: each command acts through the window, by its equation in each of the two phases. -/
theorem runAndStepNumber : Obligations.RunAndStepNumber := by
  unfold Obligations.RunAndStepNumber
  refine ⟨fun s fn c steps h => ⟨fun ok => ?_, fun bad => ?_, next_ctxPort h rfl⟩,
    fun s fn c v h => ⟨fun idle => ?_, fun busy sel => next_ctxPort h (doCtxStepWrite_violates busy sel v)⟩⟩
  · obtain ⟨run, runStop⟩ := doRunSteps_starts ok
    refine ⟨next_ctxPort h run, next_ctxPort h (runStop.trans ?_)⟩
    rw [State.modCtx, setCtx_ctx, setCtx_setCtx]
    rfl
  · obtain ⟨run, runStop⟩ := doRunSteps_violates bad
    exact ⟨next_ctxPort h run, next_ctxPort h runStop⟩
  · exact ⟨next_ctxPort h (doCtxStepWrite_idle idle .both v), next_ctxPort h (doCtxStepWrite_idle idle .lo v),
      next_ctxPort h (doCtxStepWrite_idle idle .hi v)⟩

/-! ## Sealing and commit (R23, R27, R314, R384) -/

/-- Outside a replay no layer digests are read (R322). -/
theorem readRefLayers_none {s : State} {c : CtxId} (h : (s.ctx c).wit.replaying = false) (m : Image) :
    readRefLayers c m s = (some [], s) := by
  simp only [readRefLayers, h, Bool.false_and, Bool.false_eq_true, ↓reduceIte]

theorem all_compared {x : Ctx} : (digestPeers x).all (fun r => x.wit.compared.contains r) = true ↔ ∀ r ∈ digestPeers x, r ∈ x.wit.compared := by
  simp only [List.all_eq_true, List.contains_iff_mem]

theorem doSealStep_waits {s : State} {c : CtxId} (h : ∃ r ∈ digestPeers (s.ctx c), r ∉ (s.ctx c).wit.compared) : doSealStep c s = s := by
  have missing : (digestPeers (s.ctx c)).all (fun r => (s.ctx c).wit.compared.contains r) = false := by
    rw [Bool.eq_false_iff, ne_eq, all_compared]
    exact fun all => h.elim fun r hr => hr.2 (all r hr.1)
  unfold doSealStep
  dsimp only
  split
  · rfl
  · simp only [missing, Bool.not_false, Bool.or_true, ↓reduceIte]

/-- A step of no replay that has its record and every digest, and no saturated site, is sealed as `afterSeal` says. -/
theorem doSealStep_seals {s t : State} {c : CtxId} {m : Image} (ha : (s.ctx c).active = some m) (hl : ctxLive s c = true)
    (hp : (s.ctx c).phase = .closing) (hc : (s.ctx c).closing = .recorded) (hd : ∀ r ∈ digestPeers (s.ctx c), r ∈ (s.ctx c).wit.compared)
    (hr : (s.ctx c).wit.replaying = false) (hs : sealRecord c m false s = (true, t)) (hsat : satSites (t.ctx c) m = [])
    (ht : (t.ctx c).wit.replaying = false) : doSealStep c s = afterSeal c m false t := by
  have phase : ((s.ctx c).phase != .closing) = false := by rw [hp]; rfl
  have closing : ((s.ctx c).closing != .recorded) = false := by rw [hc]; rfl
  simp only [doSealStep, ha, hl, phase, closing, all_compared.mpr hd, readRefLayers_none hr, hs, hsat, ht, State.each, List.foldl_nil,
    Bool.not_true, Bool.or_self, Bool.false_and, Bool.false_eq_true, ↓reduceIte]

theorem commit_mask (x : Ctx) (m : Image) {k : Nat} {q : MaskState} (h : x.masks[k]? = some q) :
    (x.commit m).masks[k]? = some (if q.edited then { gen := q.gen + 1, digest := q.nextDigest, nextDigest := 0, edited := false } else q) := by
  simp only [Ctx.commit, List.getElem?_map, h, Option.map_some]

/-- Settles O25: what the seal becomes by the suspicion of the step, and the commit field by field. -/
theorem sealAndCommit : Obligations.SealAndCommit := by
  unfold Obligations.SealAndCommit
  refine ⟨?_, fun s c h => congrArg _ (doSealStep_waits h),
    fun x m => ⟨rfl, rfl, rfl, rfl, rfl, fun k q => commit_mask x m⟩⟩
  intro s t c m x ha hl hp hc hd hr hs hsat ht
  have becomes : exec (.sealStep c) s = .next (afterSeal c m false t) := congrArg _ (doSealStep_seals ha hl hp hc hd hr hs hsat ht)
  rw [becomes]
  refine ⟨fun clean => ?_, fun suspect => ?_⟩
  · rw [afterSeal, if_neg Bool.false_ne_true, if_neg (Bool.eq_false_iff.mp clean)]
    rfl
  · rw [afterSeal, if_neg Bool.false_ne_true, if_pos suspect]

/-! ## Closing and the generation switch (R23, R58, R59) -/

section
variable {s : State} {c : CtxId} {m : Image} (ha : (s.ctx c).active = some m) (hl : ctxLive s c = true)
include ha hl

theorem doCloseStep_drained (hp : (s.ctx c).phase = .running) (hd : stepDrained (s.ctx c) m = true) :
    doCloseStep c s = closeOn c m (s.modCtx c (fun x => { x with
      phase := .closing, closing := .open, wit := { x.wit with closing := x.closingLive } })) := by
  have running : ((s.ctx c).phase == .running) = true := by rw [hp]; rfl
  simp only [doCloseStep, ha, hl, running, hd, State.modCtx, Bool.not_true, Bool.and_self, Bool.false_eq_true, ↓reduceIte]

theorem doCloseStep_waits (hp : (s.ctx c).phase = .running) (hd : stepDrained (s.ctx c) m = false) : doCloseStep c s = s := by
  have closing : ((s.ctx c).phase == .closing) = false := by rw [hp]; rfl
  simp only [doCloseStep, ha, hl, hd, closing, Bool.not_true, Bool.and_false, Bool.false_and, Bool.false_eq_true, ↓reduceIte]

theorem doCloseStep_open (hp : (s.ctx c).phase = .closing) (hc : (s.ctx c).closing = .open) : doCloseStep c s = closeOn c m s := by
  have running : ((s.ctx c).phase == .running) = false := by rw [hp]; rfl
  have closing : ((s.ctx c).phase == .closing) = true := by rw [hp]; rfl
  have isOpen : ((s.ctx c).closing == .open) = true := by rw [hc]; rfl
  simp only [doCloseStep, ha, hl, running, closing, isOpen, Bool.not_true, Bool.and_self, Bool.false_and, Bool.false_eq_true, ↓reduceIte]

end

theorem doChores_none {s : State} {c : CtxId} (ha : (s.ctx c).active.isSome = true) (h : (s.ctx c).chores = []) : doChores c s = s := by
  obtain ⟨m, hm⟩ := Option.isSome_iff_exists.mp ha
  simp only [doChores, hm, h, runChores]

section
variable {s : State} {c : CtxId} (hl : ctxLive s c = true) (hp : (s.ctx c).phase = .committing) (hc : (s.ctx c).closing = .sealed)
  (hw : (s.ctx c).chores = [])
include hl hp hc hw

/-- The two conditions under which GENERATION_SWITCH acts at once. -/
theorem switch_ready : (!ctxLive s c || (s.ctx c).phase != .committing) = false ∧
    ((s.ctx c).closing == .sealed && (s.ctx c).chores.isEmpty) = true := by
  rw [hl, hp, hc, hw]
  exact ⟨rfl, rfl⟩

variable (ha : (s.ctx c).active.isSome = true)
include ha

theorem doGenerationSwitch_valid {m : Image} (hs : (s.ctx c).staged = .valid m) :
    doGenerationSwitch c s = kick c (s.modCtx c (fun x => { x.switchTo s.glb m with closing := .no })) := by
  obtain ⟨acts, ready⟩ := switch_ready hl hp hc hw
  simp only [doGenerationSwitch, acts, doChores_none ha hw, ready, hs, Bool.false_eq_true, ↓reduceIte]
  rfl

theorem doGenerationSwitch_unstaged (hs : ∀ m, (s.ctx c).staged ≠ .valid m) :
    doGenerationSwitch c s = kick c (s.modCtx c (fun x => { x.showNumeric with closing := .no })) := by
  obtain ⟨acts, ready⟩ := switch_ready hl hp hc hw
  simp only [doGenerationSwitch, acts, doChores_none ha hw, ready, Bool.false_eq_true, ↓reduceIte]
  cases staged : (s.ctx c).staged with
  | valid m => exact absurd staged (hs m)
  | empty => rfl
  | loading va => rfl
  | invalid => rfl

end

/-- Settles O26: a close by the phase and what is drained, a switch by the staged slot. -/
theorem closeAndSwitch : Obligations.CloseAndSwitch := by
  unfold Obligations.CloseAndSwitch
  refine ⟨fun s c m ha hl => ⟨fun hp hd => congrArg _ (doCloseStep_drained ha hl hp hd),
    fun hp hd => congrArg _ (doCloseStep_waits ha hl hp hd), fun hp hc => congrArg _ (doCloseStep_open ha hl hp hc)⟩,
    fun s c hl hp hc hw ha => ⟨fun m hs => congrArg _ (doGenerationSwitch_valid hl hp hc hw ha hs),
      fun hs => congrArg _ (doGenerationSwitch_unstaged hl hp hc hw ha hs)⟩⟩

end Sys2Proof.Machine
end

section
/-! PROOFS. SAVE, the pre-emption and RESTORE (O37). -/

namespace Sys2Proof.Machine

open Sys2Proof

section
variable {s t : State} {c : CtxId}

theorem doSave_starts (hw : mayWork s = true) (hp : (s.ctx c).phase ≠ .preempted) (hs : (s.ctx c).saving = false) :
    doSave c s = (s.setCtx c { s.ctx c with saving := true, pausing := pauseList (s.ctx c) }).each (pauseList (s.ctx c))
      (fun p u => sendColl c p.2 tPAUSE (groupHdr (s.ctx c) p.1) [] u) := by
  simp only [doSave, hp, hs, hw, Bool.not_true, Bool.or_self, Bool.false_eq_true, ↓reduceIte]

theorem doSave_violates (hp : (s.ctx c).phase = .preempted) : doSave c s = violate c 0x1104 s := if_pos hp

/-- The pre-emption once the save area is written (R377, R380). -/
theorem doPreemptComplete_saves (hw : mayWork s = true) (hb : (s.ctx c).busy = false) (hr : inPartReset s (s.ctx c) = false)
    (hs : (s.ctx c).saving = true) (hp : (s.ctx c).phase ≠ .committing) (hsave : writeSave c s = (true, t)) :
    doPreemptComplete c s =
      ctxEvent c 0x1703 false (payload [(0, 1, c.val), (1, 1, phaseCode (s.ctx c).phase), (8, 8, (s.ctx c).step.toNat)])
        (askQueued (t.modCtx c (fun y => { y with
          phase := .preempted, saved := y.phase, savedClosing := y.closing, saving := false
          mmu := { y.mmu with tlb := [], atc := [], ats := [] } }))) := by
  have phase : ((s.ctx c).phase == .committing) = false := beq_false_of_ne hp
  simp only [doPreemptComplete, hw, hb, hr, hs, phase, hsave, Bool.not_true, Bool.or_self, Bool.false_eq_true, ↓reduceIte]

/-- The area is the one that the context saved: it was read whole, and its header is the device's and agrees with its bytes. -/
def SaveAgrees (c : CtxId) (x : Ctx) (b : List Byte × Bool) : Prop :=
  b.2 = false ∧ b.1.take 64 = x.saveHeader ∧ saveHead c x (b.1.drop 64) = x.saveHeader

theorem saveAgrees_iff (x : Ctx) (b : List Byte × Bool) :
    (!b.2 && b.1.take 64 == x.saveHeader && saveHead c x (b.1.drop 64) == x.saveHeader) = true ↔ SaveAgrees c x b := by
  simp only [SaveAgrees, Bool.and_eq_true, Bool.not_eq_true', beq_iff_eq, and_assoc]

theorem doRestore_reads (hw : mayWork s = true) (hp : (s.ctx c).phase = .preempted) (hr : (s.ctx c).restoring = false)
    (hpart : inPartReset s (s.ctx c) = false) : doRestore c s = readSave c s := by
  simp only [doRestore, hp, hr, hw, hpart, ne_eq, not_true_eq_false, Bool.not_true, Bool.or_self, Bool.false_eq_true, ↓reduceIte]

theorem doRestore_violates (hp : (s.ctx c).phase ≠ .preempted) : doRestore c s = violate c 0x1104 s := if_pos hp

section
variable {b : List Byte × Bool} (hf : fetchVa c reqPreempt true ⟨(s.ctx c).saveVa.toNat * 64, 64 + (s.ctx c).saveLen⟩ s = (some b, t))
include hf

theorem readSave_agrees (h : SaveAgrees c (s.ctx c) b) : readSave c s = placeRestored c t := by
  simp only [readSave, hf]
  exact if_pos ((saveAgrees_iff (s.ctx c) b).mpr h)

theorem readSave_differs (h : ¬ SaveAgrees c (s.ctx c) b) :
    readSave c s = (violate c 0x1103 t).modCtx c (fun y => { y with restoring := false }) := by
  simp only [readSave, hf]
  exact if_neg (mt (saveAgrees_iff (s.ctx c) b).mp h)

end

end

@[simp] theorem leBytes_length (n v : Nat) : (leBytes n v).length = n := by
  induction n generalizing v with
  | zero => rfl
  | succ n ih => rw [leBytes, List.length_cons, ih]

theorem saveHead_length (c : CtxId) (x : Ctx) (body : List Byte) : (saveHead c x body).length = 64 := by
  simp only [saveHead, zeroBytes, List.length_append, leBytes_length, List.length_replicate, List.length_map, List.length_range]

theorem saveHead_take (c : CtxId) (x : Ctx) (body : List Byte) : (saveHead c x body).take 8 =
    [0x53, 0x41, 0x56, 0x45, BitVec.ofNat 8 c.val, BitVec.ofNat 8 x.qmask.toNat, 0, 0] := by
  have magic : leBytes 4 0x45564153 = [0x53, 0x41, 0x56, 0x45] := rfl
  have byte (v : Nat) : leBytes 1 v = [BitVec.ofNat 8 v] := rfl
  have zeros : zeroBytes 2 = [0, 0] := rfl
  simp only [saveHead, magic, byte, zeros, List.append_assoc, List.cons_append, List.nil_append, List.take_succ_cons, List.take_zero]

/-- Settles O37: SAVE and RESTORE act through the window by the phase, the pre-emption once the area is written. -/
theorem preemption : Obligations.Preemption := by
  unfold Obligations.Preemption
  intro s t fn c x
  refine ⟨fun h hw hp hs => next_ctxPort h (doSave_starts hw hp hs),
    fun hw hb hr hs hp hsave => congrArg Host.Outcome.next (doPreemptComplete_saves hw hb hr hs hp hsave),
    fun body => ⟨saveHead_length c x body, saveHead_take c x body⟩, fun b bad h hw hp hr hpart hf => ?_,
    fun h => ⟨fun hp => next_ctxPort h (doSave_violates hp), fun hp => next_ctxPort h (doRestore_violates hp)⟩⟩
  have reads := doRestore_reads hw hp hr hpart
  refine ⟨fun hbad hhead hbody => next_ctxPort h (reads.trans (readSave_agrees hf ⟨hbad, hhead, hbody⟩)),
    fun hdiff => next_ctxPort h (reads.trans (readSave_differs hf fun ⟨hbad, hhead, hbody⟩ => ?_))⟩
  rcases hdiff with hd | hd | hd
  · exact Bool.false_ne_true (hbad.symm.trans hd)
  · exact hd hhead
  · exact hd hbody

end Sys2Proof.Machine
end

section
/-! PROOFS. REDUCE_INPUT_TILE and the start of the exchange (O57). -/

namespace Sys2Proof.Machine

open Sys2Proof

/-! ## The tiles that a station takes (R261, R266, R309, R321) -/

/-- A context whose contribution replay only digests the inputs of the station. -/
def Ctx.onlyDigests (x : Ctx) (st : Station) : Prop := x.wit.replaying = true ∧ x.wit.mode = 2 ∧ st.o 0 1 ≠ 2

theorem onlyDigests_iff (x : Ctx) (st : Station) :
    (x.wit.replaying && x.wit.mode == 2 && st.o 0 1 != 2) = true ↔ x.onlyDigests st := by
  simp only [Ctx.onlyDigests, Bool.and_eq_true, beq_iff_eq, bne_iff_ne, and_assoc]

theorem reduce_occupied {s : State} {c : CtxId} {i : Nat} {m : Image}
    (hsome : (s.ctx c).peek m i 0 ≠ none ∨ ((s.ctx c).stn i).held ≠ []) :
    (((s.ctx c).peek m i 0).isNone && ((s.ctx c).stn i).held.isEmpty) = false := by
  rw [Bool.eq_false_iff, ne_eq, Bool.and_eq_true, Option.isNone_iff_eq_none, List.isEmpty_iff]
  exact fun ⟨hp, hh⟩ => hsome.elim (absurd hp) (absurd hh)

section
variable {s u : State} {c : CtxId} {i : Nat} {m : Image} {st : Station} {w : TensorRec} (h : Acting s c i kREDUCE m st)
  (hw : m.tensor st.tensor = some w)
include h hw

/-- With no tile at hand the exchange goes on with what it holds. -/
theorem doReduceInputTile_empty (hp : (s.ctx c).peek m i 0 = none) (hh : ((s.ctx c).stn i).held = []) :
    doReduceInputTile c i s = reduceProgress c i m st s := by
  rw [doReduceInputTile, withStation_acting h]
  simp only [hw, hp, hh, Option.isNone_none, List.isEmpty_nil, Bool.and_self, ↓reduceIte]

variable (hsome : (s.ctx c).peek m i 0 ≠ none ∨ ((s.ctx c).stn i).held ≠ [])
include hsome

theorem doReduceInputTile_stops
    (ha : access c (reqStation i) false false ((reduceSpans (s.ctx c) m st w).1 ++ (reduceSpans (s.ctx c) m st w).2) s = (none, u)) :
    doReduceInputTile c i s = u := by
  rw [doReduceInputTile, withStation_acting h]
  simp only [hw, reduce_occupied hsome, ha, Bool.false_eq_true, ↓reduceIte]

variable {tab : List PageMap}
  (ha : access c (reqStation i) false false ((reduceSpans (s.ctx c) m st w).1 ++ (reduceSpans (s.ctx c) m st w).2) s = (some tab, u))
include ha

/-- A contribution replay digests the tile it takes and goes no further. -/
theorem doReduceInputTile_digests (hd : (s.ctx c).onlyDigests st) {t : Tile} {v : State}
    (ht : takeTile c m i 0 ((chargeRead c tab ((reduceSpans (s.ctx c) m st w).1 ++ (reduceSpans (s.ctx c) m st w).2) u).modCtx c
      (useBands i false (reduceMetas (u.ctx c) m w tab u))) = (some t, v)) :
    doReduceInputTile c i s = takeReduce c i st w (shapeOf (u.ctx c) m w tab u) true t v := by
  have alone := (onlyDigests_iff (s.ctx c) st).mpr hd
  rw [doReduceInputTile, withStation_acting h]
  simp only [hw, reduce_occupied hsome, ha, alone, ht, Bool.not_true, Bool.false_and, Bool.false_eq_true, ↓reduceIte]

/-- Any other step opens the exchange of the station, takes the tile where there is one, and goes on with the exchange. -/
theorem doReduceInputTile_runs (hd : ¬ (s.ctx c).onlyDigests st) :
    let shape := shapeOf (u.ctx c) m w tab u
    let z := (chargeRead c tab ((reduceSpans (s.ctx c) m st w).1 ++ (reduceSpans (s.ctx c) m st w).2) u).modCtx c
      (useBands i false (reduceMetas (u.ctx c) m w tab u))
    let r := takeTile c m i 0 (if ((z.ctx c).inst i (baseSubject st)).isNone then openStation c i m st w shape z else z)
    doReduceInputTile c i s = runReduce c i m st w shape ((reduceSpans (s.ctx c) m st w).2.flatMap (readSpan tab u))
      (r.1.elim r.2 (fun t => takeReduce c i st w shape false t r.2)) := by
  have alone := Bool.eq_false_iff.mpr (mt (onlyDigests_iff (s.ctx c) st).mp hd)
  rw [doReduceInputTile, withStation_acting h]
  simp only [hw, reduce_occupied hsome, ha, alone, Bool.not_false, Bool.true_and, Bool.false_eq_true, ↓reduceIte]
  split
  next e => rw [e, Option.elim_none]
  next e => rw [e, Option.elim_some]

end

section
variable {s : State} {c : CtxId} {i : Nat} {st : Station} {w : TensorRec} {shape : List ShapeTile} {t : Tile}

theorem takeReduce_repeated (h : ((s.ctx c).stn i).seen.contains t.xy = true) (alone : Bool) :
    takeReduce c i st w shape alone t s = violate c 0x0C03 s := if_pos h

theorem takeReduce_holds (h : ((s.ctx c).stn i).seen.contains t.xy = false) :
    let noted := s.modCtx c (fun x => x.modStn i (fun n => { n with seen := n.seen ++ [t.xy] }))
    let digested := if st.o 0 1 = 2 then noted
      else noted.modCtx c (foldContrib (unitCrc w.tensorId 6 0 (inputOrdinal w shape t.xy) (tileBytes t)))
    takeReduce c i st w shape false t s = digested.modCtx c (fun x => x.modStn i (fun n => { n with held := n.held ++ [t] })) :=
  if_neg (Bool.eq_false_iff.mp h)

theorem takeReduce_digests (h : ((s.ctx c).stn i).seen.contains t.xy = false) :
    let noted := s.modCtx c (fun x => x.modStn i (fun n => { n with seen := n.seen ++ [t.xy] }))
    let digested := if st.o 0 1 = 2 then noted
      else noted.modCtx c (foldContrib (unitCrc w.tensorId 6 0 (inputOrdinal w shape t.xy) (tileBytes t)))
    takeReduce c i st w shape true t s = if shape.all (fun k => ((digested.ctx c).stn i).seen.contains k.xy)
      then digested.modCtx c (fun x => x.modStn i (fun n => { n with fin := true })) else digested :=
  if_neg (Bool.eq_false_iff.mp h)

end

/-! ## The exchange (R21, R263, R279) -/

section
variable {s : State} {c : CtxId} {i : Nat} {m : Image} {st : Station} {n : Inst}

theorem beginInst_begun {subj : Nat} (hn : (s.ctx c).inst i subj = some n) (hb : n.begun = true) : beginInst c i subj s = s := by
  simp only [beginInst, hn, hb, ↓reduceIte]

theorem beginInst_starts {subj : Nat} (hn : (s.ctx c).inst i subj = some n) (hb : n.begun = false) (hnan : n.nan = false) :
    beginInst c i subj s = startInst c n s := by
  simp only [beginInst, hn, hb, hnan, Bool.false_eq_true, ↓reduceIte]

/-- A tile with no residues beside it meets no residue check. -/
theorem checkSides_bare {t : Tile} (h : t.side = []) (site : CheckSite) (op : CheckOp) (tap : Nat) :
    checkSides c site op tap [t] s = s := by
  have fails : t.sideFails = [] := if_pos (by rw [h]; rfl)
  simp only [checkSides, List.flatMap_cons, List.flatMap_nil, fails, List.append_nil, State.each, List.foldl_nil]

variable {w : TensorRec} {shape : List ShapeTile} {frozen : List Byte}

theorem enterTile_bare {t : Tile} {k : ShapeTile} (hk : shape.find? (fun k => k.xy == t.xy) = some k) (ht : t.side = [])
    (hn : (s.ctx c).inst i (baseSubject st) = some n) :
    enterTile c i m st w shape frozen t s = takeInput c i m st w k t (shapePresent (s.ctx c) w st.tensor frozen k t) s := by
  simp only [enterTile, hk, hn, checkSides_bare ht]

theorem runReduce_waits (h : gradientDone (s.ctx c) m i = false) : runReduce c i m st w shape frozen s = s :=
  if_pos (by rw [h]; rfl)

/-- An exchange that has begun takes the tiles that its station holds. -/
theorem runReduce_begun (h : gradientDone (s.ctx c) m i = true) (hn : (s.ctx c).inst i (baseSubject st) = some n) (hb : n.begun = true) :
    runReduce c i m st w shape frozen s = reduceProgress c i m st
      ((s.modCtx c (fun x => x.modStn i (fun n => { n with held := [] }))).each ((s.ctx c).stn i).held (enterTile c i m st w shape frozen)) := by
  simp only [runReduce, h, beginInst_begun hn hb, Bool.not_true, Bool.false_eq_true, ↓reduceIte]

end

/-- Settles O57: the command by what it finds at its ports, the tile it takes by whether it was seen, the exchange by whether it has
begun. -/
theorem reduceInputs : Obligations.ReduceInputs := by
  unfold Obligations.ReduceInputs
  refine ⟨?_, fun s c i st w shape t => ⟨takeReduce_repeated, fun h => ⟨takeReduce_holds h, takeReduce_digests h⟩⟩,
    fun s c i m st w shape frozen => ⟨runReduce_waits, fun hg n hn hb => ⟨fun hh => ?_, fun t k hh hk ht => ?_⟩,
      fun n => beginInst_starts⟩⟩
  · intro s c i m st w h hw x sp alone
    refine ⟨fun hp hh => congrArg _ (doReduceInputTile_empty h hw hp hh),
      fun hsome => ⟨fun u ha => congrArg _ (doReduceInputTile_stops h hw hsome ha), fun tab u ha => ?_⟩⟩
    refine ⟨fun hd t v ht => congrArg _ (doReduceInputTile_digests h hw hsome ha hd ht), fun hd => ?_⟩
    have runs := doReduceInputTile_runs h hw hsome ha hd
    refine ⟨fun v ht => congrArg _ (runs.trans ?_), fun t v ht => congrArg _ (runs.trans ?_)⟩
    · rw [ht]
      rfl
    · rw [ht]
      rfl
  · rw [runReduce_begun hg hn hb, hh]
    rfl
  · have inst : ((s.modCtx c (fun x => x.modStn i (fun n => { n with held := [] }))).ctx c).inst i (baseSubject st) = some n := by
      rw [modCtx_ctx]
      exact hn
    rw [runReduce_begun hg hn hb, hh, State.each, List.foldl_cons, List.foldl_nil, enterTile_bare hk ht inst]

end Sys2Proof.Machine
end

section
/-! PROOFS. Commands of stations outside a step (O8). -/

namespace Sys2Proof.Machine

open Sys2Proof

/-- A command that a station carries out is an act of that station. -/
theorem exec_station {i : Instr} {c : CtxId} {st : Nat} (h : i.station = some (c, st)) :
    ∃ k act, ∀ s, exec i s = .next (withStation c st k act s) := by
  cases i <;> cases h <;> exact ⟨_, _, fun _ => rfl⟩

/-- Settles O8: every such command is an act of its station, and no station acts where the stations do not run. -/
theorem stationsRest : Obligations.StationsRest := by
  intro i c st s h hrest
  obtain ⟨k, act, e⟩ := exec_station h
  rw [e, withStation_rests hrest]

end Sys2Proof.Machine
end

section
/-! PROOFS. The slots of images: LOAD, DISCARD, the outcome of a load, ACTIVATE (O22, O23). -/

namespace Sys2Proof.Machine

open Sys2Proof

/-! ## The staged slot (R52, R54, R55) -/

section
variable {s t : State} {c : CtxId} {va : Nat} {b : List Byte}

theorem doLoad_eq (c : CtxId) (s : State) :
    doLoad c s = s.setCtx c { (s.ctx c).forgetReq reqLoad with staged := .loading (64 * (s.ctx c).carcassAddr.toNat), err := 0 } := by
  rw [Nat.mul_comm]
  rfl

/-- The outcome of a load: the checks of the bytes read, on the context as the read leaves it. -/
theorem doLoadDone_reads (hs : (s.ctx c).staged = .loading va) (hl : ctxLive s c = true) (ha : (s.ctx c).assigned = true)
    (hr : readImage c va s = (some b, t)) {e : Option U16}
    (he : imageErr ((t.ctx c).active.map (·.generation)) (t.ctx c).quarters b = e) :
    doLoadDone c s = t.modCtx c (fun x => e.elim { x with staged := .valid (imageOf b), err := 0 } x.refuseImage) := by
  simp only [doLoadDone, hs, hl, ha, hr, Bool.not_true, Bool.false_eq_true, ↓reduceIte, State.modCtx, he]
  cases e <;> rfl

end

/-- Settles O22: LOAD and DISCARD act through the window, LOAD_DONE by what the checks of the image find. -/
theorem stagedImages : Obligations.StagedImages := by
  unfold Obligations.StagedImages
  exact ⟨fun s fn c h => ⟨next_ctxPort h (doLoad_eq c s), next_ctxPort h rfl⟩, fun s t c va b hs hl ha hr =>
    ⟨fun he => congrArg _ (doLoadDone_reads hs hl ha hr he), fun e he => congrArg _ (doLoadDone_reads hs hl ha hr he)⟩⟩

/-! ## ACTIVATE (R57) -/

theorem doActivate_takes {s : State} {c : CtxId} {m : Image} (hp : (s.ctx c).phase = .idle) (hs : (s.ctx c).staged = .valid m) :
    let y := (s.ctx c).takeImage s.glb m {} {}
    doActivate c s = kick c (s.setCtx c { y with
      masks := m.masks.map (fun _ => {}), sems := y.sems.map (fun q => { q with count := 0 })
      chores := [.gaugeInit] ++ (derivedMasks m).map Chore.derive ++ markChores m }) := by
  simp only [doActivate, hp, hs]

theorem doActivate_violates {s : State} {c : CtxId} (h : (s.ctx c).phase ≠ .idle ∨ ∀ m, (s.ctx c).staged ≠ .valid m) :
    doActivate c s = violate c 0x0212 s := by
  unfold doActivate
  dsimp only
  split
  · next m hp hs =>
    rcases h with h | h
    · exact absurd hp h
    · exact absurd hs (h m)
  · rfl

/-- Settles O23: ACTIVATE acts through the window, by the phase and the staged slot. -/
theorem activation : Obligations.Activation := by
  intro s fn c h
  exact ⟨fun m hp hs => next_ctxPort h (doActivate_takes hp hs), fun hv => next_ctxPort h (doActivate_violates hv)⟩

end Sys2Proof.Machine
end

section
/-! PROOFS. Writes of live fields (O29). -/

namespace Sys2Proof.Machine

open Sys2Proof

/-- The stations of the active image that read a live field. -/
def Ctx.readersOf (x : Ctx) (f : LiveField) : List Nat := (x.active.map (fun m => liveReaders m f)).getD []

/-- The violations of a logged write beside that of its value: in a replay, beyond the eighth, and without room in the log. -/
def Ctx.logCodes (x : Ctx) (f : LiveField) : List U16 :=
  (if x.wit.replaying then [0x0E02] else []) ++ (if 8 ≤ x.liveCount then [0x0214] else []) ++
    (if 96 < poolUsed x.wit + (x.readersOf f).length then [0x0E03] else [])

section
variable {x : Ctx} {f : LiveField} {w : U32} (hfix : liveFix f w = (some w, none))
include hfix

theorem liveWrite_unlogged (hstep : (numericLive f && x.inProgress) = false) :
    x.liveWrite f w = { x with live := putLive f w x.live } := by
  simp only [Ctx.liveWrite, hfix, hstep, Option.toList_none, List.append_nil, lowestCode, Ctx.charge, Bool.false_and,
    Bool.false_eq_true, ↓reduceIte]

variable (hstep : (numericLive f && x.inProgress) = true)
include hstep

theorem liveWrite_logged (hc : x.logCodes f = []) :
    x.liveWrite f w = { x with
      live := putLive f w x.live, liveCount := x.liveCount + 1
      wit := { x.wit with log := x.wit.log ++
        [⟨liveId f, getLive f (putLive f w x.live), (x.readersOf f).map (fun i => (i, none))⟩] } } := by
  have counts : (true && (none : Option U16) != some 0x0E02 && (none : Option U16) != some 0x0214) = true := rfl
  unfold Ctx.logCodes Ctx.readersOf at hc
  simp only [Ctx.liveWrite, hfix, hstep, hc, Option.toList_none, List.append_nil, lowestCode, Ctx.charge, counts, ↓reduceIte]
  rfl

/-- A logged write that is refused: one that found no room in the log counts. -/
theorem liveWrite_refused {code : U16} (hc : lowestCode (x.logCodes f) = some code) :
    x.liveWrite f w =
      if code = 0x0E02 ∨ code = 0x0214 then x.violate code else { x.violate code with liveCount := x.liveCount + 1 } := by
  have counts : ((true && some code != some (0x0E02 : U16) && some code != some (0x0214 : U16)) = true) =
      ¬ (code = 0x0E02 ∨ code = 0x0214) := by
    simp only [Bool.true_and, Bool.and_eq_true, bne_iff_ne, ne_eq, Option.some.injEq, not_or]
  unfold Ctx.logCodes Ctx.readersOf at hc
  simp only [Ctx.liveWrite, hfix, hstep, hc, Option.toList_none, List.nil_append, Ctx.charge, counts, ite_not, reduceCtorEq, ↓reduceIte]
  rfl

end

/-- Settles O29: what a write does follows from the codes that it meets. -/
theorem liveFieldWrites : Obligations.LiveFieldWrites := by
  intro s fn c f w h
  dsimp only
  have act {x : Ctx} (e : (s.ctx c).liveWrite f w = x) : exec (.liveFieldWrite fn c f w) s = .next (s.setCtx c x) :=
    next_ctxPort h (congrArg (s.setCtx c) e)
  have off {p : Bool} (hp : p = false) : ¬ p = true := Bool.eq_false_iff.mp hp
  refine ⟨fun hf hs => act (liveWrite_unlogged hf hs), fun hf hs hr hn hp => act (liveWrite_logged hf hs ?_),
    fun hf hs hr hn hp => act (liveWrite_refused hf hs (code := 0x0E02) ?_),
    fun hf hs hr hn => act (liveWrite_refused hf hs (code := 0x0214) ?_),
    fun hf hs hr hn hp => act (liveWrite_refused hf hs (code := 0x0E03) ?_)⟩
  · rw [Ctx.logCodes, Ctx.readersOf, if_neg (off hr), if_neg (Nat.not_le.mpr hn), if_neg (Nat.not_lt.mpr hp)]
    rfl
  · rw [Ctx.logCodes, Ctx.readersOf, if_pos hr, if_neg (Nat.not_le.mpr hn), if_neg (Nat.not_lt.mpr hp)]
    rfl
  · rw [Ctx.logCodes, Ctx.readersOf, if_neg (off hr), if_pos hn]
    split <;> rfl
  · rw [Ctx.logCodes, Ctx.readersOf, if_neg (off hr), if_neg (Nat.not_le.mpr hn), if_pos hp]
    rfl

end Sys2Proof.Machine
end

section
/-! PROOFS. Scrubbing, moves of stations and gating (O50). -/

namespace Sys2Proof.Machine

open Sys2Proof

/-! ## Stations of a context -/

theorem stn_setStn_self {x : Ctx} {i : Nat} (hi : i < x.stns.length) (n : StnState) : (x.setStn i n).stn i = n := by
  simp only [Ctx.stn, Ctx.setStn, List.getD_eq_getElem?_getD, List.getElem?_set_self hi, Option.getD_some]

theorem stn_setStn_other {x : Ctx} {i j : Nat} (h : i ≠ j) (n : StnState) : (x.setStn i n).stn j = x.stn j := by
  simp only [Ctx.stn, Ctx.setStn, List.getD_eq_getElem?_getD, List.getElem?_set_ne h]

theorem setStn_stn (x : Ctx) (i : Nat) : x.setStn i (x.stn i) = x := by
  have same : x.stns.set i (x.stn i) = x.stns := by
    by_cases hi : i < x.stns.length
    · rw [Ctx.stn, List.getD_eq_getElem?_getD, List.getElem?_eq_getElem hi, Option.getD_some, List.set_getElem_self]
    · exact List.set_eq_of_length_le (Nat.not_lt.mp hi)
  rw [Ctx.setStn, same]

/-! ## A station that takes its bench (R244, R245) -/

theorem wakeBench_ctx (b : Nat) (s : State) (c : CtxId) : (wakeBench b s).ctx c = s.ctx c := by
  unfold wakeBench
  split <;> rfl

theorem wakeBench_glb (b : Nat) (s : State) : (wakeBench b s).glb = s.glb := by
  unfold wakeBench
  split <;> rfl

theorem wakeBench_mayWork (b : Nat) (s : State) : mayWork (wakeBench b s) = mayWork s := by
  unfold wakeBench
  split <;> rfl

/-- Station `i` on bench `b`, a move from one bench to another counted. -/
def Ctx.settle (x : Ctx) (i b : Nat) : Ctx :=
  let y := x.modStn i (fun n => { n with bench := b })
  if (x.stn i).bench < 512 ∧ b < 512 ∧ b ≠ (x.stn i).bench then { y with cnt := { y.cnt with cutMigrate := satAdd y.cnt.cutMigrate 1 } }
  else y

theorem settle_stns (x : Ctx) (i b : Nat) : (x.settle i b).stns = (x.modStn i (fun n => { n with bench := b })).stns := by
  unfold Ctx.settle
  dsimp only
  split <;> rfl

theorem settle_stn_self {x : Ctx} {i : Nat} (hi : i < x.stns.length) (b : Nat) : (x.settle i b).stn i = { x.stn i with bench := b } := by
  rw [Ctx.stn, settle_stns]
  exact stn_setStn_self hi _

theorem settle_stn_other {x : Ctx} {i j : Nat} (h : i ≠ j) (b : Nat) : (x.settle i b).stn j = x.stn j := by
  rw [Ctx.stn, settle_stns]
  exact stn_setStn_other h _

theorem settle_same (x : Ctx) (i : Nat) : x.settle i (x.stn i).bench = x := by
  rw [Ctx.settle, if_neg fun h => h.2.2 rfl]
  exact setStn_stn x i

/-- The bench that the bound in force gives station `i`. -/
def State.benchFor (s : State) (c : CtxId) (m : Image) (i : Nat) : Nat := placeFor s (s.ctx c) m i ((s.ctx c).stn i).bench

theorem moveStation_eq (c : CtxId) (i b : Nat) (s : State) : moveStation c i b s = (wakeBench b s).modCtx c (fun x =>
    let y := x.modStn i (fun n => { n with bench := b })
    { y with cnt := { y.cnt with cutMigrate := satAdd y.cnt.cutMigrate 1 } }) :=
  modCtx_modCtx ..

theorem resettle_eq (c : CtxId) (m : Image) (i : Nat) (s : State) :
    resettle c m i s = (wakeBench (s.benchFor c m i) s).modCtx c (·.settle i (s.benchFor c m i)) := by
  unfold State.benchFor resettle
  dsimp only
  split
  · next h => rw [moveStation_eq, State.modCtx, State.modCtx, wakeBench_ctx, Ctx.settle, if_pos h]
  · next h => rw [putStation, State.modCtx, State.modCtx, wakeBench_ctx, Ctx.settle, if_neg h]

theorem resettle_ctx (c : CtxId) (m : Image) (i : Nat) (s : State) : (resettle c m i s).ctx c = (s.ctx c).settle i (s.benchFor c m i) := by
  rw [resettle_eq, modCtx_ctx, wakeBench_ctx]

theorem resettle_glb (c : CtxId) (m : Image) (i : Nat) (s : State) : (resettle c m i s).glb = s.glb := by
  rw [resettle_eq, modCtx_glb, wakeBench_glb]

theorem resettle_mayWork (c : CtxId) (m : Image) (i : Nat) (s : State) : mayWork (resettle c m i s) = mayWork s := by
  rw [resettle_eq]
  exact wakeBench_mayWork _ s

section
variable {s : State} {c : CtxId} {m : Image} {i : Nat}

theorem benchFor_stays (h : usable s.glb (s.ctx c).qmask ((s.ctx c).bound m i) ((s.ctx c).stn i).bench = true) :
    s.benchFor c m i = ((s.ctx c).stn i).bench := if_pos h

theorem benchFor_lowest {b : Nat} (hold : ¬ usable s.glb (s.ctx c).qmask ((s.ctx c).bound m i) ((s.ctx c).stn i).bench = true)
    (hb : firstUsable s.glb (s.ctx c).qmask ((s.ctx c).bound m i) = some b) : s.benchFor c m i = b := by
  rw [State.benchFor, placeFor, if_neg hold, hb, Option.getD_some]

theorem benchFor_none (hold : ¬ usable s.glb (s.ctx c).qmask ((s.ctx c).bound m i) ((s.ctx c).stn i).bench = true)
    (hb : firstUsable s.glb (s.ctx c).qmask ((s.ctx c).bound m i) = none) : s.benchFor c m i = 512 := by
  rw [State.benchFor, placeFor, if_neg hold, hb, Option.getD_none, noBench]

end

section
variable {g : Glb} {q : BitVec 4} {w : Bound}

theorem usable_lt {b : Nat} (h : usable g q w b = true) : b < 512 := by
  simp only [usable, Bool.and_eq_true, decide_eq_true_eq, and_assoc] at h
  exact h.1

theorem firstUsable_some {b : Nat} (h : usable g q w b = true) (hlow : ∀ a, a < b → ¬ usable g q w a = true) :
    firstUsable g q w = some b :=
  List.find?_range_eq_some.mpr ⟨h, List.mem_range.mpr (usable_lt h), fun a ha => by rw [Bool.eq_false_iff.mpr (hlow a ha), Bool.not_false]⟩

theorem firstUsable_none (h : ∀ b, ¬ usable g q w b = true) : firstUsable g q w = none :=
  List.find?_eq_none.mpr fun b _ => h b

theorem usable_firstUsable {b : Nat} (h : firstUsable g q w = some b) : usable g q w b = true := List.find?_some h

end

/-! ## Moves of every station of a context (R244, R247) -/

/-- The move that the bound in force compels of one station. -/
def compelMove (c : CtxId) (m : Image) (i : Nat) (s : State) : State := if (s.ctx c).atBoundary m i then resettle c m i s else s

/-- Station `i` after that move. -/
def State.compelled (s : State) (c : CtxId) (m : Image) (i : Nat) : StnState :=
  if (s.ctx c).atBoundary m i then { (s.ctx c).stn i with bench := s.benchFor c m i } else (s.ctx c).stn i

/-- What a context holds beside its stations and counters stays as it was. -/
theorem MovesOnly.keeps {c : CtxId} {s t : State} (h : MovesOnly c s t) {α : Type} (f : Ctx → α)
    (hf : ∀ x stns cnt, f { x with stns := stns, cnt := cnt } = f x) : f (t.ctx c) = f (s.ctx c) :=
  (hf (t.ctx c) (s.ctx c).stns (s.ctx c).cnt).symm.trans (congrArg f h.own)

theorem MovesOnly.bound {c : CtxId} {s t : State} (h : MovesOnly c s t) (m : Image) (i : Nat) : (t.ctx c).bound m i = (s.ctx c).bound m i :=
  h.keeps (·.bound m i) fun _ _ _ => rfl

theorem MovesOnly.qmask {c : CtxId} {s t : State} (h : MovesOnly c s t) : (t.ctx c).qmask = (s.ctx c).qmask :=
  h.keeps Ctx.qmask fun _ _ _ => rfl

theorem MovesOnly.stopped {c : CtxId} {s t : State} (h : MovesOnly c s t) (req : FaultReq) :
    Machine.stopped (t.ctx c) req = Machine.stopped (s.ctx c) req :=
  h.keeps (Machine.stopped · req) fun _ _ _ => rfl

/-- What a move compels of a station depends on no other station. -/
theorem MovesOnly.compelled {c : CtxId} {s t : State} (h : MovesOnly c s t) (hg : t.glb = s.glb) {m : Image} {i : Nat}
    (hn : (t.ctx c).stn i = (s.ctx c).stn i) : t.compelled c m i = s.compelled c m i := by
  have boundary : (t.ctx c).atBoundary m i = (s.ctx c).atBoundary m i := by
    simp only [Ctx.atBoundary, h.stopped, hn]
  have bench : t.benchFor c m i = s.benchFor c m i := by
    simp only [State.benchFor, placeFor, h.bound, h.qmask, hg, hn]
  rw [State.compelled, boundary, bench, hn, State.compelled]

section
variable (c : CtxId) (m : Image) (i : Nat) (s : State)

theorem compelMove_movesOnly : MovesOnly c s (compelMove c m i s) := by
  unfold compelMove
  split
  · exact resettle_movesOnly c m i s
  · exact MovesOnly.refl c s

theorem compelMove_glb : (compelMove c m i s).glb = s.glb := by
  unfold compelMove
  split
  · exact resettle_glb c m i s
  · rfl

theorem compelMove_stns_length : ((compelMove c m i s).ctx c).stns.length = (s.ctx c).stns.length := by
  unfold compelMove
  split
  · rw [resettle_ctx, settle_stns]
    exact List.length_set
  · rfl

end

theorem compelMove_stn_self {s : State} {c : CtxId} {i : Nat} (hi : i < (s.ctx c).stns.length) (m : Image) :
    ((compelMove c m i s).ctx c).stn i = s.compelled c m i := by
  unfold compelMove State.compelled
  split
  · rw [resettle_ctx, settle_stn_self hi]
  · rfl

theorem compelMove_stn_other {i j : Nat} (h : i ≠ j) (c : CtxId) (m : Image) (s : State) :
    ((compelMove c m i s).ctx c).stn j = (s.ctx c).stn j := by
  unfold compelMove
  split
  · rw [resettle_ctx, settle_stn_other h]
  · rfl

theorem each_compelMove_stn {c : CtxId} {m : Image} {i : Nat} {L : List Nat} (hL : L.Nodup) {s : State} (hi : i < (s.ctx c).stns.length) :
    ((s.each L (compelMove c m)).ctx c).stn i = if i ∈ L then s.compelled c m i else (s.ctx c).stn i := by
  induction L generalizing s with
  | nil => rfl
  | cons a L ih =>
    obtain ⟨haL, hL⟩ := List.nodup_cons.mp hL
    have ih := ih hL (s := compelMove c m a s) (by rw [compelMove_stns_length]; exact hi)
    refine ih.trans ?_
    by_cases e : a = i
    · subst e
      rw [if_neg haL, if_pos List.mem_cons_self, compelMove_stn_self hi]
    · have other := compelMove_stn_other e c m s
      rw [(compelMove_movesOnly c m a s).compelled (compelMove_glb c m a s) other, other]
      simp only [List.mem_cons, Ne.symm e, false_or]

theorem compelMoves_stn {s : State} {c : CtxId} {i : Nat} (hi : i < (s.ctx c).stns.length) (m : Image) :
    ((compelMoves c m s).ctx c).stn i = s.compelled c m i :=
  (each_compelMove_stn List.nodup_range hi).trans (if_pos (List.mem_range.mpr hi))

/-! ## A station that accepts a tile set (R247) -/

section
variable {s : State} {c : CtxId} {m : Image} {i : Nat}

theorem resettle_unplaced (hb : ((s.ctx c).stn i).bench = 512) (hn : firstUsable s.glb (s.ctx c).qmask ((s.ctx c).bound m i) = none) :
    resettle c m i s = s := by
  have hold : ¬ usable s.glb (s.ctx c).qmask ((s.ctx c).bound m i) ((s.ctx c).stn i).bench = true := fun h =>
    Nat.lt_irrefl 512 (hb ▸ usable_lt h)
  have hfor : s.benchFor c m i = ((s.ctx c).stn i).bench := (benchFor_none hold hn).trans hb.symm
  rw [resettle_eq, hfor, wakeBench, if_neg (by omega), State.modCtx, settle_same, setCtx_self]

/-- A station settles once: a second move is none. -/
theorem atTile_atTile (hi : i < (s.ctx c).stns.length) : atTile c m i (atTile c m i s) = atTile c m i s := by
  by_cases hsit : (s.ctx c).maySit s.glb m i = true
  · rw [atTile_settled hsit, atTile_settled hsit]
  · have ht : atTile c m i s = resettle c m i s := if_neg hsit
    have moved := resettle_movesOnly c m i s
    have hold : ¬ usable s.glb (s.ctx c).qmask ((s.ctx c).bound m i) ((s.ctx c).stn i).bench = true := fun h =>
      hsit (by rw [Ctx.maySit, h, Bool.true_or])
    have hbench : (((resettle c m i s).ctx c).stn i).bench = s.benchFor c m i := by rw [resettle_ctx, settle_stn_self hi]
    rw [ht]
    cases hf : firstUsable s.glb (s.ctx c).qmask ((s.ctx c).bound m i) with
    | some b =>
      apply atTile_settled
      rw [Ctx.maySit, resettle_glb, moved.qmask, moved.bound, hbench, benchFor_lowest hold hf, usable_firstUsable hf, Bool.true_or]
    | none =>
      unfold atTile
      split
      · rfl
      · apply resettle_unplaced
        · rw [hbench, benchFor_none hold hf]
        · rw [resettle_glb, moved.qmask, moved.bound, hf]

theorem atTile_movesOnly (c : CtxId) (m : Image) (i : Nat) (s : State) : MovesOnly c s (atTile c m i s) := by
  unfold atTile
  split
  · exact MovesOnly.refl c s
  · exact resettle_movesOnly c m i s

theorem atTile_stationsRun (c : CtxId) (m : Image) (i : Nat) (s : State) : stationsRun (atTile c m i s) c = stationsRun s c := by
  have work : mayWork (atTile c m i s) = mayWork s := by
    unfold atTile
    split
    · rfl
    · exact resettle_mayWork c m i s
  have glb : (atTile c m i s).glb = s.glb := by
    unfold atTile
    split
    · rfl
    · exact resettle_glb c m i s
  have moved := atTile_movesOnly c m i s
  simp only [stationsRun, ctxLive, inPartReset, work, glb, moved.qmask, moved.keeps Ctx.busy fun _ _ _ => rfl,
    moved.keeps Ctx.saving fun _ _ _ => rfl, moved.keeps Ctx.phase fun _ _ _ => rfl, moved.keeps Ctx.restoring fun _ _ _ => rfl,
    moved.keeps Ctx.assigned fun _ _ _ => rfl]

/-- A station of the kind of a command acts as after the move that comes before its next tile set. -/
theorem withStation_atTile {k : Nat} {st : Station} (hr : stationsRun s c = true) (hm : (s.ctx c).active = some m)
    (hst : m.stations[i]? = some st) (hk : st.kind = k) (hidle : i ∉ idleSet (s.ctx c) m)
    (hfree : stopped (s.ctx c) (reqStation i) = false) (hi : i < (s.ctx c).stns.length) (act : Image → Station → State → State) :
    withStation c i k act (atTile c m i s) = withStation c i k act s := by
  have moved := atTile_movesOnly c m i s
  have hm' : ((atTile c m i s).ctx c).active = some m := (moved.keeps Ctx.active fun _ _ _ => rfl).trans hm
  have hidle' : i ∉ idleSet ((atTile c m i s).ctx c) m := by
    rw [moved.keeps (idleSet · m) fun _ _ _ => rfl]
    exact hidle
  have hfree' := (moved.stopped (reqStation i)).trans hfree
  have hr' := (atTile_stationsRun c m i s).trans hr
  have acts {u : State} (hr : stationsRun u c = true) (hm : (u.ctx c).active = some m) (hidle : i ∉ idleSet (u.ctx c) m)
      (hfree : stopped (u.ctx c) (reqStation i) = false) :
      withStation c i k act u =
        if (((atTile c m i u).ctx c).stn i).bench < 512 then act m st (atTile c m i u) else atTile c m i u := by
    simp [withStation, hr, hm, hst, hk, hidle, hfree]
  rw [acts hr hm hidle hfree, acts hr' hm' hidle' hfree', atTile_atTile hi]

end

/-- The commands by which a station takes its next tile set, and the kind of station that carries out each. -/
def tileCommands (c : CtxId) (i : Nat) : List (Instr × Nat) :=
  [(.fetchTile c i, kFETCH), (.convertTile c i, kCONVERT), (.spreadTile c i, kSPREAD), (.accumSegment c i, kACCUM),
    (.vectorTileSet c i, kVECTOR), (.storeTile c i, kSTORE), (.scribePredict c i, kSCRIBE), (.reduceInputTile c i, kREDUCE)]

theorem exec_tileCommands (c : CtxId) (i : Nat) :
    ∀ p ∈ tileCommands c i, ∃ act, ∀ s, exec p.1 s = .next (withStation c i p.2 act s) := by
  unfold tileCommands
  repeat refine List.forall_mem_cons.mpr ⟨⟨_, fun _ => rfl⟩, ?_⟩
  exact fun _ hp => absurd hp List.not_mem_nil

/-! ## Upkeep -/

section
variable {s : State}

theorem doScrubRead_reads {k : StackId} {w : Nat} (hon : s.pwr.mainOn = true) (hboot : 6 ≤ s.pwr.bootEvent)
    (hchip : s.glb.chipBusy = false) (hw : w < 2 ^ 31) : doScrubRead k w s = eccRead none [k.val * 2 ^ 31 + w] s := by
  rw [doScrubRead, if_pos]
  rw [hon, hchip, decide_eq_true hboot, decide_eq_true hw]
  rfl

theorem doStationMigrate_moves {c : CtxId} {i : Nat} {b : BenchId} {m : Image} (hr : stationsRun s c = true)
    (hm : (s.ctx c).active = some m) (hi : i < (s.ctx c).stns.length) (hat : (s.ctx c).atBoundary m i = true)
    (hb : usable s.glb (s.ctx c).qmask ((s.ctx c).bound m i) b.val = true) (hne : b.val ≠ ((s.ctx c).stn i).bench)
    (hmay : (s.ctx c).live.cutWeights ≠ 0 ∨ usable s.glb (s.ctx c).qmask ((s.ctx c).bound m i) ((s.ctx c).stn i).bench = false) :
    doStationMigrate c i b s = moveStation c i b.val s := by
  have may : ((s.ctx c).live.cutWeights != 0 ||
      !usable s.glb (s.ctx c).qmask ((s.ctx c).bound m i) ((s.ctx c).stn i).bench) = true := by
    rw [Bool.or_eq_true, bne_iff_ne, Bool.not_eq_true']
    exact hmay
  unfold doStationMigrate
  simp only [hm, hr, hi, hat, hb, may, bne_iff_ne.mpr hne, decide_true, Bool.and_self, ↓reduceIte]

theorem doBenchGate_gates {b : BenchId} (hon : s.pwr.mainOn = true) (hboot : 6 ≤ s.pwr.bootEvent) (hidle : s.pwr.gateIdle ≠ 0) :
    doBenchGate b s =
      if benchEmpty s b = true then { s with pwr := { s.pwr with benchGated := setBenchBit s.pwr.benchGated b true } } else s := by
  rw [doBenchGate, hon, decide_eq_true hboot, bne_iff_ne.mpr hidle, Bool.true_and, Bool.true_and, Bool.true_and]
  rfl

end

/-- Settles O50: the scrub, the move and the gate by their conditions; the compelled moves station by station; and a station settles
before it takes a tile set. -/
theorem upkeep : Obligations.Upkeep := by
  unfold Obligations.Upkeep
  refine ⟨fun s => ⟨fun k w hon hboot hchip hw => congrArg _ (doScrubRead_reads hon hboot hchip hw),
    fun c i b m hr hm hi hat hb hne hmay => congrArg _ ((doStationMigrate_moves hr hm hi hat hb hne hmay).trans (moveStation_eq ..)),
    fun b hon hboot hidle => ⟨fun he => congrArg _ ((doBenchGate_gates hon hboot hidle).trans (if_pos he)),
      fun he => congrArg _ ((doBenchGate_gates hon hboot hidle).trans (if_neg (Bool.eq_false_iff.mp he)))⟩⟩,
    fun s c m i hi => ?_⟩
  dsimp only
  rw [compelMoves_stn hi, State.compelled]
  refine ⟨fun h => ?_, fun hold hat => ⟨fun b hb hlow => ?_, fun hb => ?_⟩, resettle_ctx c m i s,
    fun st hr hm hst hidle hfree p hp hk => ?_⟩
  · split
    · next hat =>
      rw [benchFor_stays (h.resolve_right fun h => Bool.false_ne_true (h.symm.trans hat))]
    · rfl
  · rw [if_pos hat, benchFor_lowest hold (firstUsable_some hb hlow)]
  · rw [if_pos hat, benchFor_none hold (firstUsable_none hb)]
  · obtain ⟨act, e⟩ := exec_tileCommands c i p hp
    have settled : (if usable s.glb (s.ctx c).qmask ((s.ctx c).bound m i) ((s.ctx c).stn i).bench = true ∨
        (s.ctx c).atBoundary m i = false then s else resettle c m i s) = atTile c m i s := by
      simp only [atTile, Ctx.maySit, Bool.or_eq_true, Bool.not_eq_true']
    rw [settled, e, e, withStation_atTile hr hm hst hk hidle hfree hi]

end Sys2Proof.Machine
end

section
/-! PROOFS. Tiles between memory and streams: FETCH_TILE and STORE_TILE (O51). -/

namespace Sys2Proof.Machine

open Sys2Proof

/-! ## Index tensors (R217) -/

/-- The spans of the index tensor that station `st` reads. -/
def Ctx.indexSpans (x : Ctx) (m : Image) (st : Station) : List Span := ((indexTensor x m st).map Machine.indexSpans).getD []

/-- The view of station `st`, its indices read through `tab`, in the state that this read gives. -/
def State.viewAt (u s : State) (c : CtxId) (tab : List PageMap) (m : Image) (st : Station) (t : TensorRec) : View :=
  viewOf (u.ctx c) m st t (((indexTensor (s.ctx c) m st).map (indexRead tab u)).getD [])

theorem indexTensor_eq {m : Image} {st : Station} {t : TensorRec} (h : m.tensor st.tensor2 = some t) (x : Ctx) :
    indexTensor x m st = if st.o 2 1 = 0 then none else some { t with valueVa := (basesOf m st.tensor2 x.parity t).1 } := by
  rw [indexTensor, h, Option.map_some]

/-! ## FETCH_TILE (R209 to R212) -/

section
variable {s : State} {c : CtxId} {i : Nat} {m : Image} {st : Station} {t : TensorRec}

section
variable (h : Acting s c i kFETCH m st)
include h

theorem doFetchTile_cleared (hc : (allUpdates (s.ctx c) m).length ≤ (s.ctx c).cleared) : doFetchTile c i s = fetchNext c i s := by
  rw [doFetchTile, withStation_acting h]
  dsimp only
  rw [List.drop_eq_nil_of_le hc]
  exact if_pos hc

theorem fetchNext_waits (hw : ((s.ctx c).stn i).fin = true ∨ fetchRoom (s.ctx c) m i = false) : fetchNext c i s = s := by
  rw [fetchNext, withStation_acting h]
  refine if_pos ?_
  rw [Bool.or_eq_true, Bool.not_eq_true']
  exact hw

variable (hfin : ((s.ctx c).stn i).fin = false) (hroom : fetchRoom (s.ctx c) m i = true) (ht : m.tensor st.tensor = some t)
include hfin hroom ht

theorem fetchNext_sparse {k : MaskRec} (hs : t.sparse ≠ 0) (hk : m.masks[t.mask]? = some k) :
    fetchNext c i s = fetchSparse c i m st t k s := by
  rw [fetchNext, withStation_acting h]
  simp only [hfin, hroom, ht, hs, hk, Bool.not_true, Bool.or_self, Bool.false_eq_true, ↓reduceIte]

variable (hs : t.sparse = 0)
include hs

theorem fetchNext_ends (hn : (gridTiles (viewExtents m st t) (st.o 0 1))[((s.ctx c).stn i).next]? = none) :
    fetchNext c i s = s.modCtx c (fun x => x.modStn i (fun n => { n with fin := true })) := by
  rw [fetchNext, withStation_acting h]
  simp only [hfin, hroom, ht, hs, hn, Bool.not_true, Bool.or_self, Bool.false_eq_true, ↓reduceIte]

theorem fetchNext_dense {xy : TileXY} (hn : (gridTiles (viewExtents m st t) (st.o 0 1))[((s.ctx c).stn i).next]? = some xy) :
    fetchNext c i s = fetchDense c i m st t xy (gridTiles (viewExtents m st t) (st.o 0 1)).length s := by
  rw [fetchNext, withStation_acting h]
  simp only [hfin, hroom, ht, hs, hn, Bool.not_true, Bool.or_self, Bool.false_eq_true, ↓reduceIte]

end

theorem fetchSparse_stops {k : MaskRec} {u : State}
    (ha : access c (reqStation i) false false (metaSpans (s.ctx c) (sparseDim t k) k t.mask ++ (s.ctx c).indexSpans m st) s = (none, u)) :
    fetchSparse c i m st t k s = u := by
  unfold Ctx.indexSpans at ha
  simp only [fetchSparse, ha]

section
variable {xy : TileXY} {count : Nat} {tab0 : List PageMap} {u : State}

theorem fetchDense_stops (ha : access c (reqStation i) false false ((s.ctx c).indexSpans m st) s = (none, u)) :
    fetchDense c i m st t xy count s = u := by
  unfold Ctx.indexSpans at ha
  simp only [fetchDense, ha]

variable (ha : access c (reqStation i) false false ((s.ctx c).indexSpans m st) s = (some tab0, u))
include ha

theorem fetchDense_acc (hf : t.format = fACC128) : fetchDense c i m st t xy count s =
    fetchAcc c i m t ((u.viewAt s c tab0 m st t).accMap t) tab0 ((s.ctx c).indexSpans m st) xy [] count u := by
  unfold Ctx.indexSpans at ha
  simp only [fetchDense, ha, hf, ↓reduceIte, State.viewAt, Ctx.indexSpans]

variable (hf : t.format ≠ fACC128)
include hf

theorem fetchDense_tile_stops {w : State}
    (hb : access c (reqStation i) false false ((u.viewAt s c tab0 m st t).spans xy) u = (none, w)) :
    fetchDense c i m st t xy count s = w := by
  unfold Ctx.indexSpans at ha
  unfold State.viewAt at hb
  simp only [fetchDense, ha, hf, hb, ↓reduceIte]

theorem fetchDense_tile {tab : List PageMap} {w : State}
    (hb : access c (reqStation i) false false ((u.viewAt s c tab0 m st t).spans xy) u = (some tab, w)) :
    fetchDense c i m st t xy count s =
      (chargeRead c (tab0 ++ tab) ((s.ctx c).indexSpans m st ++ (u.viewAt s c tab0 m st t).spans xy) w).modCtx c (fun x =>
        advanceFetch i count (emitValue m i ((u.viewAt s c tab0 m st t).readTile tab w xy) x)) := by
  unfold Ctx.indexSpans at ha
  unfold State.viewAt at hb
  simp only [fetchDense, ha, hf, hb, ↓reduceIte, State.viewAt, Ctx.indexSpans]

end

end

/-! ## STORE_TILE (R213, R216, R220) -/

section
variable {s : State} {c : CtxId} {i : Nat} {m : Image} {st : Station} {t : TensorRec}

section
variable (h : Acting s c i kSTORE m st) (hw : waitingOn (s.ctx c) m i 2 = 0)
include h hw

theorem doStoreTile_waits (hp : (s.ctx c).peek m i 0 = none) : doStoreTile c i s = s := by
  rw [doStoreTile, withStation_acting h, hw]
  simp only [takeMetas, hp]

variable {tl : Tile} (ht : m.tensor st.tensor = some t) (hp : (s.ctx c).peek m i 0 = some tl)
  (hscale : scaleWaiting (s.ctx c) m i tl = true)
include ht hp hscale

theorem doStoreTile_packed {k : MaskRec} (hs : t.sparse ≠ 0) (hk : m.masks[t.mask]? = some k)
    (hthere : ((stagedMetas ((s.ctx c).stn i)).any (fun b => b.band == tl.xy.tr) || portEnded (s.ctx c) m i 2) = true) :
    doStoreTile c i s = storePacked c i m st t k tl.xy s := by
  rw [doStoreTile, withStation_acting h, hw]
  simp only [takeMetas, ht, hp, hscale, hs, hk, hthere, Bool.not_true, Bool.false_eq_true, ↓reduceIte]

variable (hs : t.sparse = 0)
include hs

theorem doStoreTile_outside (hg : inGrid (viewExtents m st t) tl.xy = false) :
    doStoreTile c i s = violate c 0x0902 (takeScaled c m i 0 s).2 := by
  rw [doStoreTile, withStation_acting h, hw]
  simp only [takeMetas, ht, hp, hscale, hs, hg, Bool.not_true, Bool.not_false, Bool.false_eq_true, ↓reduceIte]

variable (hg : inGrid (viewExtents m st t) tl.xy = true)
include hg

theorem doStoreTile_stops {u : State} (ha : access c (reqStation i) false false ((s.ctx c).indexSpans m st) s = (none, u)) :
    doStoreTile c i s = u := by
  unfold Ctx.indexSpans at ha
  rw [doStoreTile, withStation_acting h, hw]
  simp only [takeMetas, ht, hp, hscale, hs, hg, ha, Bool.not_true, Bool.false_eq_true, ↓reduceIte]

theorem doStoreTile_inside {tab0 : List PageMap} {u : State}
    (ha : access c (reqStation i) false false ((s.ctx c).indexSpans m st) s = (some tab0, u)) :
    doStoreTile c i s =
      if t.format = fACC128 then
        storeAcc c i m ((u.viewAt s c tab0 m st t).accMap t) (st.o 1 1 == 1) tl.xy (chargeRead c tab0 ((s.ctx c).indexSpans m st) u)
      else storeValue c i m (u.viewAt s c tab0 m st t) (st.o 1 1 == 1) tl.xy (chargeRead c tab0 ((s.ctx c).indexSpans m st) u) := by
  unfold Ctx.indexSpans at ha
  rw [doStoreTile, withStation_acting h, hw]
  simp only [takeMetas, ht, hp, hscale, hs, hg, ha, Bool.not_true, Bool.false_eq_true, ↓reduceIte, State.viewAt, Ctx.indexSpans]

end

variable {v : View} {add : Bool} {xy : TileXY}

theorem storeValue_stops {w : State} (ha : access c (reqStation i) false true (v.spans xy) s = (none, w)) :
    storeValue c i m v add xy s = w := by
  simp only [storeValue, ha]

variable {tab : List PageMap} {w u : State} {tl : Tile} {slipped : List Nat}
  (ha : access c (reqStation i) false true (v.spans xy) s = (some tab, w)) (htl : takeScaled c m i 0 w = (some (tl, slipped), u))
include ha htl

theorem storeValue_stores (hadd : add = false) : storeValue c i m v add xy s =
    (writeRuns c tab (joinRuns ((v.puts ((u.ctx c).stn i).seen (blockNanRows tl slipped)).map (fun f => (f.va, f.bytes tab u)))) u).modCtx c
      (markStored i xy) := by
  simp only [storeValue, ha, htl, hadd, Bool.false_eq_true, ↓reduceIte]

theorem storeValue_adds (hadd : add = true) : storeValue c i m v add xy s =
    let ws := addInts (fun e => ((fieldAddr v.fmt v.base (v.offset (v.stored (tileCoord xy e)))).1, 4)) tab u tl (v.inside xy)
    checkResidue c (stackAt tab ((ws.head?.map (·.1)).getD 0)) opD1 tapD1 [tl]
      ((patchRuns c tab (joinRuns ws) u).modCtx c (markStored i xy)) := by
  simp only [storeValue, ha, htl, hadd, ↓reduceIte]

end

/-- Settles O51: a FETCH by its room, its grid and the accesses of its next tile, a STORE by the tile that waits and the accesses of
its place. -/
theorem fetchAndStore : Obligations.FetchAndStore := by
  unfold Obligations.FetchAndStore
  refine ⟨fun s c i m st t h hc ht => ?_, fun s c i m st t h hw ht => ?_, fun _ _ _ _ => ⟨_, rfl, rfl⟩, fun x m st t h => indexTensor_eq h x⟩
  · -- FETCH_TILE: room, grid, and then the accesses of the tile
    have acts {u : State} (e : fetchNext c i s = u) : exec (.fetchTile c i) s = .next u :=
      congrArg _ ((doFetchTile_cleared h hc).trans e)
    refine ⟨fun hwait => acts (fetchNext_waits h hwait), fun hfin hroom => ⟨fun k hs hk => ?_, fun hs => ⟨fun hn => ?_, fun xy u hn => ?_⟩⟩⟩
    · have sparse := fetchNext_sparse h hfin hroom ht hs hk
      exact ⟨fun u ha => acts (sparse.trans (fetchSparse_stops ha)), acts sparse⟩
    · exact acts (fetchNext_ends h hfin hroom ht hs hn)
    · have dense := fetchNext_dense h hfin hroom ht hs hn
      exact ⟨fun ha => acts (dense.trans (fetchDense_stops ha)), fun tab0 ha =>
        ⟨fun hf => acts (dense.trans (fetchDense_acc ha hf)), fun hf =>
          ⟨fun w hb => acts (dense.trans (fetchDense_tile_stops ha hf hb)), fun tab w hb => acts (dense.trans (fetchDense_tile ha hf hb))⟩⟩⟩
  · -- STORE_TILE: the tile that waits, and then the accesses of its place
    have acts {u : State} (e : doStoreTile c i s = u) : exec (.storeTile c i) s = .next u := congrArg _ e
    refine ⟨fun hp => acts (doStoreTile_waits h hw hp), fun tl hp hscale => ⟨fun k hs hk hthere => ?_, fun hs hg => ?_, fun hs hg => ?_⟩⟩
    · exact acts (doStoreTile_packed h hw ht hp hscale hs hk hthere)
    · exact acts (doStoreTile_outside h hw ht hp hscale hs hg)
    · refine ⟨fun u ha => acts (doStoreTile_stops h hw ht hp hscale hs hg ha), fun tab0 u ha => ?_⟩
      have inside := doStoreTile_inside h hw ht hp hscale hs hg ha
      refine ⟨fun hf => acts (inside.trans (if_pos hf)), fun hf => ?_⟩
      have value := inside.trans (if_neg hf)
      exact ⟨fun w hb => acts (value.trans (storeValue_stops hb)), fun tab w tl' slipped w' hb htl =>
        ⟨fun hadd => acts (value.trans (storeValue_stores hb htl hadd)), fun hadd => acts (value.trans (storeValue_adds hb htl hadd))⟩⟩

end Sys2Proof.Machine
end

section
/-! PROOFS. CONVERT_TILE and SPREAD_TILE (O52). -/

namespace Sys2Proof.Machine

open Sys2Proof

/-! ## CONVERT_TILE (R85, R227, R307) -/

section
variable {s u : State} {c : CtxId} {i : Nat} {m : Image} {st : Station} (h : Acting s c i kCONVERT m st)
include h

theorem doConvertTile_waits (hr : (s.ctx c).room m i 0 = false ∨ (s.ctx c).room m i 1 = false) : doConvertTile c i s = s := by
  rw [doConvertTile, withStation_acting h]
  refine if_pos ?_
  rw [Bool.not_eq_true', Bool.and_eq_false_iff]
  exact hr

variable (h0 : (s.ctx c).room m i 0 = true) (h1 : (s.ctx c).room m i 1 = true)
include h0 h1

section
variable (hsite : isSite st = false)
include hsite

theorem doConvertTile_stops (ht : takeScaled c m i 0 s = (none, u)) : doConvertTile c i s = u := by
  rw [doConvertTile, withStation_acting h]
  simp only [h0, h1, hsite, ht, Bool.and_self, Bool.not_true, Bool.false_eq_true, ↓reduceIte]

theorem doConvertTile_converts {t : Tile} {slipped : List Nat} (ht : takeScaled c m i 0 s = (some (t, slipped), u)) :
    doConvertTile c i s = u.modCtx c (convertOne i m st t) := by
  rw [doConvertTile, withStation_acting h]
  simp only [h0, h1, hsite, ht, Bool.and_self, Bool.not_true, Bool.false_eq_true, ↓reduceIte]

end

/-! A site stages what waits and then looks at the tile of the lowest ordinal. -/

section
variable (hsite : isSite st = true) (hu : stageHeld c m i s = u)
include hsite hu

theorem doConvertTile_site_empty (hl : lowestTile (stationExt m st) ((u.ctx c).stn i).held = none) : doConvertTile c i s = u := by
  rw [doConvertTile, withStation_acting h]
  simp only [h0, h1, hsite, hu, hl, Bool.and_self, Bool.not_true, Bool.false_eq_true, ↓reduceIte]

variable {t : Tile} (hl : lowestTile (stationExt m st) ((u.ctx c).stn i).held = some t)
include hl

/-- A tile beyond the next ordinal waits for those before it, as long as more can come. -/
theorem doConvertTile_site_waits (ho : ((u.ctx c).stn i).next < tileOrdinal (stationExt m st) t.xy)
    (he : portEnded (u.ctx c) m i 0 = false) : doConvertTile c i s = u := by
  rw [doConvertTile, withStation_acting h]
  simp only [h0, h1, hsite, hu, hl, he, decide_eq_false (Nat.not_le_of_lt ho), Bool.and_self, Bool.not_true, Bool.or_self,
    Bool.false_eq_true, ↓reduceIte]

theorem doConvertTile_site_converts
    (hdue : tileOrdinal (stationExt m st) t.xy ≤ ((u.ctx c).stn i).next ∨ portEnded (u.ctx c) m i 0 = true) :
    let o := tileOrdinal (stationExt m st) t.xy
    let rest := dropTile t.xy ((u.ctx c).stn i).held
    doConvertTile c i s = (u.modCtx c (convertOne i m st t)).modCtx c (fun x => x.modStn i (fun k => { k with
      held := rest
      next := if rest.any (fun w => tileOrdinal (stationExt m st) w.xy == o) then k.next else max k.next (o + 1) })) := by
  have due : (decide (tileOrdinal (stationExt m st) t.xy ≤ ((u.ctx c).stn i).next) || portEnded (u.ctx c) m i 0) = true := by
    rw [Bool.or_eq_true, decide_eq_true_iff]
    exact hdue
  rw [doConvertTile, withStation_acting h]
  simp only [h0, h1, hsite, hu, hl, due, Bool.and_self, Bool.not_true, Bool.false_eq_true, ↓reduceIte]

end

end

/-! ## SPREAD_TILE (R134, R145, R176, R221) -/

/-- The payload whose two tags of a block are both those of the block that goes out (R221). -/
def Payload.retagged : Payload → Payload
  | .val f es scs v _ => .val f es scs v v
  | p => p

theorem Tile.retagged_eq (t : Tile) : t.retagged = { t with payload := t.payload.retagged } := by
  obtain ⟨_, payload⟩ := t
  cases payload <;> rfl

/-- The tile that goes out for `t` with the metadata `metas` and the row sets `rows`. -/
def Tile.spread (t : Tile) (metas : List BandMeta) (rows : List (Nat × U32)) : Tile :=
  { t with payload := t.payload.retagged, sel := metas, active := rows }

/-- The output of a spread: the tile on port 0 and, where its format has scales, the scales on port 1. -/
def Ctx.emitSpread (x : Ctx) (m : Image) (i : Nat) (out : Tile) : Ctx :=
  if isMx out.fmt then (x.push m i 0 out).push m i 1 (sclTile out) else x.push m i 0 out

section
variable {s a u : State} {c : CtxId} {i : Nat} {m : Image} {st : Station} (h : Acting s c i kSPREAD m st)
  (ha : takeMetas c m i (st.o 0 1 == 1) (waitingOn (s.ctx c) m i 2) s = a)
  (hu : takeRowSets c m i (waitingOn (a.ctx c) m i 3) a = u)
include h ha hu

theorem doSpreadTile_empty (hp : (u.ctx c).peek m i 0 = none) : doSpreadTile c i s = u := by
  rw [doSpreadTile, withStation_acting h]
  simp only [ha, hu, hp]

variable {t0 : Tile} (hp : (u.ctx c).peek m i 0 = some t0)
include hp

theorem doSpreadTile_waits_rows (hf : m.fed i 3 = true)
    (hlen : (stagedRows ((u.ctx c).stn i) t0.xy.tr).length < predBands m i) (he : portEnded (u.ctx c) m i 3 = false) :
    doSpreadTile c i s = u := by
  rw [doSpreadTile, withStation_acting h]
  simp only [ha, hu, hp, hf, he, decide_eq_false (Nat.not_le_of_lt hlen), Bool.not_true, Bool.or_self, Bool.and_false, Bool.false_and,
    Bool.false_eq_true, ↓reduceIte]

theorem doSpreadTile_waits_metas (hm : stagedMetas ((u.ctx c).stn i) = []) (he : portEnded (u.ctx c) m i 2 = false) :
    doSpreadTile c i s = u := by
  rw [doSpreadTile, withStation_acting h]
  simp only [ha, hu, hp, hm, he, Bool.false_and, Bool.false_eq_true, ↓reduceIte]

theorem doSpreadTile_emits {b : BandMeta} {l : List BandMeta} (hm : stagedMetas ((u.ctx c).stn i) = b :: l)
    (hall : b.bands ≤ (stagedMetas ((u.ctx c).stn i)).length)
    (hrows : m.fed i 3 = false ∨ predBands m i ≤ (stagedRows ((u.ctx c).stn i) t0.xy.tr).length)
    (h0 : (u.ctx c).room m i 0 = true) (h1 : (u.ctx c).room m i 1 = true)
    {t : Tile} {slipped : List Nat} {w : State} (ht : takeScaled c m i 0 u = (some (t, slipped), w)) :
    doSpreadTile c i s = w.modCtx c (fun x =>
      x.emitSpread m i (t.spread (stagedMetas ((u.ctx c).stn i)) (stagedRows ((u.ctx c).stn i) t0.xy.tr))) := by
  have rows : (!m.fed i 3 || decide (predBands m i ≤ (stagedRows ((u.ctx c).stn i) t0.xy.tr).length)) = true := by
    rw [Bool.or_eq_true, Bool.not_eq_true', decide_eq_true_iff]
    exact hrows
  rw [hm] at hall
  rw [doSpreadTile, withStation_acting h]
  simp only [ha, hu, hp, hm, rows, decide_eq_true hall, h0, h1, ht, Bool.true_or, Bool.and_self, ↓reduceIte, Tile.retagged_eq,
    Ctx.emitSpread, Tile.spread]

end

/-- Settles O52: a CONVERT by its room and by whether it is a site, a SPREAD by what it has staged for the tile that waits. -/
theorem convertAndSpread : Obligations.ConvertAndSpread := by
  unfold Obligations.ConvertAndSpread
  refine ⟨fun s c i m st h => ?_, fun s c i m st h a u ha hu => ?_⟩
  · -- CONVERT_TILE: room, and then the tile that comes or the tile of the lowest ordinal
    have acts {u : State} (e : doConvertTile c i s = u) : exec (.convertTile c i) s = .next u := congrArg _ e
    refine ⟨fun hr => acts (doConvertTile_waits h hr), fun h0 h1 => ⟨fun hs => ⟨fun u ht => ?_, fun t slipped u ht => ?_⟩,
      fun hs u hu => ⟨fun hl => ?_, fun t hl => ⟨fun ho he => ?_, fun hdue => ?_⟩⟩⟩⟩
    · exact acts (doConvertTile_stops h h0 h1 hs ht)
    · exact acts (doConvertTile_converts h h0 h1 hs ht)
    · exact acts (doConvertTile_site_empty h h0 h1 hs hu hl)
    · exact acts (doConvertTile_site_waits h h0 h1 hs hu hl ho he)
    · exact acts (doConvertTile_site_converts h h0 h1 hs hu hl hdue)
  · -- SPREAD_TILE: the value tile that waits, its row sets and the metadata of every band
    have acts {u : State} (e : doSpreadTile c i s = u) : exec (.spreadTile c i) s = .next u := congrArg _ e
    refine ⟨fun hp => acts (doSpreadTile_empty h ha hu hp), fun t0 hp => ⟨fun hf hlen he => ?_, fun hm he => ?_,
      fun b l hm hall hrows h0 h1 t slipped w ht => ?_⟩⟩
    · exact acts (doSpreadTile_waits_rows h ha hu hp hf hlen he)
    · exact acts (doSpreadTile_waits_metas h ha hu hp hm he)
    · exact ⟨t.spread _ _, acts (doSpreadTile_emits h ha hu hp hm hall hrows h0 h1 ht), rfl, rfl⟩

end Sys2Proof.Machine
end

section
/-! PROOFS. ACCUM_SEGMENT and CHAIN_JOIN (O54). -/

namespace Sys2Proof.Machine

open Sys2Proof

/-! ## ACCUM_SEGMENT (R105 to R107) -/

/-- A deep accumulator of the output tile `out` that still misses a segment (R106). -/
def DeepAcc.isOpen (out : TileXY) (a : DeepAcc) : Bool := a.out == out && decide (a.got < a.segments)

/-- The deep accumulator that the first segment `t` of an output tile opens (R106). -/
def DeepAcc.fresh (t : Tile) (anchor : Int) (segs : Nat) : DeepAcc :=
  { out := t.xy, anchor := anchor, segments := segs, got := 0, d := List.replicate 1024 0, st := List.replicate 1024 0,
    present := t.present, cols := t.cols }

/-- The deep accumulator that segment `t` adds into. -/
def StnState.accFor (n : StnState) (t : Tile) (anchor : Int) (segs : Nat) : DeepAcc :=
  (n.accs.find? (DeepAcc.isOpen t.xy)).getD (DeepAcc.fresh t anchor segs)

/-- A segment agrees with a deep accumulator in anchor and in SEGMENTS (R107). -/
abbrev DeepAcc.Agrees (a : DeepAcc) (anchor : Int) (segs : Nat) : Prop := anchor = a.anchor ∧ segs = a.segments

/-- The deep accumulator after a segment: the values are added where it agrees, and every element is NaN where it does not. -/
def DeepAcc.after (a : DeepAcc) (anchor : Int) (segs : Nat) (v : List Int) (sts : List (BitVec 2)) : DeepAcc :=
  { a with
    got := a.got + 1
    d := if a.Agrees anchor segs then (a.d.zip v).map (fun p => wrapS 192 (p.1 + p.2)) else a.d
    st := if a.Agrees anchor segs then (a.st.zip sts).map (fun p => comb p.1 p.2) else a.st.map (fun _ => 3) }

/-- 0x0402 where a segment does not agree with its deep accumulator. -/
def chargeSegment (c : CtxId) (a : DeepAcc) (anchor : Int) (segs : Nat) (s : State) : State :=
  if a.Agrees anchor segs then s else violate c 0x0402 s

section
variable {a : DeepAcc} {anchor : Int} {segs : Nat} {v : List Int} {sts : List (BitVec 2)}

theorem addSegment_after : (addSegment a anchor segs v sts).1 = a.after anchor segs v sts := by
  unfold addSegment DeepAcc.after
  split <;> rfl

theorem addSegment_charges (c : CtxId) (s : State) :
    (if (addSegment a anchor segs v sts).2 then violate c 0x0402 s else s) = chargeSegment c a anchor segs s := by
  unfold addSegment chargeSegment
  split <;> rfl

end

section
variable {s u : State} {c : CtxId} {i : Nat} {m : Image} {st : Station} (h : Acting s c i kACCUM m st)
include h

theorem doAccumSegment_waits (hr : (s.ctx c).room m i 0 = false ∨ (s.ctx c).room m i 1 = false) : doAccumSegment c i s = s := by
  rw [doAccumSegment, withStation_acting h]
  refine if_pos ?_
  rw [Bool.not_eq_true', Bool.and_eq_false_iff]
  exact hr

variable (h0 : (s.ctx c).room m i 0 = true) (h1 : (s.ctx c).room m i 1 = true)
include h0 h1

theorem doAccumSegment_stops (ht : takeTile c m i 0 s = (none, u)) : doAccumSegment c i s = u := by
  rw [doAccumSegment, withStation_acting h]
  simp only [h0, h1, ht, Bool.and_self, Bool.not_true, Bool.false_eq_true, ↓reduceIte]

variable {t : Tile} {anchor : Int} {segs : Nat} {v : List Int} {sts : List (BitVec 2)} (ht : takeTile c m i 0 s = (some t, u))
  (hp : t.payload = .acc anchor segs v sts)
include ht hp

/-- A segment adds into its deep accumulator, which is emitted once it is complete and no chain feeds the station. -/
theorem doAccumSegment_adds :
    let a := ((u.ctx c).stn i).accFor t anchor segs
    let a' := a.after anchor segs v sts
    let rest := ((u.ctx c).stn i).accs.filter (fun b => !DeepAcc.isOpen t.xy b)
    doAccumSegment c i s =
      if a.segments ≤ a.got + 1 ∧ chained (s.ctx c) m i = false then
        (chargeSegment c a anchor segs u).modCtx c (fun x => emitAccum i m st t.xy a'.anchor a'.d a'.st a'.present a'.cols
          (x.modStn i (fun n => { n with accs := rest })))
      else (chargeSegment c a anchor segs u).modCtx c (fun x => x.modStn i (fun n => { n with accs := rest ++ [a'] })) := by
  rw [doAccumSegment, withStation_acting h]
  simp only [h0, h1, ht, hp, addSegment_after, addSegment_charges, Bool.and_self, Bool.not_true, Bool.false_eq_true, ↓reduceIte]
  rfl

end

/-! ## CHAIN_JOIN (R108, R110, R111) -/

theorem dropFirst_eq_eraseP {α : Type} (p : α → Bool) (l : List α) : dropFirst p l = l.eraseP p := by
  induction l with
  | nil => rfl
  | cons a l ih =>
    rw [dropFirst, List.eraseP_cons, ih]
    cases p a <;> rfl

/-- A complete deep accumulator of the output tile `out`. -/
def DeepAcc.isFull (out : TileXY) (a : DeepAcc) : Bool := a.out == out && decide (a.segments ≤ a.got)

section
variable {s u : State} {c : CtxId} {i : Nat} {m : Image} {st : Station} {out : TileXY} (h : Acting s c i kACCUM m st)
  (hu : takeChain c m i ((m.tensor st.tensor).map (·.extent)) (waitingOn (s.ctx c) m i 1) s = u)
include h hu

theorem doChainJoin_incomplete (hf : ((u.ctx c).stn i).accs.find? (DeepAcc.isFull out) = none) : doChainJoin c i out s = u := by
  unfold DeepAcc.isFull at hf
  rw [doChainJoin, withStation_acting h]
  simp only [hu, hf, ite_self]

variable {a : DeepAcc} (hf : ((u.ctx c).stn i).accs.find? (DeepAcc.isFull out) = some a)
  (h0 : (u.ctx c).room m i 0 = true) (h1 : (u.ctx c).room m i 1 = true)
include hf h0 h1

/-- The complete tile joins the chain tile of its coordinates under the larger of the two anchors. -/
theorem doChainJoin_joins {t : Tile} {ai : Int} {k : Nat} {v : List Int} {sts : List (BitVec 2)}
    (hc : ((u.ctx c).stn i).chain.find? (fun t => t.xy == out) = some t) (hp : t.payload = .acc ai k v sts) :
    let big := max a.anchor ai
    let js := (a.d.zip (a.st.zip (v.zip sts))).map (fun p => joinElem big a.anchor ai p.1 p.2.1 p.2.2.1 p.2.2.2)
    let losses := js.flatMap (fun j => j.2.2)
    doChainJoin c i out s = u.modCtx c (fun x =>
      emitAccum i m st out big (js.map (fun j => j.1)) (js.map (fun j => j.2.1)) a.present a.cols
        ((x.count (countLosses (countVanish losses) (countTrunc losses))).modStn i (fun n =>
          { n with accs := ((u.ctx c).stn i).accs.eraseP (DeepAcc.isFull out), chain := dropTile out n.chain }))) := by
  unfold DeepAcc.isFull at hf ⊢
  rw [doChainJoin, withStation_acting h]
  simp only [hu, hf, h0, h1, hc, hp, dropFirst_eq_eraseP, Bool.and_self, Bool.not_true, Bool.false_eq_true, ↓reduceIte]

variable (hc : ((u.ctx c).stn i).chain.find? (fun t => t.xy == out) = none)
include hc

theorem doChainJoin_waits (he : portEnded (u.ctx c) m i 1 = false) : doChainJoin c i out s = u := by
  unfold DeepAcc.isFull at hf
  rw [doChainJoin, withStation_acting h]
  simp only [hu, hf, h0, h1, hc, he, Bool.and_self, Bool.not_true, Bool.false_eq_true, ↓reduceIte]

/-- A chain that ended without the tile is 0x0405, and every element of the tile is NaN. -/
theorem doChainJoin_unmet (he : portEnded (u.ctx c) m i 1 = true) :
    doChainJoin c i out s = (violate c 0x0405 u).modCtx c (fun x =>
      emitAccum i m st out a.anchor a.d (a.st.map (fun _ => 3)) a.present a.cols
        (x.modStn i (fun n => { n with accs := ((u.ctx c).stn i).accs.eraseP (DeepAcc.isFull out) }))) := by
  unfold DeepAcc.isFull at hf ⊢
  rw [doChainJoin, withStation_acting h]
  simp only [hu, hf, h0, h1, hc, he, dropFirst_eq_eraseP, Bool.and_self, Bool.not_true, Bool.false_eq_true, ↓reduceIte]

end

/-- Settles O54: a segment by its room and by whether it completes its tile, a chain tile by the tile it meets. -/
theorem accumulatorStations : Obligations.AccumulatorStations := by
  unfold Obligations.AccumulatorStations
  refine ⟨fun s c i m st h => ?_, fun s c i m st out h u hu => ?_⟩
  · -- ACCUM_SEGMENT: room, the segment, and whether its tile is complete
    have acts {u : State} (e : doAccumSegment c i s = u) : exec (.accumSegment c i) s = .next u := congrArg _ e
    refine ⟨fun hr => acts (doAccumSegment_waits h hr), fun h0 h1 => ⟨fun u ht => acts (doAccumSegment_stops h h0 h1 ht),
      fun t u anchor segs v sts ht hp => ?_⟩⟩
    have adds := doAccumSegment_adds h h0 h1 ht hp
    refine ⟨fun hmore => acts (adds.trans (if_neg ?_)), fun hall hnone => acts (adds.trans (if_pos ⟨hall, hnone⟩))⟩
    exact fun hends => absurd hends.1 (Nat.not_le_of_lt hmore)
  · -- CHAIN_JOIN: the first complete tile of the coordinates, and the chain tile that it meets
    have acts {u : State} (e : doChainJoin c i out s = u) : exec (.chainJoin c i out) s = .next u := congrArg _ e
    refine ⟨fun hf => acts (doChainJoin_incomplete h hu hf), fun a hf h0 h1 => ⟨fun t ai k v sts hc hp => ?_, fun hc he => ?_,
      fun hc he => ?_⟩⟩
    · exact acts (doChainJoin_joins h hu hf h0 h1 hc hp)
    · exact acts (doChainJoin_waits h hu hf h0 h1 hc he)
    · exact acts (doChainJoin_unmet h hu hf h0 h1 hc he)

end Sys2Proof.Machine
end

section
/-! PROOFS. MATMUL_PASS and STATIONARY_TILE_LOAD (O53). -/

namespace Sys2Proof.Machine

open Sys2Proof

/-! ## What a command does before its pass (R100, R143, R144) -/

/-- The station uses the entries of the metadata in force (R144). -/
def State.useMetas (s : State) (c : CtxId) (m : Image) (i : Nat) : State :=
  s.modCtx c (useBands i ((matInfoPure (s.ctx c) m i).prod == 1) (matInfoPure (s.ctx c) m i).metas)

section
variable {s u w : State} {c : CtxId} {i : Nat} {m : Image} {st : Station} {o : TileXY} {blk : Nat} {tab : List PageMap}
  {ms fs : List Span} (h : Acting s c i kMATMUL m st) (hu : stageOperands c m i s = u)
  (hsp : matSpans (u.ctx c) m i st (matInfoPure (u.ctx c) m i) = (ms, fs))
include h hu hsp

theorem doMatmulPass_stops (ha : access c (reqStation i) false false (ms ++ fs) u = (none, w)) : doMatmulPass c i o blk s = w := by
  rw [doMatmulPass, withStation_acting h]
  simp only [hu, hsp, ha]

/-- A pass that has its metadata reads the frozen bitmaps alone. -/
theorem doMatmulPass_passes (hms : ms = []) (ha : access c (reqStation i) false false fs u = (some tab, w)) :
    let z := chargeRead c tab fs w
    doMatmulPass c i o blk s =
      runPass c i m st (matInfoPure (z.ctx c) m i) (fs.flatMap (readSpan tab w)) o blk (z.useMetas c m i) := by
  subst hms
  rw [doMatmulPass, withStation_acting h]
  simp only [hu, hsp, ha, List.nil_append, List.isEmpty_nil, ↓reduceIte]
  rfl

/-- A pass that reads the metadata of a sparse W itself keeps it for the step. -/
theorem doMatmulPass_reads (hms : ms ≠ []) {k : MaskRec} (hk : m.masks[(matInfoPure (u.ctx c) m i).w.mask]? = some k)
    (ha : access c (reqStation i) false false (ms ++ fs) u = (some tab, w)) :
    let q := matInfoPure (u.ctx c) m i
    let b := readMeta ((chargeRead c tab (ms ++ fs) w).ctx c) tab w (sparseDim q.w k) k q.w.mask
    let z := (chargeRead c tab (ms ++ fs) w).modCtx c (keepMetas i (bandMetas (sparseDim q.w k) b.1 b.2))
    doMatmulPass c i o blk s =
      runPass c i m st (matInfoPure (z.ctx c) m i) (fs.flatMap (readSpan tab w)) o blk (z.useMetas c m i) := by
  rw [doMatmulPass, withStation_acting h]
  simp only [hu, hsp, ha, hk, List.isEmpty_eq_false_iff.mpr hms, Bool.false_eq_true, ↓reduceIte]
  rfl

/-- A pass that reads nothing of memory. -/
theorem doMatmulPass_unread (hms : ms = []) (hfs : fs = []) (hfree : stopped (u.ctx c) (reqStation i) = false) :
    doMatmulPass c i o blk s = runPass c i m st (matInfoPure (u.ctx c) m i) [] o blk (u.useMetas c m i) := by
  subst hfs
  have passes := doMatmulPass_passes (o := o) (blk := blk) h hu hsp hms (access_none hfree)
  rw [chargeRead_none] at passes
  exact passes

end

/-! ## The work on an output tile (R98, R100, R105, R126) -/

/-- An output tile that its station can work on: of the grid, not emitted, and with its operands there (R100). -/
structure MatInfo.Due (q : MatInfo) (x : Ctx) (m : Image) (i : Nat) (o : TileXY) : Prop where
  unsent : (x.stn i).emitted.contains o = false
  grid : (matGrid q (x.stn i)).contains o = true
  ready : matReady x m i q o = true

/-- The work on an output tile: the positions that form products (PRODUCT 2), the passes, whether the operands differ in their blocks
(0x0501), the segment that is open, and the segment that a pass adds into. -/
structure OutRun where
  dw : List (Option (Nat × Nat))
  passes : List MatPass
  bad : Bool
  opened : Option SegBuf
  seg : SegBuf

/-- The work on output tile `o` in a context, for the tensor `ti` of the station. -/
def MatInfo.outRun (q : MatInfo) (x : Ctx) (m : Image) (i ti : Nat) (frozen : List Byte) (o : TileXY) : OutRun :=
  let n := x.stn i
  let dw := if q.prod = 2 then dwPositions x q ti frozen o else []
  let gone := q.prod == 2 && dw.all (·.isNone)
  let ps := if gone then [] else matPasses x q ti n o
  let bad := !gone && matBad q n o ps
  let opened := n.segs.find? (fun k => k.out == o)
  { dw := dw, passes := ps, bad := bad, opened := opened
    seg := opened.getD (emptySeg o (matAnchor x m i q o) x.visible.spillLog2.toNat ps.length bad) }

/-- 0x0501 is charged where the segment of a bad output tile opens. -/
def OutRun.charge (r : OutRun) (c : CtxId) (s : State) : State := if r.opened.isNone && r.bad then violate c 0x0501 s else s

/-- The next pass is the last of its output tile. -/
def OutRun.last (r : OutRun) : Bool := decide (r.passes.length ≤ r.seg.blocksDone.length + 1)

/-- The next pass ends its segment (R105). -/
def OutRun.ends (r : OutRun) : Bool := r.last || decide (2 ^ r.seg.log2 ≤ r.seg.inSeg + 1)

theorem OutRun.last_iff (r : OutRun) : r.last = true ↔ r.passes.length ≤ r.seg.blocksDone.length + 1 := decide_eq_true_iff

theorem OutRun.ends_iff (r : OutRun) :
    r.ends = true ↔ r.passes.length ≤ r.seg.blocksDone.length + 1 ∨ 2 ^ r.seg.log2 ≤ r.seg.inSeg + 1 := by
  rw [OutRun.ends, Bool.or_eq_true, r.last_iff, decide_eq_true_iff]

/-- The contributions of one block, element by element, with their losses (R102). -/
abbrev BlockSums := List (Int × BitVec 2 × Loss)

/-- The block contributions of pass `p` under the anchor of its segment. -/
def OutRun.sums (r : OutRun) (x : Ctx) (q : MatInfo) (ti : Nat) (n : StnState) (o : TileXY) (p : MatPass) : BlockSums :=
  (passProducts x q ti n o p r.dw).map (fun l => blockSum l r.seg.anchor)

/-- The segment with the contributions of block `blk` added (R103). -/
def SegBuf.add (g : SegBuf) (blk : Nat) (cs : BlockSums) : SegBuf :=
  { g with
    v := (g.v.zip cs).map (fun z => wrapS 128 (z.1 + z.2.1))
    st := (g.st.zip cs).map (fun z => comb z.1 z.2.2.1)
    inSeg := g.inSeg + 1
    blocksDone := g.blocksDone ++ [blk] }

/-- Where the segment `g` goes that a pass has added to: it stays, or it is emitted and the next one opens, or it is the last of its
output tile (R105). -/
def OutRun.place (r : OutRun) (q : MatInfo) (m : Image) (i : Nat) (o : TileXY) (n : StnState) (g : SegBuf) (x : Ctx) : Ctx :=
  let others := n.segs.filter (fun k => k.out != o)
  if r.ends then
    let sent := x.push m i 0 (segTile q n g)
    if r.last then sent.setStn i { n with segs := others, emitted := n.emitted ++ [o] }
    else sent.setStn i { n with
      segs := others ++ [{ emptySeg o r.seg.anchor r.seg.log2 r.seg.total r.seg.bad with blocksDone := g.blocksDone }] }
  else x.setStn i { n with segs := others ++ [g] }

/-- The end of a pass: its losses are counted, `place` acts, and the residues of its operands are checked (R103, R326). -/
def finishPass (c : CtxId) (i : Nat) (m : Image) (q : MatInfo) (o : TileXY) (p : MatPass) (n : StnState) (cs : BlockSums)
    (place : Ctx → Ctx) (s : State) : State :=
  let counted := s.modCtx c (fun x => x.count (countLosses (countVanish (cs.map (·.2.2))) (countTrunc (cs.map (·.2.2)))))
  let t := counted.modCtx c place
  checkResidue c (benchSite (t.ctx c) i) (checkOp m i (matOrdinal q o p)) tapsM (passTiles q n o p) t

/-- What pass `blk` of an output tile does with the work on it. -/
def OutRun.runBlock (r : OutRun) (c : CtxId) (i : Nat) (m : Image) (q : MatInfo) (ti : Nat) (o : TileXY) (blk : Nat) (s : State) : State :=
  let x := s.ctx c
  match r.passes[blk]? with
  | none =>
    if r.passes.isEmpty && x.room m i 0 then
      (r.charge c s).modCtx c (fun x =>
        (x.push m i 0 (segTile q ((s.ctx c).stn i) r.seg)).modStn i (fun n => { n with emitted := n.emitted ++ [o] }))
    else s
  | some p =>
    if r.seg.blocksDone.contains blk || (r.ends && !x.room m i 0) then s
    else
      match switchStat (statOf q o p) (x.stn i) with
      | none => s
      | some n =>
        let cs := r.sums x q ti n o p
        finishPass c i m q o p n cs (r.place q m i o n (r.seg.add blk cs)) (r.charge c s)

section
variable {r : OutRun} {q : MatInfo} {m : Image} {i : Nat} {o : TileXY} {n : StnState} {g : SegBuf}

theorem OutRun.place_stays (h : r.ends = false) : r.place q m i o n g =
    fun x => x.setStn i { n with segs := n.segs.filter (fun k => k.out != o) ++ [g] } :=
  funext fun _ => if_neg (Bool.eq_false_iff.mp h)

theorem OutRun.place_cuts (h : r.ends = true) (hl : r.last = false) : r.place q m i o n g =
    fun x => (x.push m i 0 (segTile q n g)).setStn i { n with segs := n.segs.filter (fun k => k.out != o) ++
      [{ emptySeg o r.seg.anchor r.seg.log2 r.seg.total r.seg.bad with blocksDone := g.blocksDone }] } :=
  funext fun _ => (if_pos h).trans (if_neg (Bool.eq_false_iff.mp hl))

theorem OutRun.place_finishes (h : r.ends = true) (hl : r.last = true) : r.place q m i o n g =
    fun x => (x.push m i 0 (segTile q n g)).setStn i { n with
      segs := n.segs.filter (fun k => k.out != o), emitted := n.emitted ++ [o] } :=
  funext fun _ => (if_pos h).trans (if_pos hl)

end

/-! ## The pass (R102 to R105, R118, R122) -/

section
variable {s : State} {c : CtxId} {i : Nat} {m : Image} {st : Station} {q : MatInfo} {frozen : List Byte} {o : TileXY} {blk : Nat}

theorem runPass_rests (hno : ((s.ctx c).stn i).emitted.contains o = true ∨ (matGrid q ((s.ctx c).stn i)).contains o = false ∨
    matReady (s.ctx c) m i q o = false) : runPass c i m st q frozen o blk s = s := by
  refine if_pos ?_
  rw [Bool.or_eq_true, Bool.or_eq_true, Bool.not_eq_true', Bool.not_eq_true', or_assoc]
  exact hno

theorem runPass_due (hd : q.Due (s.ctx c) m i o) : runPass c i m st q frozen o blk s =
    (q.outRun (s.ctx c) m i st.tensor frozen o).runBlock c i m q st.tensor o blk s := by
  refine if_neg ?_
  rw [hd.unsent, hd.grid, hd.ready]
  exact Bool.false_ne_true

end

section
variable {r : OutRun} {s : State} {c : CtxId} {i : Nat} {m : Image} {q : MatInfo} {ti : Nat} {o : TileXY} {blk : Nat}

/-- An output tile without a pass is emitted at once. -/
theorem OutRun.runBlock_without (hp : r.passes = []) (hroom : (s.ctx c).room m i 0 = true) :
    r.runBlock c i m q ti o blk s = (r.charge c s).modCtx c (fun x =>
      (x.push m i 0 (segTile q ((s.ctx c).stn i) r.seg)).modStn i (fun n => { n with emitted := n.emitted ++ [o] })) := by
  simp only [OutRun.runBlock, hp, hroom, List.getElem?_nil, List.isEmpty_nil, Bool.and_self, ↓reduceIte]

variable {p : MatPass} (hp : r.passes[blk]? = some p)
include hp

/-- A pass is not run twice, waits for room where it ends a segment, and waits for its stationary tile. -/
theorem OutRun.runBlock_waits (hno : r.seg.blocksDone.contains blk = true ∨ (r.ends = true ∧ (s.ctx c).room m i 0 = false) ∨
    switchStat (statOf q o p) ((s.ctx c).stn i) = none) : r.runBlock c i m q ti o blk s = s := by
  rcases hno with hdone | ⟨hends, hfull⟩ | hstat
  · simp only [OutRun.runBlock, hp, hdone, Bool.true_or, ↓reduceIte]
  · simp only [OutRun.runBlock, hp, hends, hfull, Bool.not_false, Bool.and_self, Bool.or_true, ↓reduceIte]
  · simp only [OutRun.runBlock, hp, hstat, ite_self]

/-- A pass adds its block contributions to the segment of its output tile and places it as `f` says. -/
theorem OutRun.runBlock_adds {n : StnState} {f : Ctx → Ctx} (hnew : r.seg.blocksDone.contains blk = false)
    (hroom : r.ends = false ∨ (s.ctx c).room m i 0 = true) (hn : switchStat (statOf q o p) ((s.ctx c).stn i) = some n)
    (hf : r.place q m i o n (r.seg.add blk (r.sums (s.ctx c) q ti n o p)) = f) :
    r.runBlock c i m q ti o blk s = finishPass c i m q o p n (r.sums (s.ctx c) q ti n o p) f (r.charge c s) := by
  have fits : (r.ends && !(s.ctx c).room m i 0) = false := by
    rw [Bool.and_eq_false_iff, Bool.not_eq_false']
    exact hroom
  simp only [OutRun.runBlock, hp, hnew, fits, hn, hf, Bool.or_self, Bool.false_eq_true, ↓reduceIte]

end

/-! ## STATIONARY_TILE_LOAD (R122, R127) -/

/-- Tile `xy` and its codebook tables go into the idle register. -/
def Ctx.loadIdle (i : Nat) (xy : TileXY) (tables : List (Option (List Nat))) (x : Ctx) : Ctx :=
  x.modStn i (fun n => { n with idle := some ⟨xy, tables⟩ })

section
variable {s u : State} {c : CtxId} {i : Nat} {m : Image} {st : Station} {xy : TileXY} (h : Acting s c i kMATMUL m st)
  (hu : stageOperands c m i s = u)
include h hu

theorem doStationaryTileLoad_rests (hno : st.o 0 1 = 2 ∨ stagedAt ((u.ctx c).stn i).stageB xy = none) :
    doStationaryTileLoad c i xy s = u := by
  rw [doStationaryTileLoad, withStation_acting h]
  rcases hno with hprod | hstaged
  · simp only [hu, hprod, ↓reduceIte]
  · simp only [hu, hstaged, ite_self]

variable {w : TensorRec} {t : Tile} (hprod : st.o 0 1 ≠ 2) (hw : m.tensor st.tensor = some w)
  (ht : stagedAt ((u.ctx c).stn i).stageB xy = some t)
include hprod hw ht

/-- A row outside the CODEBOOK tensor has no table: 0x0502, once for the load. -/
theorem doStationaryTileLoad_loads : doStationaryTileLoad c i xy s =
    (if none ∈ tablesOf w t then violate c 0x0502 u else u).modCtx c (Ctx.loadIdle i xy (tablesOf w t)) := by
  have outside : (tablesOf w t).any (·.isNone) = true ↔ none ∈ tablesOf w t := by
    simp only [List.any_eq_true, Option.isNone_iff_eq_none, exists_eq_right]
  rw [doStationaryTileLoad, withStation_acting h]
  simp only [hu, hprod, hw, ht, outside, Option.getD_some, ↓reduceIte]
  rfl

end

/-- Settles O53: a pass by what it reads of memory, then by its output tile, its block and the segment that it adds to; a load by the
tile that is staged. -/
theorem matrixUnit : Obligations.MatrixUnit := by
  unfold Obligations.MatrixUnit
  refine ⟨?_, fun s c i m st xy h u hu => ⟨fun hno => ?_, fun w t hprod hw ht => ?_⟩⟩
  · -- MATMUL_PASS
    intro s c i m st o blk h u hu hfree x n q sp used
    have acts {u : State} (e : doMatmulPass c i o blk s = u) : exec (.matmulPass c i o blk) s = .next u := congrArg _ e
    refine ⟨fun w ha => acts (doMatmulPass_stops h hu rfl ha), fun hms tab w ha => acts (doMatmulPass_passes h hu rfl hms ha),
      fun k tab w hms hk ha => acts (doMatmulPass_reads h hu rfl hms hk ha), fun hms hfs => ?_⟩
    intro v y n dw gone ps
    have unread := doMatmulPass_unread (o := o) (blk := blk) h hu rfl hms hfs hfree
    refine ⟨fun hno => acts (unread.trans (runPass_rests hno)), fun hnew hgrid hready => ?_⟩
    have due := unread.trans (runPass_due ⟨hnew, hgrid, hready⟩)
    intro bad opened g v'
    -- the work on the output tile, in the names of the statement
    let r := q.outRun y m i st.tensor [] o
    refine ⟨fun hps hroom => acts (due.trans (OutRun.runBlock_without hps hroom)), fun p hp => ?_⟩
    intro last ends
    have ends_iff : r.ends = true ↔ ends := r.ends_iff
    have last_iff : r.last = true ↔ last := r.last_iff
    refine ⟨fun hno => ?_, fun n' hdone hn => ?_⟩
    · rw [← ends_iff] at hno
      exact acts (due.trans (OutRun.runBlock_waits hp hno))
    · intro cs g' others counted after
      have adds {f} (hroom) (hf) := acts (due.trans (OutRun.runBlock_adds (f := f) hp hdone hroom hn hf))
      refine ⟨fun hends => ?_, fun hends hlast hroom => ?_, fun hlast hroom => ?_⟩
      · have stays : r.ends = false := Bool.eq_false_iff.mpr (mt ends_iff.mp hends)
        exact adds (.inl stays) (OutRun.place_stays stays)
      · exact adds (.inr hroom) (OutRun.place_cuts (ends_iff.mpr hends) (Bool.eq_false_iff.mpr (mt last_iff.mp hlast)))
      · exact adds (.inr hroom) (OutRun.place_finishes (ends_iff.mpr (.inl hlast)) (last_iff.mpr hlast))
  · -- STATIONARY_TILE_LOAD without a tile to load
    exact congrArg _ (doStationaryTileLoad_rests h hu hno)
  · -- STATIONARY_TILE_LOAD
    have loads := doStationaryTileLoad_loads h hu hprod hw ht
    exact ⟨fun hin => congrArg _ (loads.trans (congrArg (State.modCtx · c _) (if_neg hin))),
      fun hout => congrArg _ (loads.trans (congrArg (State.modCtx · c _) (if_pos hout)))⟩

end Sys2Proof.Machine
end

section
/-! PROOFS. UPDATE_BLOCK (O59). -/

namespace Sys2Proof.Machine

open Sys2Proof

/-! ## What the update of a block turns on (R287, R292, R295) -/

/-- Rule 2 in its exact form, whose statistics are those of the step itself. -/
def UpdInfo.exact (q : UpdInfo) : Bool := q.u.rule == 2 && bitOf q.u.flags 0

/-- Block `b` rests: the step has done it, or its statistics wait for the end of the gradients. -/
def UpdInfo.rests (q : UpdInfo) (x : Ctx) (m : Image) (b : Nat) : Bool := x.updated q.ix b || (q.exact && !portEnded x m q.stn 0)

/-- Block `b`, at the place `g`, is the member's own, and gradient tile `t` updates an element of it. -/
def UpdInfo.dueIn (q : UpdInfo) (frozen : List Byte) (g : RecBlock) (t : Tile) (b : Nat) : Bool :=
  q.owns b && (List.range 32).any (fun e => eligible q frozen g.k t (32 * g.row + e))

/-- The records in copy `copy` that the update of block `b` reads: a vector program reads those of both rows of its vector row. -/
def UpdInfo.records (q : UpdInfo) (g : RecBlock) (copy b : Nat) : List Span :=
  ((if q.u.rule = 4 then ([2 * (g.row / 2), 2 * (g.row / 2) + 1]).filterMap (fun y => g.k.blocks.getD y none) else [b]).filter q.owns).map
    (fun n => (⟨q.recVa copy n, q.rb⟩ : Span))

/-- The row of the tensor that the block lies in. -/
def RecBlock.tensorRow (g : RecBlock) : Nat := 32 * g.k.xy.tr + g.row

/-- The statistics that rule 2 updates a block with. -/
def UpdInfo.factStats (q : UpdInfo) (x : Ctx) (frozen : List Byte) (shape : List ShapeTile) (old : FactStats) : FactStats :=
  if q.exact then nextStats q (hyperOf x.ag q.u.hpSet).b2 old (heldGrads q frozen shape (x.stn q.stn).held) else old

section
variable {q : UpdInfo} {x : Ctx} {m : Image} {b : Nat}

theorem UpdInfo.rests_updated (h : x.updated q.ix b = true) : q.rests x m b = true := by
  rw [UpdInfo.rests, h, Bool.true_or]

theorem UpdInfo.rests_exact (h : q.exact = true) (he : portEnded x m q.stn 0 = false) : q.rests x m b = true := by
  rw [UpdInfo.rests, h, he, Bool.not_false, Bool.and_self, Bool.or_true]

theorem UpdInfo.rests_eq_false (h : x.updated q.ix b = false) (he : q.exact = false ∨ portEnded x m q.stn 0 = true) :
    q.rests x m b = false := by
  rw [UpdInfo.rests, h, Bool.false_or, Bool.and_eq_false_iff, Bool.not_eq_false']
  exact he

theorem UpdInfo.exact_eq_false (h : q.u.rule ≠ 2) : q.exact = false := by
  rw [UpdInfo.exact, beq_eq_false_iff_ne.mpr h, Bool.false_and]

end

/-! ## The update of one block (R291 to R295) -/

section
variable {c : CtxId} {m : Image} {q : UpdInfo} {frozen : List Byte} {shape : List ShapeTile} {b : Nat} {s : State}

theorem updateOne_unknown (hg : findBlock shape b = none) : updateOne c m q frozen shape b s = s := by
  simp only [updateOne, hg]

variable {g : RecBlock} (hg : findBlock shape b = some g)
include hg

theorem updateOne_without_gradient (ht : ((s.ctx c).stn q.stn).held.find? (fun t => t.xy == g.k.xy) = none) :
    updateOne c m q frozen shape b s = s := by
  simp only [updateOne, hg, ht]

variable {t : Tile} (ht : ((s.ctx c).stn q.stn).held.find? (fun t => t.xy == g.k.xy) = some t)
include ht

theorem updateOne_rests (hr : q.rests (s.ctx c) m b = true) : updateOne c m q frozen shape b s = s := by
  unfold UpdInfo.rests UpdInfo.exact at hr
  simp only [updateOne, hg, ht, hr, ↓reduceIte]

variable (hr : q.rests (s.ctx c) m b = false)
include hr

theorem updateOne_notes (hd : q.dueIn frozen g t b = false) : updateOne c m q frozen shape b s =
    s.modCtx c (fun x => { x with updates := x.updates ++ [(q.ix, b, false)] }) := by
  unfold UpdInfo.rests UpdInfo.exact at hr
  unfold UpdInfo.dueIn at hd
  simp only [updateOne, hg, ht, hr, hd, Bool.not_false, Bool.false_eq_true, ↓reduceIte]

variable (hd : q.dueIn frozen g t b = true)
include hd

theorem updateOne_stops {z : State} (ha : access c (reqStation q.stn) false false
      (q.records g (s.ctx c).parity b ++ q.statAccess (s.ctx c).parity g.tensorRow) s = (none, z)) :
    updateOne c m q frozen shape b s = z := by
  unfold UpdInfo.rests UpdInfo.exact at hr
  unfold UpdInfo.dueIn at hd
  unfold UpdInfo.records RecBlock.tensorRow at ha
  simp only [updateOne, hg, ht, hr, hd, ha, Bool.not_true, Bool.false_eq_true, ↓reduceIte]

variable {tab : List PageMap} {z : State} (ha : access c (reqStation q.stn) false false
  (q.records g (s.ctx c).parity b ++ q.statAccess (s.ctx c).parity g.tensorRow) s = (some tab, z))
include ha

/-- A due block is written, by rule 2 with the statistics of copy N mod 2 or, in its exact form, with those of the step; their check
comes with the first block. -/
theorem updateOne_writes : updateOne c m q frozen shape b s =
    writeBlock c m q ⟨t, g, frozen, shape, tab⟩
      (q.records g (s.ctx c).parity b ++ statReads q (s.ctx c) shape g.tensorRow)
      (q.factStats (s.ctx c) frozen shape (if q.u.rule = 2 then readStats q tab z (s.ctx c).parity else ⟨false, 0, [], []⟩))
      (if q.exact && (rowsDone q (s.ctx c) shape).isEmpty then checkStats c m q z else z) := by
  unfold UpdInfo.rests UpdInfo.exact at hr
  unfold UpdInfo.dueIn at hd
  unfold UpdInfo.records RecBlock.tensorRow at ha
  simp only [updateOne, hg, ht, hr, hd, ha, Bool.not_true, Bool.false_eq_true, ↓reduceIte]
  rfl

theorem updateOne_writes_plain (hrule : q.u.rule ≠ 2) : updateOne c m q frozen shape b s =
    writeBlock c m q ⟨t, g, frozen, shape, tab⟩
      (q.records g (s.ctx c).parity b ++ statReads q (s.ctx c) shape g.tensorRow) ⟨false, 0, [], []⟩ z := by
  simp only [updateOne_writes hg ht hr hd ha, UpdInfo.factStats, q.exact_eq_false hrule, hrule, Bool.false_and, Bool.false_eq_true, ↓reduceIte]

theorem updateOne_writes_fact (hrule : q.u.rule = 2) : updateOne c m q frozen shape b s =
    writeBlock c m q ⟨t, g, frozen, shape, tab⟩
      (q.records g (s.ctx c).parity b ++ statReads q (s.ctx c) shape g.tensorRow)
      (q.factStats (s.ctx c) frozen shape (readStats q tab z (s.ctx c).parity))
      (if q.exact && (rowsDone q (s.ctx c) shape).isEmpty then checkStats c m q z else z) := by
  rw [updateOne_writes hg ht hr hd ha, if_pos hrule]

end

/-! ## UPDATE_BLOCK (R144, R282) -/

section
variable {s v : State} {c : CtxId} {i b : Nat} {m : Image} {st : Station} {q : UpdInfo} (h : Acting s c i kUPDATE m st)
  (hq : updInfo (s.ctx c) m i = some q) (hv : takeGrads c m i (!q.w.mode mFRZA) (waitingOn (s.ctx c) m i 0) s = v)
include h hq hv

theorem doUpdateBlock_frozen (hf : q.w.mode mFRZA = true) : doUpdateBlock c i b s = v := by
  rw [doUpdateBlock, withStation_acting h]
  simp only [hq, hv]
  exact if_pos hf

variable (hf : q.w.mode mFRZA = false)
include hf

theorem doUpdateBlock_stops {u : State} (ha : access c (reqStation i) false false
      ((reduceSpans (v.ctx c) m st q.w).1 ++ (reduceSpans (v.ctx c) m st q.w).2) v = (none, u)) :
    doUpdateBlock c i b s = u := by
  rw [doUpdateBlock, withStation_acting h]
  simp only [hq, hv, ha]
  exact if_neg (Bool.eq_false_iff.mp hf)

/-- Once the metadata and the frozen bitmaps are there the block is updated, the step of the station is finished where it can be, and
whether the station stands amid a tile is noted. -/
theorem doUpdateBlock_updates {tab : List PageMap} {u : State} (ha : access c (reqStation i) false false
      ((reduceSpans (v.ctx c) m st q.w).1 ++ (reduceSpans (v.ctx c) m st q.w).2) v = (some tab, u)) :
    let sp := reduceSpans (v.ctx c) m st q.w
    let shape := shapeOf (u.ctx c) m q.w tab u
    let frozen := sp.2.flatMap (readSpan tab u)
    let w := (chargeRead c tab (sp.1 ++ sp.2) u).modCtx c (useBands i false (reduceMetas (u.ctx c) m q.w tab u))
    doUpdateBlock c i b s =
      (finishUpdate c m q frozen shape (updateOne c m q frozen shape b w)).modCtx c (noteAmid q frozen shape) := by
  rw [doUpdateBlock, withStation_acting h]
  simp only [hq, hv, ha]
  exact if_neg (Bool.eq_false_iff.mp hf)

end

/-- Settles O59: the command by whether the tensor is frozen and by the access of its metadata, then the block by its gradient tile,
by whether it rests or is due, and by the access of its records. -/
theorem updatedBlocks : Obligations.UpdatedBlocks := by
  unfold Obligations.UpdatedBlocks
  intro s c i b m st q h hq v sp
  refine ⟨fun hf => congrArg _ (doUpdateBlock_frozen h hq rfl hf), fun hf =>
    ⟨fun u ha => congrArg _ (doUpdateBlock_stops h hq rfl hf ha), fun tab u ha => ?_⟩⟩
  intro shape frozen w x held done
  have acts {z : State} (e : updateOne c m q frozen shape b w = z) : exec (.updateBlock c i b) s = done z :=
    congrArg _ ((doUpdateBlock_updates h hq rfl hf ha).trans (congrArg (fun z => (finishUpdate c m q frozen shape z).modCtx c _) e))
  refine ⟨fun hg => acts (updateOne_unknown hg), fun g hg => ⟨fun ht => acts (updateOne_without_gradient hg ht), fun t ht => ?_⟩⟩
  intro exact'
  refine ⟨fun hu => acts (updateOne_rests hg ht (UpdInfo.rests_updated hu)),
    fun _ hex hend => acts (updateOne_rests hg ht (UpdInfo.rests_exact hex hend)), fun hu hend => ?_⟩
  have hr := UpdInfo.rests_eq_false hu hend
  refine ⟨fun hd => acts (updateOne_notes hg ht hr hd), fun hd => ?_⟩
  intro near row recs reads spans
  exact ⟨fun z ha => acts (updateOne_stops hg ht hr hd ha),
    fun tabR z ha hrule => acts (updateOne_writes_plain hg ht hr hd ha hrule),
    fun tabR z ha hrule => acts (updateOne_writes_fact hg ht hr hd ha hrule)⟩

end Sys2Proof.Machine
end

section
/-! PROOFS. The stations of Scribe: SCRIBE_PREDICT, REGROWTH_SCAN, PRUNE_UNIT and TRANSPOSE_META (O56). -/

namespace Sys2Proof.Machine

open Sys2Proof

/-! ## SCRIBE_PREDICT (R173 to R177) -/

/-- What the scores of the row-set tile at `xy` are read from: U whole and the band of V. -/
def PredInfo.factorSpans (q : PredInfo) (x : Ctx) (m : Image) (xy : TileXY) : List Span :=
  viewSpans (plainView x m q.layer q.ui q.u) (rowTiles q.u (List.range q.u.nt1)) ++
    viewSpans (plainView x m q.layer q.vi q.v) (rowTiles q.v [xy.tc])

/-- The token tile of `xy` as the scores take it, from the tiles that the station holds. -/
def PredInfo.tokens (q : PredInfo) (n : StnState) (xy : TileXY) : List Tile :=
  ((List.range (ceilDiv (q.w.ext 0) 32)).filterMap (fun tc =>
    n.held.find? (fun t => t.xy == ⟨xy.tr, tc, xy.x2, xy.x3⟩))).map asE2m1

section
variable {c : CtxId} {i : Nat} {m : Image} {q : PredInfo} {ord : Nat} {xy : TileXY} {u w : State}

theorem issueRowSet_stops (ha : access c (reqStation i) false false (q.factorSpans (u.ctx c) m xy) u = (none, w)) :
    issueRowSet c i m q ord xy u = w := by
  unfold PredInfo.factorSpans at ha
  simp only [issueRowSet, ha]

/-- A row set of which no pair is sampled needs no shadow values: it is what the scores leave. -/
theorem issueRowSet_unsampled {tab : List PageMap}
    (ha : access c (reqStation i) false false (q.factorSpans (u.ctx c) m xy) u = (some tab, w)) :
    let xs := q.tokens ((w.ctx c).stn i) xy
    let r := scoreTile (u.ctx c) m q xs xy.tc tab (checkPredict c i m xy w)
    let thresh := fpVal ((u.ctx c).liveAt idPredThresh i ord)
    let skipped := skippedRows q thresh xs xy.tc r.vals
    skipped.filter (fun v => isSampled (u.ctx c) q.w ((u.ctx c).liveAt idShadowShare i ord).toNat xy.tr (32 * xy.tc + v)) = [] →
    issueRowSet c i m q ord xy u =
      (chargeRead c tab (q.factorSpans (u.ctx c) m xy) (checkPredict c i m xy w)).modCtx c
        (emitRowSet i m q ord xy (rowSetOf q thresh xs xy.tc skipped [] r none)) := by
  intro xs r thresh skipped hsampled
  unfold PredInfo.factorSpans at ha
  simp only [issueRowSet, ha]
  exact if_pos (List.isEmpty_iff.mpr hsampled)

end

section
variable {s u : State} {c : CtxId} {i : Nat} {m : Image} {st : Station} {q : PredInfo} (h : Acting s c i kSCRIBE m st)
include h

theorem doScribePredict_waits (hr : (s.ctx c).room m i 0 = false) : doScribePredict c i s = s := by
  rw [doScribePredict, withStation_acting h]
  exact if_pos (.inr (by rw [hr, Bool.not_false]))

variable (hop : st.o 0 1 = 0) (hq : predInfo m st = some q) (hr : (s.ctx c).room m i 0 = true) (hu : stageHeld c m i s = u)
include hop hq hr hu

theorem doScribePredict_none_due (hl : lowestDue (predDue q ((u.ctx c).stn i)) = none) : doScribePredict c i s = u := by
  rw [doScribePredict, withStation_acting h]
  simp only [hop, hq, hr, hu, hl, ne_eq, not_true_eq_false, Bool.not_true, Bool.false_eq_true, or_self, ↓reduceIte]

variable {ord : Nat} {xy : TileXY} (hl : lowestDue (predDue q ((u.ctx c).stn i)) = some (ord, xy))
include hl

/-- The lowest tile due is issued in its turn, or out of turn where no more inputs come. -/
theorem doScribePredict_due : doScribePredict c i s =
    if decide (ord ≤ ((u.ctx c).stn i).next) || portEnded (u.ctx c) m i 0 then issueRowSet c i m q ord xy u else u := by
  rw [doScribePredict, withStation_acting h]
  simp only [hop, hq, hr, hu, hl, ne_eq, not_true_eq_false, Bool.not_true, Bool.false_eq_true, or_self, ↓reduceIte]

theorem doScribePredict_early (ho : ((u.ctx c).stn i).next < ord) (he : portEnded (u.ctx c) m i 0 = false) :
    doScribePredict c i s = u := by
  rw [doScribePredict_due h hop hq hr hu hl, he, decide_eq_false (Nat.not_le_of_lt ho)]
  rfl

theorem doScribePredict_issues (hdue : ord ≤ ((u.ctx c).stn i).next ∨ portEnded (u.ctx c) m i 0 = true) :
    doScribePredict c i s = issueRowSet c i m q ord xy u := by
  rw [doScribePredict_due h hop hq hr hu hl]
  refine if_pos ?_
  rw [Bool.or_eq_true, decide_eq_true_iff]
  exact hdue

end

/-! ## REGROWTH_SCAN (R165) -/

/-- The whole candidate lists of a scan go out, and the scan is finished when all units are sent. -/
def sendWhole (i : Nat) (m : Image) (w : TensorRec) (x : Ctx) : Ctx :=
  (sendCands i m w (List.range (scanUnits w)) x).modStn i (fun n =>
    { n with fin := (List.range (scanUnits w)).all (fun u => n.cands.any (fun q => q.unit == u && q.sent)) })

section
variable {s u v : State} {c : CtxId} {i : Nat} {m : Image} {st : Station} {w : TensorRec} {k : MaskRec}
  (h : Acting s c i kSCRIBE m st) (hw : m.tensor st.tensor = some w) (hk : m.masks[w.mask]? = some k)
include h hw hk

section
variable {sp : List Span × List Span} (hop : st.o 0 1 = 2) (hsp : reduceSpans (s.ctx c) m st w = sp)
include hop hsp

theorem doRegrowthScan_stops (ha : access c (reqStation i) false false (sp.1 ++ sp.2) s = (none, u)) : doRegrowthScan c i s = u := by
  rw [doRegrowthScan, withStation_acting h]
  simp only [hop, hw, hk, hsp, ha, ↓reduceIte]

variable {tab : List PageMap} (ha : access c (reqStation i) false false (sp.1 ++ sp.2) s = (some tab, u))
include ha

theorem doRegrowthScan_sends (ht : takeTile c m i 0 (chargeRead c tab (sp.1 ++ sp.2) u) = (none, v)) :
    doRegrowthScan c i s = v.modCtx c (sendWhole i m w) := by
  rw [doRegrowthScan, withStation_acting h]
  simp only [hop, hw, hk, hsp, ha, ht, ↓reduceIte]
  rfl

/-- A tile of the gradient adds its candidates, by the rows of its band, before the lists that are whole go out. -/
theorem doRegrowthScan_scans {t : Tile} (ht : takeTile c m i 0 (chargeRead c tab (sp.1 ++ sp.2) u) = (some t, v)) :
    let rows := bandRows (sparseDim w k) (readMeta (u.ctx c) tab u (sparseDim w k) k w.mask).1 t.xy.tr
    doRegrowthScan c i s = (v.modCtx c (fun x => (countBand i t.xy.tr rows.2.1 rows.2.2 x).modStn i (fun n =>
      { n with cands := addCands w x.ag.regrowK.toNat (sp.2.flatMap (readSpan tab u)) rows.1 t n.cands }))).modCtx c (sendWhole i m w) := by
  rw [doRegrowthScan, withStation_acting h]
  simp only [hop, hw, hk, hsp, ha, ht, ↓reduceIte]
  rfl

end

/-! ## PRUNE_UNIT (R166, R171) -/

section
variable {b : Nat} {q : UpdInfo} {sp : List Span × List Span} (hop : st.o 0 1 = 1) (hq : pruneInfo (s.ctx c) m st.tensor w = some q)
  (hv : takePruneInputs c m i s = v) (hsp : reduceSpans (v.ctx c) m st w = sp)
include hop hq hv hsp

theorem doPruneUnit_stops (ha : access c (reqStation i) false false (sp.1 ++ sp.2) v = (none, u)) : doPruneUnit c i b s = u := by
  rw [doPruneUnit, withStation_acting h]
  simp only [hop, hw, hk, hq, hv, hsp, ha, ↓reduceIte]

/-- Once the metadata is read and counted the unit is edited, and the edit finished where it can be. -/
theorem doPruneUnit_edits {tab : List PageMap} (ha : access c (reqStation i) false false (sp.1 ++ sp.2) v = (some tab, u)) :
    let d := sparseDim w k
    let base := readMeta (u.ctx c) tab u d k w.mask
    let bands := (List.range d.bands).map (bandRows d base.1)
    let e : EditIn := ⟨q, k, d, bands.map (·.1), base.1, base.2, sp.2.flatMap (readSpan tab u)⟩
    let z := (chargeRead c tab (sp.1 ++ sp.2) u).modCtx c (fun x =>
      bands.zipIdx.foldl (fun y b => countBand i b.2 b.1.2.1 b.1.2.2 y) x)
    doPruneUnit c i b s = finishPrune c i m e (editUnit c i m e b z) := by
  rw [doPruneUnit, withStation_acting h]
  simp only [hop, hw, hk, hq, hv, hsp, ha, ↓reduceIte]

end

/-! ## TRANSPOSE_META (R154, R161) -/

section
variable (hop : st.o 0 1 = 3)
  (hv : s.each (List.range (waitingOn (s.ctx c) m i 0)) (fun _ t => (takeTile c m i 0 t).2) = v)
include hop hv

theorem doTransposeMeta_waits (hwait : ((v.ctx c).stn i).fin = true ∨ (v.ctx c).room m i 0 = false) : doTransposeMeta c i s = v := by
  rw [doTransposeMeta, withStation_acting h]
  simp only [hop, hw, hk, hv, ↓reduceIte]
  refine if_pos ?_
  rw [Bool.or_eq_true, Bool.not_eq_true']
  exact hwait

variable (hfin : ((v.ctx c).stn i).fin = false) (hroom : (v.ctx c).room m i 0 = true)
include hfin hroom

section
variable (hfed : m.fed i 1 = true)
include hfed

theorem doTransposeMeta_port_empty (ht : takeTile c m i 1 v = (none, u)) : doTransposeMeta c i s = u := by
  rw [doTransposeMeta, withStation_acting h]
  simp only [hop, hw, hk, hv, hfin, hroom, hfed, ht, Bool.not_true, Bool.or_self, Bool.false_eq_true, ↓reduceIte]

theorem doTransposeMeta_port {t : Tile} {b : BandMeta} (ht : takeTile c m i 1 v = (some t, u)) (hb : t.payload = .band b) :
    doTransposeMeta c i s = u.modCtx c (emitDerived i m (sparseDim w k) b) := by
  rw [doTransposeMeta, withStation_acting h]
  simp only [hop, hw, hk, hv, hfin, hroom, hfed, ht, hb, Bool.not_true, Bool.or_self, Bool.false_eq_true, ↓reduceIte]

end

section
variable {sp : Span} (hfed : m.fed i 1 = false)
  (hsp : ⟨metaVaOf (sparseDim w k) k ((v.ctx c).maskGen w.mask % 2), (sparseDim w k).span⟩ = sp)
include hfed hsp

theorem doTransposeMeta_stops (ha : access c (reqStation i) false false [sp] v = (none, u)) : doTransposeMeta c i s = u := by
  rw [doTransposeMeta, withStation_acting h]
  simp only [hop, hw, hk, hv, hfin, hroom, hfed, hsp, ha, Bool.not_true, Bool.or_self, Bool.false_eq_true, ↓reduceIte]

theorem doTransposeMeta_committed {tab : List PageMap} {b : BandMeta} (ha : access c (reqStation i) false false [sp] v = (some tab, u))
    (hb : (bandMetas (sparseDim w k) (readSpan tab u sp) [])[((u.ctx c).stn i).next]? = some b) :
    doTransposeMeta c i s = (chargeRead c tab [sp] u).modCtx c (emitDerived i m (sparseDim w k) b) := by
  rw [doTransposeMeta, withStation_acting h]
  simp only [hop, hw, hk, hv, hfin, hroom, hfed, hsp, ha, hb, Bool.not_true, Bool.or_self, Bool.false_eq_true, ↓reduceIte]

end

end

end

/-! ## The edit of a unit (R166, R171) -/

section
variable {c : CtxId} {i b : Nat} {m : Image} {e : EditIn} {z y : State}

theorem editUnit_edited (hc : ((z.ctx c).stn i).units.contains b = true) : editUnit c i m e b z = z :=
  if_pos (by rw [hc, Bool.true_or])

/-- The last unit of a tensor with FRZA writes the metadata in force as the staged one. -/
theorem editUnit_frozen_last (hf : e.q.w.mode mFRZA = true) (hc : ((z.ctx c).stn i).units.contains b = false)
    (hb : b < unitCount e.q.w) (hlast : unitCount e.q.w ≤ ((z.ctx c).stn i).units.length + 1) (hput : copyMeta c i e z = (true, y)) :
    editUnit c i m e b z = y.modCtx c (fun x => x.modStn i (fun n => { n with units := n.units ++ [b] })) := by
  simp only [editUnit, hf, hc, decide_eq_false (Nat.not_le_of_lt hb), Nat.not_lt_of_le hlast, hput, Bool.or_self, Bool.false_eq_true,
    ↓reduceIte]

end

/-- Settles O56: a prediction by the tile that is due and the access of its factors; a scan, a prune and a transposition by the access
of the metadata and the tile or unit at hand. -/
theorem scribeStations : Obligations.ScribeStations := by
  unfold Obligations.ScribeStations
  refine ⟨fun s c i m st q h hop hq => ?_, fun s c i m st w k h hw hk => ⟨fun hop => ?_, fun hop b q hq => ?_, fun hop => ?_⟩⟩
  · -- SCRIBE_PREDICT
    refine ⟨fun hr => congrArg _ (doScribePredict_waits h hr), fun hr u hu => ?_⟩
    intro x n
    refine ⟨fun hl => congrArg _ (doScribePredict_none_due h hop hq hr hu hl), fun ord xy hl =>
      ⟨fun ho he => congrArg _ (doScribePredict_early h hop hq hr hu hl ho he), fun hdue => ?_⟩⟩
    have issues := doScribePredict_issues h hop hq hr hu hl hdue
    exact ⟨fun w ha => congrArg _ (issues.trans (issueRowSet_stops ha)), fun tab w0 ha =>
      ⟨fun hsampled => congrArg _ (issues.trans (issueRowSet_unsampled ha hsampled)), congrArg _ issues⟩⟩
  · -- REGROWTH_SCAN
    exact ⟨fun u ha => congrArg _ (doRegrowthScan_stops h hw hk hop rfl ha), fun tab u ha =>
      ⟨fun v ht => congrArg _ (doRegrowthScan_sends h hw hk hop rfl ha ht),
        fun t v ht => congrArg _ (doRegrowthScan_scans h hw hk hop rfl ha ht)⟩⟩
  · -- PRUNE_UNIT
    refine ⟨fun u ha => congrArg _ (doPruneUnit_stops h hw hk hop hq rfl rfl ha), fun tab u ha => ?_⟩
    intro base bands e z
    have edits : doPruneUnit c i b s = finishPrune c i m e (editUnit c i m e b z) := doPruneUnit_edits h hw hk hop hq rfl rfl ha
    have acts {y : State} (hy : editUnit c i m e b z = y) : exec (.pruneUnit c i b) s = .next (finishPrune c i m e y) :=
      congrArg _ (edits.trans (congrArg _ hy))
    refine ⟨acts rfl, fun hc => acts (editUnit_edited hc), fun hf hc hb hlast y => ?_⟩
    intro copy hput hqw
    subst hqw
    exact acts (editUnit_frozen_last hf hc hb hlast hput)
  · -- TRANSPOSE_META
    refine ⟨fun hwait => congrArg _ (doTransposeMeta_waits h hw hk hop rfl hwait), fun hfin hroom =>
      ⟨fun hfed t b u ht hb => congrArg _ (doTransposeMeta_port h hw hk hop rfl hfin hroom hfed ht hb),
        fun hfed u ht => congrArg _ (doTransposeMeta_port_empty h hw hk hop rfl hfin hroom hfed ht), fun hfed =>
        ⟨fun u ha => congrArg _ (doTransposeMeta_stops h hw hk hop rfl hfin hroom hfed rfl ha),
          fun tab u b ha hb => congrArg _ (doTransposeMeta_committed h hw hk hop rfl hfin hroom hfed rfl ha hb)⟩⟩⟩

end Sys2Proof.Machine
end

section
/-! PROOFS. Vector instructions: what each does to the unit of its station (O11 to O16). -/

namespace Sys2Proof.Machine

open Sys2Proof

/-! ## Rows of 64 lanes -/

theorem getElem?_lanes64_map {α : Type} (f : Nat → α) {l : Nat} (hl : l < 64) : (lanes64.map f)[l]? = some (f l) := by
  rw [lanes64, List.getElem?_map, List.getElem?_range hl, Option.map_some]

theorem getD_lanes64_map {α : Type} (f : Nat → α) {l : Nat} (hl : l < 64) (z : α) : (lanes64.map f).getD l z = f l := by
  rw [List.getD_eq_getElem?_getD, getElem?_lanes64_map f hl, Option.getD_some]

/-- A write through the mask depends on the active lanes alone. -/
theorem writeV_congr {env : LaneEnv} {r : VecRec} {u : VecUnit} {f g : Nat → U32}
    (h : ∀ l, l < 64 → (u.pred env.j r.qp.toNat).getD l false = true → f l = g l) : writeV env r u f = writeV env r u g := by
  unfold writeV maskLanes
  refine congrArg _ (List.map_congr_left fun l hl => ?_)
  have hl := List.mem_range.mp hl
  rw [getD_lanes64_map f hl, getD_lanes64_map g hl]
  split
  · next active => exact h l hl active
  · rfl

/-! ## Reductions and loads (R191, R196) -/

/-- A reduction gives every lane the best of the active lanes of its group. -/
theorem laneReduce_eq (env : LaneEnv) (r : VecRec) (u : VecUnit) (f : U32 → U32 → U32) :
    laneReduce env r u f = writeV env r u (fun l =>
      groupBest f (fun k => (u.reg env.j r.va.toNat).getD k 0) (groupActive r (u.pred env.j r.qp.toNat) l)) := by
  refine congrArg (writeV env r u) (funext fun l => ?_)
  unfold groupActive
  cases (groupLanes r.aux.toNat l).filter (fun k => (u.pred env.j r.qp.toNat).getD k false) <;> rfl

/-- VLD writes what the port gives each lane and counts the conversions of the active ones. -/
theorem vecLd_eq (env : LaneEnv) (r : VecRec) (u : VecUnit) :
    vecLd env r u = (writeV env r u (fun l => (env.load r.aux.toNat (64 * env.j + l)).1),
      lanes64.filterMap (fun l =>
        if (u.pred env.j r.qp.toNat).getD l false then (env.load r.aux.toNat (64 * env.j + l)).2 else none)) := by
  have got {l : Nat} (hl : l < 64) := getD_lanes64_map (fun l => env.load r.aux.toNat (64 * env.j + l)) hl (0, none)
  have lanes := writeV_congr (env := env) (r := r) (u := u) fun l hl _ => congrArg Prod.fst (got hl)
  refine congr (congrArg Prod.mk lanes) (fmCongr _ fun l hl => ?_)
  rw [got (List.mem_range.mp hl)]

/-! ## Scans (R198) -/

theorem groupLanes_eq (r : VecRec) (l : Nat) : groupLanes r.aux.toNat l = (List.range (groupSize r)).map (groupBase r l + ·) := by
  unfold groupLanes groupSize groupBase
  split
  · simp [lanes64]
  · simp only [Nat.add_comm]

/-- The lanes of a group have one first lane. -/
theorem groupBase_of_mem {r : VecRec} {b l : Nat} (hl : l ∈ groupLanes r.aux.toNat b) : groupBase r l = groupBase r b := by
  obtain ⟨k, hk, rfl⟩ := List.mem_map.mp (groupLanes_eq r b ▸ hl)
  have hk := List.mem_range.mp hk
  unfold groupSize at hk
  unfold groupBase
  split
  · rfl
  · next hbit =>
    rw [if_neg hbit] at hk
    omega

/-- The first lane of each group of a record. -/
def groupHeads (r : VecRec) : List Nat := if bitOf r.aux.toNat 2 then [0] else [0, 32]

/-- The groups of a record are the 64 lanes in order. -/
theorem flatMap_groupLanes (r : VecRec) : (groupHeads r).flatMap (groupLanes r.aux.toNat) = lanes64 := by
  unfold groupHeads groupLanes
  split
  · exact List.append_nil _
  · decide

section
variable (u : VecUnit) (j : Nat) (r : VecRec) (int : Bool)

/-- The running value of the group of lane `l` after its first `n` lanes, in a scan of `r` on row `j`. -/
def VecUnit.running (l n : Nat) : XLane :=
  scanAfter int (u.reg j r.va.toNat) (u.pred j r.qp.toNat) (u.pred j (r.vb.toNat % 8))
    (scanStart int ((u.acc j (r.aux.toNat % 4)).getD (groupBase r l) (0, 0))) (groupBase r l) n

/-- What that scan gives an active lane: the value before it where AUX[3] is 1, else that after it. -/
def VecUnit.scanned (l : Nat) : U32 :=
  let v := if bitOf r.aux.toNat 3 then scanIn (u.pred j (r.vb.toNat % 8)) l (u.running j r int l (l - groupBase r l))
    else u.running j r int l (l + 1 - groupBase r l)
  if int then BitVec.ofInt 32 v.1 else xRound false v

/-- The scan of one group: its last running value, and the lanes in order with 0 in the inactive ones. -/
theorem scanGroup_group (b : Nat) :
    scanGroup int (bitOf r.aux.toNat 3) (u.reg j r.va.toNat) (u.pred j r.qp.toNat) (u.pred j (r.vb.toNat % 8))
        (u.acc j (r.aux.toNat % 4)) (groupLanes r.aux.toNat b) =
      ⟨u.running j r int b (groupSize r),
        (groupLanes r.aux.toNat b).map (fun l => if (u.pred j r.qp.toNat).getD l false then u.scanned j r int l else 0)⟩ := by
  have size : 0 < groupSize r := by unfold groupSize; split <;> decide
  have lane {k : Nat} (hk : k < groupSize r) : groupBase r (groupBase r b + k) = groupBase r b :=
    groupBase_of_mem (groupLanes_eq r b ▸ List.mem_map.mpr ⟨k, List.mem_range.mpr hk, rfl⟩)
  rw [groupLanes_eq, scanGroup_out _ _ _ _ _ _ _ _ size, List.map_map]
  refine congrArg (ScanRun.mk _) (List.map_congr_left fun k hk => ?_)
  simp only [Function.comp_apply, VecUnit.scanned, VecUnit.running, lane (List.mem_range.mp hk), Nat.add_sub_cancel_left, Nat.add_assoc]

end

/-- A scan of the row: each active lane takes its value, and every X lane the last running value of its group. -/
theorem scanRow_eq (int : Bool) (env : LaneEnv) (r : VecRec) (u : VecUnit) :
    scanRow int env r u = (writeV env r u (u.scanned env.j r int)).setAcc env.j (r.aux.toNat % 4)
      (lanes64.map (fun l => u.running env.j r int l (groupSize r))) := by
  have groups : (if bitOf r.aux.toNat 2 then [groupLanes r.aux.toNat 0] else [groupLanes r.aux.toNat 0, groupLanes r.aux.toNat 32]) =
      (groupHeads r).map (groupLanes r.aux.toNat) := by
    unfold groupHeads
    split <;> rfl
  have carry (b : Nat) : (groupLanes r.aux.toNat b).map (fun _ => u.running env.j r int b (groupSize r)) =
      (groupLanes r.aux.toNat b).map (fun l => u.running env.j r int l (groupSize r)) :=
    List.map_congr_left fun l hl => by simp only [VecUnit.running, groupBase_of_mem hl]
  unfold scanRow
  simp only [groups, axOf, List.map_map, List.zip_map', List.flatMap_map, Function.comp_def, scanGroup_group, carry]
  rw [← List.map_flatMap, ← List.map_flatMap, flatMap_groupLanes]
  refine congrArg (VecUnit.setAcc · _ _ _) (writeV_congr fun l hl active => ?_)
  rw [getD_lanes64_map _ hl, if_pos active]

/-! ## The instructions as lane operations (R195) -/

/-- Every instruction of two V sources is `lane2` of what it computes on a lane. -/
theorem twoSource_lane2 : ∀ p ∈ twoSource, ∃ opc, (∀ c i j r s, exec (p.1 c i j r) s = .next (doLane opc c i j r s)) ∧
    ∀ env r u, laneOp env opc r u = (lane2 env r u p.2, []) := by
  unfold twoSource
  repeat refine List.forall_mem_cons.mpr ⟨⟨_, fun _ _ _ _ _ => rfl, fun _ _ _ => rfl⟩, ?_⟩
  exact fun _ hp => absurd hp List.not_mem_nil

/-- Every instruction of one V source is `lane1` of what it computes on a lane. -/
theorem oneSource_lane1 : ∀ p ∈ oneSource, ∃ opc, (∀ c i j r s, exec (p.1 c i j r) s = .next (doLane opc c i j r s)) ∧
    ∀ env r u, laneOp env opc r u = (lane1 env r u p.2, []) := by
  unfold oneSource
  repeat refine List.forall_mem_cons.mpr ⟨⟨_, fun _ _ _ _ _ => rfl, fun _ _ _ => rfl⟩, ?_⟩
  exact fun _ hp => absurd hp List.not_mem_nil

/-- Every comparison is `laneCmp` of its condition. -/
theorem compares_laneCmp : ∀ p ∈ compares, ∃ opc, (∀ c i j r s, exec (p.1 c i j r) s = .next (doLane opc c i j r s)) ∧
    ∀ env r u, laneOp env opc r u = (laneCmp env r u p.2, []) := by
  unfold compares
  repeat refine List.forall_mem_cons.mpr ⟨⟨_, fun _ _ _ _ _ => rfl, fun _ _ _ => rfl⟩, ?_⟩
  exact fun _ hp => absurd hp List.not_mem_nil

/-- Every instruction over two predicates is `laneQ2` of its connective. -/
theorem predicateOps_laneQ2 : ∀ p ∈ predicateOps, ∃ opc, (∀ c i j r s, exec (p.1 c i j r) s = .next (doLane opc c i j r s)) ∧
    ∀ env r u, laneOp env opc r u = (laneQ2 env r u p.2, []) := by
  unfold predicateOps
  repeat refine List.forall_mem_cons.mpr ⟨⟨_, fun _ _ _ _ _ => rfl, fun _ _ _ => rfl⟩, ?_⟩
  exact fun _ hp => absurd hp List.not_mem_nil

/-! ## What an instruction of an acting station writes (R193) -/

section
variable {s : State} {c : CtxId} {i : Nat} {m : Image} {st : Station} {j : Fin 16} {r : VecRec} {cmd : Instr} {opc : Nat}
  (h : Acting s c i kVECTOR m st) (hs : ∀ opc, Sound s (laneTaps opc)) (he : exec cmd s = .next (doLane opc c i j r s))
include h hs he

theorem exec_lane_unit {u : VecUnit} (e : laneOp (vecEnv m st (stationUnit s c i) j.val) opc r (stationUnit s c i) = (u, [])) :
    exec cmd s = .next (putUnit s c i u) :=
  he.trans (congrArg _ (doLane_acting h opc j r u (hs opc) e))

theorem exec_lane_writeV {f : Nat → U32}
    (e : laneOp (vecEnv m st (stationUnit s c i) j.val) opc r (stationUnit s c i) =
      (writeV (vecEnv m st (stationUnit s c i) j.val) r (stationUnit s c i) f, [])) :
    ∃ out, LanesAre (zeroMasked st r) ((stationUnit s c i).pred j.val r.qp.toNat) ((stationUnit s c i).reg j.val r.vd.toNat) 0 f out ∧
      exec cmd s = .next (putUnit s c i ((stationUnit s c i).setReg j.val r.vd.toNat out)) :=
  ⟨_, maskLanes_are .., exec_lane_unit h hs he e⟩

theorem exec_lane_writeQ {f : Nat → Bool}
    (e : laneOp (vecEnv m st (stationUnit s c i) j.val) opc r (stationUnit s c i) =
      (writeQ (vecEnv m st (stationUnit s c i) j.val) r (stationUnit s c i) f, [])) :
    ∃ out, LanesAre (zeroMasked st r) ((stationUnit s c i).pred j.val r.qp.toNat) ((stationUnit s c i).pred j.val (r.vd.toNat % 8)) false
        f out ∧
      exec cmd s = .next (putUnit s c i ((stationUnit s c i).setPred (r.vd.toNat % 8) out)) :=
  ⟨_, maskLanes_are .., exec_lane_unit h hs he e⟩

theorem exec_lane_writeX {f : Nat → XLane}
    (e : laneOp (vecEnv m st (stationUnit s c i) j.val) opc r (stationUnit s c i) =
      (writeX (vecEnv m st (stationUnit s c i) j.val) r (stationUnit s c i) f, [])) :
    ∃ out, LanesAre (zeroMasked st r) ((stationUnit s c i).pred j.val r.qp.toNat) ((stationUnit s c i).acc j.val (r.aux.toNat % 4)) (0, 0)
        f out ∧
      exec cmd s = .next (putUnit s c i ((stationUnit s c i).setAcc j.val (r.aux.toNat % 4) out)) :=
  ⟨_, maskLanes_are .., exec_lane_unit h hs he e⟩

end

/-- Settles O11: every instruction of either list is a masked write of VD, lane by lane. -/
theorem vectorArithmetic : Obligations.VectorArithmetic := by
  unfold Obligations.VectorArithmetic
  refine ⟨fun s c i m st j r h hs p hp => ?_, fun s c i m st j r h hs p hp => ?_⟩
  · obtain ⟨opc, he, e⟩ := twoSource_lane2 p hp
    exact exec_lane_writeV h hs (he ..) (e ..)
  · obtain ⟨opc, he, e⟩ := oneSource_lane1 p hp
    exact exec_lane_writeV h hs (he ..) (e ..)

/-- Settles O13: every such instruction is a masked write of the predicate VD, and Q0 takes no write. -/
theorem vectorPredicates : Obligations.VectorPredicates := by
  unfold Obligations.VectorPredicates
  intro s c i m st j r h hs u act lane writes
  refine ⟨fun p hp => ?_, fun p hp => ?_, exec_lane_writeQ h hs rfl rfl⟩
  · obtain ⟨opc, he, e⟩ := compares_laneCmp p hp
    exact exec_lane_writeQ h hs (he ..) (e ..)
  · obtain ⟨opc, he, e⟩ := predicateOps_laneQ2 p hp
    exact exec_lane_writeQ h hs (he ..) (e ..)

/-- Settles O14: each is a masked write of the X accumulator or of VD, a reduction that of the best active lane of each group. -/
theorem vectorAccumulators : Obligations.VectorAccumulators := by
  unfold Obligations.VectorAccumulators
  refine ⟨fun s c i m st j r h hs => ?_, fun s c i m st j r h hs => ?_⟩
  · exact ⟨exec_lane_writeX h hs rfl rfl, exec_lane_writeX h hs rfl rfl, exec_lane_writeX h hs rfl rfl, exec_lane_writeX h hs rfl rfl,
      exec_lane_writeV h hs rfl rfl⟩
  · have reduces (f : U32 → U32 → U32) := laneReduce_eq (vecEnv m st (stationUnit s c i) j.val) r (stationUnit s c i) f
    exact ⟨exec_lane_writeV h hs rfl (congrArg (·, []) (reduces fmaxBits)),
      exec_lane_writeV h hs rfl (congrArg (·, []) (reduces fminBits))⟩

/-- Settles O12: VLD by what its port holds, VSEL by its two sources, and every other move as a masked write of VD. -/
theorem vectorMoves : Obligations.VectorMoves := by
  unfold Obligations.VectorMoves
  refine ⟨fun s c i m st j r h hs => ?_, fun s c i m st j r h hs => ?_⟩
  · refine ⟨exec_lane_writeV h hs rfl rfl, exec_lane_writeV h hs rfl rfl, exec_lane_writeV h hs rfl rfl, exec_lane_writeV h hs rfl rfl,
      _, ?_, fun l => getElem?_lanes64_map _, exec_lane_unit h hs rfl rfl⟩
    rw [List.length_map, lanes64, List.length_range]
  · intro u act loaded
    have rests {opc : Nat} {cmd : Instr} (he : exec cmd s = .next (doLane opc c i j r s))
        (e : laneOp (vecEnv m st u j.val) opc r u = (u, [])) : exec cmd s = .next s :=
      (exec_lane_unit h hs he e).trans (congrArg _ (putUnit_self s c i))
    exact ⟨⟨_, maskLanes_are .., congrArg _ (doLane_acting' h 0x01 j r _ (hs 0x01) _ (vecLd_eq ..))⟩, exec_lane_unit h hs rfl rfl,
      rests (opc := 0x00) rfl rfl, rests (opc := 0xFF) rfl rfl⟩

/-- Settles O15: a scan is a masked write of VD and a write of every lane of its X accumulator. -/
theorem vectorScans : Obligations.VectorScans := by
  unfold Obligations.VectorScans
  intro s c i m st j r h hs u act seg a acc before result scans
  have scan {opc : Nat} {int : Bool} {cmd : Instr} (he : exec cmd s = .next (doLane opc c i j r s))
      (e : laneOp (vecEnv m st u j.val) opc r u = (scanRow int (vecEnv m st u j.val) r u, [])) : scans int cmd := by
    refine ⟨_, _, maskLanes_are .., ⟨?_, fun l => getElem?_lanes64_map _⟩,
      exec_lane_unit h hs he (e.trans (congrArg (·, []) (scanRow_eq ..)))⟩
    rw [List.length_map, lanes64, List.length_range]
  exact ⟨scan rfl rfl, scan rfl rfl⟩

/-! ## What any vector instruction leaves (R183, R193, R244) -/

/-- A VECTOR station at work in context 0 on bench 0, which CUT_EXCLUDE takes from it. -/
def excludedVector : State :=
  let m : Image := { generation := 1, qmask := 1, hash := List.replicate 32 0, stations := [⟨kVECTOR, 0, 0, 0, 0xFFFF, []⟩] }
  let x : Ctx := { phase := .running, active := some m, assigned := true, qmask := 1, stns := [{}] }
  State.reset.setCtx 0 { x with visible := { x.visible with cutExclude := x.visible.cutExclude.set 0 1 } }

/-- A record with every field 0. -/
def zeroRec : VecRec := ⟨0, 0, 0, 0, 0, 0, 0⟩

/-- NOP moves that station to bench 1, the lowest that it may use. -/
theorem nop_moves_excludedVector : (((doLane 0x00 0 0 0 zeroRec excludedVector).ctx 0).stn 0).bench = 1 := by
  decide +kernel

/-- Refutes O16: a station whose bench is excluded moves to another before it acts (R244, R245), and so it does at a NOP. -/
theorem not_lanesChangeOneUnit : ¬ Obligations.LanesChangeOneUnit := by
  unfold Obligations.LanesChangeOneUnit
  intro frame
  have sound (opc : Nat) : Sound excludedVector (laneTaps opc) := fun _ _ _ _ _ hu => absurd hu List.not_mem_nil
  obtain ⟨-, -, -, -, u, n, e⟩ := frame (.vNop 0 0 0 zeroRec) 0 0 excludedVector _ rfl sound rfl
  have stays : (((doLane 0x00 0 0 0 zeroRec excludedVector).ctx 0).stn 0).bench = 0 := by
    rw [e, setCtx_ctx]
    rfl
  exact absurd (nop_moves_excludedVector.symm.trans stays) (by decide)

/-- A vector instruction is the lane operation of its opcode, on the unit of its station. -/
theorem exec_lane {i : Instr} {c : CtxId} {k : Nat} (h : i.lane = some (c, k)) :
    ∃ opc j r, ∀ s, exec i s = .next (doLane opc c k j r s) := by
  cases i <;> cases h <;> exact ⟨_, _, _, fun _ => rfl⟩

/-- A station that could stay on its bench but does not act is left as it is. -/
theorem withStation_not_acting {s : State} {c : CtxId} {i k : Nat}
    (hsit : ∀ m, (s.ctx c).active = some m → (s.ctx c).maySit s.glb m i = true) (h : ¬ ∃ m st, Acting s c i k m st)
    (act : Image → Station → State → State) : withStation c i k act s = s := by
  unfold withStation
  split
  · next hr =>
    split
    · rfl
    · next m hm =>
      split
      · rfl
      · next st hst =>
        split
        · next hmay =>
          simp only [Bool.not_eq_true', List.contains_eq_mem, decide_eq_false_iff_not] at hmay
          obtain ⟨hk, hidle, hfree⟩ := hmay
          rw [atTile_settled (hsit m hm)]
          exact if_neg fun hb => h ⟨m, st, hr, hm, hst, hk, hb, hidle, hfree, hsit m hm⟩
        · rfl
  · rfl

/-- The frame that O16 names does hold of a station whose bound in force leaves it its bench: the move is all that breaks it. -/
theorem exec_lane_settled {i : Instr} {c : CtxId} {k : Nat} {s t : State} (h : i.lane = some (c, k))
    (hs : ∀ opc, Sound s (laneTaps opc)) (hsit : ∀ m, (s.ctx c).active = some m → (s.ctx c).maySit s.glb m k = true)
    (e : exec i s = .next t) :
    ∃ u n, t = s.setCtx c { s.ctx c with cnt := n, stns := (s.ctx c).stns.set k { (s.ctx c).stn k with unit := u } } := by
  obtain ⟨opc, j, r, he⟩ := exec_lane h
  obtain rfl : doLane opc c k j r s = t := by injection (he s).symm.trans e
  by_cases hact : ∃ m st, Acting s c k kVECTOR m st
  · obtain ⟨m, st, hact⟩ := hact
    rw [doLane_acting' hact opc j r _ (hs opc) _ rfl, putUnit, modCtx_modCtx]
    exact ⟨_, _, rfl⟩
  · have rests : doLane opc c k j r s = s := withStation_not_acting hsit hact _
    exact ⟨_, _, rests.trans (putUnit_self s c k).symm⟩

end Sys2Proof.Machine
end

section
/-! PROOFS. VECTOR_TILE_SET, SWEEP_FINAL and MODE1_TILE (O55). -/

namespace Sys2Proof.Machine

open Sys2Proof

/-! ## VECTOR_TILE_SET (R186 to R188, R200) -/

/-- What a VECTOR does with the tile set at its ports: it is registered once it is complete. -/
def receiveSet (c : CtxId) (i : Nat) (m : Image) (st : Station) (s : State) : State :=
  if setWaiting (s.ctx c) m i st then registerSet c i m st (takeSet c m i st s).1 (takeSet c m i st s).2 else s

/-- The body of a sweep on its next tile set `e`. -/
theorem runBody_set {c : CtxId} {i : Nat} {m : Image} {st : Station} {w : Sweep} {e : Nat × List (Option Tile)}
    (he : w.sets.find? (fun e => e.1 == w.next) = some e) (s : State) :
    let xy := ((e.2.getD 0 none).map (·.xy)).getD w.out
    let r := runRows m st (bodyOf (vecProgram m st)) (startUnit m st w xy false e.2)
    let after : Sweep := { w with vb := r.1.vb, x := r.1.x, next := w.next + 1, sets := w.sets.filter (fun k => k.1 != w.next) }
    let t := s.modCtx c (fun x => (emitVec i m st 0 xy (((e.2.getD 0 none).map (·.cols)).getD []) (rowsFlat r.1.out0) false
      (countLoads r.2 x)).modStn i (fun n =>
        { n with unit := r.1, sweeps := tidySweeps m st (updSweep (fun k => k == w) after (fun _ => after) n.sweeps) }))
    runBody c i m st w s = checkResidue c (benchSite (t.ctx c) i) (checkOp m i (tileOrdinal (vecExt m st.tensor) xy))
      ((bodyOf (vecProgram m st)).flatMap (fun w => laneTaps (vecOpc w))) (e.2.filterMap id) t := by
  rw [runBody, he]

section
variable {s u : State} {c : CtxId} {i : Nat} {m : Image} {st : Station} (h : Acting s c i kVECTOR m st)
include h

theorem doVectorTileSet_waits (hr : (s.ctx c).room m i 0 = false) : doVectorTileSet c i s = s := by
  rw [doVectorTileSet, withStation_acting h]
  simp only [hr, Bool.not_false, ↓reduceIte]

variable (hr : (s.ctx c).room m i 0 = true)
include hr

/-- The NaN tile of a set that came late goes out once its sweep is processed (R187). -/
theorem doVectorTileSet_late {w : Sweep} (hw : ((s.ctx c).stn i).sweeps.find? (fun w => w.processed && !w.late.isEmpty) = some w) :
    doVectorTileSet c i s = s.modCtx c (fun x => (emitNan i m st (w.late.headD w.out) x).modStn i (fun n => { n with
      sweeps := tidySweeps m st (updSweep (fun k => k == w) { w with late := w.late.drop 1 } (fun _ => { w with late := w.late.drop 1 })
        n.sweeps) })) := by
  rw [doVectorTileSet, withStation_acting h]
  simp only [hr, hw, Bool.not_true, Bool.false_eq_true, ↓reduceIte]

variable (hl : ((s.ctx c).stn i).sweeps.find? (fun w => w.processed && !w.late.isEmpty) = none) (hu : receiveSet c i m st s = u)
include hl hu

theorem doVectorTileSet_none_ready (hw : ((u.ctx c).stn i).sweeps.find? (bodyReady m st) = none) : doVectorTileSet c i s = u := by
  unfold receiveSet at hu
  rw [doVectorTileSet, withStation_acting h]
  simp only [hr, hl, hu, hw, Bool.not_true, Bool.false_eq_true, ↓reduceIte, ite_self]

theorem doVectorTileSet_runs {w : Sweep} (hroom : (u.ctx c).room m i 0 = true)
    (hw : ((u.ctx c).stn i).sweeps.find? (bodyReady m st) = some w) : doVectorTileSet c i s = runBody c i m st w u := by
  unfold receiveSet at hu
  rw [doVectorTileSet, withStation_acting h]
  simp only [hr, hl, hu, hroom, hw, Bool.not_true, Bool.false_eq_true, ↓reduceIte]

end

/-! ## SWEEP_FINAL (R188, R189) -/

/-- The sweep of coordinates `out` is processed and none of its NaN tiles waits. -/
def finalDue (out : TileXY) (w : Sweep) : Bool := w.out == out && w.processed && w.late.isEmpty

section
variable {s : State} {c : CtxId} {i : Nat} {m : Image} {st : Station} {out : TileXY} (h : Acting s c i kVECTOR m st)
include h

theorem doSweepFinal_waits (hwait : (s.ctx c).room m i 1 = false ∨ hasVend m st = false ∨
    ((s.ctx c).stn i).sweeps.find? (finalDue out) = none) : doSweepFinal c i out s = s := by
  rw [doSweepFinal, withStation_acting h]
  rcases hwait with hroom | hvend | hnone
  · simp only [hroom, Bool.not_false, Bool.true_or, ↓reduceIte]
  · simp only [hvend, Bool.not_false, Bool.or_true, ↓reduceIte]
  · unfold finalDue at hnone
    simp only [hnone, ite_self]

theorem doSweepFinal_runs {w : Sweep} (hroom : (s.ctx c).room m i 1 = true) (hvend : hasVend m st = true)
    (hw : ((s.ctx c).stn i).sweeps.find? (finalDue out) = some w) :
    let r := runRows m st (finalOf (vecProgram m st)) (startUnit m st w out true [none, none, none])
    let t := s.modCtx c (fun x => (emitVec i m st 1 out [] (rowsFlat r.1.out1) false (countLoads r.2 x)).modStn i (fun n =>
      { n with unit := r.1, sweeps := dropSweep (finalDue out) n.sweeps }))
    doSweepFinal c i out s = checkResidue c (benchSite (t.ctx c) i) (checkOp m i (tileOrdinal (vecExt m st.tensor2) out))
      ((finalOf (vecProgram m st)).flatMap (fun w => laneTaps (vecOpc w))) [] t := by
  unfold finalDue at hw
  rw [doSweepFinal, withStation_acting h]
  simp only [hroom, hvend, hw, Bool.not_true, Bool.or_self, Bool.false_eq_true, ↓reduceIte]
  rfl

end

/-! ## MODE1_TILE (R187) -/

section
variable {s u : State} {c : CtxId} {i p : Nat} {m : Image} {st : Station} (h : Acting s c i kVECTOR m st)
include h

theorem doMode1Tile_not_mode1 (hp : p = 0 ∨ portMode st p ≠ 1) : doMode1Tile c i p s = s := by
  rw [doMode1Tile, withStation_acting h]
  exact if_pos hp

variable (h0 : p ≠ 0) (h1 : portMode st p = 1)
include h0 h1

theorem doMode1Tile_stops (ht : takeTile c m i p s = (none, u)) : doMode1Tile c i p s = u := by
  rw [doMode1Tile, withStation_acting h]
  simp only [h0, h1, ht, ne_eq, not_true_eq_false, or_self, ↓reduceIte]

variable {t : Tile} (ht : takeTile c m i p s = (some t, u))
include ht

theorem doMode1Tile_takes : doMode1Tile c i p s =
    if sweepInGrid st (vecExt m st.tensor) t.xy = false then violate c 0x0801 u
    else if readsMode1 m st p = false then u
    else u.modCtx c (fun x => x.modStn i (fun n => { n with
      sweeps := updSweep (fun w => w.out == t.xy && (if p = 1 then w.p1.isNone else w.p2.isNone))
        (newSweep t.xy (sweepOf st (vecExt m st.tensor) t.xy).2.1)
        (fun w => if p = 1 then { w with p1 := some t } else { w with p2 := some t }) n.sweeps })) := by
  rw [doMode1Tile, withStation_acting h]
  simp only [h0, h1, ht, ne_eq, not_true_eq_false, or_self, Bool.not_eq_true', ↓reduceIte]

end

/-- Settles O55: a tile set by its room, by the late sets and by the sweep that is ready; a final section by the sweep that is due; a
mode 1 tile by its port and its coordinates. -/
theorem vectorTiles : Obligations.VectorTiles := by
  unfold Obligations.VectorTiles
  refine ⟨fun s c i m st h => ?_, fun s c i m st out h => ?_, fun s c i m st p h => ?_⟩
  · -- VECTOR_TILE_SET
    refine ⟨fun hr => congrArg _ (doVectorTileSet_waits h hr), fun hr => ?_⟩
    intro late
    refine ⟨fun w hw => congrArg _ (doVectorTileSet_late h hr hw), fun hl u hu => ?_⟩
    exact ⟨fun hw => congrArg _ (doVectorTileSet_none_ready h hr hl hu hw), fun w e hroom hw he =>
      congrArg _ ((doVectorTileSet_runs h hr hl hu hroom hw).trans (runBody_set he u))⟩
  · -- SWEEP_FINAL
    intro due
    exact ⟨fun hwait => congrArg _ (doSweepFinal_waits h hwait),
      fun w hroom hvend hw => congrArg _ (doSweepFinal_runs h hroom hvend hw)⟩
  · -- MODE1_TILE
    refine ⟨fun hp => congrArg _ (doMode1Tile_not_mode1 h hp), fun h0 h1 =>
      ⟨fun u ht => congrArg _ (doMode1Tile_stops h h0 h1 ht), fun t u ht => ?_⟩⟩
    have takes := doMode1Tile_takes h h0 h1 ht
    exact ⟨fun hg => congrArg _ (takes.trans (if_pos hg)), fun hg hm => congrArg _ (takes.trans (by rw [hg, hm]; rfl)),
      fun hg hm => congrArg _ (takes.trans (by rw [hg, hm]; rfl))⟩

end Sys2Proof.Machine
end

section
/-! PROOFS. Flits and the lanes of a link (O41). -/

namespace Sys2Proof.Machine

open Sys2Proof

/-! ## The scrambler of a lane (R252) -/

/-- After any bits the registers of both ends are those bits pushed in, whatever stands on the other side. -/
theorem scramble_register (bs : List Bool) : ∀ r, (scramble bs r).2 = (scramble bs r).1.foldl scramPush r := by
  induction bs with
  | nil => exact fun _ => rfl
  | cons b bs ih => exact fun r => ih _

theorem descramble_register (os : List Bool) : ∀ r, (descramble os r).2 = os.foldl scramPush r := by
  induction os with
  | nil => exact fun _ => rfl
  | cons o os ih => exact fun r => ih _

theorem scramble_length (bs : List Bool) : ∀ r, (scramble bs r).1.length = bs.length := by
  induction bs with
  | nil => exact fun _ => rfl
  | cons b bs ih => exact fun r => congrArg (· + 1) (ih _)

theorem descramble_scramble (bs : List Bool) : ∀ r, descramble (scramble bs r).1 r = (bs, (scramble bs r).2) := by
  induction bs with
  | nil => exact fun _ => rfl
  | cons b bs ih =>
    intro r
    simp only [scramble, descramble, ih, Bool.xor_assoc, Bool.xor_self, Bool.xor_false]

theorem scramPush_eq (r : BitVec 58) (b : Bool) : scramPush r b = r <<< 1 ||| (if b then 1 else 0) := by cases b <;> rfl

theorem scramPush_getLsbD (r : BitVec 58) (b : Bool) {i : Nat} (hi : i < 58) :
    (scramPush r b).getLsbD i = if i = 0 then b else r.getLsbD (i - 1) := by
  cases i with
  | zero => cases b <;> simp [scramPush, b2n]
  | succ i =>
    rw [scramPush, BitVec.getLsbD_or, BitVec.getLsbD_shiftLeft, BitVec.getLsbD_ofNat]
    cases b <;> simp [b2n, hi, Nat.testBit_succ]

/-- Every bit pushed in makes two registers agree on one bit more. -/
theorem registers_agree (os : List Bool) : ∀ (n : Nat) (r r' : BitVec 58), (∀ i < n, r.getLsbD i = r'.getLsbD i) →
    ∀ i < n + os.length, i < 58 → (os.foldl scramPush r).getLsbD i = (os.foldl scramPush r').getLsbD i := by
  induction os with
  | nil => exact fun n r r' h i hi _ => h i hi
  | cons o os ih =>
    intro n r r' h i hi hi58
    refine ih (n + 1) _ _ (fun j hj => ?_) i (by simpa [Nat.add_right_comm, Nat.add_assoc] using hi) hi58
    by_cases hj58 : j < 58
    · rw [scramPush_getLsbD r o hj58, scramPush_getLsbD r' o hj58]
      split
      · rfl
      · exact h (j - 1) (by omega)
    · rw [BitVec.getLsbD_of_ge _ _ (by omega), BitVec.getLsbD_of_ge _ _ (by omega)]

/-- 58 bits make the register of the receiver that of the sender. -/
theorem descramble_synchronises {bs : List Bool} (h : bs.length = 58) (r r' : BitVec 58) :
    (descramble (scramble bs r).1 r').2 = (scramble bs r).2 := by
  rw [descramble_register, scramble_register]
  refine BitVec.eq_of_getLsbD_eq fun i hi => registers_agree _ 0 r' r (by simp) i ?_ hi
  rw [scramble_length, h]
  omega

/-! ## Bytes and bits of a lane (R252) -/

theorem testBit_leNatBits (bs : List Bool) : ∀ i, (leNatBits bs).testBit i = bs.getD i false := by
  induction bs with
  | nil => simp [leNatBits]
  | cons b bs ih =>
    intro i
    cases i with
    | zero => cases b <;> simp [leNatBits, Nat.testBit_zero]
    | succ i =>
      have half : leNatBits (b :: bs) / 2 = leNatBits bs := by
        rw [leNatBits]
        split <;> omega
      rw [Nat.testBit_succ, half, ih, List.getD_cons_succ]

theorem bits_bitsByte {bs : List Bool} (h : bs.length = 8) : (List.range 8).map (bitsByte bs).getLsbD = bs := by
  refine List.ext_getElem (by simp [h]) fun i hi _ => ?_
  have hi8 : i < 8 := by simpa using hi
  rw [List.getElem_map, List.getElem_range, bitsByte, BitVec.getLsbD_ofNat, testBit_leNatBits]
  simp [hi8, h]

theorem wireBits_bytesOfBits : ∀ (n : Nat) (bs : List Bool), bs.length = 8 * n → wireBits (bytesOfBits n bs) = bs := by
  intro n
  induction n with
  | zero => exact fun bs h => (List.length_eq_zero_iff.mp h).symm
  | succ n ih =>
    intro bs h
    have low : (bs.take 8).length = 8 := by rw [List.length_take]; omega
    have rest : wireBits (bytesOfBits n (bs.drop 8)) = bs.drop 8 := ih _ (by rw [List.length_drop]; omega)
    calc wireBits (bytesOfBits (n + 1) bs)
        = (List.range 8).map (bitsByte (bs.take 8)).getLsbD ++ wireBits (bytesOfBits n (bs.drop 8)) := rfl
      _ = bs.take 8 ++ bs.drop 8 := by rw [bits_bitsByte low, rest]
      _ = bs := List.take_append_drop 8 bs

theorem bytesOfBits_length : ∀ (n : Nat) (bs : List Bool), (bytesOfBits n bs).length = n := by
  intro n
  induction n with
  | zero => exact fun _ => rfl
  | succ n ih => exact fun bs => congrArg (· + 1) (ih _)

theorem wireBits_length (bs : List Byte) : (wireBits bs).length = 8 * bs.length := by
  induction bs with
  | nil => rfl
  | cons b bs ih =>
    have rest : wireBits (b :: bs) = (List.range 8).map b.getLsbD ++ wireBits bs := rfl
    rw [rest, List.length_append, List.length_map, List.length_range, ih, List.length_cons]
    omega

/-- Byte b of a slot is byte b / 8 of lane b mod 8. -/
theorem laneBytes_byte {slot : List Byte} (h : slot.length = 280) {b : Nat} (hb : b < 280) :
    (laneBytes slot (b % 8))[b / 8]? = slot[b]? := by
  have hlane : b / 8 < 35 := by omega
  have hbyte : 8 * (b / 8) + b % 8 = b := Nat.div_add_mod b 8
  simp [laneBytes, hlane, hbyte, h, hb]

/-- A lane of an emitted slot holds the scrambled bits of its bytes, and its register goes on from them. -/
theorem emit_lane (k : Link) (seq : U16) (f : Option TxFlit) {n : Nat} (hn : n < 8) :
    let lane := scramble (wireBits (laneBytes (flitBytes k seq f) n)) (k.scram.getD n 0)
    (k.emit seq f).scram[n]? = some lane.2 ∧ (k.emit seq f).wire[n]? = some (bytesOfBits 35 lane.1) := by
  simp [Link.emit, scrambleSlot, hn]

/-! ## Received flits (R253, R254, R256) -/

theorem onUpLink_up {s : State} {l : LinkId} (hr : linksRun s = true) (hu : (s.link l).state = .up) (f : Link → Link) :
    onUpLink l f s = s.setLink l (f (s.link l)) := by
  simp [onUpLink, hr, hu, State.modLink]

section
variable (k : Link) (bs : List Byte)

@[simp] theorem acked_rxSeq (ack : U16) : (k.acked ack).rxSeq = k.rxSeq := by unfold Link.acked; split <;> rfl
@[simp] theorem acked_delivered (ack : U16) : (k.acked ack).delivered = k.delivered := by unfold Link.acked; split <;> rfl
@[simp] theorem credited_rxSeq (vc : Nat) (n : U16) : (k.credited vc n).rxSeq = k.rxSeq := rfl
@[simp] theorem credited_delivered (vc : Nat) (n : U16) : (k.credited vc n).delivered = k.delivered := rfl

/-- A request for a resend speaks of what is sent and leaves what is received. -/
theorem nakked_received (seq : U16) : (k.nakked seq).rxSeq = k.rxSeq ∧ (k.nakked seq).delivered = k.delivered := by
  unfold Link.nakked
  dsimp only
  repeat' split
  all_goals exact ⟨rfl, rfl⟩

theorem control_received : (k.control bs).rxSeq = k.rxSeq ∧ (k.control bs).delivered = k.delivered := by
  unfold Link.control
  dsimp only
  split
  · simp [nakked_received]
  · simp

variable {k bs}

theorem dataIn_damaged (h : flitIntact bs = false ∨ natAt bs 0 1 ≠ 0x5A) :
    k.dataIn bs = { k with crcCount := satAdd k.crcCount 1, rxNak := true } := by
  have damaged : (!flitIntact bs || natAt bs 0 1 != 0x5A) = true := by simpa using h
  exact if_pos damaged

theorem idleIn_damaged (h : flitIntact bs = false ∨ natAt bs 0 1 ≠ 0xA5) :
    k.idleIn bs = { k with crcCount := satAdd k.crcCount 1 } := by
  have damaged : (!flitIntact bs || natAt bs 0 1 != 0xA5) = true := by simpa using h
  exact if_pos damaged

theorem dataIn_intact (h : flitIntact bs = true) (hk : natAt bs 0 1 = 0x5A) :
    k.dataIn bs = if BitVec.ofNat 16 (natAt bs 2 2) = k.rxSeq + 1 then (k.control bs).take bs else { k.control bs with rxNak := true } := by
  simp [Link.dataIn, h, hk, control_received]

theorem idleIn_intact (h : flitIntact bs = true) (hk : natAt bs 0 1 = 0xA5) :
    k.idleIn bs = if BitVec.ofNat 16 (natAt bs 2 2) = k.rxSeq + 1 then k.control bs else { k.control bs with rxNak := true } := by
  simp [Link.idleIn, h, hk, control_received]

end

section
variable {s : State} {l : LinkId} {n : Nat}

/-- Where no whole packet is new, nothing goes on. -/
theorem passOn_nothing (h : (s.link l).delivered.length ≤ n) : passOn l n s = s := by
  simp only [passOn, List.drop_eq_nil_of_le h, List.take_of_length_le h, List.filter_nil, List.append_nil, State.each, List.foldl_nil]
  exact setLink_self s l

/-- One new packet stays where it is this module's own, and else goes on towards its module. -/
theorem passOn_one {p : Fin 4 × List Byte} (h : (s.link l).delivered.drop n = [p]) :
    passOn l n s = if Config.packetDst p.2 = s.glb.uid then s
      else sendPacket (Config.packetDst p.2) p.1 p.2 (s.setLink l { s.link l with delivered := (s.link l).delivered.take n }) := by
  by_cases mine : Config.packetDst p.2 = s.glb.uid
  · have whole : (s.link l).delivered.take n ++ [p] = (s.link l).delivered := by rw [← h, List.take_append_drop]
    simp only [passOn, h, mine, whole, BEq.rfl, Bool.not_true, Bool.false_eq_true, List.filter_cons, List.filter_nil, State.each,
      List.foldl_nil, ↓reduceIte]
    exact setLink_self s l
  · simp [passOn, h, mine, State.each]

end

section
variable {s : State} {l : LinkId} {bs : List Byte} (hr : linksRun s = true) (hu : (s.link l).state = .up) (hl : bs.length = 280)
include hr hu hl

theorem exec_dataFlit : exec (.dataFlit l bs) s =
    .next (refuseLost (passOn l (s.link l).delivered.length (s.setLink l ((s.link l).dataIn bs)))) := by
  show execDataFlit l bs s = _
  rw [execDataFlit, if_pos hl, doDataFlit, onUpLink_up hr hu]

/-- A data flit that brings no packet changes its link alone. -/
theorem exec_dataFlit_unpassed {k : Link} (hk : (s.link l).dataIn bs = k) (hd : k.delivered = (s.link l).delivered) :
    exec (.dataFlit l bs) s = .next (refuseLost (s.setLink l k)) := by
  rw [exec_dataFlit hr hu hl, hk, passOn_nothing (Nat.le_of_eq (by rw [setLink_link, hd]))]

theorem exec_idleFlit : exec (.idleFlit l bs) s = .next (refuseLost (s.setLink l ((s.link l).idleIn bs))) := by
  show execIdleFlit l bs s = _
  rw [execIdleFlit, if_pos hl, onUpLink_up hr hu]

end

/-! ## The flit slot (R253, R254, R256, R259) -/

section
variable {k : Link} (h : k.replayPos = none)
include h

/-- With nothing to send again: VC0 before a reserved slot, and that before the other VCs. -/
theorem sendSlot_fresh (vc : Fin 4) : k.sendSlot vc =
    if 1024 ≤ k.replay.length then k.emit k.txSeq none
    else if k.ready 0 then k.sendNew 0
    else if reservedSlot k.slot then k.emit k.txSeq none
    else (k.pickVc vc).elim (k.emit k.txSeq none) k.sendNew := by
  have same : { k with replayPos := none } = k := by rw [← h]
  simp only [Link.sendSlot, h, Option.bind_none, same]
  cases k.pickVc vc <;> rfl

theorem resends_fresh : k.resends = none := by
  simp only [Link.resends, h, Option.bind_none]

end

theorem pickVc_chosen {k : Link} {vc : Fin 4} (h0 : vc ≠ 0) (hr : k.ready vc = true) : k.pickVc vc = some vc := if_pos ⟨h0, hr⟩

/-- Where none of VC1 to VC3 may send, none is picked. -/
theorem pickVc_none {k : Link} (h1 : k.ready 1 = false) (h2 : k.ready 2 = false) (h3 : k.ready 3 = false) (vc : Fin 4) :
    k.pickVc vc = none := by
  have rests : ¬ (vc ≠ 0 ∧ k.ready vc = true) := by
    rintro ⟨h0, hr⟩
    match vc, h0, hr with
    | 1, _, hr => exact absurd hr (by simp [h1])
    | 2, _, hr => exact absurd hr (by simp [h2])
    | 3, _, hr => exact absurd hr (by simp [h3])
  rw [Link.pickVc, if_neg rests]
  repeat' split
  all_goals simp [h1, h2, h3]

section
variable {k : Link} {p : Nat} {f : U16 × TxFlit} (hp : k.replayPos = some p) (hf : k.replay[p]? = some f)
  (hslot : reservedSlot k.slot = false ∨ f.2.vc = 0)
include hp hf hslot

theorem sendSlot_replay (vc : Fin 4) :
    k.sendSlot vc = { k.emit f.1 (some f.2) with replayPos := if p + 1 < k.replay.length then some (p + 1) else none } := by
  have free : (reservedSlot k.slot && f.2.vc != 0) = false := by
    rcases hslot with h | h <;> simp [h]
  simp only [Link.sendSlot, hp, hf, Option.bind_some, Option.map_some, free, Bool.false_eq_true, ↓reduceIte]

end

/-- A store without an upset is read as it is. -/
theorem readStores_clean {s : State} {l : LinkId} (h : ∀ w n, Upset.sram (.replayBuffer l) w n ∉ s.upsets) (who : Option CtxId) :
    readStores who (· == .replayBuffer l) s = ([], s) := by
  have clean : sramHits (· == .replayBuffer l) s.upsets = [] := by
    refine List.filterMap_eq_nil_iff.mpr fun u hu => ?_
    cases u with
    | residue tap lane vrow e d => rfl
    | sram store w n =>
      refine if_neg fun hs => h w n ?_
      rwa [← beq_iff_eq.mp hs]
  simp only [readStores, clean, List.isEmpty_nil, ↓reduceIte]

section
variable {s : State} {l : LinkId} (hr : linksRun s = true) (hu : (s.link l).state = .up)
include hr hu

/-- A slot that reads no replay buffer, or one without an upset, is what the link puts into it. -/
theorem exec_flitSlot (vc : Fin 4) (hc : (s.link l).replayPos = none ∨ ∀ w n, Upset.sram (.replayBuffer l) w n ∉ s.upsets) :
    exec (.flitSlot l vc) s = .next (s.setLink l ((s.link l).sendSlot vc)) := by
  have read : (if (s.link l).resends.isSome then readStores none (· == .replayBuffer l) s else ([], s)) = ([], s) := by
    rcases hc with h | h
    · rw [resends_fresh h]
      rfl
    · rw [readStores_clean h, ite_self]
  show execFlitSlot l vc s = _
  simp only [execFlitSlot, doFlitSlot, hr, hu, read, BEq.rfl, Bool.and_self, List.isEmpty_nil, ↓reduceIte, State.modLink]

end

/-- Settles O41: a received flit by its checks and its SEQ, a slot by what the link may send, and the lanes by the scrambler and the
order of the bytes. -/
theorem flits : Obligations.Flits := by
  unfold Obligations.Flits
  refine ⟨fun s l bs hr hu => ?_, descramble_scramble, fun bs r r' h => descramble_synchronises h r r', fun b r => ?_,
    fun slot h b hb => laneBytes_byte h hb, fun k seq f n hn => ?_⟩
  · intro k seq put
    refine ⟨fun hl => ⟨fun hi hk hs => ?_, fun hi hk hs => ?_, fun hd => ?_, fun hi hk => ?_, fun hd => ?_⟩,
      fun n p hp => passOn_one hp, fun hl => ⟨if_neg hl, if_neg hl⟩, fun vc => ⟨fun hp => ?_, fun p f hp hf hslot hc => ?_,
      fun f fs hq => ?_, fun seq f => ⟨rfl, rfl, rfl, rfl⟩⟩⟩
    -- received flits
    · rw [exec_dataFlit hr hu hl, dataIn_intact hi hk, if_pos hs]
    · exact exec_dataFlit_unpassed hr hu hl ((dataIn_intact hi hk).trans (if_neg hs)) (control_received _ _).2
    · exact exec_dataFlit_unpassed hr hu hl (dataIn_damaged hd) rfl
    · rw [exec_idleFlit hr hu hl, idleIn_intact hi hk]
    · rw [exec_idleFlit hr hu hl, idleIn_damaged hd]
    -- a slot with nothing to send again
    · have slot := exec_flitSlot hr hu vc (.inl hp)
      rw [sendSlot_fresh hp] at slot
      refine ⟨fun hfull => ?_, fun hroom h0 => ?_, fun hroom h0 hres => ?_,
        fun hroom h0 hres => ⟨fun hvc hready => ?_, fun h1 h2 h3 => ?_⟩⟩
      · rw [slot, if_pos hfull]
      all_goals rw [if_neg (by omega)] at slot
      · rw [slot, if_pos h0]
      all_goals rw [if_neg (by simp [h0])] at slot
      · rw [slot, if_pos hres]
      all_goals rw [if_neg (by simp [hres])] at slot
      · rw [slot, pickVc_chosen hvc hready]
        rfl
      · rw [slot, pickVc_none h1 h2 h3]
        rfl
    -- a slot with a flit to send again, a new flit
    · rw [exec_flitSlot hr hu vc (.inr hc), sendSlot_replay hp hf hslot]
    · simp only [Link.sendNew, hq]
      rfl
  · exact congrArg (Prod.mk _) (scramPush_eq r _)
  · intro slot lane
    obtain ⟨hscram, hwire⟩ := emit_lane k seq f hn
    refine ⟨hscram, _, hwire, bytesOfBits_length _ _, wireBits_bytesOfBits _ _ ?_⟩
    rw [scramble_length, wireBits_length]
    simp [laneBytes]

end Sys2Proof.Machine
end

section
/-! PROOFS. The packets of a collective (O58). -/

namespace Sys2Proof.Machine

open Sys2Proof

/-! ## Who receives a packet (R263, R381, R425) -/

section
variable {s : State} {gid : U32} {dst : U16} (hw : mayWork s = true)
include hw

theorem withRank_stray (hg : groupCtx s gid dst.toNat = none) (act : CtxId → State → State) :
    withRank gid dst act s = countStray s := by
  rw [withRank, if_pos hw, hg]

theorem withGroup_stray (hg : groupCtx s gid dst.toNat = none) (act : CtxId → State → State) :
    withGroup gid dst act s = countStray s :=
  withRank_stray hw hg _

variable {c : CtxId} (hg : groupCtx s gid dst.toNat = some c)
include hg

theorem withRank_member (act : CtxId → State → State) : withRank gid dst act s = act c s := by
  rw [withRank, if_pos hw, hg]

theorem withGroup_busy (hb : (s.ctx c).busy = true) (act : CtxId → State → State) : withGroup gid dst act s = s :=
  (withRank_member hw hg _).trans (if_pos hb)

theorem withGroup_member (hb : (s.ctx c).busy = false) (act : CtxId → State → State) : withGroup gid dst act s = act c s :=
  (withRank_member hw hg _).trans (if_neg (by rw [hb]; exact Bool.false_ne_true))

/-- What a live context does with a packet of an exchange, beside what a pre-empted one does. -/
theorem withGroup_live (hp : (s.ctx c).parked = false) (park live : CtxId → State → State) :
    withGroup gid dst (fun d t => if (t.ctx d).parked then park d t else live d t) s = live c s := by
  have idle : (s.ctx c).busy = false := by
    simp only [Ctx.parked, Bool.or_eq_false_iff] at hp
    exact hp.2
  exact (withGroup_member hw hg idle _).trans (if_neg (by rw [hp]; exact Bool.false_ne_true))

theorem withGroup_parked (hp : (s.ctx c).parked = true) (hb : (s.ctx c).busy = false) (park live : CtxId → State → State) :
    withGroup gid dst (fun d t => if (t.ctx d).parked then park d t else live d t) s = park c s :=
  (withGroup_member hw hg hb _).trans (if_pos hp)

end

/-! ## A packet is accepted once (R257, R264) -/

/-- A context changed in two ways that agree on it. -/
theorem modCtx_congr {s : State} {c : CtxId} {f g : Ctx → Ctx} (h : f (s.ctx c) = g (s.ctx c)) : s.modCtx c f = s.modCtx c g :=
  congrArg (s.setCtx c) h

/-- A context with the packet among those that it has accepted. -/
def Ctx.notes (x : Ctx) (h : CollHdr) : Ctx := { x with seqIn := x.seqIn ++ [packetKey h] }

@[simp] theorem notes_pausedBy (x : Ctx) (h : CollHdr) : (x.notes h).pausedBy = x.pausedBy := rfl
@[simp] theorem notes_heldPackets (x : Ctx) (h : CollHdr) : (x.notes h).heldPackets = x.heldPackets := rfl
@[simp] theorem notes_insts (x : Ctx) (h : CollHdr) : (x.notes h).insts = x.insts := rfl
@[simp] theorem notes_active (x : Ctx) (h : CollHdr) : (x.notes h).active = x.active := rfl
@[simp] theorem notes_parked (x : Ctx) (h : CollHdr) : (x.notes h).parked = x.parked := rfl

/-- The receiver notes the packet as accepted. -/
def notePacket (c : CtxId) (h : CollHdr) (s : State) : State := s.modCtx c (fun x => x.notes h)

@[simp] theorem notePacket_ctx (c : CtxId) (h : CollHdr) (s : State) : (notePacket c h s).ctx c = (s.ctx c).notes h :=
  modCtx_ctx s c _

section
variable {s : State} {c : CtxId} {h : CollHdr}

theorem withFresh_repeated (hk : (s.ctx c).seqIn.contains (packetKey h) = true) (act : State → State) :
    withFresh c h act s = s := if_pos hk

theorem withFresh_new (hk : (s.ctx c).seqIn.contains (packetKey h) = false) (act : State → State) :
    withFresh c h act s = act (notePacket c h s) := if_neg (by rw [hk]; exact Bool.false_ne_true)

end

/-! ## JOIN and ACCEPT (R262, R263) -/

theorem joinAgrees_iff (n : Inst) (h : CollHdr) :
    joinAgrees n h = true ↔ h.generation = n.gen ∧ h.hash64 = n.hash64 ∧ h.size.toNat + 1 = n.size := by
  simp only [joinAgrees, Bool.and_eq_true, beq_iff_eq, and_assoc]

section
variable {s : State} {c : CtxId} {l : LinkId} {h : CollHdr}

/-- A JOIN that agrees with an open exchange is accepted and answered. -/
theorem joinIn_agrees {n : Inst} (hn : (s.ctx c).insts.find? (fun n => joinKey h n && n.begun && !n.nan) = some n)
    (ha : joinAgrees n h = true) (hk : (s.ctx c).seqIn.contains (packetKey h) = false) :
    joinIn c l h s = sendColl c h.srcRank.toNat tACCEPT (instHdr n) [] (notePacket c h s) := by
  simp only [joinIn, hn, ha, withFresh_new hk, answerJoin, ↓reduceIte]

/-- One that does not agree is counted and not accepted. -/
theorem joinIn_refused {n : Inst} (hn : (s.ctx c).insts.find? (fun n => joinKey h n && n.begun && !n.nan) = some n)
    (ha : ¬ joinAgrees n h = true) : joinIn c l h s = countRefuse c s := by
  simp only [joinIn, hn, ha, answerJoin, Bool.false_eq_true, ↓reduceIte]

variable (hn : (s.ctx c).insts.find? (fun n => joinKey h n && n.begun && !n.nan) = none)
include hn

theorem joinIn_early (hs : (s.ctx c).step ≤ h.step) (hk : (s.ctx c).seqIn.contains (packetKey h) = false) :
    joinIn c l h s = (notePacket c h s).modCtx c (holdJoin l h) := by
  simp only [joinIn, hn, hs, withFresh_new hk, ↓reduceIte]

theorem joinIn_stale (hs : h.step < (s.ctx c).step) : joinIn c l h s = s := by
  simp only [joinIn, hn, if_neg (BitVec.not_le.mpr hs)]

end

section
variable {s : State} {c : CtxId} {h : CollHdr}

theorem acceptIn_unknown (hn : (s.ctx c).insts.find? (fun n => joinKey h n && !n.nan) = none) : acceptIn c h s = s := by
  simp only [acceptIn, hn]

variable {n : Inst} {m : Image} (hn : (s.ctx c).insts.find? (fun n => joinKey h n && !n.nan) = some n) (hm : (s.ctx c).active = some m)
include hn hm

/-- An ACCEPT of a member that has accepted, or that is no partner, sends nothing. -/
theorem acceptIn_settled (hr : n.accepted.contains h.srcRank.toNat = true ∨ n.partners.contains h.srcRank.toNat = false) :
    acceptIn c h s = s := by
  have settled : n.accepted.contains h.srcRank.toNat = true ∨ ¬ n.partners.contains h.srcRank.toNat = true := by
    rwa [Bool.not_eq_true]
  simp only [acceptIn, hn, hm, if_pos settled]

/-- The first ACCEPT of a partner gets what every block has formed so far. -/
theorem acceptIn_sends (ha : n.accepted.contains h.srcRank.toNat = false) (hp : n.partners.contains h.srcRank.toNat = true) :
    let r := h.srcRank.toNat
    let t := s.modCtx c (fun x => { x with
      insts := x.insts.map (fun k => if joinKey h k then { k with accepted := k.accepted ++ [r] } else k) })
    let nb := instNb m (m.station n.st) n
    acceptIn c h s = t.each n.blocks (fun b u => sendGather c n nb (reduceFmt (t.ctx c) m n.st (m.station n.st)) b r
      (sendData c n nb b r (sendScale c n b r u))) := by
  simp only [acceptIn, hn, hm, ha, hp, Bool.false_eq_true, not_true_eq_false, or_self, ↓reduceIte]

end

/-! ## SCALE, DATA and GATHER (R264, R266, R269, R272) -/

section
variable {s : State} {c : CtxId} {l : LinkId} {h : CollHdr} (act : Image → Station → Inst → State → State)

theorem withPacket_repeated (hk : (s.ctx c).seqIn.contains (packetKey h) = true) : withPacket c l h act s = s := if_pos hk

variable {n : Inst} {m : Image} (hk : (s.ctx c).seqIn.contains (packetKey h) = false) (hn : packetInst (s.ctx c) h = some n)
  (hm : (s.ctx c).active = some m)
include hk hn hm

theorem withPacket_mismatch (hd : h.step ≠ n.step ∨ h.generation ≠ n.gen ∨ h.hash64 ≠ n.hash64) :
    withPacket c l h act s = packetMismatch c l h s := by
  simp only [withPacket, hk, hn, hm, if_pos hd, Bool.false_eq_true, ↓reduceIte]

theorem withPacket_acts (hs : h.step = n.step) (hg : h.generation = n.gen) (hh : h.hash64 = n.hash64) :
    withPacket c l h act s = reduceProgress c n.st m (m.station n.st) (act m (m.station n.st) n (notePacket c h s)) := by
  have same : ¬ (h.step ≠ n.step ∨ h.generation ≠ n.gen ∨ h.hash64 ≠ n.hash64) := by simp [hs, hg, hh]
  have noted : s.setCtx c { s.ctx c with seqIn := (s.ctx c).seqIn ++ [packetKey h] } = notePacket c h s := rfl
  simp only [withPacket, ↓noted, hk, hn, hm, if_neg same, Bool.false_eq_true, ↓reduceIte]

end

/-! ## What each command is for its receiver -/

section
variable {s : State} {c : CtxId} {l : LinkId} {dst : U16} {h : CollHdr} (hw : mayWork s = true)
  (hg : groupCtx s h.groupId dst.toNat = some c)
include hw hg

theorem exec_join_repeated (hk : (s.ctx c).seqIn.contains (packetKey h) = true) : exec (.join l dst h) s = .next s :=
  congrArg _ ((withRank_member hw hg _).trans (if_pos hk))

section
variable (hk : (s.ctx c).seqIn.contains (packetKey h) = false)
include hk

theorem exec_join_parked (hp : (s.ctx c).parked = true) : exec (.join l dst h) s = .next ((notePacket c h s).modCtx c (holdJoin l h)) := by
  show Host.Outcome.next (doJoin l dst h s) = _
  rw [doJoin, withRank_member hw hg, hk, if_neg Bool.false_ne_true, if_pos hp, withFresh_new hk]

theorem exec_join_live (hp : (s.ctx c).parked = false) : exec (.join l dst h) s = .next (joinIn c l h s) := by
  show Host.Outcome.next (doJoin l dst h s) = _
  rw [doJoin, withRank_member hw hg, hk, if_neg Bool.false_ne_true, hp, if_neg Bool.false_ne_true]

end

section
variable (hp : (s.ctx c).parked = false)
include hp

theorem exec_accept_live : exec (.accept l dst h) s = .next (withFresh c h (acceptIn c h) s) :=
  congrArg _ (withGroup_live hw hg hp _ _)

theorem exec_scale_live (recs : List ScaleRec) : exec (.scale l dst h recs) s = .next (scaleIn c l h recs s) :=
  congrArg _ (withGroup_live hw hg hp _ _)

theorem exec_data_live (sums : List Int) : exec (.data l dst h sums) s = .next (dataIn c l h sums s) :=
  congrArg _ (withGroup_live hw hg hp _ _)

theorem exec_gather_live (bytes : List Byte) : exec (.gather l dst h bytes) s = .next (gatherIn c l h bytes s) :=
  congrArg _ (withGroup_live hw hg hp _ _)

end

section
variable (hp : (s.ctx c).parked = true) (hb : (s.ctx c).busy = false)
include hp hb

theorem exec_accept_parked : exec (.accept l dst h) s = .next (parkPacket c (.accept l dst h) tACCEPT h [] s) := by
  show Host.Outcome.next (doAccept l dst h s) = _
  rw [doAccept, withGroup_parked hw hg hp hb]

theorem exec_scale_parked (recs : List ScaleRec) :
    exec (.scale l dst h recs) s = .next (parkPacket c (.scale l dst h recs) tSCALE h (scaleBody h recs) s) := by
  show Host.Outcome.next (doScale l dst h recs s) = _
  rw [doScale, withGroup_parked hw hg hp hb]

theorem exec_data_parked (sums : List Int) :
    exec (.data l dst h sums) s = .next (parkPacket c (.data l dst h sums) tDATA h (dataBody h sums) s) := by
  show Host.Outcome.next (doData l dst h sums s) = _
  rw [doData, withGroup_parked hw hg hp hb]

theorem exec_gather_parked (bytes : List Byte) :
    exec (.gather l dst h bytes) s = .next (parkPacket c (.gather l dst h bytes) tGATHER h bytes s) := by
  show Host.Outcome.next (doGather l dst h bytes s) = _
  rw [doGather, withGroup_parked hw hg hp hb]

end

/-! ### PAUSE and RESUME (R381) -/

theorem exec_pause_repeated (hk : (s.ctx c).seqIn.contains (packetKey h) = true) : exec (.pause l dst h) s = .next s :=
  congrArg _ ((withRank_member hw hg _).trans (withFresh_repeated hk _))

theorem exec_resume_repeated (hk : (s.ctx c).seqIn.contains (packetKey h) = true) : exec (.resume l dst h) s = .next s :=
  congrArg _ ((withRank_member hw hg _).trans (withFresh_repeated hk _))

section
variable (hk : (s.ctx c).seqIn.contains (packetKey h) = false)
include hk

theorem exec_pause_again (hq : (s.ctx c).pausedBy.contains (h.groupId, h.srcRank.toNat) = true) :
    exec (.pause l dst h) s = .next (notePacket c h s) := by
  show Host.Outcome.next (doPause dst h s) = _
  rw [doPause, withRank_member hw hg, withFresh_new hk]
  refine congrArg _ ((modCtx_congr (g := id) ?_).trans (setCtx_self _ c))
  exact if_pos (by simpa using hq)

theorem exec_pause_first (hq : (s.ctx c).pausedBy.contains (h.groupId, h.srcRank.toNat) = false) :
    exec (.pause l dst h) s =
      .next ((notePacket c h s).modCtx c (fun x => { x with pausedBy := x.pausedBy ++ [(h.groupId, h.srcRank.toNat)] })) := by
  show Host.Outcome.next (doPause dst h s) = _
  rw [doPause, withRank_member hw hg, withFresh_new hk]
  exact congrArg _ (modCtx_congr (if_neg (by simpa using hq)))

/-- A RESUME sends the packets that were held for its sender. -/
theorem exec_resume :
    let mine (q : U32 × Nat × U64 × List Byte) : Bool := q.1 == h.groupId && q.2.1 == h.srcRank.toNat
    exec (.resume l dst h) s = .next (((notePacket c h s).modCtx c (fun x => { x with
      pausedBy := x.pausedBy.filter (fun q => q != (h.groupId, h.srcRank.toNat))
      heldPackets := x.heldPackets.filter (fun q => !mine q) })).each ((s.ctx c).heldPackets.filter mine)
        (fun q u => sendPacket q.2.2.1 1 q.2.2.2 u)) := by
  intro mine
  show Host.Outcome.next (doResume dst h s) = _
  rw [doResume, withRank_member hw hg, withFresh_new hk, notePacket_ctx, notes_heldPackets]

end

/-! ### DIGEST (R315, R316) -/

theorem exec_digest_repeated (hk : (s.ctx c).seqIn.contains (packetKey h) = true) (d : U64) (a : U16) :
    exec (.digest l dst h d a) s = .next s :=
  congrArg _ ((withRank_member hw hg _).trans (if_pos hk))

section
variable (hk : (s.ctx c).seqIn.contains (packetKey h) = false) {m : Image} (hm : (s.ctx c).active = some m) (d : U64) (a : U16)
include hk hm

theorem exec_digest_refused (hd : h.generation ≠ m.generation ∨ h.hash64 ≠ hash64Of m) :
    exec (.digest l dst h d a) s = .next (countRefuse c s) := by
  have differs : (h.generation == m.generation && h.hash64 == hash64Of m) = false := by
    rcases hd with e | e <;> simp [e]
  show Host.Outcome.next (doDigest dst h d a s) = _
  simp only [doDigest, withRank_member hw hg, hk, hm, differs, Bool.not_false, Bool.false_eq_true, ↓reduceIte]

variable (hgen : h.generation = m.generation) (hhash : h.hash64 = hash64Of m)
include hgen hhash

theorem exec_digest_stale (hs : h.step < (s.ctx c).step) : exec (.digest l dst h d a) s = .next s := by
  show Host.Outcome.next (doDigest dst h d a s) = _
  simp only [doDigest, withRank_member hw hg, hk, hm, hgen, hhash, hs, BEq.rfl, Bool.and_self, Bool.not_true,
    Bool.false_eq_true, ↓reduceIte]

/-- A digest of the step that runs or of a later one is held; a live context compares it. -/
theorem exec_digest_held (hs : (s.ctx c).step ≤ h.step) : exec (.digest l dst h d a) s = .next ((notePacket c h s).modCtx c (fun x =>
    if x.parked then holdDigest h.groupId h.srcRank.toNat h.step d a x
    else compareDigests (holdDigest h.groupId h.srcRank.toNat h.step d a x))) := by
  show Host.Outcome.next (doDigest dst h d a s) = _
  simp only [doDigest, withRank_member hw hg, hk, hm, hgen, hhash, BitVec.not_lt.mpr hs, withFresh_new hk, BEq.rfl, Bool.and_self,
    Bool.not_true, Bool.false_eq_true, ↓reduceIte]

theorem exec_digest_live (hs : (s.ctx c).step ≤ h.step) (hp : (s.ctx c).parked = false) : exec (.digest l dst h d a) s =
    .next ((notePacket c h s).modCtx c (fun x => compareDigests (holdDigest h.groupId h.srcRank.toNat h.step d a x))) := by
  rw [exec_digest_held hw hg hk hm d a hgen hhash hs]
  exact congrArg _ (modCtx_congr (if_neg (by simpa using hp)))

theorem exec_digest_parked (hs : (s.ctx c).step ≤ h.step) (hp : (s.ctx c).parked = true) : exec (.digest l dst h d a) s =
    .next (s.modCtx c (fun x => holdDigest h.groupId h.srcRank.toNat h.step d a (x.notes h))) := by
  rw [exec_digest_held hw hg hk hm d a hgen hhash hs, ← modCtx_modCtx s c (fun x => x.notes h)]
  exact congrArg _ (modCtx_congr (if_pos (by simpa using hp)))

end

end

theorem digestPeers_ungrouped {x : Ctx} (h : x.wit.replicaGroup = 0xFFFFFFFF) : digestPeers x = [] := by
  unfold digestPeers
  split
  · exact if_pos (.inl h)
  · rfl

/-- Settles O58: each packet by its receiver, by whether it was accepted before, and by the exchange or the image that it must agree
with. -/
theorem collectivePackets : Obligations.CollectivePackets := by
  unfold Obligations.CollectivePackets
  refine ⟨⟨fun s c i r hl => congrArg _ (if_pos hl), fun s l dst h hw => ⟨fun hg => ?_, fun c hg => ?_⟩⟩,
    fun s c l dst h hw hg hp => ?_, fun s c l dst h hw => ⟨fun hg recs sums bytes d a => ?_, fun hg hb recs sums bytes => ?_,
      fun hg hp hb recs sums bytes => ?_, fun hg hp m d a hm hgen hhash hs hk => ?_⟩⟩
  · exact ⟨congrArg _ (withRank_stray hw hg _), congrArg _ (withGroup_stray hw hg _)⟩
  · -- JOIN and ACCEPT
    intro x key fresh
    refine ⟨fun hk => ?_, fun hk hp => ?_, fun hk hp => ?_⟩
    · have seen : x.seqIn.contains (packetKey h) = true := List.contains_iff_mem.mpr hk
      exact ⟨exec_join_repeated hw hg seen, fun hp => (exec_accept_live hw hg hp).trans (congrArg _ (withFresh_repeated seen _))⟩
    all_goals have new : x.seqIn.contains (packetKey h) = false := Bool.eq_false_iff.mpr (mt List.contains_iff_mem.mp hk)
    · exact exec_join_parked hw hg new hp
    · intro found
      have join := exec_join_live (l := l) hw hg new hp
      have accept : exec (.accept l dst h) s = .next (acceptIn c h (notePacket c h s)) :=
        (exec_accept_live hw hg hp).trans (congrArg _ (withFresh_new new _))
      refine ⟨fun n hn hgen hhash hsize => ?_, fun n hn hd => ?_, fun hn hs => ?_, fun hn hs => ?_, fun hn => ?_, fun n m hn hm => ?_⟩
      · exact join.trans (congrArg _ (joinIn_agrees hn ((joinAgrees_iff n h).mpr ⟨hgen, hhash, hsize⟩) new))
      · refine join.trans (congrArg _ (joinIn_refused hn fun ha => ?_))
        obtain ⟨hgen, hhash, hsize⟩ := (joinAgrees_iff n h).mp ha
        exact hd.elim (absurd hgen) (Or.elim · (absurd hhash) (absurd hsize))
      · exact join.trans (congrArg _ (joinIn_early hn hs new))
      · exact join.trans (congrArg _ (joinIn_stale hn hs))
      · exact accept.trans (congrArg _ (acceptIn_unknown (by simpa using hn)))
      · have hn' : ((notePacket c h s).ctx c).insts.find? (fun n => joinKey h n && !n.nan) = some n := by simpa using hn
        have hm' : ((notePacket c h s).ctx c).active = some m := by simpa using hm
        exact ⟨fun hr => accept.trans (congrArg _ (acceptIn_settled hn' hm' hr)),
          fun ha hpart => accept.trans (congrArg _ (acceptIn_sends hn' hm' ha hpart))⟩
  · -- SCALE, DATA, GATHER, PAUSE, RESUME and DIGEST on a live context
    intro key x t
    have scale := exec_scale_live (l := l) hw hg hp
    have data := exec_data_live (l := l) hw hg hp
    have gather := exec_gather_live (l := l) hw hg hp
    refine ⟨fun hk recs sums bytes => ?_, fun n m hk hn hm => ⟨fun hd recs sums bytes => ?_, fun hs hgen hhash => ?_⟩,
      fun hk => ⟨exec_pause_repeated hw hg hk, exec_resume_repeated hw hg hk⟩, ?_, fun m d a hm => ?_, digestPeers_ungrouped⟩
    · exact ⟨(scale recs).trans (congrArg _ (withPacket_repeated _ hk)), (data sums).trans (congrArg _ (withPacket_repeated _ hk)),
        (gather bytes).trans (congrArg _ (withPacket_repeated _ hk))⟩
    · exact ⟨(scale recs).trans (congrArg _ (withPacket_mismatch _ hk hn hm hd)),
        (data sums).trans (congrArg _ (withPacket_mismatch _ hk hn hm hd)),
        (gather bytes).trans (congrArg _ (withPacket_mismatch _ hk hn hm hd))⟩
    · exact ⟨fun recs => (scale recs).trans (congrArg _ (withPacket_acts _ hk hn hm hs hgen hhash)),
        fun sums => (data sums).trans (congrArg _ (withPacket_acts _ hk hn hm hs hgen hhash)),
        fun bytes => (gather bytes).trans (congrArg _ (withPacket_acts _ hk hn hm hs hgen hhash))⟩
    · rintro p rfl hk
      exact ⟨exec_pause_again hw hg hk, exec_pause_first hw hg hk, exec_resume hw hg hk⟩
    · exact ⟨fun hk => exec_digest_repeated hw hg hk d a, fun hk => exec_digest_refused hw hg hk hm d a, fun hk hgen hhash =>
        ⟨exec_digest_stale hw hg hk hm d a hgen hhash, fun hs => exec_digest_live hw hg hk hm d a hgen hhash hs hp⟩⟩
  · -- packets of no formed group
    simp only [List.forall_mem_cons]
    exact ⟨congrArg _ (withGroup_stray hw hg _), congrArg _ (withGroup_stray hw hg _), congrArg _ (withGroup_stray hw hg _),
      congrArg _ (withRank_stray hw hg _), congrArg _ (withRank_stray hw hg _), congrArg _ (withRank_stray hw hg _),
      List.forall_mem_nil _⟩
  · -- a context in reset
    simp only [List.forall_mem_cons]
    exact ⟨congrArg _ (withGroup_busy hw hg hb _), congrArg _ (withGroup_busy hw hg hb _), congrArg _ (withGroup_busy hw hg hb _),
      congrArg _ (withGroup_busy hw hg hb _), List.forall_mem_nil _⟩
  · -- a pre-empted context
    exact ⟨exec_accept_parked hw hg hp hb, exec_scale_parked hw hg hp hb recs, exec_data_parked hw hg hp hb sums,
      exec_gather_parked hw hg hp hb bytes⟩
  · exact exec_digest_parked hw hg (Bool.eq_false_iff.mpr (mt List.contains_iff_mem.mp hk)) hm d a hgen hhash hs hp

end Sys2Proof.Machine
end

section
/-! PROOFS. RELEASE and DISCARD of a held step (O24), the arming of a replay (O27). -/

namespace Sys2Proof.Machine

open Sys2Proof

/-! ## Held steps (R317, R384, R401) -/

section
variable {s : State} {c : CtxId}

theorem doRelease_held {m : Image} (hp : (s.ctx c).phase = .held) (ha : (s.ctx c).active = some m) :
    doRelease c s = if mayWork s then commitOrWait c m s else s.modCtx c (fun x => { x with releasing := true }) := by
  simp only [doRelease, hp, ha]

theorem doRelease_commits {m : Image} (hp : (s.ctx c).phase = .held) (ha : (s.ctx c).active = some m) (hw : mayWork s = true) :
    doRelease c s = if (s.ctx c).checkpointed then s.setCtx c { s.ctx c with closing := .sealed, releasing := true }
      else doChores c (s.setCtx c ((s.ctx c).commit m)) := (doRelease_held hp ha).trans (if_pos hw)

theorem doRelease_waits {m : Image} (hp : (s.ctx c).phase = .held) (ha : (s.ctx c).active = some m) (hw : mayWork s = false) :
    doRelease c s = s.setCtx c { s.ctx c with releasing := true } :=
  (doRelease_held hp ha).trans (if_neg (Bool.eq_false_iff.mp hw))

theorem doRelease_violates (hp : (s.ctx c).phase ≠ .held) : doRelease c s = violate c 0x0E04 s := by
  unfold doRelease
  dsimp only
  split
  · next held _ => exact absurd held hp
  · rfl

theorem doDiscard_drops (hp : (s.ctx c).phase = .held) : doDiscard c s = s.setCtx c (s.ctx c).discardSealed := if_pos hp

theorem doDiscard_violates (hp : (s.ctx c).phase ≠ .held) : doDiscard c s = violate c 0x0E04 s := if_neg hp

end

/-- Settles O24: each command acts through the window, by the phase and by what makes the commit wait. -/
theorem heldStep : Obligations.HeldStep := by
  intro s fn c h
  exact ⟨fun m hp ha => ⟨fun hw => next_ctxPort h (doRelease_commits hp ha hw), fun hw => next_ctxPort h (doRelease_waits hp ha hw)⟩,
    fun hp => next_ctxPort h (doDiscard_drops hp),
    fun hp => ⟨next_ctxPort h (doRelease_violates hp), next_ctxPort h (doDiscard_violates hp)⟩⟩

/-! ## Arming a replay (R318, R401) -/

/-- A context that takes the word `v` of WIT_REPLAY, with the given RESULT. -/
def Ctx.takesReplay (x : Ctx) (v : U64) (result : ReplayResult) : Ctx :=
  { x.forgetReq reqGauge with
    wit := { x.wit with
      refAddr := v.extractLsb' 12 52, commit := v.getLsbD 2, mode := v.truncate 2, check := 0, mismatch := 0
      layerValid := false, layer := 0, result := result } }

/-- A context once the arming checks have run on the record `b`. -/
def Ctx.checks (x : Ctx) (b : List Byte) : Ctx :=
  match armCheck x b with
  | none => { x with wit := { x.wit with result := .armed, refRecord := b } }
  | some k => ({ x with wit := { x.wit with result := .refused, check := BitVec.ofNat 4 k, mode := 0 } }).violate 0x0E01

theorem checks_result (x : Ctx) (b : List Byte) : (x.checks b).wit.result ≠ .checking := by
  unfold Ctx.checks
  split <;> exact nofun

section
variable {s t : State} {c : CtxId} {v : U64}

theorem doWitReplay_violates (hp : (s.ctx c).phase ≠ .idle) : doWitReplay c v s = violate c 0x0E05 s := if_pos hp

theorem doWitReplay_idle (hp : (s.ctx c).phase = .idle) :
    doWitReplay c v s =
      let u := s.setCtx c ((s.ctx c).takesReplay v (if (v.truncate 2 : BitVec 2) = 0 then .idle else .checking))
      if (v.truncate 2 : BitVec 2) = 0 ∨ mayWork s = false then u else armReplay c u := if_neg (not_not_intro hp)

theorem doWitReplay_off (hp : (s.ctx c).phase = .idle) (hm : (v.truncate 2 : BitVec 2) = 0) :
    doWitReplay c v s = s.setCtx c ((s.ctx c).takesReplay v .idle) := by
  rw [doWitReplay_idle hp, if_pos hm]
  exact if_pos (.inl hm)

/-- While a power-cycle request stands no check runs (R401). -/
theorem doWitReplay_stands (hp : (s.ctx c).phase = .idle) (hm : (v.truncate 2 : BitVec 2) ≠ 0) (hw : mayWork s = false) :
    doWitReplay c v s = s.setCtx c ((s.ctx c).takesReplay v .checking) := by
  rw [doWitReplay_idle hp, if_neg hm]
  exact if_pos (.inr hw)

theorem doWitReplay_arms (hp : (s.ctx c).phase = .idle) (hm : (v.truncate 2 : BitVec 2) ≠ 0) (hw : mayWork s = true)
    {b : List Byte × Bool} (hf : fetchVa c reqGauge false ⟨(v.extractLsb' 12 52).toNat * 4096, 4096⟩
      (s.setCtx c ((s.ctx c).takesReplay v .checking)) = (some b, t)) :
    doWitReplay c v s = t.modCtx c (·.checks b.1) := by
  have runs : ¬ ((v.truncate 2 : BitVec 2) = 0 ∨ mayWork s = false) := not_or.mpr ⟨hm, ne_false_of_eq_true hw⟩
  have addr : ((s.setCtx c ((s.ctx c).takesReplay v .checking)).ctx c).wit.refAddr = v.extractLsb' 12 52 := by
    rw [setCtx_ctx]
    rfl
  rw [doWitReplay_idle hp, if_neg hm]
  refine (if_neg runs).trans ?_
  unfold armReplay
  rw [addr, hf]
  rfl

end

/-- What a write of WIT_REPLAY does in an open window: O27, with its arming only where no power-cycle request stands. -/
theorem exec_witReplay {s : State} {fn : FnId} {c : CtxId} (h : WindowOpen s fn c) (v : U64) :
    ((s.ctx c).phase ≠ .idle → exec (.witReplay fn c v) s = .next (violate c 0x0E05 s)) ∧
    ((s.ctx c).phase = .idle → (v.truncate 2 : BitVec 2) = 0 →
      exec (.witReplay fn c v) s = .next (s.setCtx c ((s.ctx c).takesReplay v .idle))) ∧
    ((s.ctx c).phase = .idle → (v.truncate 2 : BitVec 2) ≠ 0 → mayWork s = false →
      exec (.witReplay fn c v) s = .next (s.setCtx c ((s.ctx c).takesReplay v .checking))) ∧
    (∀ (t : State) (b : List Byte × Bool), (s.ctx c).phase = .idle → (v.truncate 2 : BitVec 2) ≠ 0 → mayWork s = true →
      fetchVa c reqGauge false ⟨(v.extractLsb' 12 52).toNat * 4096, 4096⟩ (s.setCtx c ((s.ctx c).takesReplay v .checking)) = (some b, t) →
      exec (.witReplay fn c v) s = .next (t.modCtx c (·.checks b.1))) :=
  ⟨fun hp => next_ctxPort h (doWitReplay_violates hp), fun hp hm => next_ctxPort h (doWitReplay_off hp hm),
    fun hp hm hw => next_ctxPort h (doWitReplay_stands hp hm hw), fun _ _ hp hm hw hf => next_ctxPort h (doWitReplay_arms hp hm hw hf)⟩

/-- Context 0 in IDLE with the first page of its space mapped, while a power-cycle request stands. -/
def awaitsPowerCycle : State :=
  let x : Ctx := { assigned := true, qmask := 1 }
  { State.reset.setCtx 0 { x with mmu := { x.mmu with tlb := [⟨0, 0, true, false⟩] } } with mgt := { State.reset.mgt with recReq := true } }

theorem awaitsPowerCycle_open : WindowOpen awaitsPowerCycle 0 0 := ⟨rfl, rfl, rfl, rfl⟩

/-- Its reference record at address 0 can be read. -/
theorem awaitsPowerCycle_fetches : ∃ b bad t,
    fetchVa 0 reqGauge false ⟨((1 : U64).extractLsb' 12 52).toNat * 4096, 4096⟩
      (awaitsPowerCycle.setCtx 0 ((awaitsPowerCycle.ctx 0).takesReplay 1 .checking)) = (some (b, bad), t) ∧
    (t.ctx 0).wit.refAddr = (1 : U64).extractLsb' 12 52 := ⟨_, _, _, rfl, rfl⟩

/-- Refutes O27: the checks run at no write while a power-cycle request stands (R401), which leaves RESULT at CHECKING; the
statement has them run at any write whose record can be read. -/
theorem not_replayArming : ¬ Obligations.ReplayArming := by
  unfold Obligations.ReplayArming
  intro arming
  obtain ⟨b, bad, t, fetched, addr⟩ := awaitsPowerCycle_fetches
  obtain ⟨-, -, arms⟩ := arming awaitsPowerCycle 0 0 1 awaitsPowerCycle_open
  obtain ⟨-, -, stands, -⟩ := exec_witReplay awaitsPowerCycle_open 1
  have armed : exec (.witReplay 0 0 1) awaitsPowerCycle = .next (t.modCtx 0 (·.checks b)) := arms t b bad rfl (by decide) fetched addr
  have same : t.modCtx 0 (·.checks b) = awaitsPowerCycle.setCtx 0 ((awaitsPowerCycle.ctx 0).takesReplay 1 .checking) := by
    injection armed.symm.trans (stands rfl (by decide) rfl)
  have result : ((t.ctx 0).checks b).wit.result = .checking := by
    rw [← modCtx_ctx t 0 (·.checks b), same, setCtx_ctx]
    rfl
  exact checks_result _ _ result

end Sys2Proof.Machine
end

section
/-! PROOFS. Semaphores (O19, O20): each operation as the semaphore that it leaves to be served. -/

namespace Sys2Proof.Machine

open Sys2Proof

section
variable (s : State) (c : CtxId) (q : SemId)

@[simp] theorem semOf_putSem (k : Sem) : semOf (putSem s c q k) c q = k := by
  simp [semOf, putSem]

theorem putSem_parked (k : Sem) : ((putSem s c q k).ctx c).parked = (s.ctx c).parked := by
  rw [putSem, modCtx_ctx]
  rfl

theorem violate_parked (code : U16) : ((violate c code s).ctx c).parked = (s.ctx c).parked := by
  rw [violate, modCtx_ctx]
  rfl

theorem satAdd_toNat (n : U16) (v : Nat) : (satAdd n v).toNat = min (n.toNat + v) 0xFFFF := by
  simp only [satAdd, BitVec.toNat_ofNat]
  omega

/-! ## What an operation leaves to be served (R342, R344) -/

/-- `s` after SIGNAL(v) and before the queue is served: the sum, saturated with a violation. -/
def signalled (v : U16) : State :=
  putSem (if 0xFFFF < (semOf s c q).count.toNat + v.toNat then violate c 0x1003 s else s) c q
    { semOf s c q with count := satAdd (semOf s c q).count v.toNat }

theorem signalSem_eq (v : U16) : signalSem c q v s = serveSem c q (signalled s c q v) := by
  unfold signalled
  show serveSem c q (State.modCtx (if 0xFFFF < (semOf s c q).count.toNat + v.toNat then violate c 0x1003 s else s) c _) = _
  split
  · refine congrArg _ (modCtx_congr ?_)
    rw [violate, modCtx_ctx]
    rfl
  · rfl

theorem decSem_covered {v : U16} (h : v ≤ (semOf s c q).count) :
    decSem c q v s = serveSem c q (putSem s c q { semOf s c q with count := (semOf s c q).count - v }) := if_pos h

theorem decSem_violates {v : U16} (h : ¬ v ≤ (semOf s c q).count) : decSem c q v s = violate c 0x1002 s := if_neg h

theorem waitSem_eq (v : U16) (w : Waiter) :
    waitSem c q v w s = serveSem c q (putSem s c q { semOf s c q with queue := (semOf s c q).queue ++ [(v, w)] }) := rfl

theorem semOf_signalled (v : U16) :
    semOf (signalled s c q v) c q = { semOf s c q with count := satAdd (semOf s c q).count v.toNat } := semOf_putSem ..

theorem signalled_parked (v : U16) : ((signalled s c q v).ctx c).parked = (s.ctx c).parked := by
  rw [signalled, putSem_parked]
  split
  · exact violate_parked ..
  · rfl

/-! ## A wait queue is served in order (R343), that of a pre-empted context not at all (R346) -/

variable {s c q}

theorem serveSem_putSem {k : Sem} (hp : (s.ctx c).parked = false) :
    ServedInOrder (serveSem c q (putSem s c q k)) c q k.queue k.count.toNat := by
  have served := serveSem_spec c q (putSem s c q k) ((putSem_parked s c q k).trans hp)
  rwa [semOf_putSem] at served

theorem signalSem_serves (v : U16) (hp : (s.ctx c).parked = false) :
    ServedInOrder (signalSem c q v s) c q (semOf s c q).queue (min ((semOf s c q).count.toNat + v.toNat) 0xFFFF) := by
  have served := serveSem_spec c q (signalled s c q v) ((signalled_parked s c q v).trans hp)
  rwa [semOf_signalled, satAdd_toNat, ← signalSem_eq] at served

theorem decSem_serves {v : U16} (h : v ≤ (semOf s c q).count) (hp : (s.ctx c).parked = false) :
    ServedInOrder (decSem c q v s) c q (semOf s c q).queue ((semOf s c q).count.toNat - v.toNat) := by
  have served := serveSem_putSem (q := q) (k := { semOf s c q with count := (semOf s c q).count - v }) hp
  rwa [← decSem_covered s c q h, BitVec.toNat_sub_of_le h] at served

theorem waitSem_serves (v : U16) (w : Waiter) (hp : (s.ctx c).parked = false) :
    ServedInOrder (waitSem c q v w s) c q ((semOf s c q).queue ++ [(v, w)]) (semOf s c q).count.toNat := serveSem_putSem hp

theorem serveSem_parked (hp : (s.ctx c).parked = true) : serveSem c q s = s := if_pos hp

theorem signalSem_parked (v : U16) (hp : (s.ctx c).parked = true) :
    semOf (signalSem c q v s) c q = { semOf s c q with count := satAdd (semOf s c q).count v.toNat } := by
  rw [signalSem_eq, serveSem_parked ((signalled_parked s c q v).trans hp), semOf_signalled]

theorem signalSem_unqueued (v : U16) (h : (semOf s c q).queue = []) : signalSem c q v s = signalled s c q v := by
  rw [signalSem_eq, serveSem_empty]
  rw [semOf_signalled, h]

/-! ## SEM_OP (R341, R345) -/

theorem ifAssigned_assigned (h : (s.ctx c).assigned = true) (act : State → State) : ifAssigned c act s = act s := if_pos h

/-- `s` with one more host wait armed. -/
def armed (s : State) (c : CtxId) : State := s.modCtx c (fun x => { x with hostWaits := x.hostWaits + 1 })

theorem armed_parked (s : State) (c : CtxId) : ((armed s c).ctx c).parked = (s.ctx c).parked := by
  rw [armed, modCtx_ctx]
  rfl

theorem semOf_armed (s : State) (c : CtxId) (q : SemId) : semOf (armed s c) c q = semOf s c q := by
  rw [semOf, armed, modCtx_ctx]
  rfl

theorem doSemWaitArm_arms (v tag : U16) (h : (s.ctx c).hostWaits < 16) : doSemWaitArm c q v tag s = waitSem c q v (.host tag) (armed s c) :=
  if_neg (Nat.not_le.mpr h)

theorem doSemWaitArm_violates (v tag : U16) (h : 16 ≤ (s.ctx c).hostWaits) : doSemWaitArm c q v tag s = violate c 0x1006 s := if_pos h

variable {v tag : U16} (hq : (semOf s c q).queue = []) (hp : (s.ctx c).parked = false)
include hq hp

/-- A wait that joins an empty queue is served against the count alone. -/
theorem doSemWaitArm_alone (h : (s.ctx c).hostWaits < 16) : doSemWaitArm c q v tag s =
    serveQueue c q [(v, .host tag)] (putSem (armed s c) c q { semOf s c q with queue := [(v, .host tag)] }) := by
  rw [doSemWaitArm_arms v tag h, waitSem_eq, semOf_armed, hq, serveSem, putSem_parked, armed_parked, hp, ← semOf, semOf_putSem]
  rfl

theorem doSemWaitArm_waits (h : (s.ctx c).hostWaits < 16) (hv : (semOf s c q).count < v) : doSemWaitArm c q v tag s =
    putSem (armed s c) c q { semOf s c q with queue := [(v, .host tag)] } := by
  rw [doSemWaitArm_alone hq hp h]
  refine if_neg ?_
  rw [← semOf, semOf_putSem]
  exact BitVec.not_le.mpr hv

/-- A wait that is covered takes its value, is reported, and leaves no host wait. -/
theorem doSemWaitArm_takes (h : (s.ctx c).hostWaits < 16) (hv : v ≤ (semOf s c q).count) : doSemWaitArm c q v tag s =
    ctxEvent c 0x1601 false (payload [(0, 1, c.val), (2, 2, q.val), (4, 2, tag.toNat)])
      (putSem s c q { semOf s c q with count := (semOf s c q).count - v }) := by
  rw [doSemWaitArm_alone hq hp h]
  refine (if_pos ?_).trans (congrArg (ctxEvent c 0x1601 false _) ?_)
  · rwa [← semOf, semOf_putSem]
  · simp only [armed, putSem, State.modCtx, setCtx_ctx, setCtx_setCtx, Ctx.modSem]
    refine congrArg (s.setCtx c) ?_
    have empty : (s.ctx c).sems[q.val].queue = [] := hq
    simp [semOf, empty]

end

/-- Settles O19: each operation leaves its semaphore to be served, and serving keeps the order of arrival. -/
theorem waitQueueIsFifo : Obligations.WaitQueueIsFifo := by
  intro s fn c q v tag rel h ha hp k
  refine ⟨fun room => ⟨signalSem c q v s, next_ctxPort h (ifAssigned_assigned ha _), ?_⟩,
    fun covered => ⟨decSem c q v s, next_ctxPort h (ifAssigned_assigned ha _), decSem_serves covered hp⟩,
    fun free => ⟨waitSem c q v (.host tag) (armed s c), ?_, ?_⟩⟩
  · have served := signalSem_serves (q := q) v hp
    rwa [Nat.min_eq_left room] at served
  · exact next_ctxPort h ((ifAssigned_assigned ha _).trans (doSemWaitArm_arms v tag free))
  · have served := waitSem_serves (q := q) v (.host tag) ((armed_parked s c).trans hp)
    rwa [semOf_armed] at served

/-- Settles O20: with an empty queue an operation is its semaphore written, and a wait is served against the count alone. -/
theorem semaphoreOps : Obligations.SemaphoreOps := by
  intro s fn c q v tag rel h ha hp hq k n
  have window {act : State → State} {t : State} (cmd : Instr) (e : act s = t) :
      (.next (ctxPort fn c cmd (ifAssigned c act) s) : Host.Outcome State Fault Refusal) = .next t :=
    next_ctxPort h ((ifAssigned_assigned ha act).trans e)
  refine ⟨window _ (signalSem_unqueued v hq), window _ ?_, fun free short => window _ (doSemWaitArm_waits hq hp free short),
    fun free covered => window _ (doSemWaitArm_takes hq hp free covered), fun full => window _ (doSemWaitArm_violates v tag full)⟩
  split
  next covered => rw [decSem_covered s c q covered, serveSem_empty (by rw [semOf_putSem]; exact hq)]
  next short => exact decSem_violates s c q short

end Sys2Proof.Machine
end

section
/-! PROOFS. Barriers (O30, O31). -/

namespace Sys2Proof.Machine

open Sys2Proof

/-! ## BAR_CTRL (R350, R353, R355) -/

section
variable {s : State} {k : BarId} {scope : Bool} {owner : CtxId} {tag : U16}

/-- The group of barrier `k` is formed by `owner` with at most 512 members. -/
def groupFits (s : State) (k : BarId) (owner : CtxId) : Prop :=
  ∃ g, formedSlot (s.ctx owner) (s.barrier k).group = some g ∧ g.sizeM1.toNat < 512

theorem writeBarrier_enabled (hb : (s.barrier k).enable = true) (enable : Bool) : writeBarrier k enable scope owner tag s =
    if (s.barrier k).scope = scope ∧ (s.barrier k).owner = owner ∧ (s.barrier k).tag = tag then
      if enable then s else s.setBarrier k { s.barrier k with enable := false, arrived := [], heldNext := [] }
    else violate (s.barrier k).owner 0x1007 s := if_pos hb

theorem writeBarrier_refused (hb : (s.barrier k).enable = false) (hs : scope = true) (hg : ¬ groupFits s k owner) :
    writeBarrier k true scope owner tag s =
      violate owner 0x1008 (s.setBarrier k { s.barrier k with scope := scope, owner := owner, tag := tag }) := by
  unfold writeBarrier
  rw [if_neg (Bool.eq_false_iff.mp hb)]
  refine (if_neg Bool.false_ne_true).trans (if_pos ?_)
  dsimp only
  split
  next g formed => simpa [hs] using fun fits => hg ⟨g, formed, fits⟩
  next => simp [hs]

theorem writeBarrier_starts (hb : (s.barrier k).enable = false) (hg : scope = false ∨ groupFits s k owner) :
    writeBarrier k true scope owner tag s = s.setBarrier k { s.barrier k with
      scope := scope, owner := owner, tag := tag, enable := true, epoch := 0, arrived := [], heldNext := [] } := by
  unfold writeBarrier
  rw [if_neg (Bool.eq_false_iff.mp hb)]
  refine (if_neg Bool.false_ne_true).trans (if_neg ?_)
  rcases hg with rfl | ⟨g, formed, fits⟩
  · simp
  · simp [formed, fits]

/-- ENABLE written 0 over a disabled barrier with its own fields changes nothing. -/
theorem writeBarrier_disabled (hb : (s.barrier k).enable = false) :
    writeBarrier k false (s.barrier k).scope (s.barrier k).owner (s.barrier k).tag s = s :=
  (if_neg (Bool.eq_false_iff.mp hb)).trans (setBarrier_self s k)

end

/-- Settles O30: the write acts on the enabled and on the disabled barrier as `writeBarrier` says. -/
theorem barrierControl : Obligations.BarrierControl := by
  intro s fn k scope owner tag h b groupOk fields write
  refine ⟨fun hb hg => next_glbPort h (writeBarrier_starts hb hg), fun hb hs hg => next_glbPort h (writeBarrier_refused hb hs hg),
    fun hb same => next_glbPort h ((writeBarrier_enabled hb true).trans (if_pos same)),
    fun hb other => next_glbPort h ((writeBarrier_enabled hb true).trans (if_neg other)), next_glbPort h ?_⟩
  split
  next hb => exact (writeBarrier_enabled hb false).trans (if_pos ⟨rfl, rfl, rfl⟩)
  next hb => exact writeBarrier_disabled (Bool.eq_false_iff.mpr hb)

/-! ## An arrival (R351, R352) -/

section
variable {b : Barrier} {slot : Nat} {epoch : U32} {notify : Option SemId}

theorem arrive_now (he : epoch = b.epoch) (hn : ∀ a ∈ b.arrived, a.1 ≠ slot) :
    b.arrive slot epoch notify = some { b with arrived := b.arrived ++ [(slot, notify)] } :=
  (if_pos he).trans (if_neg (by simpa only [List.any_eq_true, beq_iff_eq, not_exists, not_and] using hn))

theorem arrive_again (he : epoch = b.epoch) (ha : ∃ a ∈ b.arrived, a.1 = slot) : b.arrive slot epoch notify = none :=
  (if_pos he).trans (if_pos (by simpa only [List.any_eq_true, beq_iff_eq] using ha))

theorem arrive_next (he : epoch = b.epoch + 1) (hne : epoch ≠ b.epoch) (hn : ∀ a ∈ b.heldNext, a.1 ≠ slot) :
    b.arrive slot epoch notify = some { b with heldNext := b.heldNext ++ [(slot, notify)] } :=
  (if_neg hne).trans ((if_pos he).trans (if_neg (by simpa only [List.any_eq_true, beq_iff_eq, not_exists, not_and] using hn)))

theorem arrive_other (he : epoch ≠ b.epoch) (hne : epoch ≠ b.epoch + 1) : b.arrive slot epoch notify = none :=
  (if_neg he).trans (if_neg hne)

/-- The mask has 512 slots. -/
theorem takes_lt (h : b.takes slot = true) : slot < 512 := by
  refine Nat.not_le.mp fun outside => ?_
  have beyond : b.mask.toList.getD (slot / 32) 0 = 0 := by
    rw [List.getD_eq_getElem?_getD, List.getElem?_eq_none (by rw [Vector.length_toList]; omega), Option.getD_none]
  rw [Barrier.takes, beyond] at h
  simp [bitOf] at h

/-- A barrier with a slot in its mask is not full of no arrivals. -/
theorem not_full_of_none_arrived (h : b.takes slot = true) (ha : b.arrived = []) : b.full = false := by
  rw [Barrier.full, List.all_eq_false]
  exact ⟨slot, List.mem_range.mpr (takes_lt h), by simp [h, ha]⟩

theorem putArrival_open {k : BarId} {s : State} (h : b.full = false) : putArrival k b s = s.setBarrier k b :=
  complete_no k 2 _ (by rw [setBarrier_barrier]; exact h)

/-- The notify semaphores of a complete epoch, then the next epoch with the arrivals held for it (R351). -/
def nextEpoch (k : BarId) (b : Barrier) (s : State) : State :=
  ((s.setBarrier k b).each (b.arrived.filterMap (·.2)) (fun q t => signalSem b.owner q 1 t)).modBarrier k
    (fun x => { x with epoch := x.epoch + 1, arrived := x.heldNext, heldNext := [] })

theorem nextEpoch_barrier (k : BarId) (b : Barrier) (s : State) :
    (nextEpoch k b s).barrier k = { b with epoch := b.epoch + 1, arrived := b.heldNext, heldNext := [] } := by
  rw [nextEpoch, modBarrier_barrier, barrier_eq (signals_barriers ..), setBarrier_barrier]

theorem nextEpoch_barrier_ne {j k : BarId} (h : j ≠ k) (b : Barrier) (s : State) : (nextEpoch k b s).barrier j = s.barrier j := by
  rw [nextEpoch, modBarrier_barrier_ne _ _ h, barrier_eq (signals_barriers ..), setBarrier_barrier_ne _ _ h]

theorem putArrival_full {k : BarId} {s : State} (h : b.full = true) : putArrival k b s = completeBarrier k 1 (nextEpoch k b s) := by
  unfold putArrival completeBarrier
  simp only [setBarrier_barrier]
  exact if_pos h

/-- The last arrival opens the next epoch, which no held arrival completes. -/
theorem putArrival_last {k : BarId} {s : State} (h : b.full = true) (hh : b.heldNext = []) (ht : b.takes slot = true) :
    putArrival k b s = nextEpoch k b s := by
  rw [putArrival_full h]
  refine complete_no k 1 _ ?_
  rw [nextEpoch_barrier]
  exact not_full_of_none_arrived (slot := slot) ht hh

end

/-! ## BAR_ARRIVE (R352, R353) -/

/-- Slot `slot` of context `c` may arrive at barrier `k`: enabled, of that owner, in the mask, and under group scope its rank. -/
def mayArrive (s : State) (c : CtxId) (k : BarId) (slot : BenchId) : Prop :=
  (s.barrier k).enable = true ∧ (s.barrier k).owner = c ∧ (s.barrier k).takes slot.val = true ∧
    ((s.barrier k).scope = true → ∃ g, ownRank s (s.barrier k) = some g ∧ g.rank.toNat = slot.val)

/-- Under group scope the other members in the mask are told of an arrival at `b`, the barrier as it stood in `s` (R353). -/
def tellArrival (s : State) (c : CtxId) (b : Barrier) (slot : BenchId) (epoch : U32) (t : State) : State :=
  match b.scope, ownRank s b with
  | true, some g => t.each ((List.range (g.sizeM1.toNat + 1)).filter (fun r => r != slot.val && b.takes r)) (fun r u =>
      sendSync c g r 0x11 ⟨false, g.rank.zeroExtend 16, 0, 0, g.id, 0, b.tag, 0, epoch⟩ u)
  | _, _ => t

section
variable {s : State} {c : CtxId} {k : BarId} {slot : BenchId} {epoch : U32} {notify : Option SemId}

theorem doBarArrive_strange (h : ¬ mayArrive s c k slot) : doBarArrive c k slot epoch notify s = violate c 0x1004 s := by
  refine if_pos ((Bool.not_eq_true' _).mpr (Bool.eq_false_iff.mpr fun ok => h ?_))
  simp only [Bool.and_eq_true, beq_iff_eq, Bool.or_eq_true, Bool.not_eq_true'] at ok
  obtain ⟨⟨⟨enabled, owned⟩, masked⟩, ranked⟩ := ok
  refine ⟨enabled, owned, masked, fun grouped => ?_⟩
  rw [grouped] at ranked
  cases own : ownRank s (s.barrier k) with
  | none => simp [own] at ranked
  | some g => exact ⟨g, rfl, by simpa [own] using ranked⟩

variable (h : mayArrive s c k slot)
include h

theorem doBarArrive_known : doBarArrive c k slot epoch notify s =
    match (s.barrier k).arrive slot.val epoch notify with
    | none => violate c 0x1005 s
    | some b => tellArrival s c (s.barrier k) slot epoch (putArrival k b s) := by
  obtain ⟨enabled, owned, masked, ranked⟩ := h
  refine if_neg ?_
  simp only [enabled, owned, masked, Bool.not_eq_true', Bool.not_eq_false, Bool.and_eq_true, beq_iff_eq, true_and, Bool.or_eq_true]
  cases grouped : (s.barrier k).scope with
  | false => exact .inl rfl
  | true =>
    obtain ⟨g, own, rank⟩ := ranked grouped
    exact .inr (by rw [own]; exact beq_iff_eq.mpr rank)

theorem doBarArrive_refused (ha : (s.barrier k).arrive slot.val epoch notify = none) :
    doBarArrive c k slot epoch notify s = violate c 0x1005 s := by
  rw [doBarArrive_known h, ha]

theorem doBarArrive_taken {b : Barrier} (ha : (s.barrier k).arrive slot.val epoch notify = some b) :
    doBarArrive c k slot epoch notify s = tellArrival s c (s.barrier k) slot epoch (putArrival k b s) := by
  rw [doBarArrive_known h, ha]

end

/-- Settles O31: an arrival is judged by its epoch, stored, and told to the other members. -/
theorem barrierArrivals : Obligations.BarrierArrivals := by
  intro s fn c k slot epoch notify h ha b may arrive tell here
  have window {t : State} (e : doBarArrive c k slot epoch notify s = t) : arrive = .next t :=
    next_ctxPort h ((ifAssigned_assigned ha _).trans e)
  have taken {b' t : _} (hm : may) (e : b.arrive slot.val epoch notify = some b') (p : putArrival k b' s = t) : arrive = .next (tell t) :=
    window ((doBarArrive_taken hm e).trans (by rw [p]; rfl))
  refine ⟨fun hm he hn part => taken hm (arrive_now he hn) (putArrival_open part),
    fun hm he hn full empty => ?_,
    fun hm he hne hn part => taken hm (arrive_next he hne hn) (putArrival_open part), fun hm wrong => window ?_,
    fun hm => window (doBarArrive_strange hm)⟩
  · obtain ⟨-, -, masked, -⟩ := id hm
    exact taken hm (arrive_now he hn) (putArrival_last full empty masked)
  · rcases wrong with ⟨he, dup⟩ | ⟨he, hne⟩
    · exact doBarArrive_refused hm (arrive_again he dup)
    · exact doBarArrive_refused hm (arrive_other he hne)

end Sys2Proof.Machine
end

section
/-! PROOFS. The descriptor ring (O35). -/

namespace Sys2Proof.Machine

open Sys2Proof

/-! ## DMA_TAIL (R372) -/

section
variable {s : State} {c : CtxId} {index : U16}

theorem doDmaTail_takes (h : (index - (s.ctx c).dma.head).toNat < ringSize (s.ctx c)) :
    doDmaTail c index s = s.setCtx c { s.ctx c with dma := { (s.ctx c).dma with tail := index } } :=
  if_neg (Nat.not_lt.mpr (Nat.le_sub_one_of_lt h))

theorem doDmaTail_violates (h : ringSize (s.ctx c) ≤ (index - (s.ctx c).dma.head).toNat) : doDmaTail c index s = violate c 0x1107 s :=
  if_pos (Nat.lt_of_lt_of_le (Nat.sub_one_lt (Nat.ne_of_gt (Nat.two_pow_pos _))) h)

end

/-! ## What a descriptor's command does with it (R372 to R374) -/

section
variable {s : State} {c : CtxId} {i : Nat} {accepts : Nat → Bool}

theorem doDesc_known {d : DescState} (hr : ringRuns s c i = true) (hd : (s.ctx c).desc i = some d) (ha : accepts (descOp d.bytes) = true) :
    doDesc accepts c i s = goOn c i s := by
  simp only [doDesc, hr, hd, ha, Bool.not_true, Bool.false_eq_true, ↓reduceIte]

theorem doDesc_reads {b : List Byte} {t : State} (hr : ringRuns s c i = true) (hd : (s.ctx c).desc i = none)
    (he : ∀ k ∈ earlier (s.ctx c) i, descStarted (s.ctx c) k = true)
    (hb : readMoved c (reqCopy i) [⟨descVa (s.ctx c) i, 64⟩] s = (some b, t)) (ha : accepts (descOp b) = true) :
    doDesc accepts c i s =
      goOn c i (t.modCtx c (fun x => { x with dma := { x.dma with descs := x.dma.descs ++ [{ index := i, bytes := b }] } })) := by
  have started : (earlier (s.ctx c) i).all (descStarted (s.ctx c)) = true := List.all_eq_true.mpr he
  simp only [doDesc, hr, hd, hb, ha, started, Bool.not_true, Bool.false_eq_true, ↓reduceIte]

/-- Each command accepts its OP, and a descriptor of that OP runs as the command says. -/
theorem descCmds_run : ∀ p ∈ descCmds,
    (∃ accepts : Nat → Bool, accepts p.2.1 = true ∧ ∀ c i s, exec (p.1 c i) s = .next (doDesc accepts c i s)) ∧
    ∀ c i d s, (s.ctx c).desc i = some d → descOp d.bytes = p.2.1 → runDesc c i s = p.2.2 c i d s := by
  unfold descCmds
  simp only [List.forall_mem_cons]
  refine ⟨?_, ?_, ?_, ?_, ?_, ?_, List.forall_mem_nil _⟩
  all_goals exact ⟨⟨_, by decide, fun _ _ _ => rfl⟩, fun _ _ _ _ hd ho => by simp only [runDesc, hd, ho]⟩

end

section
variable {s : State} {c : CtxId} {i : Nat} {d : DescState}

/-- A descriptor that has started: a CHECKPOINT takes the context's step (R384). -/
def DescState.begun (x : Ctx) (d : DescState) : DescState :=
  if descOp d.bytes = 5 then { d with started := true, step := x.step, reading := true, header := slotHeader x 0 }
  else { d with started := true }

theorem begun_bytes (x : Ctx) (d : DescState) : (d.begun x).bytes = d.bytes := by
  unfold DescState.begun
  split <;> rfl

theorem begun_index (x : Ctx) (d : DescState) : (d.begun x).index = d.index := by
  unfold DescState.begun
  split <;> rfl

theorem startDesc_eq : startDesc c i s = runDesc c i (s.setCtx c ((s.ctx c).modDesc i (·.begun (s.ctx c)))) := rfl

/-- The descriptor joins the wait queue of its semaphore (R374). -/
def queueDesc (c : CtxId) (i : Nat) (d : DescState) (s : State) : State :=
  waitSem c (Fin.ofNat 1024 (natAt d.bytes 2 2 % 1024)) (BitVec.ofNat 16 (natAt d.bytes 4 2)) (.desc i)
    (s.setCtx c ((s.ctx c).modDesc i (fun d => { d with waited := true, waiting := true })))

theorem openDesc_fenced (hf : descFlag d.bytes 0 = true) (he : ∃ k ∈ earlier (s.ctx c) i, descEnded (s.ctx c) k = false) :
    openDesc c i d s = s := by
  refine if_pos ?_
  rw [hf, Bool.true_and, Bool.not_eq_true', List.all_eq_false]
  simpa only [Bool.not_eq_true] using he

section
variable (hf : descFlag d.bytes 0 = false ∨ ∀ k ∈ earlier (s.ctx c) i, descEnded (s.ctx c) k = true)
include hf

/-- What follows a FENCE that is passed: the checks, the WAIT, the start. -/
theorem openDesc_passes : openDesc c i d s =
    if descInvalid (s.ctx c) d.bytes then endDesc c i 3 (violate c 0x1105 s)
    else if descFlag d.bytes 1 && !d.waited then
      if ((((queueDesc c i d s).ctx c).desc i).map (·.waiting)).getD true then queueDesc c i d s else startDesc c i (queueDesc c i d s)
    else startDesc c i s := by
  refine if_neg ?_
  rw [Bool.and_eq_true, Bool.not_eq_true', List.all_eq_false]
  rintro ⟨fenced, k, hk, running⟩
  rcases hf with free | ended
  · exact Bool.false_ne_true (free.symm.trans fenced)
  · exact running (ended k hk)

theorem openDesc_invalid (hi : descInvalid (s.ctx c) d.bytes = true) : openDesc c i d s = endDesc c i 3 (violate c 0x1105 s) :=
  (openDesc_passes hf).trans (if_pos hi)

theorem openDesc_starts (hi : descInvalid (s.ctx c) d.bytes = false) (hw : descFlag d.bytes 1 = false ∨ d.waited = true) :
    openDesc c i d s = startDesc c i s := by
  rw [openDesc_passes hf, if_neg (Bool.eq_false_iff.mp hi)]
  refine if_neg ?_
  rcases hw with hw | hw <;> simp [hw]

theorem openDesc_waits {e : DescState} (hi : descInvalid (s.ctx c) d.bytes = false) (hw : descFlag d.bytes 1 = true)
    (hn : d.waited = false) (he : ((queueDesc c i d s).ctx c).desc i = some e) (hq : e.waiting = true) :
    openDesc c i d s = queueDesc c i d s := by
  rw [openDesc_passes hf, if_neg (Bool.eq_false_iff.mp hi), if_pos (by rw [hw, hn]; rfl)]
  refine if_pos ?_
  rw [he]
  exact hq

end

section
variable (hd : (s.ctx c).desc i = some d) (he : d.ended = false) (hw : d.waiting = false) (hr : d.result = 0)
include hd he hw hr

theorem goOn_runs (hs : d.started = true) : goOn c i s = runDesc c i s := by
  simp [goOn, hd, he, hw, hr, hs]

theorem goOn_opens (hs : d.started = false) : goOn c i s = openDesc c i d s := by
  simp [goOn, hd, he, hw, hr, hs]

end

end

/-! ## The end of a descriptor (R372, R374, R375) -/

/-- `s` with descriptor `i` at its end, its STATUS and signal still to come. -/
def endingDesc (c : CtxId) (i result : Nat) (s : State) : State :=
  resumeCommit c (s.setCtx c ((s.ctx c).modDesc i (fun d =>
    { d with result := result, started := true, waiting := false, unacked := [], reading := false })))

section
variable {s : State} {c : CtxId} {i r : Nat} {d : DescState} (hd : ((endingDesc c i r s).ctx c).desc i = some d)
include hd

theorem endDesc_held (hf : relFull (endingDesc c i r s) c d = true) : endDesc c i r s = endingDesc c i r s := by
  show finishDesc c i (endingDesc c i r s) = _
  simp only [finishDesc, hd, hf, ↓reduceIte]

theorem endDesc_ends {t : State} (hf : relFull (endingDesc c i r s) c d = false)
    (ht : putVa c (reqCopy i) false (descVa ((endingDesc c i r s).ctx c) i + 0x38) [BitVec.ofNat 8 d.result] (endingDesc c i r s) = (true, t)) :
    endDesc c i r s =
      let told := if d.result = 1 then descSignal c d.bytes t else t
      let turned := if d.result = 1 ∧ descOp d.bytes = 5 then told.modCtx c (fun z => { z with buddySlot := !z.buddySlot }) else told
      let seen := if descFlag d.bytes 4 then ctxEvent c 0x1702 false (payload [(0, 1, c.val), (1, 1, d.result), (2, 2, i)]) turned
        else turned
      seen.modCtx c (fun z => advanceHead (ringSize z) (z.modDesc i (fun d => { d with ended := true }))) := by
  show finishDesc c i (endingDesc c i r s) = _
  simp only [finishDesc, hd, hf, ht, Bool.false_eq_true, ↓reduceIte]

end

/-- Settles O35: a command takes the descriptor of its OP as far as FENCE, checks and WAIT let it go, and its end is one act. -/
theorem descriptors : Obligations.Descriptors := by
  unfold Obligations.Descriptors
  refine ⟨fun s fn c index h => ⟨fun room => next_ctxPort h (doDmaTail_takes room),
      fun full => next_ctxPort h (doDmaTail_violates full)⟩,
    fun s c i d hr hd he hw h0 => ?_, fun s t c i => ⟨fun b hr hd he hb p hp ho => ?_,
      fun d r hd => ⟨endDesc_held hd, endDesc_ends hd⟩⟩⟩
  · intro x begun queued p hp ho
    obtain ⟨⟨accepts, accepted, execs⟩, runs⟩ := descCmds_run p hp
    have goes : exec (p.1 c i) s = .next (goOn c i s) := (execs c i s).trans (congrArg _ (doDesc_known hr hd (by rw [ho]; exact accepted)))
    have opens (hs : d.started = false) {t : State} (e : openDesc c i d s = t) : exec (p.1 c i) s = .next t :=
      goes.trans (congrArg _ ((goOn_opens hd he hw h0 hs).trans e))
    refine ⟨fun hs => goes.trans (congrArg _ ((goOn_runs hd he hw h0 hs).trans (runs c i d s hd ho))),
      fun hs hf => ⟨fun hi => opens hs (openDesc_invalid hf hi), fun hi hq => opens hs ((openDesc_starts hf hi hq).trans ?_),
        fun e hi hq hn hqd hqw => opens hs (openDesc_waits hf hi hq hn hqd hqw)⟩,
      fun hs hf hrun => opens hs (openDesc_fenced hf hrun)⟩
    rw [startDesc_eq, runs c i (d.begun x)]
    · rfl
    · rw [setCtx_ctx]
      exact desc_modDesc x i d _ hd (begun_index x)
    · rw [begun_bytes, ho]
  · obtain ⟨⟨accepts, accepted, execs⟩, -⟩ := descCmds_run p hp
    exact (execs c i s).trans (congrArg _ (doDesc_reads hr hd he hb (by rw [ho]; exact accepted)))

end Sys2Proof.Machine
end

section
/-! PROOFS. Function resets, VF Enable, context assignment and the storage of semaphores (O40). -/

namespace Sys2Proof.Machine

open Sys2Proof

/-! ## Functions (R400, R408, R409) -/

theorem dropVfs_func (s : State) (f : FnId) : (dropVfs s).func f = if f ≠ 0 ∧ fnExists s f = false then {} else s.func f := by
  obtain ⟨funcs, -⟩ := each_funcs (allFns.filter (fun f => f != 0 && !fnExists s f)) ((List.nodup_finRange 16).filter _) s
  refine (funcs f).trans ?_
  simp [allFns]

@[simp] theorem dropVfs_glb (s : State) : (dropVfs s).glb = s.glb := by
  obtain ⟨-, glb, -⟩ := each_funcs (allFns.filter (fun f => f != 0 && !fnExists s f)) ((List.nodup_finRange 16).filter _) s
  exact glb

@[simp] theorem dropVfs_ctxs (s : State) : (dropVfs s).ctxs = s.ctxs := by
  obtain ⟨-, -, ctxs, -⟩ := each_funcs (allFns.filter (fun f => f != 0 && !fnExists s f)) ((List.nodup_finRange 16).filter _) s
  exact ctxs

@[simp] theorem dropVfs_mem (s : State) : (dropVfs s).mem = s.mem := by
  obtain ⟨-, -, -, mem⟩ := each_funcs (allFns.filter (fun f => f != 0 && !fnExists s f)) ((List.nodup_finRange 16).filter _) s
  exact mem

@[simp] theorem dropVfs_pwr (s : State) : (dropVfs s).pwr = s.pwr := by
  unfold dropVfs State.each
  exact List.foldlRecOn (motive := fun t : State => t.pwr = s.pwr) _ _ rfl fun t same f _ => same

/-- Starting and stopping PLLs changes multipliers and draws numbers alone (R448). -/
theorem updatePlls_leaves (s : State) : (updatePlls s).glb = s.glb ∧ (updatePlls s).ctxs = s.ctxs ∧ (updatePlls s).mem = s.mem ∧
    (updatePlls s).pwr.perst = s.pwr.perst ∧ (updatePlls s).pwr.pcieUp = s.pwr.pcieUp := by
  unfold updatePlls State.each
  refine List.foldlRecOn (motive := fun t : State => t.glb = s.glb ∧ t.ctxs = s.ctxs ∧ t.mem = s.mem ∧ t.pwr.perst = s.pwr.perst ∧
    t.pwr.pcieUp = s.pwr.pcieUp) _ _ ⟨rfl, rfl, rfl, rfl, rfl⟩ fun t same q _ => ?_
  unfold updatePll
  dsimp only
  split
  · split <;> exact same
  · exact same

section
variable {s : State} (hu : hostUp s = true)
include hu

theorem hostUp_runs : s.pwr.mainOn = true ∧ 6 ≤ s.pwr.bootEvent := by
  simp only [hostUp, Bool.and_eq_true, decide_eq_true_eq] at hu
  obtain ⟨⟨⟨main, -⟩, booted⟩, -⟩ := hu
  exact ⟨main, booted⟩

theorem doFlr_exists {fn : FnId} (hf : fnExists s fn = true) : doFlr fn s =
    let t := (s.each (allCtx.filter (fun c => (s.ctx c).assigned && (fn == 0 || (s.ctx c).func == fn)))
      (fun c t => requestCtxReset c 3 t)).setFunc fn {}
    if fn = 0 then setVfs false 0 t else t :=
  if_neg (by simp [hu, hf])

theorem doFlr_vf {fn : FnId} (h0 : fn ≠ 0) (hf : fnExists s fn = true) : doFlr fn s =
    (s.each (allCtx.filter (fun c => (s.ctx c).assigned && (s.ctx c).func == fn)) (fun c t => requestCtxReset c 3 t)).setFunc fn {} := by
  rw [doFlr_exists hu hf]
  refine (if_neg h0).trans ?_
  simp only [beq_eq_false_iff_ne.mpr h0, Bool.false_or]

theorem doFlr_pf : doFlr 0 s = dropVfs (
    let t := (s.each (allCtx.filter (fun c => (s.ctx c).assigned)) (fun c t => requestCtxReset c 3 t)).setFunc 0 {}
    { t with glb := { t.glb with vfEnable := false, numVfs := 0 } }) := by
  rw [doFlr_exists hu rfl]
  refine (if_pos rfl).trans ?_
  simp only [beq_self_eq_true, Bool.true_or, Bool.and_true]
  rfl

theorem doFundamentalReset_eq : doFundamentalReset s =
    updatePlls ((setVfs false 0 { s with pwr := { s.pwr with perst := true, pcieUp := false }, draws := s.draws + 1 }).modGlb
      (fun g => { g with chipBusy := true, chipCause := Config.freeNat s.draws })) := by
  obtain ⟨main, booted⟩ := hostUp_runs hu
  refine (if_neg ?_).trans (requestChipReset_starts ?_ _)
  · simp [main, booted]
  · rw [setVfs, dropVfs_glb]
    exact (hostUp_chipBusy hu : s.glb.chipBusy = false)

/-- A fundamental reset is a chip reset of a free cause with the link down, after which no VF exists (R400). -/
theorem doFundamentalReset_leaves : (doFundamentalReset s).glb.chipBusy = true ∧
    (doFundamentalReset s).glb.chipCause = Config.freeNat s.draws ∧ (doFundamentalReset s).glb.vfEnable = false ∧
    (doFundamentalReset s).glb.numVfs = 0 ∧ (doFundamentalReset s).pwr.perst = true ∧ (doFundamentalReset s).pwr.pcieUp = false ∧
    (doFundamentalReset s).ctxs = s.ctxs ∧ (doFundamentalReset s).mem = s.mem := by
  rw [doFundamentalReset_eq hu, setVfs]
  generalize hz : dropVfs _ = z
  obtain ⟨glb, ctxs, mem, perst, pcie⟩ := updatePlls_leaves 
    (z.modGlb (fun g => { g with chipBusy := true, chipCause := Config.freeNat s.draws }))
  rw [glb, ctxs, mem, perst, pcie]
  subst hz
  simp

end

/-! ## GLB_CTX_ASSIGN (R408, R410) -/

theorem legalMask_iff (q : BitVec 4) : legalMask q = true ↔ q ∈ [(0x1 : BitVec 4), 0x2, 0x4, 0x8, 0x3, 0xC, 0xF] := by
  revert q
  decide

theorem maskClash_eq_false (s : State) (c : CtxId) (q : BitVec 4) : maskClash s c q = false ↔
    ∀ d, d ≠ c → (s.ctx d).assigned = true → (s.ctx d).qmask = q ∨ (s.ctx d).qmask &&& q = 0 := by
  simp only [maskClash, allCtx, List.any_eq_false, List.mem_finRange, forall_const, Bool.and_eq_true, bne_iff_ne, ne_eq, not_and,
    Decidable.not_not, Decidable.or_iff_not_imp_left, and_imp]

/-- The context is idle, with nothing active, LOADING or VALID. -/
def Ctx.vacant (x : Ctx) : Prop := x.phase = .idle ∧ x.active = none ∧ (x.staged = .empty ∨ x.staged = .invalid)

theorem assignable_iff (x : Ctx) : x.assignable = true ↔ x.vacant := by
  unfold Ctx.assignable Ctx.vacant
  cases x.staged <;> simp

/-- A legal partition that clashes with that of no other assigned context. -/
def fitsMask (s : State) (c : CtxId) (q : BitVec 4) : Prop :=
  q ∈ [(0x1 : BitVec 4), 0x2, 0x4, 0x8, 0x3, 0xC, 0xF] ∧
    ∀ d, d ≠ c → (s.ctx d).assigned = true → (s.ctx d).qmask = q ∨ (s.ctx d).qmask &&& q = 0

theorem fitsMask_iff (s : State) (c : CtxId) (q : BitVec 4) : fitsMask s c q ↔ (!legalMask q || maskClash s c q) = false := by
  rw [fitsMask, ← legalMask_iff, ← maskClash_eq_false, Bool.or_eq_false_iff, Bool.not_eq_false']

/-- An accepted assignment: the fields, the semaphores placed, the reset of the context asked for. -/
theorem assignCtx_eq (c : CtxId) (valid : Bool) (func : FnId) (q : BitVec 4) (s : State) : assignCtx c valid func q s =
    updatePlls ((placeSems c (s.setCtx c ({ (s.ctx c).dropForms with
        assigned := valid, func := func, qmask := q, groups := (s.ctx c).groups.map GroupSlot.dissolved } : Ctx).setNeed)).modCtx c
      (fun z => if z.busy then z else { z with busy := true, lastCause := 1 })) := by
  unfold assignCtx requestCtxReset
  rfl

section
variable {s : State} {c : CtxId} {valid : Bool} {func : FnId} {q : BitVec 4}

theorem writeAssign_occupied (h : ¬ (s.ctx c).vacant) : writeAssign c valid func q s = violate c 0x1301 s :=
  if_pos (by rw [Bool.not_eq_true', Bool.eq_false_iff]; exact mt (assignable_iff _).mp h)

variable (h : (s.ctx c).vacant)
include h

theorem writeAssign_vacant : writeAssign c valid func q s =
    if !legalMask q || maskClash s c q then violate c 0x1302 s else assignCtx c valid func q s :=
  if_neg (by rw [(assignable_iff _).mpr h]; exact Bool.false_ne_true)

theorem writeAssign_misfit (hq : ¬ fitsMask s c q) : writeAssign c valid func q s = violate c 0x1302 s :=
  (writeAssign_vacant h).trans (if_pos (by rwa [fitsMask_iff, Bool.not_eq_false] at hq))

theorem writeAssign_fits (hq : fitsMask s c q) : writeAssign c valid func q s = assignCtx c valid func q s :=
  (writeAssign_vacant h).trans (if_neg (Bool.eq_false_iff.mp ((fitsMask_iff s c q).mp hq)))

end

/-! ## Semaphore storage (R341, R449) -/

theorem benchBit_wake (m : Vector U32 16) (b : BenchId) : benchBit (setBenchBit m b false) b.val = false := by
  have hb : b.val / 32 < 16 := by omega
  have word : (setBenchBit m b false).toList.getD (b.val / 32) 0 = m[b.val / 32] &&& ~~~BitVec.ofNat 32 (2 ^ (b.val % 32)) := by
    rw [List.getD_eq_getElem?_getD, List.getElem?_eq_getElem (by rw [Vector.length_toList]; exact hb),
      Option.getD_some, Vector.getElem_toList]
    simp [setBenchBit, Nat.mod_eq_of_lt hb]
  rw [benchBit, word, bitOf, BitVec.testBit_toNat, BitVec.getLsbD_and, BitVec.getLsbD_not, BitVec.getLsbD_ofNat, Nat.testBit_two_pow_self]
  simp [Nat.mod_lt]

/-- A bench of the context's partition that is not fenced. -/
def storesFor (s : State) (c : CtxId) (b : BenchId) : Prop :=
  (s.ctx c).quarters.getLsbD (b.val / 128) = true ∧ benchBit s.glb.benchFenced b.val = false

/-- The bench that the semaphores of a context get: theirs where it can store them, else the lowest that can. -/
def semPlace (s : State) (c : CtxId) : Option BenchId :=
  let keep : Option BenchId :=
    (s.ctx c).semBench.filter (fun b => (s.ctx c).quarters.getLsbD (b.val / 128) && !benchBit s.glb.benchFenced b.val)
  if keep.isSome then keep else storageBench s.glb (s.ctx c).quarters

theorem storesFor_iff (s : State) (c : CtxId) (b : BenchId) :
    ((s.ctx c).quarters.getLsbD (b.val / 128) && !benchBit s.glb.benchFenced b.val) = true ↔ storesFor s c b := by
  rw [Bool.and_eq_true, Bool.not_eq_true', storesFor]

section
variable {s : State} {c : CtxId} {b : BenchId}

theorem semPlace_keeps (hb : (s.ctx c).semBench = some b) (hu : storesFor s c b) : semPlace s c = some b := by
  simp only [semPlace, hb, Option.filter_some, (storesFor_iff s c b).mpr hu, ↓reduceIte, Option.isSome_some]

theorem semPlace_stores (h : semPlace s c = some b) : storesFor s c b := by
  unfold semPlace storageBench at h
  dsimp only at h
  rw [← storesFor_iff]
  split at h
  · exact (Option.filter_eq_some_iff.mp h).2
  · have found := List.find?_some h
    exact found

theorem semPlace_none_iff : semPlace s c = none ↔ ∀ b, ¬ storesFor s c b := by
  constructor
  · intro h b hb
    unfold semPlace storageBench at h
    dsimp only at h
    split at h
    next kept => rw [h] at kept; cases kept
    next =>
      rw [List.find?_eq_none] at h
      exact h b (List.mem_finRange (n := 512) b) ((storesFor_iff s c b).mpr hb)
  · intro h
    cases e : semPlace s c with
    | none => rfl
    | some b => exact absurd (semPlace_stores e) (h b)

end

theorem placeSems_ctx (c : CtxId) (s : State) : (placeSems c s).ctx c = { s.ctx c with semBench := semPlace s c } := by
  unfold placeSems
  dsimp only
  split
  · exact (modPwr_ctx ..).trans (modCtx_ctx ..)
  · exact modCtx_ctx ..

theorem placeSems_wakes {s : State} {c : CtxId} {b : BenchId} (h : semPlace s c = some b) :
    benchBit (placeSems c s).pwr.benchGated b.val = false := by
  have woken : placeSems c s = (s.modCtx c (fun x => { x with semBench := some b })).modPwr
      (fun p => { p with benchGated := setBenchBit p.benchGated b false }) := by
    have place : placeSems c s = match semPlace s c with
      | some b => (s.modCtx c (fun x => { x with semBench := semPlace s c })).modPwr
          (fun p => { p with benchGated := setBenchBit p.benchGated b false })
      | none => s.modCtx c (fun x => { x with semBench := semPlace s c }) := rfl
    rw [place, h]
  rw [woken]
  exact benchBit_wake _ b

theorem placeSems_frame (c : CtxId) (s : State) :
    { placeSems c s with ctxs := s.ctxs, pwr := s.pwr } = s ∧ ∀ d, d ≠ c → (placeSems c s).ctx d = s.ctx d := by
  unfold placeSems
  dsimp only
  split
  · exact ⟨rfl, fun d hd => (modPwr_ctx ..).trans (modCtx_ctx_ne s _ hd)⟩
  · exact ⟨rfl, fun d hd => modCtx_ctx_ne s _ hd⟩

/-- The context uses the bench of its semaphores, which is so not empty. -/
theorem usesUnit_semBench {s : State} {c : CtxId} {b : BenchId} (h : (s.ctx c).semBench = some b) :
    usesUnit s (s.ctx c) (.bench b) = true ∧ benchEmpty s b = false := by
  have uses : usesUnit s (s.ctx c) (.bench b) = true := by simp [usesUnit, h]
  refine ⟨uses, ?_⟩
  rw [benchEmpty, List.all_eq_false]
  exact ⟨c, List.mem_finRange c, by simp [uses]⟩

theorem exec_flr (fn : FnId) (s : State) : exec (.flr fn) s = .next (doFlr fn s) := rfl

/-- Settles O40: each request is its function's operation, an assignment passes its checks in order, and the bench of the semaphores
is the one that `semPlace` picks. -/
theorem functions : Obligations.Functions := by
  unfold Obligations.Functions
  refine ⟨fun s hu => ⟨fun fn h0 hf => (exec_flr fn s).trans (congrArg _ (doFlr_vf hu h0 hf)),
      (exec_flr 0 s).trans (congrArg _ (doFlr_pf hu)),
      fun fn hf => (exec_flr fn s).trans (congrArg _ (if_pos ?_)),
      fun enable n => congrArg _ (if_pos hu), ⟨doFundamentalReset s, rfl, doFundamentalReset_leaves hu⟩, dropVfs_func s⟩,
    fun s fn c valid func q h => ⟨fun vacant fits => next_glbPort h ((writeAssign_fits vacant fits).trans (assignCtx_eq ..)),
      fun occupied => next_glbPort h (writeAssign_occupied occupied),
      fun vacant misfit => next_glbPort h (writeAssign_misfit vacant misfit)⟩,
    fun s c => ?_⟩
  · rw [hf, Bool.not_false, Bool.or_true]
  · intro x t usable
    have own : t.ctx c = { x with semBench := semPlace s c } := placeSems_ctx c s
    have bench : (t.ctx c).semBench = semPlace s c := by rw [own]
    obtain ⟨rest, others⟩ := placeSems_frame c s
    rw [bench]
    exact ⟨fun b hb hu => semPlace_keeps hb hu, fun b hb => ⟨semPlace_stores hb, placeSems_wakes hb⟩, semPlace_none_iff, rest,
      by rw [own], others, fun b hb => usesUnit_semBench hb⟩

end Sys2Proof.Machine
end

section
/-! PROOFS. The numbers of a source's writes and signals (R348, R349; log entry 69). -/

namespace Sys2Proof.Machine

open Sys2Proof

/-- Numbers counted from one base compare as the counts do. -/
theorem seqBefore_add (b : U32) {i j : Nat} (hi : i < 2 ^ 31) (hj : j < 2 ^ 31) :
    seqBefore (b + BitVec.ofNat 32 i) (b + BitVec.ofNat 32 j) = decide (i < j) := by
  rw [Bool.eq_iff_iff, seqBefore, Bool.and_eq_true, bne_iff_ne, decide_eq_true_eq, decide_eq_true_eq]
  bv_omega

theorem seq_inj {b : U32} {i j : Nat} (hi : i < 2 ^ 31) (hj : j < 2 ^ 31) (h : b + BitVec.ofNat 32 i = b + BitVec.ofNat 32 j) : i = j := by
  bv_omega

theorem seq_succ (b : U32) (i : Nat) : b + BitVec.ofNat 32 i + 1 = b + BitVec.ofNat 32 (i + 1) := by
  bv_omega

/-- `p` records that the numbers `b + k` with `k` in `dealt` are dealt with: the lowest that is not, and the higher ones that are. -/
def Records (b : U32) (dealt : List Nat) (p : U32 × List U32) : Prop :=
  ∃ m, p.1 = b + BitVec.ofNat 32 m ∧ m ∉ dealt ∧ (∀ k < m, k ∈ dealt) ∧
    ∀ w, w ∈ p.2 ↔ ∃ k ∈ dealt, m < k ∧ w = b + BitVec.ofNat 32 k

/-- Passing the numbers that are dealt with ends at the lowest that is not. -/
theorem advanceSeq_records {b : U32} {dealt : List Nat} (hd : ∀ k ∈ dealt, k < 2 ^ 31) :
    ∀ (fuel m : Nat) (l : List U32), l.length ≤ fuel →
    (∀ k < m, k ∈ dealt) → (∀ w, w ∈ l ↔ ∃ k ∈ dealt, m ≤ k ∧ w = b + BitVec.ofNat 32 k) →
    Records b dealt (advanceSeq fuel (b + BitVec.ofNat 32 m) l) := by
  intro fuel
  induction fuel with
  | zero =>
    intro m l hlen below above
    have empty : l = [] := List.length_eq_zero_iff.mp (Nat.le_zero.mp hlen)
    have none_above : ∀ k ∈ dealt, ¬ m ≤ k := fun k hk hm => by simpa [empty] using (above _).mpr ⟨k, hk, hm, rfl⟩
    refine ⟨m, rfl, fun hm => none_above m hm (Nat.le_refl m), below, fun w => ?_⟩
    show w ∈ l ↔ _
    rw [empty]
    exact ⟨fun h => (List.not_mem_nil h).elim, fun ⟨k, hk, hm, _⟩ => (none_above k hk (Nat.le_of_lt hm)).elim⟩
  | succ fuel ih =>
    intro m l hlen below above
    unfold advanceSeq
    by_cases passed : b + BitVec.ofNat 32 m ∈ l
    · rw [if_pos (List.contains_iff_mem.mpr passed), seq_succ]
      obtain ⟨k, hk, hmk, same⟩ := (above _).mp passed
      have hm : m ∈ dealt := by rwa [seq_inj (Nat.lt_of_le_of_lt hmk (hd k hk)) (hd k hk) same]
      refine ih (m + 1) _ ?_ (fun k hk => ?_) fun w => ?_
      · have shorter : (l.filter (· != b + BitVec.ofNat 32 m)).length < l.length :=
          List.length_filter_lt_length_iff_exists.mpr ⟨_, passed, by simp⟩
        omega
      · rcases Nat.lt_succ_iff_lt_or_eq.mp hk with lower | rfl
        · exact below k lower
        · exact hm
      · rw [List.mem_filter, above, bne_iff_ne]
        constructor
        · rintro ⟨⟨k, hk, hmk, rfl⟩, other⟩
          exact ⟨k, hk, Nat.lt_of_le_of_ne hmk (fun e => other (by rw [e])), rfl⟩
        · rintro ⟨k, hk, hmk, rfl⟩
          exact ⟨⟨k, hk, Nat.le_of_lt hmk, rfl⟩, fun e => Nat.ne_of_gt hmk (seq_inj (hd k hk) (hd m hm) e)⟩
    · rw [if_neg (mt List.contains_iff_mem.mp passed)]
      have hm : m ∉ dealt := fun hm => passed ((above _).mpr ⟨m, hm, Nat.le_refl m, rfl⟩)
      refine ⟨m, rfl, hm, below, fun w => (above w).trans ?_⟩
      constructor
      · rintro ⟨k, hk, hmk, rfl⟩
        exact ⟨k, hk, Nat.lt_of_le_of_ne hmk (fun e => hm (e ▸ hk)), rfl⟩
      · rintro ⟨k, hk, hmk, rfl⟩
        exact ⟨k, hk, Nat.le_of_lt hmk, rfl⟩

theorem assocGet_assocPut {α β : Type} [DecidableEq α] (k : α) (v : β) (l : List (α × β)) : assocGet k (assocPut k v l) = some v := by
  simp [assocGet, assocPut]

theorem seqInOf_settleSeq_before {uid : U64} {w : U32} {s : State} (h : seqBefore w (seqInOf s uid).1 = true) :
    seqInOf (settleSeq uid w s) uid = seqInOf s uid := by
  rw [settleSeq]
  exact congrArg (seqInOf · uid) (if_pos h)

/-- The numbers of a source once `w` is dealt with too. -/
def dealWith (w : U32) (p : U32 × List U32) : U32 × List U32 := advanceSeq (p.2.length + 1) p.1 (w :: p.2.filter (· != w))

theorem seqInOf_settleSeq_after {uid : U64} {w : U32} {s : State} (h : seqBefore w (seqInOf s uid).1 = false) :
    seqInOf (settleSeq uid w s) uid = dealWith w (seqInOf s uid) := by
  have settled : settleSeq uid w s = s.modGlb (fun g => { g with wseqIn := assocPut uid (dealWith w (seqInOf s uid)) g.wseqIn }) :=
    if_neg (Bool.eq_false_iff.mp h)
  rw [settled, seqInOf, modGlb_glb, assocGet_assocPut, Option.getD_some]

/-- Dealing with one more number is recorded. -/
theorem settleSeq_records {b : U32} {uid : U64} {u : State} {dealt : List Nat} {k n : Nat} (hn : n < 2 ^ 31)
    (hd : ∀ j ∈ dealt ++ [k], j < n) (h : Records b dealt (seqInOf u uid)) :
    Records b (dealt ++ [k]) (seqInOf (settleSeq uid (b + BitVec.ofNat 32 k) u) uid) := by
  obtain ⟨m, low, hm, below, above⟩ := h
  have hk : k < n := hd k (by simp)
  have hmn : m ≤ n := Nat.not_lt.mp fun h => Nat.lt_irrefl n (hd n (List.mem_append_left _ (below n h)))
  have order : seqBefore (b + BitVec.ofNat 32 k) (seqInOf u uid).1 = decide (k < m) := by
    rw [low]
    exact seqBefore_add b (Nat.lt_trans hk hn) (Nat.lt_of_le_of_lt hmn hn)
  by_cases hkm : k < m
  · rw [seqInOf_settleSeq_before (by rw [order, decide_eq_true hkm])]
    refine ⟨m, low, fun h => ?_, fun j hj => List.mem_append_left _ (below j hj), fun w => (above w).trans ?_⟩
    · simp only [List.mem_append, List.mem_singleton, hm, false_or] at h
      omega
    · constructor
      · rintro ⟨j, hj, hmj, rfl⟩
        exact ⟨j, List.mem_append_left _ hj, hmj, rfl⟩
      · rintro ⟨j, hj, hmj, rfl⟩
        rcases List.mem_append.mp hj with hj | hj
        · exact ⟨j, hj, hmj, rfl⟩
        · rw [List.mem_singleton] at hj
          omega
  · rw [seqInOf_settleSeq_after (by rw [order, decide_eq_false hkm]), dealWith, low]
    refine advanceSeq_records (fun j hj => Nat.lt_trans (hd j hj) hn) _ m _ ?_ (fun j hj => List.mem_append_left _ (below j hj)) fun w => ?_
    · exact Nat.succ_le_succ (List.length_filter_le _ _)
    · rw [List.mem_cons, List.mem_filter, above, bne_iff_ne]
      constructor
      · rintro (rfl | ⟨⟨j, hj, hmj, rfl⟩, -⟩)
        · exact ⟨k, by simp, Nat.not_lt.mp hkm, rfl⟩
        · exact ⟨j, List.mem_append_left _ hj, Nat.le_of_lt hmj, rfl⟩
      · rintro ⟨j, hj, hmj, rfl⟩
        by_cases same : b + BitVec.ofNat 32 j = b + BitVec.ofNat 32 k
        · exact .inl same
        · rcases List.mem_append.mp hj with hj | hj
          · exact .inr ⟨⟨j, hj, Nat.lt_of_le_of_ne hmj (fun e => hm (e ▸ hj)), rfl⟩, same⟩
          · exact absurd (by rw [List.mem_singleton.mp hj]) same

/-- Dealing with a list of numbers is recorded. -/
theorem settleSeqs_records {b : U32} {uid : U64} {n : Nat} (hn : n < 2 ^ 31) (todo : List Nat) :
    ∀ (dealt : List Nat) (u : State), (∀ j ∈ dealt ++ todo, j < n) → Records b dealt (seqInOf u uid) →
    Records b (dealt ++ todo) (seqInOf (todo.foldl (fun u k => settleSeq uid (b + BitVec.ofNat 32 k) u) u) uid) := by
  induction todo with
  | nil =>
    intro dealt u _ h
    rwa [List.append_nil]
  | cons k todo ih =>
    intro dealt u hd h
    rw [List.append_cons] at hd ⊢
    exact ih _ _ hd (settleSeq_records hn (fun j hj => hd j (List.mem_append_left _ hj)) h)

/-- A number of a source is held back exactly while a lower one is not dealt with. -/
theorem lowerOpen_iff {s : State} {uid : U64} {b : U32} {n : Nat} {dealt : List Nat} (h0 : seqInOf s uid = (b, [])) (hn : n < 2 ^ 31)
    (hd : ∀ k ∈ dealt, k < n) :
    lowerOpen (dealt.foldl (fun u k => settleSeq uid (b + BitVec.ofNat 32 k) u) s) uid (b + BitVec.ofNat 32 n) = true ↔
      ∃ k, k < n ∧ k ∉ dealt := by
  have fresh : Records b [] (seqInOf s uid) :=
    ⟨0, by rw [h0, BitVec.add_zero], List.not_mem_nil, fun k hk => (Nat.not_lt_zero k hk).elim, fun w => by simp [h0]⟩
  have records : Records b dealt (seqInOf (dealt.foldl (fun u k => settleSeq uid (b + BitVec.ofNat 32 k) u) s) uid) :=
    settleSeqs_records hn dealt [] s hd fresh
  obtain ⟨m, low, hm, below, -⟩ := records
  have hmn : m ≤ n := Nat.not_lt.mp fun h => Nat.lt_irrefl n (hd n (below n h))
  rw [lowerOpen, low, seqBefore_add b (Nat.lt_of_le_of_lt hmn hn) hn, decide_eq_true_eq]
  exact ⟨fun h => ⟨m, h, hm⟩, fun ⟨k, hk, hkd⟩ => Nat.lt_of_le_of_lt (Nat.not_lt.mp (mt (below k) hkd)) hk⟩

end Sys2Proof.Machine
end

section
/-! PROOFS. Received signals and arrivals (O32). -/

namespace Sys2Proof.Machine

open Sys2Proof

/-! ## What a semaphore operation leaves -/

/-- `t` differs from `s` by what signals to context `c` change: its semaphores with their waiters, its counts and its waiting
descriptors, and events. -/
structure ServesOnly (c : CtxId) (s t : State) : Prop where
  own : { t.ctx c with sems := (s.ctx c).sems, hostWaits := (s.ctx c).hostWaits, cnt := (s.ctx c).cnt, dma := (s.ctx c).dma } = s.ctx c
  others : ∀ d, d ≠ c → t.ctx d = s.ctx d
  mem : t.mem = s.mem
  barriers : t.barriers = s.barriers
  heldBuddy : t.heldBuddy = s.heldBuddy

section
variable {c : CtxId} {q : SemId} {s t u : State}

theorem ServesOnly.refl (c : CtxId) (s : State) : ServesOnly c s s := ⟨rfl, fun _ _ => rfl, rfl, rfl, rfl⟩

theorem ServesOnly.trans (h : ServesOnly c s t) (k : ServesOnly c t u) : ServesOnly c s u where
  own := (congrArg (fun x : Ctx => { x with
    sems := (s.ctx c).sems, hostWaits := (s.ctx c).hostWaits, cnt := (s.ctx c).cnt, dma := (s.ctx c).dma }) k.own).trans h.own
  others d hd := (k.others d hd).trans (h.others d hd)
  mem := k.mem.trans h.mem
  barriers := k.barriers.trans h.barriers
  heldBuddy := k.heldBuddy.trans h.heldBuddy

theorem ServesOnly.signals (h : ServesOnly c s t) : (t.ctx c).signals = (s.ctx c).signals := by rw [← h.own]

theorem ServesOnly.heldRemote (h : ServesOnly c s t) (d : CtxId) : (t.ctx d).heldRemote = (s.ctx d).heldRemote := by
  by_cases e : d = c
  · rw [e, ← h.own]
  · rw [h.others d e]

theorem ServesOnly.noneHeld (h : ServesOnly c s t) (hn : NoneHeld s) : NoneHeld t :=
  ⟨h.heldBuddy.trans hn.1, fun d => (h.heldRemote d).trans (hn.2 d)⟩

theorem modCtx_servesOnly (c : CtxId) (s : State) {f : Ctx → Ctx}
    (h : ∀ x, { f x with sems := x.sems, hostWaits := x.hostWaits, cnt := x.cnt, dma := x.dma } = x) : ServesOnly c s (s.modCtx c f) where
  own := by rw [modCtx_ctx, h]
  others d hd := modCtx_ctx_ne s f hd
  mem := rfl
  barriers := rfl
  heldBuddy := rfl

theorem ctxEvent_servesOnly (c : CtxId) (code : U16) (fault : Bool) (pl : List Byte) (s : State) :
    ServesOnly c s (ctxEvent c code fault pl s) := ⟨by simp, by simp, by simp, by simp, by simp⟩

theorem releaseWaiter_servesOnly (c : CtxId) (q : SemId) (w : Waiter) (s : State) : ServesOnly c s (releaseWaiter c q w s) := by
  cases w with
  | host tag =>
    refine .trans ?_ (ctxEvent_servesOnly ..)
    exact modCtx_servesOnly c s fun _ => rfl
  | desc i =>
    unfold releaseWaiter
    exact modCtx_servesOnly c s fun _ => rfl

theorem serveQueue_servesOnly (c : CtxId) (q : SemId) (l : List (U16 × Waiter)) (s : State) : ServesOnly c s (serveQueue c q l s) := by
  induction l generalizing s with
  | nil => exact .refl c s
  | cons a l ih =>
    unfold serveQueue
    split
    · refine .trans (.trans ?_ (releaseWaiter_servesOnly ..)) (ih _)
      exact modCtx_servesOnly c s fun _ => rfl
    · exact .refl c s

theorem signalSem_servesOnly (c : CtxId) (q : SemId) (v : U16) (s : State) : ServesOnly c s (signalSem c q v s) := by
  have counted : ServesOnly c s (signalled s c q v) := by
    unfold signalled
    split
    · refine .trans (t := violate c 0x1003 s) ?_ ?_
      · exact modCtx_servesOnly c s fun _ => rfl
      · exact modCtx_servesOnly c _ fun _ => rfl
    · exact modCtx_servesOnly c s fun _ => rfl
  rw [signalSem_eq]
  refine counted.trans ?_
  unfold serveSem
  split
  · exact .refl c _
  · exact serveQueue_servesOnly ..

theorem signals_servesOnly (c : CtxId) (v : U16) (l : List SemId) (s : State) :
    ServesOnly c s (s.each l (fun q t => signalSem c q v t)) := by
  induction l generalizing s with
  | nil => exact .refl c s
  | cons q l ih => exact (signalSem_servesOnly c q v s).trans (ih _)

end

/-! ## A number that is noted -/

/-- Noting a number touches the numbers of the sources alone. -/
theorem noteSeq_numbers (gid : U32) (rank : U16) (w : U32) (s : State) :
    ∃ l, noteSeq gid rank w s = { s with glb := { s.glb with wseqIn := l } } := by
  unfold noteSeq
  split
  · split
    · unfold settleSeq
      dsimp only
      split
      · exact ⟨_, rfl⟩
      · exact ⟨_, rfl⟩
    · exact ⟨_, rfl⟩
  · exact ⟨_, rfl⟩

/-! ## SIGNAL (R347 to R349) -/

theorem exec_syncSignal (l : LinkId) (p : SyncPkt) (s : State) :
    exec (.syncSignal l p) s = .next (thenHeld (doSyncSignal p (noteSeq p.groupId p.srcRank p.wseq s))) := rfl

theorem exec_arrive (l : LinkId) (p : SyncPkt) (s : State) :
    exec (.arrive l p) s = .next (thenHeld (doArrive p (noteSeq p.groupId p.srcRank p.wseq s))) := rfl

/-- What a signal for semaphore `q` of context `c` does: it is held where it is release-ordered, else applied (R349). -/
def takeSignal (c : CtxId) (q : SemId) (p : SyncPkt) (s : State) : State :=
  if p.rel = true then s.modCtx c (fun x => { x with signals := x.signals ++ [⟨p.srcRank, p.groupId, p.wseq, q, p.value⟩] })
  else signalSem c q p.value s

theorem exec_heldSignalApply (c : CtxId) (i : Nat) (s : State) :
    exec (.heldSignalApply c i) s = .next (doHeldSignalApply c i s) := rfl

theorem doHeldSignalApply_waits {s : State} {c : CtxId} {i : Nat} {h : HeldSignal} (hi : (s.ctx c).signals[i]? = some h)
    (ho : signalWaits s h = true) : doHeldSignalApply c i s = s := by
  simp [doHeldSignalApply, hi, ho]

section
variable {s : State} {p : SyncPkt} (hw : mayWork s = true)
include hw

theorem doSyncSignal_member {q : SemId} {c : CtxId} (hq : p.sem.toNat = q.val) (hg : groupCtx s p.groupId p.dstRank.toNat = some c) :
    doSyncSignal p s = takeSignal c q p s := by
  have hlt : p.sem.toNat < 1024 := by rw [hq]; exact q.isLt
  obtain rfl : q = ⟨p.sem.toNat, hlt⟩ := Fin.ext hq.symm
  exact (dif_pos hlt).trans (withRank_member hw hg _)

theorem doSyncSignal_stray (h : 1024 ≤ p.sem.toNat ∨ groupCtx s p.groupId p.dstRank.toNat = none) : doSyncSignal p s = countStray s := by
  unfold doSyncSignal
  split
  next hlt => exact withRank_stray hw (h.resolve_left (Nat.not_le.mpr hlt)) _
  next => rfl

theorem doHeldSignalApply_applies {c : CtxId} {i : Nat} {h : HeldSignal} (hi : (s.ctx c).signals[i]? = some h)
    (ho : signalWaits s h = false) :
    doHeldSignalApply c i s = signalSem c h.sem h.value (s.modCtx c (fun x => { x with signals := x.signals.eraseIdx i })) := by
  simp [doHeldSignalApply, hi, ho, hw]

/-! ## ARRIVE (R353) -/

theorem doArrive_stray (h : 1024 ≤ p.sem.toNat ∨ arriveAt s p = []) : doArrive p s = countStray s := by
  unfold doArrive
  rw [if_neg (by simp [hw])]
  split
  · rfl
  next hlt => rw [h.resolve_left hlt]

variable {k : BarId} (hs : p.sem.toNat < 1024) (hk : arriveAt s p = [k])
include hs hk

/-- A packet for one barrier is an arrival there, or a stray. -/
theorem doArrive_one : doArrive p s =
    if (s.barrier k).takes p.srcRank.toNat then
      match (s.barrier k).arrive p.srcRank.toNat p.epoch none with
      | some b => putArrival k b s
      | none => countStray s
    else countStray s := by
  unfold doArrive
  rw [if_neg (by simp [hw]), if_neg (Nat.not_le.mpr hs), hk]
  rfl

theorem doArrive_taken {b : Barrier} (ht : (s.barrier k).takes p.srcRank.toNat = true)
    (hb : (s.barrier k).arrive p.srcRank.toNat p.epoch none = some b) : doArrive p s = putArrival k b s := by
  rw [doArrive_one hw hs hk, if_pos ht, hb]

theorem doArrive_refused
    (h : (s.barrier k).takes p.srcRank.toNat = false ∨ (s.barrier k).arrive p.srcRank.toNat p.epoch none = none) :
    doArrive p s = countStray s := by
  rw [doArrive_one hw hs hk]
  split
  next ht => rw [h.resolve_left (Bool.not_eq_false _ ▸ ht)]
  next => rfl

end

/-! ## With nothing held -/

section
variable {s : State} {c : CtxId} {q : SemId}

theorem takeSignal_held {p : SyncPkt} (hr : p.rel = true) : takeSignal c q p s =
    s.modCtx c (fun x => { x with signals := x.signals ++ [⟨p.srcRank, p.groupId, p.wseq, q, p.value⟩] }) := if_pos hr

theorem takeSignal_applied {p : SyncPkt} (hr : p.rel = false) : takeSignal c q p s = signalSem c q p.value s :=
  if_neg (by rw [hr]; exact Bool.false_ne_true)

/-- A change of one context that leaves its held writes. -/
theorem noneHeld_modCtx (hn : NoneHeld s) {f : Ctx → Ctx} (hf : ∀ x, (f x).heldRemote = x.heldRemote) : NoneHeld (s.modCtx c f) := by
  refine ⟨hn.1, fun d => ?_⟩
  by_cases e : d = c
  · rw [e, modCtx_ctx, hf]
    exact hn.2 c
  · rw [modCtx_ctx_ne s f e]
    exact hn.2 d

theorem takeSignal_noneHeld (p : SyncPkt) (hn : NoneHeld s) : NoneHeld (takeSignal c q p s) := by
  unfold takeSignal
  split
  · exact noneHeld_modCtx hn fun _ => rfl
  · exact (signalSem_servesOnly ..).noneHeld hn

/-- What a signal leaves: the memory and the barriers; held, the semaphore too; applied, the signals held before. -/
theorem takeSignal_leaves (c : CtxId) (q : SemId) (p : SyncPkt) (s : State) :
    let t := takeSignal c q p s
    let k := semOf s c q
    t.mem = s.mem ∧ t.barriers = s.barriers ∧
      (p.rel = true → (t.ctx c).signals = (s.ctx c).signals ++ [⟨p.srcRank, p.groupId, p.wseq, q, p.value⟩] ∧ semOf t c q = k) ∧
      (p.rel = false → (t.ctx c).signals = (s.ctx c).signals) ∧
      (p.rel = false → (s.ctx c).parked = false → ServedInOrder t c q k.queue (min (k.count.toNat + p.value.toNat) 0xFFFF)) ∧
      (p.rel = false → (s.ctx c).parked = true → semOf t c q = { k with count := satAdd k.count p.value.toNat }) := by
  dsimp only
  cases hr : p.rel with
  | true =>
    rw [takeSignal_held hr]
    refine ⟨rfl, rfl, fun _ => ⟨by rw [modCtx_ctx], ?_⟩, nofun, nofun, nofun⟩
    rw [semOf, modCtx_ctx]
    rfl
  | false =>
    rw [takeSignal_applied hr]
    have frame := signalSem_servesOnly c q p.value s
    exact ⟨frame.mem, frame.barriers, nofun, fun _ => frame.signals, fun _ hp => signalSem_serves p.value hp,
      fun _ hp => signalSem_parked p.value hp⟩

end

/-- Completed epochs of a barrier leave the memory, the other barriers and the held writes. -/
theorem completeBarrier_leaves (k : BarId) (n : Nat) (s : State) : (completeBarrier k n s).mem = s.mem ∧
    (∀ j, j ≠ k → (completeBarrier k n s).barrier j = s.barrier j) ∧ (NoneHeld s → NoneHeld (completeBarrier k n s)) := by
  induction n generalizing s with
  | zero => exact ⟨rfl, fun _ _ => rfl, id⟩
  | succ n ih =>
    unfold completeBarrier
    dsimp only
    split
    · have told := signals_servesOnly (s.barrier k).owner 1 ((s.barrier k).arrived.filterMap (·.2)) s
      generalize State.each s _ _ = u at told ⊢
      obtain ⟨mem, others, none⟩ := ih (u.modBarrier k (fun b => { b with epoch := b.epoch + 1, arrived := b.heldNext, heldNext := [] }))
      refine ⟨mem.trans told.mem, fun j hj => (others j hj).trans ?_, fun hn => none (told.noneHeld hn)⟩
      rw [modBarrier_barrier_ne _ _ hj, barrier_eq told.barriers]
    · exact ⟨rfl, fun _ _ => rfl, id⟩

/-- An arrival leaves the barrier with it, or, as the last one with none held, in its next epoch. -/
theorem putArrival_leaves {b : Barrier} {slot : Nat} (ht : b.takes slot = true) (k : BarId) (s : State) :
    (putArrival k b s).mem = s.mem ∧ (∀ j, j ≠ k → (putArrival k b s).barrier j = s.barrier j) ∧
      (b.full = false → (putArrival k b s).barrier k = b ∧ (putArrival k b s).ctxs = s.ctxs) ∧
      (b.full = true → b.heldNext = [] →
        (putArrival k b s).barrier k = { b with epoch := b.epoch + 1, arrived := [], heldNext := [] }) := by
  obtain ⟨mem, others, -⟩ := completeBarrier_leaves k 2 (s.setBarrier k b)
  refine ⟨mem, fun j hj => (others j hj).trans (setBarrier_barrier_ne s b hj), fun part => ?_, fun full empty => ?_⟩
  · rw [putArrival_open part]
    exact ⟨setBarrier_barrier .., rfl⟩
  · rw [putArrival_last full empty ht, nextEpoch_barrier, empty]

theorem putArrival_noneHeld {s : State} (hn : NoneHeld s) (k : BarId) (b : Barrier) : NoneHeld (putArrival k b s) := by
  obtain ⟨-, -, none⟩ := completeBarrier_leaves k 2 (s.setBarrier k b)
  exact none hn

/-- What applying held signal `i` of a context leaves. -/
theorem applyHeld_leaves (c : CtxId) (i : Nat) (h : HeldSignal) (s : State) :
    let t := signalSem c h.sem h.value (s.modCtx c (fun x => { x with signals := x.signals.eraseIdx i }))
    let k := semOf s c h.sem
    t.mem = s.mem ∧ t.barriers = s.barriers ∧ (t.ctx c).signals = (s.ctx c).signals.eraseIdx i ∧
      ((s.ctx c).parked = false → ServedInOrder t c h.sem k.queue (min (k.count.toNat + h.value.toNat) 0xFFFF)) ∧
      ((s.ctx c).parked = true → semOf t c h.sem = { k with count := satAdd k.count h.value.toNat }) := by
  intro t k
  obtain ⟨u, hu⟩ : ∃ u, u = s.modCtx c (fun x => { x with signals := x.signals.eraseIdx i }) := ⟨_, rfl⟩
  have own : u.ctx c = { s.ctx c with signals := (s.ctx c).signals.eraseIdx i } := by rw [hu, modCtx_ctx]
  have sem : semOf u c h.sem = k := by rw [semOf, own]; rfl
  have parked : (u.ctx c).parked = (s.ctx c).parked := by rw [own]; rfl
  have frame := signalSem_servesOnly c h.sem h.value u
  have served := signalSem_serves (s := u) (c := c) (q := h.sem) h.value
  have kept := signalSem_parked (s := u) (c := c) (q := h.sem) h.value
  rw [parked, sem] at served kept
  rw [hu] at frame served kept
  exact ⟨frame.mem, frame.barriers, frame.signals.trans (by rw [modCtx_ctx]), served, kept⟩

/-- Settles O32: a packet is what its signal or arrival does after its number is noted, and held numbers are what `Records` says. -/
theorem syncPackets : Obligations.SyncPackets := by
  unfold Obligations.SyncPackets
  refine ⟨fun s l p hw => ?_, fun s l hw hn => ?_, fun s uid b n dealt h0 hn hd => lowerOpen_iff h0 hn hd⟩
  · obtain ⟨ns, noted⟩ := noteSeq_numbers p.groupId p.srcRank p.wseq s
    rw [exec_syncSignal, exec_arrive, noted]
    intro t stray
    have stays {u v : State} (e : u = v) : (.next (thenHeld u) : Host.Outcome State Fault Refusal) = .next (thenHeld v) := by rw [e]
    refine ⟨fun q c hq hg => stays (doSyncSignal_member (s := t) hw hq hg), fun h => stays (doSyncSignal_stray (s := t) hw h),
      fun h => stays (doArrive_stray (s := t) hw h), fun k hs hk => ?_, fun c i h hi =>
        ⟨fun ho => (exec_heldSignalApply c i s).trans (congrArg _ (doHeldSignalApply_waits hi ho)),
          fun ho => (exec_heldSignalApply c i s).trans (congrArg _ (doHeldSignalApply_applies hw hi ho))⟩⟩
    intro b here
    refine ⟨fun ht he ha => stays (doArrive_taken (s := t) hw hs hk ht (arrive_now he ha)),
      fun ht he hne ha => stays (doArrive_taken (s := t) hw hs hk ht (arrive_next he hne ha)),
      fun h => stays (doArrive_refused (s := t) hw hs hk ?_)⟩
    rcases h with ht | ⟨he, hne⟩ | ⟨he, ha⟩
    · exact .inl ht
    · exact .inr (arrive_other he hne)
    · exact .inr (arrive_again he ha)
  · refine ⟨thenHeld_none hn, fun p q c hq hg => ?_, fun c i h hi ho =>
      ⟨_, (exec_heldSignalApply c i s).trans (congrArg _ (doHeldSignalApply_applies hw hi ho)), applyHeld_leaves c i h s⟩,
      fun p k hs hk ht he ha => ?_⟩
    all_goals
      obtain ⟨ns, noted⟩ := noteSeq_numbers p.groupId p.srcRank p.wseq s
      let u : State := { s with glb := { s.glb with wseqIn := ns } }
      have hw' : mayWork u = true := hw
      have hn' : NoneHeld u := hn
    · refine ⟨takeSignal c q p u, ?_, takeSignal_leaves c q p u⟩
      rw [exec_syncSignal, noted, doSyncSignal_member hw' hq hg,
        thenHeld_none (takeSignal_noneHeld p hn')]
    · intro b here
      refine ⟨putArrival k here u, ?_, putArrival_leaves (b := here) ht k u⟩
      rw [exec_arrive, noted, doArrive_taken (b := here) hw' hs hk ht (arrive_now he ha), thenHeld_none (putArrival_noneHeld hn' k here)]

end Sys2Proof.Machine
end

section
/-! PROOFS. Received remote writes, buddy writes and acknowledgements (O36). -/

namespace Sys2Proof.Machine

open Sys2Proof

/-! ## Remote writes (R366, R376, R391) -/

theorem exec_remoteWrite (l : LinkId) (h : RemoteHdr) (bs : List Byte) (s : State) :
    exec (.remoteWrite l h bs) s = .next (doRemoteWrite l h bs s) := rfl

theorem exec_buddyWrite (l : LinkId) (h : RemoteHdr) (bs : List Byte) (s : State) :
    exec (.buddyWrite l h bs) s = .next (doBuddyWrite l h bs s) := rfl

theorem exec_remoteAck (l : LinkId) (uid : U64) (c : CtxId) (wseq : U32) (s : State) :
    exec (.remoteAck l uid c wseq) s = .next (doRemoteAck uid c wseq s) := rfl

section
variable {s : State} {l : LinkId} {h : RemoteHdr} {bs : List Byte} (hw : mayWork s = true)
include hw

theorem doRemoteWrite_stray (hg : groupCtx s h.groupId h.dstRank.toNat = none) : doRemoteWrite l h bs s = countDmaStray s := by
  simp [doRemoteWrite, hw, hg]

variable {c : CtxId} (hg : groupCtx s h.groupId h.dstRank.toNat = some c)
include hg

theorem doRemoteWrite_reset (hb : (s.ctx c).busy = true) : doRemoteWrite l h bs s = holdRemote c (.remoteWrite l h bs) s := by
  simp [doRemoteWrite, hw, hg, hb]

theorem doRemoteWrite_member (hb : (s.ctx c).busy = false) : doRemoteWrite l h bs s = thenHeld (commitRemote c l h bs s) := by
  simp [doRemoteWrite, hw, hg, hb]

end

section
variable {s : State} {c : CtxId} {l : LinkId} {h : RemoteHdr} {bs : List Byte}

/-- A write waits for lower numbers, or behind one of its source that is held. -/
theorem waits_iff : (relWaits s (writerOf (s.ctx c) h) h || sourceHeld s (s.ctx c) h) = true ↔
    (h.relHdr = true ∧ lowerOpen s (writerOf (s.ctx c) h) h.wseq = true) ∨ sourceHeld s (s.ctx c) h = true := by
  rw [Bool.or_eq_true, relWaits, Bool.and_eq_true]

theorem commitRemote_waits (hl : (h.relHdr = true ∧ lowerOpen s (writerOf (s.ctx c) h) h.wseq = true) ∨ sourceHeld s (s.ctx c) h = true) :
    commitRemote c l h bs s = holdRemote c (.remoteWrite l h bs) s := if_pos (waits_iff.mpr hl)

variable (hl : ¬ ((h.relHdr = true ∧ lowerOpen s (writerOf (s.ctx c) h) h.wseq = true) ∨ sourceHeld s (s.ctx c) h = true)) {t : State}
include hl

theorem commitRemote_faults (hp : putVa c (reqRemote h.srcRank.toNat) false h.dstAddr.toNat bs s = (false, t)) :
    commitRemote c l h bs s = holdRemote c (.remoteWrite l h bs) t := by
  refine (if_neg (mt waits_iff.mp hl)).trans ?_
  rw [hp]

theorem commitRemote_stores {g : GroupSlot} {uid : U64} (hp : putVa c (reqRemote h.srcRank.toNat) false h.dstAddr.toNat bs s = (true, t))
    (hg : formedSlot (t.ctx c) h.groupId = some g) (hu : g.members[h.srcRank.toNat]? = some uid) :
    commitRemote c l h bs s = sendAck uid h (settleSeq uid h.wseq t) := by
  have writer : writerOf (t.ctx c) h = uid := by simp [writerOf, hg, hu]
  refine (if_neg (mt waits_iff.mp hl)).trans ?_
  rw [hp]
  simp only [hg, Option.isSome_some, writer, ↓reduceIte]

end

/-! ## Buddy writes (R385) -/

section
variable {s : State} {l : LinkId} {h : RemoteHdr} {bs : List Byte} (hw : mayWork s = true)
include hw

theorem doBuddyWrite_stray (ho : s.glb.buddyLinks.getLsbD l.val = false ∨ buddyTotal s < h.dstAddr.toNat + bs.length) :
    doBuddyWrite l h bs s = countDmaStray s := by
  refine (if_neg (by simp [hw])).trans (if_pos ?_)
  simpa using ho

theorem doBuddyWrite_inside (hl : s.glb.buddyLinks.getLsbD l.val = true) (hi : h.dstAddr.toNat + bs.length ≤ buddyTotal s) :
    doBuddyWrite l h bs s = thenHeld (commitBuddy l h bs s) := by
  refine (if_neg (by simp [hw])).trans (if_neg ?_)
  simp [hl, hi]

end

theorem commitBuddy_eq (l : LinkId) (h : RemoteHdr) (bs : List Byte) (s : State) : commitBuddy l h bs s =
    if h.relHdr = true ∧ lowerOpen s (s.link l).peerUid h.wseq = true then { s with heldBuddy := s.heldBuddy ++ [(l, h, bs)] }
    else sendAck (s.link l).peerUid h (settleSeq (s.link l).peerUid h.wseq (putBuddy 9 h.dstAddr.toNat bs s)) := by
  simp only [commitBuddy, relWaits, Bool.and_eq_true]

theorem commitBuddy_stores {s : State} {l : LinkId} {h : RemoteHdr} (hr : relWaits s (s.link l).peerUid h = false) (bs : List Byte) :
    commitBuddy l h bs s =
      sendAck (s.link l).peerUid h (settleSeq (s.link l).peerUid h.wseq (putBuddy 9 h.dstAddr.toNat bs s)) :=
  if_neg (by rw [hr]; exact Bool.false_ne_true)

/-- A run that ends within its stack is one write. -/
theorem putBuddy_within {s : State} {off : Nat} {bs : List Byte} (hb : bs ≠ []) (h : off % buddyBytes s + bs.length ≤ buddyBytes s)
    (n : Nat) : putBuddy (n + 2) off bs s = devWrite none (buddyAddr s off) bs s := by
  have all : bs.length ≤ buddyBytes s - off % buddyBytes s := by omega
  unfold putBuddy
  rw [if_neg (by simpa using hb)]
  dsimp only
  rw [List.take_of_length_le all, List.drop_of_length_le all]
  rfl

/-! ## Acknowledgements (R374) -/

/-- `s` with write `w` of descriptor `i` acknowledged. -/
def ackedDesc (c : CtxId) (i : Nat) (w : U64 × U32) (s : State) : State :=
  s.setCtx c ((s.ctx c).modDesc i (fun d => { d with unacked := dropOne w d.unacked }))

section
variable {s : State} {uid : U64} {c : CtxId} {wseq : U32} {d : DescState} (hw : mayWork s = true)
  (hd : (s.ctx c).dma.descs.find? (fun d => d.unacked.contains (uid, wseq)) = some d)

/-- Whether the copy engines serve a slot depends on no descriptor. -/
theorem ringRuns_ackedDesc (c : CtxId) (i : Nat) (w : U64 × U32) (s : State) : ringRuns (ackedDesc c i w s) c i = ringRuns s c i := by
  simp only [ringRuns, ackedDesc, ctxLive, setCtx_ctx]
  rfl

include hw hd

theorem doRemoteAck_eq : doRemoteAck uid c wseq s =
    if ringRuns (ackedDesc c d.index (uid, wseq) s) c d.index then goOn c d.index (ackedDesc c d.index (uid, wseq) s)
    else ackedDesc c d.index (uid, wseq) s := by
  simp only [doRemoteAck, hd, hw, Bool.not_true, Bool.false_eq_true, ↓reduceIte]
  rfl

end

/-- A REMOTE whose packets are all sent ends once every one is acknowledged. -/
theorem runRemote_sent {s : State} {c : CtxId} {i : Nat} {d : DescState} {g : GroupSlot} (hd : (s.ctx c).desc i = some d)
    (hg : formedSlot (s.ctx c) (descGroup d.bytes) = some g) (hn : ceilDiv (descLen d.bytes) packetData ≤ d.granule) :
    runRemote c i d s = if d.unacked = [] then endDesc c i 1 s else s := by
  simp only [runRemote, hg, Nat.sub_eq_zero_of_le hn, sendPackets, hd, hn, true_and, List.isEmpty_iff]

theorem goOn_ackedDesc {s : State} {c : CtxId} {i : Nat} {w : U64 × U32} {d : DescState} {g : GroupSlot} (hd : (s.ctx c).desc i = some d)
    (he : d.ended = false) (hw : d.waiting = false) (hr : d.result = 0) (hs : d.started = true) (ho : descOp d.bytes = 3)
    (hg : formedSlot (s.ctx c) (descGroup d.bytes) = some g) (hn : ceilDiv (descLen d.bytes) packetData ≤ d.granule) :
    goOn c i (ackedDesc c i w s) = if dropOne w d.unacked = [] then endDesc c i 1 (ackedDesc c i w s) else ackedDesc c i w s := by
  have acked : ((ackedDesc c i w s).ctx c).desc i = some { d with unacked := dropOne w d.unacked } := by
    rw [ackedDesc, setCtx_ctx]
    exact desc_modDesc _ i d (fun d => { d with unacked := dropOne w d.unacked }) hd fun _ => rfl
  have formed : formedSlot ((ackedDesc c i w s).ctx c) (descGroup d.bytes) = some g := by
    rw [ackedDesc, setCtx_ctx]
    exact hg
  rw [goOn_runs acked he hw hr hs, runDesc, acked]
  simp only [ho]
  exact runRemote_sent acked formed hn

/-! ## A write within one cached page (R361 to R363) -/

section
variable {s : State} {c : CtxId} {req : FaultReq} {va : Nat} {e : Tlb}

theorem spanPages_within {len : Nat} (hn : 0 < len) (h : va % 65536 + len ≤ 65536) : spanPages [⟨va, len⟩] = [va] := by
  have one : (va + len - 1) / 65536 + 1 - va / 65536 = 1 := by omega
  simp [spanPages, Nat.ne_of_gt hn, one]

theorem spanRuns_within (base : Nat) (host : Bool) {len : Nat} (hn : 0 < len) (h : va % 65536 + len ≤ 65536) :
    spanRuns [⟨va / 65536, base, host⟩] ⟨va, len⟩ = [(host, base + va % 65536, len)] := by
  have whole : min len (65536 - va % 65536) = len := by omega
  simp [spanRuns, runsOf, Nat.ne_of_gt hn, whole, resolve]

theorem writeVa_within (base : Nat) {bs : List Byte} (hb : bs ≠ []) (h : va % 65536 + bs.length ≤ 65536) :
    writeVa c [⟨va / 65536, base, false⟩] va bs s = devWrite (some c) (base + va % 65536) bs s := by
  simp [writeVa, spanRuns_within base false (List.length_pos_iff.mpr hb) h]

theorem lookupPage_cached (hv : va < 2 ^ 48)
    (he : ((s.ctx c).mmu.collPages ++ (s.ctx c).mmu.tlb).find? (fun e => e.page == va / 65536) = some e) :
    lookupPage c va s = (.ok e, s) := by
  simp only [lookupPage, Nat.not_le.mpr hv, he, ↓reduceIte]

variable (hv : va < 2 ^ 48) (he : ((s.ctx c).mmu.collPages ++ (s.ctx c).mmu.tlb).find? (fun e => e.page == va / 65536) = some e)
  (hh : e.host = false) (hw : e.writable = true)
include hv he hh hw

theorem getPage_cached : getPage c req false true va s = (some ⟨va / 65536, e.frame * 65536, false⟩, s) := by
  simp [getPage, lookupPage_cached hv he, hh, hw]

theorem putVa_cached (hs : stopped (s.ctx c) req = false) {bs : List Byte} (hb : bs ≠ []) (h : va % 65536 + bs.length ≤ 65536) :
    putVa c req false va bs s =
      (true, keepMark c req s (devWrite (some c) (e.frame * 65536 + va % 65536) bs s)) := by
  have pages : access c req false true [⟨va, bs.length⟩] s = (some [⟨va / 65536, e.frame * 65536, false⟩], s) := by
    simp [access, hs, spanPages_within (List.length_pos_iff.mpr hb) h, getPages, getPage_cached hv he hh hw, keepMark_self]
  simp only [putVa, pages, writeVa_within _ hb h]

end

/-- What a write through a page leaves beside its bytes. -/
theorem keepMark_leaves (c : CtxId) (req : FaultReq) (s t : State) : (keepMark c req s t).mem = t.mem ∧
    (keepMark c req s t).heldBuddy = t.heldBuddy ∧ (∀ d, d ≠ c → (keepMark c req s t).ctx d = t.ctx d) ∧
    (∀ d, ((keepMark c req s t).ctx d).groups = (t.ctx d).groups) ∧
    ∀ d, ((keepMark c req s t).ctx d).heldRemote = (t.ctx d).heldRemote := by
  unfold keepMark
  split
  · exact ⟨rfl, rfl, fun _ _ => rfl, fun _ => rfl, fun _ => rfl⟩
  · refine ⟨rfl, rfl, fun d hd => modCtx_ctx_ne t _ hd, fun d => ?_, fun d => ?_⟩
    all_goals
      by_cases hd : d = c
      · rw [hd, modCtx_ctx]
      · rw [modCtx_ctx_ne t _ hd]

/-- A remote write through a cached page leaves its bytes, and nothing held where nothing was. -/
theorem putVa_remote {s : State} {c : CtxId} {req : FaultReq} {va : Nat} {e : Tlb} {bs : List Byte} (hv : va < 2 ^ 48)
    (he : ((s.ctx c).mmu.collPages ++ (s.ctx c).mmu.tlb).find? (fun e => e.page == va / 65536) = some e)
    (hh : e.host = false) (hw : e.writable = true) (hs : stopped (s.ctx c) req = false) (hb : bs ≠ [])
    (h : va % 65536 + bs.length ≤ 65536) : ∃ u, putVa c req false va bs s = (true, u) ∧
      u.mem = memWrite s.mem (e.frame * 65536 + va % 65536) bs ∧ (∀ d, d ≠ c → u.ctx d = s.ctx d) ∧
      (u.ctx c).groups = (s.ctx c).groups ∧ (NoneHeld s → NoneHeld u) := by
  obtain ⟨mem, buddy, others, groups, remote⟩ :=
    keepMark_leaves c req s (devWrite (some c) (e.frame * 65536 + va % 65536) bs s)
  refine ⟨_, putVa_cached hv he hh hw hs hb h, mem.trans (devWrite_mem ..), fun d hd => (others d hd).trans (devWrite_others ?_ ..),
    (groups c).trans (devWrite_groups ..), fun hn => ⟨buddy.trans ((devWrite_heldBuddy ..).trans hn.1), fun d =>
      (remote d).trans ((devWrite_heldRemote ..).trans (hn.2 d))⟩⟩
  simpa using hd

theorem settled_noneHeld {s : State} (hn : NoneHeld s) (uid : U64) (h : RemoteHdr) : NoneHeld (sendAck uid h (settleSeq uid h.wseq s)) := by
  refine ⟨by simpa using hn.1, fun c => ?_⟩
  rw [State.ctx, sendAck_ctxs, settleSeq_ctxs]
  exact hn.2 c

/-- Settles O36: a received write waits, is refused or is stored as its commit says, and with nothing held nothing follows it. -/
theorem remoteWrites : Obligations.RemoteWrites := by
  unfold Obligations.RemoteWrites
  refine ⟨fun s l h bs hw => ?_, fun s l hw hn => ?_⟩
  · intro stray peer
    refine ⟨fun hg => (exec_remoteWrite l h bs s).trans (congrArg _ (doRemoteWrite_stray hw hg)), fun c hg => ?_,
      fun ho => (exec_buddyWrite l h bs s).trans (congrArg _ (doBuddyWrite_stray hw ho)), fun hl hi => ?_, fun uid c wseq d hd => ?_⟩
    · intro wait later
      have commits (hb : (s.ctx c).busy = false) {t : State} (e : commitRemote c l h bs s = t) :
          exec (.remoteWrite l h bs) s = .next (thenHeld t) :=
        (exec_remoteWrite l h bs s).trans (congrArg _ ((doRemoteWrite_member hw hg hb).trans (by rw [e])))
      exact ⟨fun hb => (exec_remoteWrite l h bs s).trans (congrArg _ (doRemoteWrite_reset hw hg hb)),
        fun hb hl => commits hb (commitRemote_waits hl), fun hb hl t => ⟨fun hp => commits hb (commitRemote_faults hl hp),
          fun g uid hp hf hu => commits hb (commitRemote_stores hl hp hf hu)⟩⟩
    · exact (exec_buddyWrite l h bs s).trans (congrArg _ ((doBuddyWrite_inside hw hl hi).trans (by rw [commitBuddy_eq])))
    · exact (exec_remoteAck l uid c wseq s).trans (congrArg _ (doRemoteAck_eq hw hd))
  · refine ⟨fun h bs c g uid e hg => ?_, fun h bs hl hi hr hb hin => ?_, fun uid c wseq d hd => ?_⟩
    · intro x va hb hf hu hr hs hbs hv hin he hh hwr
      obtain ⟨u, hp, mem, others, groups, none⟩ := putVa_remote hv he hh hwr hs hbs hin
      have writer : writerOf x h = uid := by simp [writerOf, hf, hu]
      have now : ¬ ((h.relHdr = true ∧ lowerOpen s (writerOf x h) h.wseq = true) ∨ sourceHeld s x h = true) := by
        rw [← waits_iff, writer, hr, sourceHeld, hn.2 c]
        exact Bool.false_ne_true
      have formed : formedSlot (u.ctx c) h.groupId = some g := by rw [formedSlot, groups]; exact hf
      refine ⟨u, (exec_remoteWrite l h bs s).trans (congrArg _ ?_), mem, others⟩
      rw [doRemoteWrite_member hw hg hb, commitRemote_stores now hp formed hu, thenHeld_none (settled_noneHeld (none hn) uid h)]
    · refine ⟨devWrite none (buddyAddr s h.dstAddr.toNat) bs s, (exec_buddyWrite l h bs s).trans (congrArg _ ?_), devWrite_mem ..,
        devWrite_none_ctxs ..⟩
      rw [doBuddyWrite_inside hw hl hi, commitBuddy_stores hr, putBuddy_within hb hin 7, thenHeld_none (settled_noneHeld ?_ _ h)]
      exact ⟨(devWrite_heldBuddy ..).trans hn.1, fun d => (devWrite_heldRemote ..).trans (hn.2 d)⟩
    · intro left t
      have acks := (exec_remoteAck l uid c wseq s).trans (congrArg _ (doRemoteAck_eq hw hd))
      rw [ringRuns_ackedDesc] at acks
      refine ⟨fun hr => by rw [acks, if_neg (Bool.eq_false_iff.mp hr)]; rfl, fun g hr hdi he hwt h0 hst ho hf hgr => ?_⟩
      rw [acks, if_pos hr, goOn_ackedDesc hdi he hwt h0 hst ho hf hgr]
      rfl

end Sys2Proof.Machine
end

section
/-! PROOFS. What every step keeps (O3, O5, O6), the idle step (O2), the state after reset (O9) and memory read after a write (O60). -/

namespace Sys2Proof.Machine

open Sys2Proof

/-! ## What every step keeps (R360, R434, R438) -/

theorem idle_pwr (s : State) : ∃ p, idle s = { s with pwr := p } := by
  unfold idle
  split <;> exact ⟨_, rfl⟩

/-- A step keeps the canonical form: an idle one touches no memory, and every command keeps it. -/
theorem step_keeps_wf {s t : State} (hs : step s = .next t) :
    (Memory.wf s.mem = true → Memory.wf t.mem = true) ∧ (Memory.wf s.hostMem = true → Memory.wf t.hostMem = true) := by
  unfold step at hs
  split at hs
  case h_1 =>
    obtain ⟨p, hp⟩ := idle_pwr s
    cases hs
    rw [hp]
    exact ⟨id, id⟩
  case h_2 c rest _ =>
    have kept := (exec_kept c { s with pending := rest }).kept t hs
    exact ⟨kept.mem, kept.hostMem⟩

/-- Settles O3: both memories are among the parts of the state that every command keeps. -/
theorem stepKeepsMemoryForm : Obligations.StepKeepsMemoryForm := fun _ _ hm hh hs =>
  ⟨(step_keeps_wf hs).1 hm, (step_keeps_wf hs).2 hh⟩

/-- Settles O5: what every command keeps says that the fused version is at least what it was. -/
theorem svnOnlyRises : Obligations.SvnOnlyRises := fun i s t h => ((exec_kept i s).kept t h).svn

/-- Settles O6: what every command keeps says that RMA without a scheduled change stays so. -/
theorem rmaIsFinal : Obligations.RmaIsFinal := fun i s t hd hn h => ((exec_kept i s).kept t h).rma ⟨hd, hn⟩

theorem step_empty {s : State} (h : s.pending = []) : step s = .next (idle s) := by
  simp only [step, h]

/-- Settles O2: an empty queue leaves the step to the clock of the always-on domain. -/
theorem idleStepCounts : Obligations.IdleStepCounts := fun _ hp => step_empty hp

/-- Settles O9: each value is a default of the state's fields; those of a vector hold at each place of it. -/
theorem resetState : Obligations.ResetState := by
  unfold Obligations.ResetState
  refine ⟨rfl, rfl, rfl, rfl, rfl, rfl, rfl, rfl, rfl, rfl, rfl, rfl, rfl, rfl,
    fun c => ?_, fun c q => ?_, fun l => ?_, fun k => ?_, fun fn => ?_⟩
  · have hc : State.reset.ctx c = {} := Vector.getElem_replicate ..
    rw [hc]
    exact ⟨rfl, rfl, rfl, rfl, rfl, rfl, rfl⟩
  · have hc : State.reset.ctx c = {} := Vector.getElem_replicate ..
    rw [hc]
    exact Vector.getElem_replicate ..
  · have hl : State.reset.link l = {} := Vector.getElem_replicate ..
    rw [hl]
    exact ⟨rfl, rfl⟩
  · have hk : State.reset.barrier k = {} := Vector.getElem_replicate ..
    rw [hk]
    exact ⟨rfl, rfl⟩
  · have hf : State.reset.func fn = {} := Vector.getElem_replicate ..
    rw [hf]
    exact ⟨rfl, rfl, rfl, rfl⟩

/-! ## Memory read after a write (R360, R361) -/

/-- The cells of a memory after a write: those outside the bytes written, and those of the bytes written. -/
theorem mem_memWrite {m : List Host.Cell} (h : Memory.wf m = true) (a : Nat) (bs : List Byte) (b : Nat) (v : Byte) :
    (b, v) ∈ memWrite m a bs ↔
      ((b, v) ∈ m ∧ (b < a ∨ a + bs.length ≤ b)) ∨ (a ≤ b ∧ bs[b - a]? = some v ∧ v ≠ memDefault) := by
  obtain ⟨_, hp⟩ := (Memory.wf_iff m).mp h
  rw [memWrite, List.mem_append, List.mem_append, take_mem a m _ hp, memCells_mem, drop_mem (a + bs.length) m _ hp]
  tauto

/-- A memory reads as another where both list the same cells for the address. -/
theorem memGet_congr {m m' : List Host.Cell} (h : Memory.wf m = true) (h' : Memory.wf m' = true) {b : Nat}
    (e : ∀ v, (b, v) ∈ m ↔ (b, v) ∈ m') : memGet m b = memGet m' b := by
  obtain ⟨_, hp⟩ := (Memory.wf_iff m).mp h
  obtain ⟨_, hp'⟩ := (Memory.wf_iff m').mp h'
  by_cases hm : ∃ v, (b, v) ∈ m
  · obtain ⟨v, hv⟩ := hm
    rw [memGet_mem m b v hp hv, memGet_mem m' b v hp' ((e v).mp hv)]
  · rw [memGet_absent m b (fun v hv => hm ⟨v, hv⟩), memGet_absent m' b (fun v hv => hm ⟨v, (e v).mpr hv⟩)]

theorem memGet_memWrite_inside {m : List Host.Cell} (h : Memory.wf m = true) (a : Nat) {bs : List Byte} {k : Nat} {v : Byte}
    (hk : bs[k]? = some v) : memGet (memWrite m a bs) (a + k) = v := by
  have hlen : k < bs.length := (List.getElem?_eq_some_iff.mp hk).1
  by_cases hv : v = memDefault
  · subst hv
    refine memGet_absent _ _ fun w hw => ?_
    rcases (mem_memWrite h a bs _ w).mp hw with ⟨_, hb⟩ | ⟨_, hb, hd⟩
    · omega
    · rw [Nat.add_sub_cancel_left, hk] at hb
      exact hd (Option.some.inj hb).symm
  · refine memGet_mem _ _ v ((Memory.wf_iff _).mp (memWrite_wf m a bs h)).2
      ((mem_memWrite h a bs _ v).mpr (.inr ⟨Nat.le_add_right a k, ?_, hv⟩))
    rw [Nat.add_sub_cancel_left, hk]

theorem memGet_memWrite_outside {m : List Host.Cell} (h : Memory.wf m = true) {a : Nat} {bs : List Byte} {b : Nat}
    (hb : b < a ∨ a + bs.length ≤ b) : memGet (memWrite m a bs) b = memGet m b := by
  refine memGet_congr (memWrite_wf m a bs h) h fun v => ?_
  rw [mem_memWrite h]
  constructor
  · rintro (⟨hv, _⟩ | ⟨ha, hv, _⟩)
    · exact hv
    · have := (List.getElem?_eq_some_iff.mp hv).1
      omega
  · exact fun hv => .inl ⟨hv, hb⟩

/-- Bytes taken from a list of rising cells are the single bytes. -/
theorem memTake_eq (n : Nat) : ∀ (m : List Host.Cell) (a : Nat), m.Pairwise (fun p q => p.1 < q.1) → (∀ p ∈ m, a ≤ p.1) →
    memTake n m a = (List.range n).map (fun k => memGet m (a + k)) := by
  induction n with
  | zero => intros; rfl
  | succ n ih =>
    intro m a hp ha
    have later (m' : List Host.Cell) (hp' : m'.Pairwise (fun p q => p.1 < q.1)) (ha' : ∀ p ∈ m', a + 1 ≤ p.1)
        (hg : ∀ k, memGet m' (a + 1 + k) = memGet m (a + 1 + k)) :
        memTake n m' (a + 1) = (List.range n).map (fun k => memGet m (a + (k + 1))) := by
      rw [ih m' (a + 1) hp' ha']
      exact List.map_congr_left fun k _ => by rw [hg, show a + 1 + k = a + (k + 1) by omega]
    rw [List.range_succ_eq_map, List.map_cons, List.map_map]
    cases m with
    | nil => exact congrArg₂ List.cons rfl (later [] hp (by simp) fun _ => rfl)
    | cons p m =>
      obtain ⟨b, v⟩ := p
      obtain ⟨hfirst, hrest⟩ := List.pairwise_cons.mp hp
      have hb : a ≤ b := ha (b, v) (List.mem_cons_self ..)
      rw [memTake]
      split
      case isTrue e =>
        subst e
        refine congrArg₂ List.cons (by simp [memGet]) (later m hrest (fun p hm => hfirst p hm) fun k => ?_)
        exact (memGet_cons_ne _ _ _ (by simp; omega)).symm
      case isFalse e =>
        have above : ∀ p ∈ (b, v) :: m, a + 1 ≤ p.1 := fun p hm => by
          rcases List.mem_cons.mp hm with rfl | hm
          · simp; omega
          · have := hfirst p hm; simp at this; omega
        refine congrArg₂ List.cons (Eq.symm (memGet_absent _ _ fun w hw => ?_)) (later _ hp above fun _ => rfl)
        have := above _ hw
        simp at this

theorem memGet_dropWhile {m : List Host.Cell} (h : Memory.wf m = true) {a b : Nat} (hb : a ≤ b) :
    memGet (m.dropWhile (fun p => decide (p.1 < a))) b = memGet m b := by
  obtain ⟨hz, hp⟩ := (Memory.wf_iff m).mp h
  have hd : Memory.wf (m.dropWhile (fun p => decide (p.1 < a))) = true :=
    (Memory.wf_iff _).mpr ⟨fun p q => hz p ((List.dropWhile_suffix _).subset q), hp.sublist (List.dropWhile_suffix _).sublist⟩
  refine memGet_congr hd h fun v => ?_
  rw [drop_mem a m _ hp]
  exact ⟨fun q => q.1, fun q => ⟨q, hb⟩⟩

theorem memRead_eq {m : List Host.Cell} (h : Memory.wf m = true) (a n : Nat) :
    memRead m a n = (List.range n).map (fun k => memGet m (a + k)) := by
  obtain ⟨_, hp⟩ := (Memory.wf_iff m).mp h
  rw [memRead, memTake_eq n _ a (hp.sublist (List.dropWhile_suffix _).sublist) (memDrop_addr a m hp)]
  exact List.map_congr_left fun k _ => memGet_dropWhile h (Nat.le_add_right a k)

/-- Settles O60: the cells of a written memory say what each byte reads as. -/
theorem memoryReadsBack : Obligations.MemoryReadsBack :=
  ⟨fun _ a _ h => ⟨fun _ _ hk => memGet_memWrite_inside h a hk, fun _ hb => memGet_memWrite_outside h hb⟩,
    fun _ a n h => memRead_eq h a n⟩

end Sys2Proof.Machine
end

section
/-! PROOFS. The end of page faults, MMU_INVAL (O33) and host pages (O34). -/

namespace Sys2Proof.Machine

open Sys2Proof

/-! ## FAULT_RETRY and FAULT_ABORT (R365, R366) -/

/-- Context `c` of `s` without the fault `id`. -/
def endedFault (s : State) (c : CtxId) (id : U16) : State :=
  s.setCtx c { s.ctx c with mmu := { (s.ctx c).mmu with faults := (s.ctx c).mmu.faults.filter (fun k => k.id != id) } }

section Faults

variable {s : State} {c : CtxId} {id : U16} {f : PageFault}

theorem faults_any_of_find (hf : (s.ctx c).mmu.faults.find? (fun k => k.id == id) = some f) :
    (s.ctx c).mmu.faults.any (fun k => k.id == id) = true :=
  List.any_eq_true.mpr ⟨f, List.mem_of_find?_eq_some hf, List.find?_some (p := fun k : PageFault => k.id == id) hf⟩

/-- With no access that waits for an identifier nothing takes the one that becomes free. -/
theorem takeWaiting_none {t : State} (h : (t.ctx c).mmu.waiting = []) (n : Nat) : takeWaiting c n t = t := by
  cases n with
  | zero => rfl
  | succ n => simp only [takeWaiting, h]

theorem endFault_retries (hf : (s.ctx c).mmu.faults.find? (fun k => k.id == id) = some f) (hw : (s.ctx c).mmu.waiting = []) :
    endFault c id true s = endedFault s c id := by
  simp only [endFault, hf, if_true]
  exact takeWaiting_none (by simpa using hw) _

theorem requestCtxReset_mmu (cause : Nat) (t : State) : ((requestCtxReset c cause t).ctx c).mmu = (t.ctx c).mmu := by
  rw [requestCtxReset, modCtx_ctx]
  split <;> rfl

theorem requestCtxReset_busy (cause : Nat) (t : State) : ((requestCtxReset c cause t).ctx c).busy = true := by
  rw [requestCtxReset, modCtx_ctx]
  split
  · assumption
  · rfl

theorem abortReqs_resets {rs : List FaultReq} (hex : ∃ r ∈ rs, r.kind ≠ 1) (hall : ∀ r ∈ rs, r.kind ≠ 1) (t : State) :
    abortReqs c rs t = requestCtxReset c 6 t := by
  have copies : rs.filter (fun r => r.kind == 1) = [] := List.filter_eq_nil_iff.mpr fun r hr => by simpa using hall r hr
  have others : rs.any (fun r => r.kind != 1) = true := by simpa using hex
  simp [abortReqs, copies, others, State.each]

theorem endFault_aborts (hf : (s.ctx c).mmu.faults.find? (fun k => k.id == id) = some f) (hw : (s.ctx c).mmu.waiting = [])
    (hex : ∃ r ∈ f.reqs, r.kind ≠ 1) (hall : ∀ r ∈ f.reqs, r.kind ≠ 1) :
    endFault c id false s = requestCtxReset c 6 (endedFault s c id) := by
  simp only [endFault, hf, Bool.false_eq_true, if_false, abortReqs_resets hex hall]
  exact takeWaiting_none (by simpa [requestCtxReset_mmu] using hw) _

theorem resumeStopped_busy {t : State} (h : (t.ctx c).busy = true) : resumeStopped c t = t := if_pos h

theorem faultResume_ends (ha : (s.ctx c).mmu.faults.any (fun k => k.id == id) = true)
    (hp : (s.ctx c).phase ≠ .preempted ∨ (s.ctx c).restoring = true) (retry : Bool) :
    faultResume c id retry s = resumeStopped c (endFault c id retry s) := by
  have live : ((s.ctx c).phase == .preempted && !(s.ctx c).restoring) = false := by
    rcases hp with hp | hp <;> simp [hp]
  simp [faultResume, ha, live]

theorem faultResume_keeps (ha : (s.ctx c).mmu.faults.any (fun k => k.id == id) = true) (hp : (s.ctx c).phase = .preempted)
    (hr : (s.ctx c).restoring = false) (retry : Bool) : faultResume c id retry s =
      s.setCtx c { s.ctx c with mmu := { (s.ctx c).mmu with kept := (s.ctx c).mmu.kept ++ [(id, retry)] } } := by
  simp [faultResume, ha, hp, hr]

theorem faultResume_unknown (h : ∀ f ∈ (s.ctx c).mmu.faults, f.id ≠ id) (retry : Bool) :
    faultResume c id retry s = violate c 0x1106 s := by
  have none : (s.ctx c).mmu.faults.any (fun k => k.id == id) = false := by simpa using h
  simp [faultResume, none]

end Faults

/-! ## MMU_INVAL (R363) -/

/-- The pages of a scope, as the register's field names them. -/
theorem invalCovers_eq (page : Nat) (scope : BitVec 2) (p : Nat) : invalCovers page scope.toNat p =
    if scope = 0 then p == page else if scope = 1 then p / 32 == page / 32
    else if scope = 2 then p / 16384 == page / 16384 else true := by
  have cases : scope = 0 ∨ scope = 1 ∨ scope = 2 ∨ scope = 3 := by
    revert scope; decide
  rcases cases with rfl | rfl | rfl | rfl <;> rfl

/-- A context without the cached translations that an invalidation covers. -/
def Ctx.invalidated (x : Ctx) (page : BitVec 48) (scope : BitVec 2) (y : Ctx) : Ctx :=
  { y with mmu := { y.mmu with
    tlb := y.mmu.tlb.filter (fun t => !invalCovers page.toNat scope.toNat t.page)
    atc := y.mmu.atc.filter (fun a => scope != 3 &&
      !x.mmu.tlb.any (fun t => invalCovers page.toNat scope.toNat t.page && t.host && t.frame == a.hostPage.toNat)) } }

theorem doMmuInval_eq (s : State) (c : CtxId) (page : BitVec 48) (scope : BitVec 2) : doMmuInval c page scope s =
    s.setCtx c ((s.ctx c).invalidated page scope (
      if ((s.ctx c).phase != .idle && (s.ctx c).mmu.collPages.any (fun t => invalCovers page.toNat scope.toNat t.page)) = true
      then (s.ctx c).violate 0x1102 else s.ctx c)) := by
  simp only [doMmuInval, List.any_filter, ← Bool.and_assoc]
  split
  · rw [violate, modCtx_modCtx]; rfl
  · rfl

/-- Settles O33: each command by whether the fault stands, the context is PREEMPTED, or a covered page is in use. -/
theorem paging : Obligations.Paging := by
  unfold Obligations.Paging
  refine ⟨fun s fn c id hw => ⟨fun f hf hwait => ⟨fun hp => ?_, fun hp hr => ?_⟩, fun hn => ?_⟩, fun s fn c page scope hw => ?_⟩
  · have known := faults_any_of_find hf
    refine ⟨next_ctxPort hw ?_, fun hex hall => next_ctxPort hw ?_⟩
    · rw [faultResume_ends known hp, endFault_retries hf hwait]; rfl
    · rw [faultResume_ends known hp, endFault_aborts hf hwait hex hall, resumeStopped_busy (requestCtxReset_busy ..)]; rfl
  · have known := faults_any_of_find hf
    exact ⟨next_ctxPort hw (faultResume_keeps known hp hr true), next_ctxPort hw (faultResume_keeps known hp hr false)⟩
  · exact ⟨next_ctxPort hw (faultResume_unknown hn true), next_ctxPort hw (faultResume_unknown hn false)⟩
  · simp only [← invalCovers_eq]
    refine ⟨fun h => next_ctxPort hw ?_, fun hp hc => next_ctxPort hw ?_⟩
    · rw [doMmuInval_eq, if_neg]
      · rfl
      · rintro hb
        rw [Bool.and_eq_true, bne_iff_ne, List.any_eq_true] at hb
        obtain ⟨hphase, t, ht, hit⟩ := hb
        rcases h with h | h
        · exact hphase h
        · exact Bool.false_ne_true ((h t ht).symm.trans hit)
    · rw [doMmuInval_eq, if_pos]
      · rfl
      · rw [Bool.and_eq_true, bne_iff_ne, List.any_eq_true]
        exact ⟨hp, hc⟩

/-! ## Host pages (R368 to R370) -/

theorem failWait_eq (c : CtxId) (w : HostWait) (s : State) : failWait c w s =
    if w.req.kind ≠ 7 then pageFault c w.req cHostDeny w.va w.write s
    else if ((s.ctx c).group (Fin.ofNat 16 w.req.source)).state = .forming then refuseSlot c (Fin.ofNat 16 w.req.source) 9 0 s
    else s := by
  by_cases hk : w.req.kind = 7
  · simp [failWait, hk]
  · simp [failWait, hk]

/-- A completion is what an access waits for. -/
def answersWait (a : AtsCompletion) (w : HostWait) : Bool := w.hostPage == a.hostPage.toNat && w.stage == .translation

/-- A completion grants what an access needs. -/
def permitsWait (a : AtsCompletion) (w : HostWait) : Bool := if w.write then a.canWrite else a.canRead

section HostPages

variable {s : State} {c : CtxId} {a : AtsCompletion}

theorem waits_nonempty (hex : ∃ w ∈ (s.ctx c).mmu.ats, w.hostPage = a.hostPage.toNat ∧ w.stage = .translation) :
    ((s.ctx c).mmu.ats.filter (answersWait a)).isEmpty = false := by
  obtain ⟨w, hw, hp, hs⟩ := hex
  rw [Bool.eq_false_iff, Ne, List.isEmpty_iff, List.filter_eq_nil_iff]
  exact fun h => h w hw (by simp [answersWait, hp, hs])

theorem doAtsCompletion_asks (hm : mayWork s = true)
    (hex : ∃ w ∈ (s.ctx c).mmu.ats, w.hostPage = a.hostPage.toNat ∧ w.stage = .translation)
    (hp : (s.func (ctxFn s c)).priStopped = false) : doAtsCompletion c a s =
      resumeStopped c (s.setCtx c { s.ctx c with mmu := { (s.ctx c).mmu with
        atc := a :: (s.ctx c).mmu.atc.filter (fun b => b.hostPage != a.hostPage)
        ats := (s.ctx c).mmu.ats.filterMap (fun w =>
          if answersWait a w then (if permitsWait a w then none else some { w with stage := priStage s c }) else some w) } }) := by
  have waits := waits_nonempty hex
  unfold answersWait at waits
  have next : (fun w : HostWait => if (!answersWait a w) = true then some w
      else if permitsWait a w = true then none else some { w with stage := priStage s c }) = fun w => if answersWait a w then (if permitsWait a w then none else some { w with stage := priStage s c }) else some w := by
    funext w
    cases answersWait a w <;> rfl
  rw [← next]
  simp [doAtsCompletion, ofPage, hm, waits, hp, State.each, answersWait, permitsWait]

theorem doAtsCompletion_denies (hm : mayWork s = true)
    (hex : ∃ w ∈ (s.ctx c).mmu.ats, w.hostPage = a.hostPage.toNat ∧ w.stage = .translation)
    (hp : (s.func (ctxFn s c)).priStopped = true) : doAtsCompletion c a s =
      resumeStopped c ((s.setCtx c { s.ctx c with mmu := { (s.ctx c).mmu with
        atc := a :: (s.ctx c).mmu.atc.filter (fun b => b.hostPage != a.hostPage)
        ats := (s.ctx c).mmu.ats.filter (fun w => !answersWait a w) } }).each
          ((s.ctx c).mmu.ats.filter (fun w => answersWait a w && !permitsWait a w)) (failWait c)) := by
  have waits := waits_nonempty hex
  have next : (s.ctx c).mmu.ats.filterMap (fun w => if (!answersWait a w) = true then some w
      else if (permitsWait a w || ((s.ctx c).mmu.ats.filter (fun w => answersWait a w && !permitsWait a w)).contains w) = true then none
      else some { w with stage := priStage s c }) = (s.ctx c).mmu.ats.filter (fun w => !answersWait a w) := by
    refine Eq.trans (List.filterMap_congr fun w hw => ?_) (congrFun (List.filterMap_eq_filter (p := fun w => !answersWait a w)) _)
    cases hans : answersWait a w
    · simp [hans, Option.guard]
    · cases hper : permitsWait a w <;> simp [hans, hper, hw, Option.guard]
  have all : ((s.ctx c).mmu.ats.filter (answersWait a)).filter (fun w => !permitsWait a w) =
      (s.ctx c).mmu.ats.filter (fun w => answersWait a w && !permitsWait a w) := by
    rw [List.filter_filter]
    exact List.filter_congr fun w _ => Bool.and_comm ..
  rw [← next, ← all]
  unfold answersWait at waits ⊢
  simp only [doAtsCompletion, ofPage, hm, waits, hp, Bool.not_true, Bool.or_self, Bool.false_eq_true, if_false, if_true]
  rfl

theorem doPriSuccess_asks {page : U64} (hex : ∃ w ∈ (s.ctx c).mmu.ats, w.hostPage = page.toNat ∧ w.stage = .asked) :
    doPriSuccess c page s = askQueued (s.setCtx c { s.ctx c with mmu := { (s.ctx c).mmu with
      atc := (s.ctx c).mmu.atc.filter (fun a => a.hostPage != page)
      ats := (s.ctx c).mmu.ats.map (fun w => if w.hostPage == page.toNat then { w with stage := .translation } else w) } }) := by
  obtain ⟨w, hw, hp, hs⟩ := hex
  exact if_pos (List.any_eq_true.mpr ⟨w, hw, by simp [asksFor, ofPage, hp, hs]⟩)

end HostPages

theorem each_same {α : Type} {s : State} {L : List α} {f : α → State → State} (h : ∀ a ∈ L, f a s = s) : s.each L f = s := by
  induction L with
  | nil => rfl
  | cons a L ih =>
    rw [List.forall_mem_cons] at h
    show (f a s).each L f = s
    rw [h.1]
    exact ih h.2

theorem askQueued_none {s : State} (h : ∀ c, (s.ctx c).mmu.ats = []) : askQueued s = s :=
  each_same fun c _ => by simp [h c]

theorem denyWaits_none {s : State} (h : ∀ c, (s.ctx c).mmu.ats = []) (c : CtxId) (hit : HostWait → Bool) : denyWaits c hit s = s := by
  have same : s.setCtx c { s.ctx c with mmu := { (s.ctx c).mmu with ats := [] } } = s := by
    rw [← h c, setCtx_self]
  simp only [denyWaits, h c, List.filter_nil]
  rw [same]
  exact askQueued_none h

theorem doPriResponseFailure_none {s : State} (h : ∀ c, (s.ctx c).mmu.ats = []) (fn : FnId) (pasid : BitVec 20) :
    doPriResponseFailure fn pasid s = raise 0 0x1705 false (payload [(0, 1, 0xFF), (4, 4, pasid.toNat)])
      (s.modFunc fn (fun f => { f with priStopped := true })) :=
  each_same fun c _ => denyWaits_none (fun d => by rw [raise_ctx]; exact h d) c _

/-- Settles O34: a completion by whether PRI has stopped, and the answers of the host by the accesses that wait for them. -/
theorem hostPages : Obligations.HostPages := by
  unfold Obligations.HostPages
  simp only [← failWait_eq]
  refine ⟨fun s c => ⟨fun a hm hex => ⟨fun hp => ?_, fun hp => ?_⟩, fun page hex => ?_, fun page => rfl⟩, fun s c => rfl,
    fun s fn page => ?_, fun s fn pasid hn => ?_⟩
  · exact congrArg Host.Outcome.next (doAtsCompletion_asks hm hex hp)
  · exact congrArg Host.Outcome.next (doAtsCompletion_denies hm hex hp)
  · exact congrArg Host.Outcome.next (doPriSuccess_asks hex)
  · obtain ⟨own, rest⟩ := each_ctxs (fun _ x => { x with mmu := { x.mmu with atc := x.mmu.atc.filter (fun a => a.hostPage != page) } })
      (allCtx.filter (fun c => ctxFn s c == fn)) ((List.nodup_finRange 32).filter _) s
    refine ⟨_, rfl, fun c => (own c).trans ?_, rest⟩
    simp [allCtx]
  · exact congrArg Host.Outcome.next (doPriResponseFailure_none hn fn pasid)

end Sys2Proof.Machine
end

section
/-! PROOFS. GLB_RST_CTRL writes without effect (O44), the event ring (O46) and the management bus (O47). -/

namespace Sys2Proof.Machine

open Sys2Proof

/-! ## GLB_RST_CTRL (R404) -/

/-- A field of the low word is that field of the whole register. -/
theorem fieldOf_low (n : Nat) {hi lo : Nat} (hlo : lo ≤ hi) (hhi : hi < 32) : fieldOf (n % 2 ^ 32) hi lo = fieldOf n hi lo := by
  refine Nat.eq_of_testBit_eq fun i => ?_
  simp only [fieldOf, Nat.testBit_mod_two_pow, Nat.testBit_shiftRight]
  by_cases hi' : i < hi + 1 - lo
  · have : lo + i < 32 := by omega
    simp [this]
  · simp [hi']

theorem fieldOf_lt (n hi lo : Nat) : fieldOf n hi lo < 2 ^ (hi + 1 - lo) := Nat.mod_lt _ (Nat.two_pow_pos _)

theorem partitionOf_none {s : State} {q : Nat} (h : ∀ c, (s.ctx c).assigned = true → (s.ctx c).qmask.getLsbD q = false) :
    partitionOf s q = none := by
  rw [partitionOf, Option.map_eq_none_iff, List.find?_eq_none]
  intro c _ hc
  rw [Bool.and_eq_true] at hc
  exact Bool.false_ne_true ((h c hc.1).symm.trans hc.2)

theorem rstCtrl_kind3 {n : Nat} (h : fieldOf n 27 26 = 3) (s : State) : rstCtrl n s = s := if_pos h

theorem rstCtrl_noDomain {n : Nat} (h : fieldOf n 31 28 = 0 ∨ 6 ≤ fieldOf n 31 28) (s : State) : rstCtrl n s = s := by
  unfold rstCtrl
  split
  next => rfl
  next =>
    split
    case h_6 => rfl
    all_goals omega

theorem rstCtrl_context {n : Nat} (hd : fieldOf n 31 28 = 1) (hi : 32 ≤ fieldOf n 15 0) (s : State) : rstCtrl n s = s := by
  simp only [rstCtrl, hd, rstContext_outside hi, ite_self]

theorem rstCtrl_engine {n : Nat} (hd : fieldOf n 31 28 = 2) (hu : unitOf (fieldOf n 27 26) (fieldOf n 15 0) = none) (s : State) :
    rstCtrl n s = s := by
  simp only [rstCtrl, hd, rstEngine_none hu, ite_self]

theorem rstCtrl_partition {n : Nat} {s : State} (hd : fieldOf n 31 28 = 3)
    (hp : 4 ≤ fieldOf n 15 0 ∨ partitionOf s (fieldOf n 15 0) = none) : rstCtrl n s = s := by
  simp only [rstCtrl, hd, rstPartition_none hp, ite_self]

/-- A unit that KIND and INDEX do not name, KIND read as a number. -/
theorem unitOf_outside_field {n index : Nat} (h : (fieldOf n 27 26 = 0 ∧ 512 ≤ index) ∨ (fieldOf n 27 26 ≠ 0 ∧ 16 ≤ index)) :
    unitOf (fieldOf n 27 26) index = none := by
  have kind : (BitVec.ofNat 2 (fieldOf n 27 26)).toNat = fieldOf n 27 26 :=
    BitVec.toNat_ofNat .. |>.trans (Nat.mod_eq_of_lt (fieldOf_lt n 27 26))
  rw [← kind]
  refine unitOf_outside (.inr (h.imp (fun ⟨hk, hi⟩ => ⟨by rw [hk]; rfl, hi⟩) fun ⟨hk, hi⟩ => ⟨fun e => hk ?_, hi⟩))
  rw [← kind, e]
  rfl

/-- Settles O44: each excluded value of DOMAIN, KIND and INDEX names no reset. -/
theorem resetControlNoEffect : Obligations.ResetControlNoEffect := by
  intro s fn v hreq domain kind index h
  have word : writeGlb fn 0x20 4 v s = rstCtrl (v.toNat % 2 ^ 32) s := by
    rw [writeGlb, writeSplit_word rfl (x := 0) rfl]
    show rstCtrl (v.truncate 32).toNat s = _
    rw [BitVec.toNat_setWidth]
  rw [registerWrite_rstCtrl hreq, word]
  refine congrArg Host.Outcome.next ?_
  have fields : fieldOf (v.toNat % 2 ^ 32) 31 28 = domain ∧ fieldOf (v.toNat % 2 ^ 32) 27 26 = kind ∧
      fieldOf (v.toNat % 2 ^ 32) 15 0 = index :=
    ⟨fieldOf_low _ (by decide) (by decide), fieldOf_low _ (by decide) (by decide), fieldOf_low _ (by decide) (by decide)⟩
  obtain ⟨hdom, hkind, hindex⟩ := fields
  rcases h with h | h | h | ⟨hd, hi⟩ | ⟨hd, hk, hi⟩ | ⟨hd, hk, hi⟩ | ⟨hd, hi⟩ | ⟨hd, hq⟩
  · exact rstCtrl_noDomain (.inl (hdom.trans h)) s
  · exact rstCtrl_noDomain (.inr (hdom ▸ h)) s
  · exact rstCtrl_kind3 (hkind.trans h) s
  · exact rstCtrl_context (hdom.trans hd) (hindex ▸ hi) s
  · exact rstCtrl_engine (hdom.trans hd) (unitOf_outside_field (.inl ⟨hkind.trans hk, hindex ▸ hi⟩)) s
  · exact rstCtrl_engine (hdom.trans hd) (unitOf_outside_field (.inr ⟨hkind ▸ hk, hindex ▸ hi⟩)) s
  · exact rstCtrl_partition (hdom.trans hd) (.inl (hindex ▸ hi))
  · exact rstCtrl_partition (hdom.trans hd) (.inr (by rw [hindex]; exact partitionOf_none hq))

/-! ## The event ring (R411 to R414) -/

/-- A function whose message is sent, or pending while its vector is masked. -/
def Func.told (f : Func) : Func := { f with
  msgs := if f.msixMask then f.msgs else f.msgs + 1, msixPending := f.msixMask || f.msixPending }

theorem message_eq_told (f : Func) : f.message = f.told := by
  unfold Func.message Func.told
  cases f.msixMask <;> rfl

/-- A function after an entry of its ring is written: the message goes out, or is owed. -/
def Func.entered (f : Func) : Func :=
  if f.irq && !f.inMod then { f.told with tail := f.tail + 1, owed := false, inMod := f.mod != 0 }
  else { f with tail := f.tail + 1, owed := true }

/-- Host memory with an entry at TAIL. -/
def State.withEntry (s : State) (fn : FnId) (e : Event) : State :=
  let f := s.func fn
  { s with
    hostMem := memWrite s.hostMem (f.evtBase.toNat * 4096 + 64 * (f.tail.toNat % 2 ^ f.log2.toNat)) (entryBytes fn f.log2.toNat f.tail e) }

theorem modFunc_setFunc (s : State) (fn : FnId) (f : Func) (g : Func → Func) : (s.setFunc fn f).modFunc fn g = s.setFunc fn (g f) := by
  rw [State.modFunc, setFunc_func, setFunc_setFunc]

theorem sendMsg_writeEntry (fn : FnId) (e : Event) (s : State) :
    sendMsg fn (writeEntry fn e s) = (s.withEntry fn e).setFunc fn (s.func fn).entered := by
  refine (modFunc_setFunc (s.withEntry fn e) fn { s.func fn with tail := (s.func fn).tail + 1, owed := true } _).trans
    (congrArg _ ?_)
  simp only [message_eq_told, Func.entered, Bool.and_true]
  cases (s.func fn).irq && !(s.func fn).inMod <;> rfl

/-- Nothing is owed that could go out once the entry is written. -/
theorem entered_silent (f : Func) : (f.entered.irq && f.entered.owed && !f.entered.inMod) = false := by
  unfold Func.entered
  cases hi : f.irq <;> cases hm : f.inMod <;> simp [hi, hm, Func.told]

theorem sendMsg_silent {fn : FnId} {s : State} (h : ((s.func fn).irq && (s.func fn).owed && !(s.func fn).inMod) = false) :
    sendMsg fn s = s := by
  rw [sendMsg, State.modFunc, h]
  exact setFunc_self s fn

theorem room_iff (f : Func) : f.room = true ↔ f.en = true ∧ (f.tail - f.head).toNat < 2 ^ f.log2.toNat := by
  rw [Func.room, Bool.and_eq_true, decide_eq_true_iff]

section Ring

variable {s : State} {fn : FnId} {code : U16} {pl : List Byte}

theorem raise_written (h : (s.func fn).room = true) : raise fn code false pl s =
    (s.withEntry fn ⟨code, false, pl, s.pwr.time⟩).setFunc fn (s.func fn).entered := by
  simp only [raise, h, if_true, sendMsg_writeEntry, Bool.false_eq_true, if_false]

theorem raise_held (h : (s.func fn).room = false) (hl : (s.func fn).held.length < 256) : raise fn code false pl s =
    s.setFunc fn { s.func fn with held := (s.func fn).held ++ [⟨code, false, pl, s.pwr.time⟩] } := by
  simp only [raise, h, hl, if_true, Bool.false_eq_true, if_false]

theorem raise_lost (h : (s.func fn).room = false) (hl : 256 ≤ (s.func fn).held.length) : raise fn code false pl s =
    s.setFunc fn { s.func fn with lost := satAdd (s.func fn).lost 1 } := by
  simp only [raise, h, Nat.not_lt.mpr hl, Bool.false_eq_true, if_false]

theorem entered_lost (f : Func) : f.entered.lost = f.lost := by
  unfold Func.entered
  split <;> rfl

/-- One held event is written with its message, after which nothing is owed. -/
theorem drainRing_one {e : Event} (hh : (s.func fn).held = [e]) (hl : (s.func fn).lost = 0) (hr : (s.func fn).room = true) :
    drainRing fn s = (s.withEntry fn e).setFunc fn { (s.func fn).entered with held := [] } := by
  have written : writeHeld fn (s.func fn).held s = (s.withEntry fn e).setFunc fn { (s.func fn).entered with held := [] } := by
    rw [hh]
    simp only [writeHeld, hr, if_true, sendMsg_writeEntry, modFunc_setFunc]
  simp only [drainRing, written, setFunc_func, entered_lost, hl, bne_self_eq_false, Bool.false_and, Bool.false_eq_true, if_false]
  exact sendMsg_silent (by rw [setFunc_func]; exact entered_silent _)

theorem clampLog2_within {v : BitVec 5} (h6 : 6 ≤ v.toNat) (h16 : v.toNat ≤ 16) : clampLog2 v = v := by
  rw [clampLog2, if_neg (by omega), if_neg (by omega)]

theorem writeEvtCtrl_enables {log2 : BitVec 5} (h6 : 6 ≤ log2.toNat) (h16 : log2.toNat ≤ 16) (irq : Bool) (mod : U16) :
    writeEvtCtrl fn true irq log2 mod s = drainRing fn (s.setFunc fn { s.func fn with
      en := true, irq := irq, log2 := log2, mod := mod
      head := if (s.func fn).en then (s.func fn).head else 0, tail := if (s.func fn).en then (s.func fn).tail else 0 }) := by
  refine congrArg (fun f => drainRing fn (s.setFunc fn f)) ?_
  simp only [clampLog2_within h6 h16, Bool.true_and]
  cases (s.func fn).en <;> rfl

theorem moderationEnd_eq : sendMsg fn (s.modFunc fn (fun f => { f with inMod := false })) = s.setFunc fn (
    if (s.func fn).irq && (s.func fn).owed then { (s.func fn).told with owed := false, inMod := (s.func fn).mod != 0 }
    else { s.func fn with inMod := false }) := by
  refine (modFunc_setFunc s fn { s.func fn with inMod := false } _).trans (congrArg _ ?_)
  simp only [message_eq_told, Bool.not_false, Bool.and_true]
  rfl

end Ring

/-- Settles O46: what an entry, a held event and a lost one leave, and the writes of the ring's registers. -/
theorem eventRing : Obligations.EventRing := by
  unfold Obligations.EventRing
  intro s fn f told
  refine ⟨fun hopen => ⟨fun irq log2 mod h6 h16 => ?_, fun index hle => ?_, fun index hlt => ?_⟩, ?_,
    fun code pl => ?_, fun e hh hl hen hroom => ?_⟩
  · exact congrArg Host.Outcome.next ((fnPort_open hopen ..).trans (writeEvtCtrl_enables h6 h16 irq mod))
  · exact congrArg Host.Outcome.next ((fnPort_open hopen ..).trans (if_neg (Nat.not_lt.mpr hle)))
  · exact congrArg Host.Outcome.next ((fnPort_open hopen ..).trans (if_pos hlt))
  · exact congrArg Host.Outcome.next moderationEnd_eq
  · refine ⟨fun hen hroom => raise_written ((room_iff _).mpr ⟨hen, hroom⟩), fun hfull => ?_⟩
    have full : f.room = false := Bool.eq_false_iff.mpr fun hr => by
      obtain ⟨hen, hlt⟩ := (room_iff _).mp hr
      rcases hfull with h | h
      · exact Bool.false_ne_true (h.symm.trans hen)
      · omega
    exact ⟨raise_held full, raise_lost full⟩
  · rw [drainRing_one hh hl ((room_iff _).mpr ⟨hen, hroom⟩)]
    refine congrArg (State.setFunc _ fn) ?_
    unfold Func.entered
    split <;> rfl

/-! ## The management bus (R417 to R419) -/

section Bus

variable {s : State} (hon : s.pwr.aoOn = true)

include hon

theorem busPort_on (act : Mgt → Mgt) : busPort act s = { s with mgt := act s.mgt } := if_pos hon

theorem busPort_if {p : Prop} [Decidable p] {act : Mgt → Mgt} {m : Mgt} (h : act s.mgt = if p then s.mgt else m) :
    busPort act s = if p then s else { s with mgt := m } := by
  rw [busPort_on hon, h]
  split <;> rfl

variable (hda : s.mgt.daValid = true)

include hda

theorem bus_answers : (!s.pwr.aoOn || !s.mgt.daValid) = false := by rw [hon, hda]; rfl

theorem doPrivateWrite_pointer (off : BitVec 24) : doPrivateWrite off [] s = { s with mgt := { s.mgt with readPtr := off } } := by
  simp only [doPrivateWrite, bus_answers hon hda, Bool.false_eq_true, if_false, List.isEmpty_nil, if_true]
  rfl

theorem doPrivateWrite_data {data : List Byte} (hd : data ≠ []) (off : BitVec 24) : doPrivateWrite off data s =
    if busWritable s off.toNat data.length then writeGlb 0 off.toNat data.length (BitVec.ofNat 64 (leNat data)) s
    else { s with mgt := { s.mgt with werr := true } } := by
  have some : data.isEmpty = false := List.isEmpty_eq_false_iff.mpr hd
  simp only [doPrivateWrite, bus_answers hon hda, some, Bool.false_eq_true, if_false]
  rfl

/-- A read that leaves SEC_DEBUG_NONCE alone draws no nonce; it gives a high word latched for its offset, or the bytes there. -/
theorem busRead_reads {off n : Nat} (ho : off + n ≤ 0x50018 ∨ 0x50018 < off) {data : List Byte}
    (hdata : (s.mgt.latch = none ∧ data = bytesFor s .bus off n) ∨
      (∃ w : U32, s.mgt.latch = some (off, w) ∧ n = 4 ∧ data = leBytes 4 w.toNat)) :
    busRead off n s = { s with mgt := { s.mgt with
      lastRead := data
      latch := if n = 4 ∧ busHidden s off = false then (highFor s .bus off).map (fun h => (off + 4, BitVec.ofNat 32 h)) else none } } := by
  rcases hdata with ⟨hl, rfl⟩ | ⟨w, hl, rfl, rfl⟩
  · simp only [busRead, bus_answers hon hda, hl, Bool.false_eq_true, if_false, drawOnRead_other ho.symm]
    rfl
  · simp only [busRead, bus_answers hon hda, hl, Bool.false_eq_true, if_false, drawOnRead_other ho.symm, true_and, if_true]
    rfl

theorem doPrivateRead_reads (eight : Bool)
    (ho : s.mgt.readPtr.toNat + (if eight then 8 else 4) ≤ 0x50018 ∨ 0x50018 < s.mgt.readPtr.toNat) {data : List Byte}
    (hdata : (s.mgt.latch = none ∧ data = bytesFor s .bus s.mgt.readPtr.toNat (if eight then 8 else 4)) ∨
      (∃ w : U32, s.mgt.latch = some (s.mgt.readPtr.toNat, w) ∧ (if eight then 8 else 4) = 4 ∧ data = leBytes 4 w.toNat)) :
    doPrivateRead eight s = { s with mgt := { s.mgt with
      readPtr := s.mgt.readPtr + BitVec.ofNat 24 (if eight then 8 else 4), lastRead := data
      latch := if eight = false ∧ busHidden s s.mgt.readPtr.toNat = false
        then (highFor s .bus s.mgt.readPtr.toNat).map (fun h => (s.mgt.readPtr.toNat + 4, BitVec.ofNat 32 h)) else none } } := by
  have word : (if eight then 8 else 4) = 4 ↔ eight = false := by cases eight <;> decide
  have read := busRead_reads hon hda ho hdata
  simp only [word] at read
  simp only [doPrivateRead, bus_answers hon hda, Bool.false_eq_true, if_false, read]
  rfl

end Bus

theorem bus_silent {s : State} (hda : s.mgt.daValid = false) : (!s.pwr.aoOn || !s.mgt.daValid) = true := by
  rw [hda]
  exact Bool.or_true _

theorem busWritable_false {s : State} {off n : Nat} (h : (n ≠ 4 ∧ n ≠ 8) ∨ off % n ≠ 0 ∨
    (¬ (0x40000 ≤ off ∧ off < 0x50000) ∧ ¬ (0x60000 ≤ off ∧ off < 0x70000))) : busWritable s off n = false := by
  unfold busWritable
  rcases h with ⟨h4, h8⟩ | h | ⟨hp, hm⟩
  · simp [h4, h8]
  · simp [h]
  · simp only [hp, hm, decide_false, Bool.or_self, Bool.false_and]

/-- Settles O47: each bus command while the always-on domain has power. -/
theorem managementBus : Obligations.ManagementBus := by
  unfold Obligations.ManagementBus
  intro s hon m put
  refine ⟨fun da => ?_, ?_, ?_, ?_, fun hda => ⟨fun off => ?_, fun off data hd => ?_, fun off data hd hbad => ?_, fun eight hl ho => ?_,
    fun w hl ho => ?_⟩, fun hda => ⟨fun off data => ?_, fun eight => ?_⟩⟩
  · exact congrArg Host.Outcome.next (busPort_if hon rfl)
  · exact congrArg Host.Outcome.next (busPort_on hon _)
  · exact congrArg Host.Outcome.next (busPort_on hon _)
  · refine congrArg Host.Outcome.next (busPort_if hon ?_)
    simp only [Bool.or_eq_true, Bool.not_eq_true']
    rfl
  · exact congrArg Host.Outcome.next (doPrivateWrite_pointer hon hda off)
  · exact congrArg Host.Outcome.next (doPrivateWrite_data hon hda hd off)
  · refine congrArg Host.Outcome.next ((doPrivateWrite_data hon hda hd off).trans ?_)
    rw [busWritable_false hbad]
    rfl
  · exact congrArg Host.Outcome.next (doPrivateRead_reads hon hda eight ho (.inl ⟨hl, rfl⟩))
  · refine congrArg Host.Outcome.next ((doPrivateRead_reads hon hda false ho (.inr ⟨w, hl, rfl, rfl⟩)).trans ?_)
    simp only [true_and]
    rfl
  · exact congrArg Host.Outcome.next (if_pos (bus_silent hda))
  · exact congrArg Host.Outcome.next (if_pos (bus_silent hda))

end Sys2Proof.Machine
end

section
/-! PROOFS. Drains and resets that time out, and watchdogs (O39). -/

namespace Sys2Proof.Machine

open Sys2Proof

/-! ## FENCE_DRAIN_TIMEOUT and RESET_TIMEOUT (R391, R398) -/

theorem fenceDrained (t : ResetTarget) (s : State) :
    let u := s.each (ctxsUnder s t) (fun c u => u.modCtx c (fun x => { x with mmu := { x.mmu with ats := [] } }))
    (∀ c, u.ctx c = if c ∈ ctxsUnder s t then { s.ctx c with mmu := { (s.ctx c).mmu with ats := [] } } else s.ctx c) ∧
      { u with ctxs := s.ctxs } = s :=
  each_ctxs (fun _ x => { x with mmu := { x.mmu with ats := [] } }) (ctxsUnder s t) ((List.nodup_finRange 32).filter _) s

section Timeouts

variable {s : State} (hon : s.pwr.mainOn = true) (hboot : 6 ≤ s.pwr.bootEvent)

include hon hboot

theorem resetTimeout_powered : (!(s.pwr.mainOn && decide (6 ≤ s.pwr.bootEvent))) = false := by
  rw [hon, decide_eq_true hboot]
  rfl

theorem doResetTimeout_context {c : CtxId} (hb : (s.ctx c).busy = true) : doResetTimeout (.context c) s =
    s.each (unitsHeldBy s c) (fun u t => requestEngineReset u 4 (escalationEvent (some c) 2 (unitKind u) (unitIndex u) t)) := by
  simp only [doResetTimeout, resetTimeout_powered hon hboot, hb, Bool.false_eq_true, if_false, if_true]

theorem doResetTimeout_engine_partition {u : UnitRef} {q : BitVec 4} (hu : ∃ p ∈ s.glb.engBusy, p.1 = u)
    (hq : partitionOf s (unitQuarter u) = some q) : doResetTimeout (.engine u) s =
      requestPartReset q 4 (escalationEvent none 3 0 (lowestQuarter q) s) := by
  have busy : s.glb.engBusy.any (fun p => p.1 == u) = true := by simpa only [List.any_eq_true, beq_iff_eq] using hu
  simp only [doResetTimeout, resetTimeout_powered hon hboot, busy, hq, Bool.false_eq_true, if_false, if_true]

theorem doResetTimeout_engine_chip {u : UnitRef} (hu : ∃ p ∈ s.glb.engBusy, p.1 = u) (hq : partitionOf s (unitQuarter u) = none) :
    doResetTimeout (.engine u) s = escalateChip s := by
  have busy : s.glb.engBusy.any (fun p => p.1 == u) = true := by simpa only [List.any_eq_true, beq_iff_eq] using hu
  simp only [doResetTimeout, resetTimeout_powered hon hboot, busy, hq, Bool.false_eq_true, if_false, if_true]

theorem doResetTimeout_partition {q : QuarterId} (hq : s.glb.partBusy.getLsbD q.val = true) :
    doResetTimeout (.partition q) s = escalateChip s := by
  simp only [doResetTimeout, resetTimeout_powered hon hboot, hq, Bool.false_eq_true, if_false, if_true]

theorem doResetTimeout_chip (hc : s.glb.chipBusy = true) : doResetTimeout .chip s =
    if (escalationEvent none 5 0 0 s).glb.autoPower then requestPowerCycle 4 (escalationEvent none 5 0 0 s)
    else escalationEvent none 5 0 0 s := by
  simp only [doResetTimeout, resetTimeout_powered hon hboot, hc, Bool.false_eq_true, if_false, if_true]

end Timeouts

theorem escalationEvent_glb (ctx : Option CtxId) (domain kind index : Nat) (s : State) :
    (escalationEvent ctx domain kind index s).glb = s.glb := by
  cases ctx
  · exact raise_glb ..
  · exact ctxEvent_glb ..

theorem escalateChip_eq {s : State} (hc : s.glb.chipBusy = false) : escalateChip s =
    let t := escalationEvent none 4 0 0 s
    if t.glb.autoChip then updatePlls { t with glb := { t.glb with chipBusy := true, chipCause := 4 } } else t := by
  have idle : (escalationEvent none 4 0 0 s).glb.chipBusy = false := by rw [escalationEvent_glb, hc]
  simp only [escalateChip, requestChipReset_starts idle]
  rfl

/-! ## Watchdogs (R394 to R396) -/

section Watchdogs

variable {s : State} {c : CtxId}

theorem wdtRuns_running (hm : mayWork s = true) (hb : (s.ctx c).busy = false ∨ (s.ctx c).lastCause = 2)
    (hr : (s.ctx c).restoring = false) (hpart : inPartReset s (s.ctx c) = false)
    (hp : (s.ctx c).phase = .running ∨ (s.ctx c).phase = .closing ∨ (s.ctx c).phase = .committing) : wdtRuns s c = true := by
  simpa [wdtRuns, hm, hr, hpart, or_assoc] using ⟨hb, hp⟩

theorem wdtRuns_resting (hp : (s.ctx c).phase = .idle ∨ (s.ctx c).phase = .held ∨ (s.ctx c).phase = .preempted) :
    wdtRuns s c = false := by
  rcases hp with hp | hp | hp <;> simp [wdtRuns, hp]

variable {cls : Fin 4} {subj : WdtSubject}

theorem doWatchdogExpire_counts (hr : wdtRuns s c = true) (hl : (s.ctx c).wdt[cls].limit ≠ 0) (ha : wdtArmed s c cls.val subj = true) :
    doWatchdogExpire c cls subj s =
      let seen := ctxEvent c 0x1801 true
        (payload [(0, 1, c.val), (3, 1, cls.val), (8, 8, (s.ctx c).step.toNat), (0x10, 4, subjectCode subj),
          (0x14, 4, (s.ctx c).wdt[cls].limit.toNat), (0x18, 8, s.pwr.time.toNat)])
        (s.setCtx c { s.ctx c with wdtExpired := (s.ctx c).wdtExpired ||| BitVec.ofNat 4 (2 ^ cls.val) })
      if (s.ctx c).wdt[cls].action = 1 then requestCtxReset c 2 seen else seen := by
  have armed : (!wdtRuns s c || (s.ctx c).wdt[cls].limit == 0 || !wdtArmed s c cls.val subj) = false := by
    rw [hr, beq_false_of_ne hl, ha]
    rfl
  exact if_neg (by rw [armed]; exact Bool.false_ne_true)

theorem doWatchdogExpire_ignored (h : (s.ctx c).wdt[cls].limit = 0 ∨ wdtRuns s c = false) : doWatchdogExpire c cls subj s = s := by
  have ignored : (!wdtRuns s c || (s.ctx c).wdt[cls].limit == 0 || !wdtArmed s c cls.val subj) = true := by
    rcases h with h | h <;> rw [h] <;> simp
  exact if_pos ignored

theorem doUnitWatchdog_resets (hm : mayWork s = true) (u : UnitRef) : doUnitWatchdog u s =
    requestEngineReset u 2 (raise 0 0x1801 true
      (payload [(0, 1, 0xFF), (2, 1, unitKind u), (3, 1, 4), (4, 2, unitIndex u), (0x14, 4, 100), (0x18, 8, s.pwr.time.toNat)])
      { s with glb := setFenced u true s.glb }) :=
  if_neg (by simp [hm])

end Watchdogs

/-- Settles O39: each expiry by the domain or the unit that it names. -/
theorem timeoutsAndWatchdogs : Obligations.TimeoutsAndWatchdogs := by
  unfold Obligations.TimeoutsAndWatchdogs
  intro s
  refine ⟨fun t => ⟨_, rfl, fenceDrained t s⟩, fun hon hboot => ⟨fun c hb => ?_, fun u q hu hq => ?_, fun u hu hq => ?_, fun q hq => ?_,
    fun hc => ?_, escalateChip_eq⟩, fun c cls subj => ⟨fun hm hb hr hpart hp hl ha => ?_, fun h => ?_⟩, fun u hm => ?_⟩
  · exact congrArg Host.Outcome.next (doResetTimeout_context hon hboot hb)
  · exact congrArg Host.Outcome.next (doResetTimeout_engine_partition hon hboot hu hq)
  · exact congrArg Host.Outcome.next (doResetTimeout_engine_chip hon hboot hu hq)
  · exact congrArg Host.Outcome.next (doResetTimeout_partition hon hboot hq)
  · exact congrArg Host.Outcome.next (doResetTimeout_chip hon hboot hc)
  · exact congrArg Host.Outcome.next (doWatchdogExpire_counts (wdtRuns_running hm hb hr hpart hp) hl ha)
  · exact congrArg Host.Outcome.next (doWatchdogExpire_ignored (h.imp id wdtRuns_resting))
  · exact congrArg Host.Outcome.next (doUnitWatchdog_resets hm u)

end Sys2Proof.Machine
end

section
/-! PROOFS. Forming and dissolving groups (O43). -/

namespace Sys2Proof.Machine

open Sys2Proof

/-! ## FORM and DISSOLVE (R401, R425, R428, R429) -/

/-- A slot whose formation starts. -/
def GroupSlot.started (k : GroupSlot) : GroupSlot :=
  { k with state := .forming, reason := 0, who := 0, members := [], memberDigest := 0, agreed := [] }

/-- The bytes of a slot's member table. -/
def GroupSlot.table (k : GroupSlot) : Span := ⟨k.membersVa.toNat * 8, 8 * k.size⟩

/-- What FORM asks of its context and slot. -/
def mayForm (s : State) (c : CtxId) (g : SlotId) : Prop :=
  (s.ctx c).phase = .idle ∧ (s.ctx c).active.isSome = true ∧ (s.ctx c).assigned = true ∧ ((s.ctx c).group g).held = false ∧
    rankTaken s ((s.ctx c).group g).id ((s.ctx c).group g).rank = false

/-- Context `c` with the formation of slot `g` started. -/
def startForm (s : State) (c : CtxId) (g : SlotId) : State := s.setCtx c ((s.ctx c).modGroup g (fun _ => ((s.ctx c).group g).started))

section Form

variable {s t : State} {c : CtxId} {g : SlotId}

theorem startForm_group : ((startForm s c g).ctx c).group g = ((s.ctx c).group g).started := by
  rw [startForm, setCtx_ctx, group_modGroup]

theorem startForm_mmu : ((startForm s c g).ctx c).mmu = (s.ctx c).mmu := by
  rw [startForm, setCtx_ctx]
  rfl

theorem doForm_stands (hm : mayWork s = false) : doForm c g s = s := if_pos (by rw [hm]; rfl)

theorem mayForm_iff : mayForm s c g ↔ ((s.ctx c).phase != .idle || (s.ctx c).active.isNone || !(s.ctx c).assigned ||
    ((s.ctx c).group g).held || rankTaken s ((s.ctx c).group g).id ((s.ctx c).group g).rank) = false := by
  simp only [mayForm, Bool.or_eq_false_iff, bne_eq_false_iff_eq, Bool.not_eq_false', and_assoc, Option.isNone_eq_false_iff]

theorem doForm_violates (hm : mayWork s = true) (hf : ¬ mayForm s c g) : doForm c g s = violate c 0x1303 s := by
  rw [mayForm_iff, Bool.not_eq_false] at hf
  simp only [doForm, hm, hf, Bool.not_true, Bool.false_eq_true, if_false, if_true]

theorem doForm_starts (hm : mayWork s = true) (hf : mayForm s c g) : doForm c g s = readMembers c g (startForm s c g) := by
  rw [mayForm_iff] at hf
  simp only [doForm, hm, hf, Bool.not_true, Bool.false_eq_true, if_false]
  rfl

theorem readMembers_asks (hats : ∀ w ∈ (s.ctx c).mmu.ats, w.req ≠ reqForm g) :
    ((startForm s c g).ctx c).mmu.ats.any (fun w => w.req == reqForm g) = false := by
  rw [startForm_mmu]
  simpa only [List.any_eq_false, beq_iff_eq] using hats

theorem readMembers_ready (hats : ∀ w ∈ (s.ctx c).mmu.ats, w.req ≠ reqForm g) {tab : List PageMap}
    (hp : tablePages c g (spanPages [((s.ctx c).group g).table]) [] (startForm s c g) = (.ready tab, t))
    (hb : spanBad tab t ((s.ctx c).group g).table = false) : readMembers c g (startForm s c g) =
      let bs := readSpan tab t ((s.ctx c).group g).table
      takeMembers c g ((List.range ((s.ctx c).group g).size).map (fun r => BitVec.ofNat 64 (natAt bs (8 * r) 8))) (crc64 bs)
        (chargeRead c tab [((s.ctx c).group g).table] t) := by
  simp only [GroupSlot.table] at hp hb
  simp only [readMembers, startForm_group, readMembers_asks hats, Bool.false_eq_true, if_false, GroupSlot.started, GroupSlot.size] at hp hb ⊢
  simp only [hp, hb, Bool.false_eq_true, if_false]
  rfl

theorem readMembers_fails (hats : ∀ w ∈ (s.ctx c).mmu.ats, w.req ≠ reqForm g)
    (hp : tablePages c g (spanPages [((s.ctx c).group g).table]) [] (startForm s c g) = (.fails, t)) :
    readMembers c g (startForm s c g) = refuseSlot c g 9 0 t := by
  simp only [GroupSlot.table] at hp
  simp only [readMembers, startForm_group, readMembers_asks hats, Bool.false_eq_true, if_false, GroupSlot.started, GroupSlot.size] at hp ⊢
  simp only [hp]

theorem doDissolve_idle (hp : (s.ctx c).phase = .idle) : doDissolve c g s =
    s.setCtx c (((s.ctx c).forgetReq (reqForm g)).modGroup g (·.dissolved)).setNeed := if_neg (not_not_intro hp)

theorem doDissolve_violates (hp : (s.ctx c).phase ≠ .idle) : doDissolve c g s = violate c 0x1304 s := if_pos hp

end Form

/-! ## Routes that are lost (R424, R428) -/

section Routes

variable {s t : State} {c : CtxId} {g : SlotId}

theorem lostRoute_iff {k : GroupSlot} : lostRoute s k = true ↔
    k.state = .forming ∧ k.members ≠ [] ∧ ¬ ∀ u ∈ k.members, (hopsTo s u).isSome = true := by
  simp only [lostRoute, Bool.and_eq_true, beq_iff_eq, ← Bool.not_eq_true, List.isEmpty_iff, and_assoc,
    List.all_eq_true, ne_eq, Bool.not_eq_true', ← Bool.not_eq_true]

/-- A slot that is refused with reason 8. -/
def GroupSlot.refused (k : GroupSlot) : GroupSlot := { k with state := .refused, reason := 8, who := 0 }

/-- The routes of two states are the same. -/
structure SameRoutes (s t : State) : Prop where
  uid : t.glb.uid = s.glb.uid
  routes : t.routes = s.routes
  links : t.links = s.links

theorem SameRoutes.trans {r : State} (h : SameRoutes r s) (k : SameRoutes s t) : SameRoutes r t :=
  ⟨k.uid.trans h.uid, k.routes.trans h.routes, k.links.trans h.links⟩

theorem SameRoutes.hopsTo (h : SameRoutes s t) : hopsTo t = hopsTo s := by
  funext u
  simp only [Machine.hopsTo, routeTo, h.uid, h.routes, State.link, h.links]

theorem SameRoutes.lostRoute (h : SameRoutes s t) (k : GroupSlot) : lostRoute t k = lostRoute s k := by
  simp only [Machine.lostRoute, h.hopsTo]

theorem refuseSlot_sameRoutes (c : CtxId) (g : SlotId) (reason who : Nat) (s : State) : SameRoutes s (refuseSlot c g reason who s) :=
  ⟨congrArg Glb.uid (ctxEvent_glb ..), ctxEvent_routes .., ctxEvent_links ..⟩

theorem group_modGroup_ne (x : Ctx) {g h : SlotId} (f : GroupSlot → GroupSlot) (hne : h ≠ g) : (x.modGroup g f).group h = x.group h := by
  have : g.val ≠ h.val := fun e => hne (Fin.ext e.symm)
  simp [Ctx.modGroup, Ctx.group, this]

theorem refuseSlot_group (c d : CtxId) (g h : SlotId) (s : State) : ((refuseSlot c g 8 0 s).ctx d).group h =
    if d = c ∧ h = g then ((s.ctx d).group h).refused else (s.ctx d).group h := by
  refine (congrArg (fun x : Ctx => x.group h) (ctxEvent_ctx ..)).trans ?_
  by_cases hd : d = c
  · subst hd
    rw [modCtx_ctx]
    by_cases hh : h = g
    · subst hh
      rw [if_pos ⟨rfl, rfl⟩]
      exact group_modGroup (s.ctx d) h GroupSlot.refused
    · rw [if_neg fun e => hh e.2]
      exact group_modGroup_ne (s.ctx d) GroupSlot.refused hh
  · rw [modCtx_ctx_ne _ _ hd, if_neg fun e => hd e.1]

/-- A set of slots of one context that are refused. -/
theorem refuseSlots (c : CtxId) : ∀ (L : List SlotId) (s : State),
    SameRoutes s (s.each L (fun g u => refuseSlot c g 8 0 u)) ∧
    ∀ d h, ((s.each L (fun g u => refuseSlot c g 8 0 u)).ctx d).group h =
      if d = c ∧ h ∈ L then ((s.ctx d).group h).refused else (s.ctx d).group h := by
  intro L
  induction L with
  | nil => exact fun s => ⟨⟨rfl, rfl, rfl⟩, fun d h => by simp [State.each]⟩
  | cons g L ih =>
    intro s
    obtain ⟨routes, groups⟩ := ih (refuseSlot c g 8 0 s)
    refine ⟨(refuseSlot_sameRoutes c g 8 0 s).trans routes, fun d h => (groups d h).trans ?_⟩
    rw [refuseSlot_group]
    by_cases hd : d = c <;> by_cases hh : h = g <;> simp [hd, hh, GroupSlot.refused]

/-- The slots of one context whose route is lost are refused. -/
def refuseLostOf (c : CtxId) (t : State) : State :=
  t.each (allSlots.filter (fun g => lostRoute t ((t.ctx c).group g))) (fun g u => refuseSlot c g 8 0 u)

theorem refuseLostOf_group (c : CtxId) (s : State) : SameRoutes s (refuseLostOf c s) ∧
    ∀ d h, ((refuseLostOf c s).ctx d).group h =
      if d = c ∧ lostRoute s ((s.ctx d).group h) = true then ((s.ctx d).group h).refused else (s.ctx d).group h := by
  obtain ⟨routes, groups⟩ := refuseSlots c (allSlots.filter (fun g => lostRoute s ((s.ctx c).group g))) s
  refine ⟨routes, fun d h => (groups d h).trans ?_⟩
  by_cases hd : d = c
  · subst hd
    simp [allSlots]
  · rw [if_neg fun e => hd e.1, if_neg fun e => hd e.1]

theorem refuseLost_groups : ∀ (L : List CtxId) (s : State), L.Nodup → ∀ d h, ((s.each L refuseLostOf).ctx d).group h =
    if d ∈ L ∧ lostRoute s ((s.ctx d).group h) = true then ((s.ctx d).group h).refused else (s.ctx d).group h := by
  intro L
  induction L with
  | nil => exact fun s _ d h => by simp [State.each]
  | cons c L ih =>
    intro s hn d h
    obtain ⟨hc, hn⟩ := List.nodup_cons.mp hn
    obtain ⟨routes, groups⟩ := refuseLostOf_group c s
    refine (ih (refuseLostOf c s) hn d h).trans ?_
    rw [routes.lostRoute, groups]
    by_cases hd : d = c
    · subst hd
      simp [hc]
    · simp [hd]

theorem refuseLost_group (s : State) (c : CtxId) (g : SlotId) : ((refuseLost s).ctx c).group g =
    if lostRoute s ((s.ctx c).group g) = true then ((s.ctx c).group g).refused else (s.ctx c).group g := by
  refine (refuseLost_groups allCtx s (List.nodup_finRange 32) c g).trans ?_
  simp [allCtx]

/-! ## HMAX (R424) -/

theorem foldl_max_le {n : Nat} : ∀ (l : List Nat) (b : Nat), l.foldl max b ≤ n ↔ b ≤ n ∧ ∀ x ∈ l, x ≤ n := by
  intro l
  induction l with
  | nil => simp
  | cons a l ih =>
    intro b
    rw [List.foldl_cons, ih, List.forall_mem_cons, max_le_iff, and_assoc]

/-- HMAX of a formed slot is the least bound of the hop counts to its members. -/
theorem hmaxOf_le_iff {k : GroupSlot} (hk : k.state = .formed) {n : Nat} :
    hmaxOf s k ≤ n ↔ ∀ u ∈ k.members, ∀ h, hopsTo s u = some h → h ≤ n := by
  rw [hmaxOf, if_pos hk, foldl_max_le, List.forall_mem_map]
  simp only [Nat.zero_le, true_and]
  refine forall_congr' fun u => imp_congr_right fun _ => ?_
  cases hopsTo s u <;> simp

end Routes

/-! ## Tokens (R426 to R428) -/

section Tokens

variable {s : State} {c : CtxId} {g : SlotId}

theorem doTokenRepeat_due {rank : Nat} (hm : mayWork s = true) (hs : ((s.ctx c).group g).state = .forming)
    (hk : ((s.ctx c).group g).members ≠ []) (ho : rank ∈ ((s.ctx c).group g).others) (ha : rank ∉ ((s.ctx c).group g).agreed) :
    doTokenRepeat c g rank s =
      if lostRoute s ((s.ctx c).group g) then refuseSlot c g 8 0 s else sendToken c g rank s :=
  if_pos (by simp [hm, hs, hk, ho, ha])

variable {t : Token}

theorem doCompatibilityToken_stray (hm : mayWork s = true) (ht : tokenSlot s t = none) : doCompatibilityToken t s = countStray s := by
  simp only [doCompatibilityToken, hm, ht, Bool.not_true, Bool.false_eq_true, if_false]

theorem doCompatibilityToken_taken (hm : mayWork s = true) (ht : tokenSlot s t = some (c, g)) (hk : ((s.ctx c).group g).members ≠ []) :
    doCompatibilityToken t s = takeToken c g t s := by
  simp only [doCompatibilityToken, hm, ht, List.isEmpty_eq_false_iff.mpr hk, Bool.not_true, Bool.false_eq_true, if_false]

/-- The reason for which a token disagrees with slot `g` of context `c`. -/
def State.tokenWhy (s : State) (c : CtxId) (g : SlotId) (t : Token) : Option Nat :=
  tokenReason (ownToken s (s.ctx c) ((s.ctx c).group g) t.srcRank.toNat) t ((s.ctx c).group g)

theorem takeToken_answers (hw : s.tokenWhy c g t = none) (hs : ((s.ctx c).group g).state = .formed) :
    takeToken c g t s = sendToken c g t.srcRank.toNat s := by
  rw [State.tokenWhy] at hw
  simp only [takeToken, hw, hs]

theorem takeToken_refuses {e : Nat} (hw : s.tokenWhy c g t = some e) (hs : ((s.ctx c).group g).state = .forming) :
    takeToken c g t s = refuseSlot c g e t.srcRank.toNat s := by
  rw [State.tokenWhy] at hw
  simp only [takeToken, hw, hs]

theorem takeToken_stray {e : Nat} (hw : s.tokenWhy c g t = some e) (hs : ((s.ctx c).group g).state ≠ .forming) :
    takeToken c g t s = countStray s := by
  rw [State.tokenWhy] at hw
  cases hk : ((s.ctx c).group g).state
  case forming => exact absurd hk hs
  all_goals simp only [takeToken, hw, hk]

/-- The ranks that have agreed, with rank `r`. -/
def GroupSlot.agreeing (k : GroupSlot) (r : Nat) : List Nat := if r ∈ k.agreed then k.agreed else k.agreed ++ [r]

theorem takeToken_agrees (hw : s.tokenWhy c g t = none) (hs : ((s.ctx c).group g).state = .forming) :
    takeToken c g t s =
      let agreed := ((s.ctx c).group g).agreeing t.srcRank.toNat
      let noted := s.modCtx c (fun x => x.modGroup g (fun k => { k with agreed := agreed }))
      if ∀ q ∈ ((s.ctx c).group g).others, q ∈ agreed then formSlot c g noted else noted := by
  rw [State.tokenWhy] at hw
  simp only [takeToken, hw, hs, modCtx_ctx, group_modGroup, List.all_eq_true, List.contains_iff_mem]
  rfl

end Tokens

/-- Settles O43: FORM and DISSOLVE by their context, a token by the slot that it names, HMAX as the least bound of the hops. -/
theorem groupForming : Obligations.GroupForming := by
  unfold Obligations.GroupForming
  refine ⟨fun s fn c g => ?_, fun s l t hm => ?_⟩
  · intro x k forming mayForm' span
    refine ⟨fun hw => ⟨fun hm => next_ctxPort hw (doForm_stands hm), fun hm hf hats tab t hp hb => ?_, fun hm hf hats t hp => ?_,
      fun hm hf => next_ctxPort hw (doForm_violates hm hf), fun hp => next_ctxPort hw (doDissolve_idle hp),
      fun hp => next_ctxPort hw (doDissolve_violates hp)⟩,
      fun rank hm hs hk ho ha => ⟨fun hr => ?_, fun hr => ?_⟩, fun hs hk hr => ?_, fun h => ?_, fun hs => if_neg hs,
      fun hs => ⟨(hmaxOf_le_iff hs).mp le_rfl, fun n => (hmaxOf_le_iff hs).mpr⟩⟩
    · exact next_ctxPort hw ((doForm_starts hm hf).trans (readMembers_ready hats hp hb))
    · exact next_ctxPort hw ((doForm_starts hm hf).trans (readMembers_fails hats hp))
    · exact congrArg Host.Outcome.next ((doTokenRepeat_due hm hs hk ho ha).trans (if_neg fun hl => (lostRoute_iff.mp hl).2.2 hr))
    · exact congrArg Host.Outcome.next ((doTokenRepeat_due hm hs hk ho ha).trans (if_pos (lostRoute_iff.mpr ⟨hs, hk, hr⟩)))
    · rw [refuseLost_group, if_pos (lostRoute_iff.mpr ⟨hs, hk, hr⟩)]
      exact ⟨rfl, rfl⟩
    · rw [refuseLost_group, if_neg]
      intro hl
      obtain ⟨hs, _, hr⟩ := lostRoute_iff.mp hl
      exact h.elim (fun h => h hs) hr
  · intro stray
    refine ⟨fun ht => congrArg Host.Outcome.next (doCompatibilityToken_stray hm ht), fun c g ht hk => ?_⟩
    have taken {u : State} (h : takeToken c g t s = u) : exec (.compatibilityToken l t) s = .next u :=
      congrArg Host.Outcome.next ((doCompatibilityToken_taken hm ht hk).trans h)
    exact ⟨fun hw hs => taken (takeToken_answers hw hs), fun e hw hs => taken (takeToken_refuses hw hs),
      fun e hw hs => taken (takeToken_stray hw hs), fun hw hs => taken (takeToken_agrees hw hs)⟩

end Sys2Proof.Machine
end

section
/-! PROOFS. The security unit: reports, the security version, the certificate and debug tokens (O48). -/

namespace Sys2Proof.Machine

open Sys2Proof

/-! ## Attestation (R436, R437) -/

section Reports

variable {s t u : State} {c : CtxId}

theorem doAttest_queues {kind : BitVec 2} (hk : kind = 1 ∨ kind = 2) (hp : (s.ctx c).attestStatus ≠ .pending) : doAttest c kind s =
    { s.setCtx c { s.ctx c with attestStatus := .pending, attestKind := kind } with
      sec := { s.sec with queue := s.sec.queue ++ [c] } } := by
  refine if_neg ?_
  rintro (h | rfl | rfl)
  · exact hp h
  · exact absurd hk (by decide)
  · exact absurd hk (by decide)

theorem doAttest_violates (hp : (s.ctx c).attestStatus = .pending) (kind : BitVec 2) : doAttest c kind s = violate c 0x1401 s :=
  if_pos (.inl hp)

theorem endReport_eq (c : CtxId) (status : AttestStatus) (code : Nat) (t : State) : endReport c status code t =
    ctxEvent c 0x1A01 false
      (payload [(0, 1, c.val), (1, 1, code), (2, 1, (t.ctx c).attestKind.toNat), (8, 8, (t.ctx c).step.toNat)])
      { t.modCtx c (fun y => { y with attestStatus := status }) with
        sec := { t.sec with queue := t.sec.queue.filter (· != c) } } := by
  simp only [endReport, modSec_ctx, modCtx_ctx]
  rfl

variable (hm : mayWork s = true) (hq : s.sec.queue.head? = some c) (hb : (s.ctx c).busy = false)

include hm hq hb

theorem reportDone_due : (!mayWork s || s.sec.queue.head? != some c || (s.ctx c).busy) = false := by
  rw [hm, hq, hb]
  simp

theorem doReportDone_refuses (hd : s.sec.debugState = 2) : doReportDone c s = endReport c .refused 3 s := by
  simp only [doReportDone, reportDone_due hm hq hb, hd, Bool.false_eq_true, if_false, if_true]

theorem doReportDone_signs (hd : s.sec.debugState ≠ 2) {nonce : List Byte} {bad : Bool}
    (hf : fetchVa c reqAttest false ⟨(s.ctx c).attestVa.toNat * 64, 32⟩ s = (some (nonce, bad), t))
    (hp : putVa c reqAttest false ((t.ctx c).attestVa.toNat * 64) (reportBody c (t.ctx c) t.sec t.glb.uid nonce ++
      identitySignature t.sec (reportBody c (t.ctx c) t.sec t.glb.uid nonce)) t = (true, u)) :
    doReportDone c s = endReport c .done 2 u := by
  simp only [doReportDone, reportDone_due hm hq hb, hd, hf, hp, Bool.false_eq_true, if_false]

end Reports

/-! ## The security version and the fuses (R434) -/

theorem doSvnCommit_fuses {s : State} (hlo : s.sec.svn.toNat ≤ s.sec.fwSvn.toNat) (hhi : s.sec.fwSvn.toNat ≤ 63) : doSvnCommit s =
    { s with sec := { s.sec with svn := BitVec.ofNat 6 s.sec.fwSvn.toNat, keyRevoke := s.sec.keyRevoke ||| s.sec.revoked } } :=
  if_neg (by omega)

theorem doSvnCommit_violates {s : State} (h : s.sec.fwSvn.toNat < s.sec.svn.toNat ∨ 63 < s.sec.fwSvn.toNat) :
    doSvnCommit s = violateGlb 0x1402 s := if_pos h

theorem revoked_spares_running (k : Sec) : k.revoked.getLsbD k.keySlot.toNat = false := by
  unfold Sec.revoked
  split
  next => exact BitVec.getLsbD_zero
  next =>
    have slot : ∀ n : Fin 4, (~~~BitVec.ofNat 4 (2 ^ n.val)).getLsbD n.val = false := by decide
    rw [BitVec.getLsbD_and, slot ⟨k.keySlot.toNat, k.keySlot.isLt⟩, Bool.and_false]

theorem revoked_of_failing {k : Sec} (h : imageCheck k k.flashRevoke ≠ none) : k.revoked = 0 :=
  if_pos (Option.isSome_iff_ne_none.mpr h)

theorem run_fuses (k : Sec) (slot : Nat) (b : List Byte) : (k.run slot b).svnBound = k.svnBound ∧
    (k.run slot b).revokeBound = k.revokeBound ∧ (k.run slot b).identityKey = k.identityKey := ⟨rfl, rfl, rfl⟩

/-- Whichever image a boot takes, the fuses bind as they stand at it. -/
theorem boot_fuses (k : Sec) : k.boot.svnBound = k.svn ∧ k.boot.revokeBound = k.keyRevoke ∧ k.boot.identityKey = k.deriveIdentity := by
  unfold Sec.boot
  dsimp only
  split
  next => exact run_fuses ..
  next =>
    split
    next => exact run_fuses ..
    next => exact ⟨rfl, rfl, rfl⟩

theorem deriveIdentity_none_iff (k : Sec) : k.debugState = 2 ↔ k.deriveIdentity = none := by
  unfold Sec.deriveIdentity
  split
  next hd => exact iff_of_true hd rfl
  next hd => exact iff_of_false hd (Option.some_ne_none _)

/-! ## The certificate (R435) -/

theorem beNat_append (bs : List Byte) (b : Byte) : beNat (bs ++ [b]) = 256 * beNat bs + b.toNat := by
  rw [beNat, List.reverse_append]
  exact Nat.add_comm ..

/-- The content bytes of a DER INTEGER give its value back. -/
theorem beNat_derContent : ∀ (n v : Nat), v < 256 ^ n → beNat (derContent n v) = v := by
  intro n
  induction n with
  | zero =>
    intro v h
    have : v = 0 := by simpa using h
    subst this
    rfl
  | succ n ih =>
    intro v h
    have high : v / 256 < 256 ^ n := by
      rw [Nat.pow_succ] at h
      exact Nat.div_lt_of_lt_mul (by omega)
    unfold derContent
    split
    next hv =>
      simp [beNat, leNat]
      omega
    next =>
      rw [beNat_append, ih _ high, BitVec.toNat_ofNat]
      omega

theorem beNat_derInteger (uid : U64) : beNat ((derInteger uid.toNat).drop 2) = uid.toNat :=
  beNat_derContent 9 uid.toNat (by have := uid.isLt; omega)

/-! ## Debug tokens (R438) -/

theorem tokenTarget_some {k : Sec} {uid : U64} {b : List Byte} {n : Nat} (h : tokenTarget k uid b = some n) :
    imageCheck k b = none ∧ natAt (imgBody b) 0 8 = uid.toNat ∧ k.lastNonce = some (BitVec.ofNat 64 (natAt (imgBody b) 16 8)) ∧
      (n = 2 ∨ n = 1 ∧ k.debugState ≠ 2) := by
  unfold tokenTarget at h
  dsimp only at h
  split at h
  next => cases h
  next hc =>
    split at h
    next ht =>
      cases h
      have checks : (imageCheck k b = none ∧ natAt (imgBody b) 0 8 = uid.toNat) ∧
          k.lastNonce = some (BitVec.ofNat 64 (natAt (imgBody b) 16 8)) := by simpa using hc
      obtain ⟨⟨image, device⟩, nonce⟩ := checks
      exact ⟨image, device, nonce, ht⟩
    next => cases h

section Tokens

variable {s : State} {v : U64}

/-- The token that SEC_DEBUG_TOKEN_VA names. -/
def State.tokenAtVa (s : State) (v : U64) : List Byte :=
  let a := (v.extractLsb' 6 58).toNat * 64
  memRead s.hostMem a (0x340 + natAt (memRead s.hostMem a 16) 0xC 4 % 2 ^ 25)

theorem doDebugToken_refused (h : tokenTarget s.sec s.glb.uid (s.tokenAtVa v) = none) : doDebugToken v s = violateGlb 0x1403 s := by
  rw [State.tokenAtVa] at h
  simp only [doDebugToken, h]

theorem doDebugToken_rma (h : tokenTarget s.sec s.glb.uid (s.tokenAtVa v) = some 2) : doDebugToken v s =
    { s with sec := { s.sec with debugState := 2, debugNext := none, identityKey := none } } := by
  rw [State.tokenAtVa] at h
  simp only [doDebugToken, h]
  rfl

theorem doDebugToken_debug (h : tokenTarget s.sec s.glb.uid (s.tokenAtVa v) = some 1) : doDebugToken v s =
    { s with sec := { s.sec with debugNext := some 1 } } := by
  rw [State.tokenAtVa] at h
  simp only [doDebugToken, h]
  rfl

end Tokens

/-- Settles O48: a report by its queue, the fuses by the boot that binds them, a token by the state that it names. -/
theorem security : Obligations.Security := by
  unfold Obligations.Security
  refine ⟨fun s fn c => ⟨fun hw => ⟨fun hp => ?_, fun hp => ?_⟩, fun hm hq hb => ⟨fun hd => ?_, fun hd nonce bad t u hf hp => ?_⟩⟩,
    fun s fn => ⟨fun hg => ⟨fun hlo hhi => ?_, fun h => ?_, fun v => ?_, fun v => ⟨fun h => ?_, fun h => ?_, fun h => ?_⟩⟩, fun r => ?_,
      fun b n h => tokenTarget_some h, revoked_spares_running s.sec, revoked_of_failing, ?_, fun uid => ⟨beNat_derInteger uid, _, _, rfl⟩⟩⟩
  · exact ⟨next_ctxPort hw (doAttest_queues (.inl rfl) hp), next_ctxPort hw (doAttest_queues (.inr rfl) hp)⟩
  · exact ⟨next_ctxPort hw (doAttest_violates hp 1), next_ctxPort hw (doAttest_violates hp 2)⟩
  · exact congrArg Host.Outcome.next ((doReportDone_refuses hm hq hb hd).trans (endReport_eq ..))
  · exact congrArg Host.Outcome.next ((doReportDone_signs hm hq hb hd hf hp).trans (endReport_eq ..))
  · exact next_glbPort hg (doSvnCommit_fuses hlo hhi)
  · exact next_glbPort hg (doSvnCommit_violates h)
  · exact next_glbPort hg rfl
  · exact next_glbPort hg (doDebugToken_refused h)
  · exact next_glbPort hg (doDebugToken_rma h)
  · exact next_glbPort hg (doDebugToken_debug h)
  · rfl
  · obtain ⟨svn, revoke, key⟩ := boot_fuses s.sec
    exact ⟨svn, revoke, key ▸ deriveIdentity_none_iff s.sec⟩

end Sys2Proof.Machine
end

section
/-! PROOFS. The power sequence and the control period (O49). -/

namespace Sys2Proof.Machine

open Sys2Proof

/-! ## Power-down and boot (R443, R444) -/

section Boot

variable {s : State}

theorem powerDown_eq (cause : Nat) (s : State) : powerDown cause s =
    if s.pwr.mainOn then { mainOff s with pwr := { (mainOff s).pwr with offCause := (mainOff s).pwr.offCause ||| BitVec.ofNat 3 cause } }
    else s := rfl

/-- Starting and stopping bench PLLs changes MULT alone among the registers of power. -/
theorem updatePll_pwr (q : QuarterId) (s : State) : ∃ m, (updatePll q s).pwr = { s.pwr with mult := m } := by
  unfold updatePll
  dsimp only
  split
  · split
    · exact ⟨_, rfl⟩
    · exact ⟨s.pwr.mult, rfl⟩
  · exact ⟨_, rfl⟩

theorem updatePlls_pwr (s : State) : ∃ m, (updatePlls s).pwr = { s.pwr with mult := m } := by
  unfold updatePlls State.each
  refine List.foldlRecOn (motive := fun t : State => ∃ m, t.pwr = { s.pwr with mult := m }) _ _ ⟨s.pwr.mult, rfl⟩
    fun t ⟨m, hm⟩ q _ => ?_
  obtain ⟨m', hm'⟩ := updatePll_pwr q t
  exact ⟨m', hm'.trans (by rw [hm])⟩

theorem finishBoot_pwr (s : State) : (finishBoot s).pwr.pcieUp = !s.pwr.perst ∧ (finishBoot s).pwr.bootEvent = 6 := by
  obtain ⟨m, hm⟩ := updatePlls_pwr (s.modPwr (fun p => { p with bootEvent := 6, pcieUp := !p.perst }))
  simp only [finishBoot, raiseAlert_pwr, hm]
  exact ⟨rfl, rfl⟩

variable {pins : EdgePins} (hao : s.pwr.aoOn = true) (hpg : s.pwr.pgood = false)

include hao hpg

theorem doPgoodRise_rises : doPgoodRise pins s =
    if pins.forceLow then { s with pwr := { s.pwr with pgood := true, forceLow := pins.forceLow } }
    else bootOn { s with
      pwr := { s.pwr with pgood := true, forceLow := pins.forceLow, mainOn := true, bootEvent := 2 }
      glb := { s.glb with slot := pins.straps }
      sec := s.sec.boot } :=
  if_neg (by rw [hao, hpg]; exact Bool.false_ne_true)

end Boot

theorem doRefclkValid_eq (s : State) : doRefclkValid s =
    if s.pwr.mainOn = true ∧ s.pwr.bootEvent = 2 then bootOn { s with pwr := { s.pwr with refValid := true } }
    else { s with pwr := { s.pwr with refValid := true } } := by
  simp only [doRefclkValid, Bool.and_eq_true, beq_iff_eq]
  rfl

/-! ## The input (R440, R442) -/

section Supply

variable {s : State} {mv us : Nat} (ca : U16)

theorem doSupplyOutOfBand_cycles (hmv : mv < 30000) (hus : 50000 ≤ us) : doSupplyOutOfBand mv us ca s = doPowerCycle s :=
  if_pos ⟨hmv, hus⟩

variable (hao : s.pwr.aoOn = true)

include hao

theorem doSupplyOutOfBand_off (hmv : mv < 30000) (hus : us < 50000) : doSupplyOutOfBand mv us ca s =
    (powerDown (if 20 ≤ us then offSupply else 0) s).modPwr (fun p => { p with aoOn := false }) := by
  simp only [doSupplyOutOfBand, Nat.not_le.mpr hus, hao, hmv, Bool.not_true, Bool.false_eq_true, and_false, if_false, if_true]

theorem doSupplyOutOfBand_downs (hmv : (30000 ≤ mv ∧ mv < 36000) ∨ 48000 < mv) (hus : 20 ≤ us) :
    doSupplyOutOfBand mv us ca s = powerDown offSupply s := by
  have above : ¬ mv < 30000 := by omega
  have out : (mv < 36000 ∨ 48000 < mv) ∧ 20 ≤ us := by omega
  simp only [doSupplyOutOfBand, above, out, hao, Bool.not_true, Bool.false_eq_true, false_and, and_self, if_false, if_true]

theorem doSupplyOutOfBand_warns (hmv : (36000 ≤ mv ∧ mv < 38000) ∨ (46000 < mv ∧ mv ≤ 48000)) (hus : 100 ≤ us)
    (hen : (s.func 0).en = false) (hal : s.mgt.alert.getLsbD alertSupply = false) :
    doSupplyOutOfBand mv us ca s = raiseAlert alertSupply s := by
  have above : ¬ mv < 30000 := by omega
  have within : ¬ ((mv < 36000 ∨ 48000 < mv) ∧ 20 ≤ us) := by omega
  have quiet : ((raiseAlert alertSupply s).func fn0).en = false := by rw [raiseAlert_func]; exact hen
  simp only [doSupplyOutOfBand, above, within, hmv, hus, hao, conditionEvent, hal, quiet, Bool.not_true, Bool.false_eq_true, false_and,
    and_self, if_false, if_true]

end Supply

/-! ## The control period (R450, R451) -/

theorem conditionEvent_pwr (bit code : Nat) (pl : List Byte) (s : State) : (conditionEvent bit code pl s).pwr = s.pwr := by
  unfold conditionEvent
  dsimp only
  split
  · rfl
  · split
    · rw [raise_pwr, raiseAlert_pwr]
    · exact raiseAlert_pwr ..

/-- A sum of distinct powers of two has the bits that it was made of. -/
theorem foldl_twoPow (p : Nat → Prop) [DecidablePred p] (m : Nat) :
    (List.range m).foldl (fun n k => if p k then n + 2 ^ k else n) 0 < 2 ^ m ∧
    ∀ i < m, ((List.range m).foldl (fun n k => if p k then n + 2 ^ k else n) 0).testBit i = decide (p i) := by
  induction m with
  | zero => exact ⟨Nat.one_pos, fun i hi => absurd hi (Nat.not_lt_zero i)⟩
  | succ m ih =>
    obtain ⟨hlt, hbits⟩ := ih
    rw [List.range_succ, List.foldl_append, List.foldl_cons, List.foldl_nil]
    have twice : 2 ^ (m + 1) = 2 ^ m + 2 ^ m := Nat.two_pow_succ m
    by_cases hm : p m
    · rw [if_pos hm, Nat.add_comm]
      refine ⟨by omega, fun i hi => ?_⟩
      rcases Nat.lt_succ_iff_lt_or_eq.mp hi with h | rfl
      · rw [Nat.testBit_two_pow_add_gt h, hbits i h]
      · rw [Nat.testBit_two_pow_add_eq, Nat.testBit_lt_two_pow hlt]
        exact (decide_eq_true hm).symm
    · rw [if_neg hm]
      refine ⟨by omega, fun i hi => ?_⟩
      rcases Nat.lt_succ_iff_lt_or_eq.mp hi with h | rfl
      · exact hbits i h
      · rw [Nat.testBit_lt_two_pow hlt]
        exact (decide_eq_false hm).symm

/-- One act on each place of a vector, as its places. -/
theorem foldl_set {α : Type} {n : Nat} (p : Fin n → Prop) [DecidablePred p] (f : Fin n → α) : ∀ (L : List (Fin n)) (v : Vector α n) (q : Fin n),
    (L.foldl (fun v q => if p q then v else v.set q (f q)) v)[q] = if q ∈ L ∧ ¬ p q then f q else v[q] := by
  intro L
  induction L with
  | nil => intro v q; simp
  | cons a L ih =>
    intro v q
    rw [List.foldl_cons, ih]
    by_cases hp : p a
    · have other : q = a → p q := fun e => e ▸ hp
      by_cases hq : q = a
      · simp [hp, hq]
      · simp [hp, hq]
    · by_cases hq : q = a
      · simp [hp, hq]
      · have : a.val ≠ q.val := fun e => hq (Fin.ext e.symm)
        simp [hp, hq, this]

/-- The readings and settings of a control period. -/
def Pwr.measured (p : Pwr) (temp : Nat → Int) (mv ca dw : U16) : Pwr :=
  { p with
    temps := Vector.ofFn (fun i : Fin 40 => BitVec.ofInt 16 (temp i.val))
    overCrit := (List.range 40).map (fun n => decide (16 * 115 ≤ temp n)), mv := mv, ca := ca, dw := dw
    mult := (List.finRange 4).foldl (fun (v : Vector (BitVec 5) 4) (q : Fin 4) =>
      if p.mult[q] = 0 then v else v.set q (nextMult p temp dw.toNat q)) p.mult
    doubleRefresh := BitVec.ofNat 8 ((List.range 8).foldl (fun n k =>
      if 16 * (p.throttle.toNat : Int) ≤ temp (32 + k) then n + 2 ^ k else n) 0) }

theorem measured_doubleRefresh (p : Pwr) (temp : Nat → Int) (mv ca dw : U16) {k : Nat} (hk : k < 8) :
    (p.measured temp mv ca dw).doubleRefresh.getLsbD k = decide (16 * (p.throttle.toNat : Int) ≤ temp (32 + k)) := by
  rw [Pwr.measured, BitVec.getLsbD_ofNat, decide_eq_true hk, Bool.true_and]
  exact (foldl_twoPow (fun k => 16 * (p.throttle.toNat : Int) ≤ temp (32 + k)) 8).2 k hk

theorem measured_mult (p : Pwr) (temp : Nat → Int) (mv ca dw : U16) (q : QuarterId) :
    (p.measured temp mv ca dw).mult[q] = if p.mult[q] = 0 then 0 else nextMult p temp dw.toNat q := by
  refine (foldl_set (fun q : Fin 4 => p.mult[q] = 0) (nextMult p temp dw.toNat) (List.finRange 4) p.mult q).trans ?_
  by_cases h : p.mult[q] = 0
  · rw [if_neg (fun hq => hq.2 h), if_pos h, h]
  · rw [if_pos ⟨List.mem_finRange q, h⟩, if_neg h]

/-- Whether a sensor stays at or above the critical value. -/
def Pwr.critical (p : Pwr) (temp : Nat → Int) : Bool :=
  (((List.range 40).map (fun n => decide (16 * 115 ≤ temp n))).zip p.overCrit).any (fun b => b.1 && b.2)

theorem critical_of_below {p : Pwr} {temp : Nat → Int} (h : ∀ n < 40, temp n < 16 * 115) : p.critical temp = false := by
  refine List.any_eq_false.mpr fun b hb => ?_
  obtain ⟨n, hn, he⟩ := List.mem_map.mp (List.of_mem_zip hb).1
  have : b.1 = false := he ▸ decide_eq_false (Int.not_le.mpr (h n (List.mem_range.mp hn)))
  simp [this]

theorem critical_of_stays {p : Pwr} {temp : Nat → Int} {n : Nat} (hn : n < 40) (ht : 16 * 115 ≤ temp n) (hp : p.overCrit[n]? = some true) :
    p.critical temp = true := by
  refine List.any_eq_true.mpr ⟨(true, true), List.mem_of_getElem? (i := n) ?_, rfl⟩
  rw [List.getElem?_zip_eq_some]
  exact ⟨by simpa [hn] using ht, hp⟩

section Period

variable {s : State} (hon : s.pwr.mainOn = true) (hboot : 6 ≤ s.pwr.bootEvent) (temps : List Int) (mv ca dw : U16)

include hon hboot

/-- What the readings leave: with no sensor at the alert value the registers alone, and an alert else. -/
theorem doControlPeriod_eq : ∃ t : State, t.pwr = s.pwr.measured (temps.getD · 0) mv ca dw ∧
    ((∀ n < 40, temps.getD n 0 < 16 * s.pwr.alertT.toNat) → t = { s with pwr := s.pwr.measured (temps.getD · 0) mv ca dw }) ∧
    doControlPeriod temps mv ca dw s = if s.pwr.critical (temps.getD · 0) then powerDown offTherm t else t := by
  have runs : ¬ (!s.pwr.mainOn || decide (s.pwr.bootEvent < 6)) = true := by simp [hon, hboot]
  unfold doControlPeriod
  rw [if_neg runs]
  cases hs : (sensorsAbove (temps.getD · 0) s.pwr.alertT.toNat).head? with
  | none =>
    refine ⟨{ s with pwr := s.pwr.measured (temps.getD · 0) mv ca dw }, rfl, fun _ => rfl, ?_⟩
    simp only [hs]
    rfl
  | some n =>
    refine ⟨conditionEvent alertThermal 0x1B01 (payload [(0, 1, 0xFF), (1, 1, n), (2, 2, lowBits 16 (temps.getD n 0))])
      { s with pwr := s.pwr.measured (temps.getD · 0) mv ca dw }, conditionEvent_pwr .., fun hlow => ?_, ?_⟩
    · obtain ⟨hn, ht⟩ := List.mem_filter.mp (List.mem_of_head? hs)
      exact absurd (of_decide_eq_true ht) (Int.not_le.mpr (hlow n (List.mem_range.mp hn)))
    · simp only [hs]
      rfl

end Period

/-- Settles O49: the sequence by the domain that is on, the supply by its band, the period by its sensors. -/
theorem power : Obligations.Power := by
  unfold Obligations.Power
  refine ⟨fun s => ?_, fun s temps mv ca dw hon hboot => ?_⟩
  · intro p off goesOn
    refine ⟨fun pins hao hpg => ⟨fun hf => ?_, fun hf => ?_⟩, congrArg Host.Outcome.next (doRefclkValid_eq s), finishBoot_pwr s, rfl, rfl,
      rfl, rfl, rfl, fun mv us ca hmv hus => congrArg Host.Outcome.next (doSupplyOutOfBand_cycles ca hmv hus),
      fun mv us ca hao => ⟨fun hmv hus => ?_, fun hmv hus => ?_, fun hmv hus hen hal => ?_⟩, ?_⟩
    · refine congrArg Host.Outcome.next ((doPgoodRise_rises hao hpg).trans ?_)
      rw [hf]
      rfl
    · refine congrArg Host.Outcome.next ((doPgoodRise_rises hao hpg).trans ?_)
      rw [hf]
      rfl
    · refine congrArg Host.Outcome.next ((doSupplyOutOfBand_off ca hao hmv hus).trans ?_)
      split <;> rfl
    · exact congrArg Host.Outcome.next (doSupplyOutOfBand_downs ca hao hmv hus)
    · exact congrArg Host.Outcome.next (doSupplyOutOfBand_warns ca hao hmv hus hen hal)
    · exact ⟨_, rfl, rfl, rfl, rfl, rfl, rfl, rfl, rfl⟩
  · intro temp p
    obtain ⟨t, hpwr, hquiet, hdo⟩ := doControlPeriod_eq hon hboot temps mv ca dw
    refine ⟨fun hlow => ?_, fun ⟨n, hn, ht, hp⟩ => ?_⟩
    · rw [critical_of_below fun n hn => (hlow n hn).2] at hdo
      have quiet := hquiet fun n hn => (hlow n hn).1
      refine ⟨t, congrArg Host.Outcome.next hdo, by rw [quiet], ?_⟩
      rw [hpwr]
      exact ⟨rfl, rfl, rfl, rfl, hon, fun n => Vector.getElem_ofFn .., fun k hk => measured_doubleRefresh p temp mv ca dw hk,
        measured_mult p temp mv ca dw⟩
    · rw [critical_of_stays hn ht hp, if_pos rfl, powerDown_eq, hpwr] at hdo
      refine ⟨_, congrArg Host.Outcome.next (hdo.trans (if_pos hon)), rfl, ?_, rfl, rfl⟩
      show t.pwr.offCause ||| 2 = p.offCause ||| 2
      rw [hpwr]
      rfl

end Sys2Proof.Machine
end
